-- ==== Sys2Proof/Word.lean ====
section
/-! DEFINITION. The byte and the byte string, the two word types of the model: every field on the wire, in an entry,
in a plan and in a dictionary value is a run of bytes, least significant byte first (00 R6). -/

namespace Sys2Proof

/-- One byte. -/
abbrev Byte := BitVec 8

/-- A byte string, lowest offset first. -/
abbrev Bytes := List Byte

end Sys2Proof
end

