-- ==== Sys2Proof/Machine/StoreTypes.lean ====
section
/-! DEFINITION. State of HBM, on-chip memory and the cold tier (12, 13). -/

namespace Sys2Proof.Machine

/-- What an uncorrectable unit holds (12 R286). -/
inductive MediaObj
  | partition (coll part : Nat)       -- partition stripes
  | append (coll : Nat)               -- append list
  | tree (coll : Nat)                 -- node entries, centroids, directory, codebook, deletion bitmaps
  | valueBlock (head block : Nat)     -- value rows
  | replicated (head tensor : Nat)    -- sub-key tables, projection, scale tiles
  | plan (kind target planId : Nat)
  | stash (head step mb : Nat)
  | working (seq : Nat)               -- what a command works on
  | fullVec (coll part : Nat)         -- pinned full vectors
  | training (head : Nat)             -- gradient records, accumulators and slot-gradient tables between commands
  | planTile (kind target planId : Nat) -- a plan's own tiles in HBM
  | tombTable                         -- the recent-tombstone table in bank 0 of both dies
  | level (coll : Nat)                -- pinned tree levels in the tree banks of both dies
  deriving DecidableEq, Repr

/-- Consecutive allocation rows of a tile (12 R277): slots `slot` to `slot + count - 1`, and the channels of the placement that lack them. -/
structure HbmRun where
  slot : Nat
  count : Nat
  lack : List Nat
  deriving DecidableEq, Repr

/-- The old copy of a relocated tile, which commands with a lower place in the order of admission still read (12 R284). -/
structure OldCopy where
  runs : List HbmRun
  order : Nat
  deriving DecidableEq, Repr

/-- A tile in HBM and where it lies (12 R277). -/
structure HbmTile where
  id : Nat                            -- the model's own number
  obj : MediaObj
  piece : Nat                         -- which of the object's tiles
  placement : Nat                     -- 0 NEAR_DIE0, 1 NEAR_DIE1, 2 HASHED_ALL
  depth : Nat                         -- units of a row group; 1 where the tile has none (07 R141)
  groups : Nat
  runs : List HbmRun
  old : List OldCopy
  deriving DecidableEq, Repr

/-- A line of a cache bank (12 R271). -/
structure CacheLine where
  die : Nat
  bank : Nat
  set : Nat
  way : Nat
  channel : Nat                       -- the HBM unit that it holds
  slot : Nat
  dirty : Bool
  used : Nat                          -- the model's count of uses at its last use
  deriving DecidableEq, Repr

/-- A unit that is uncorrectable and not yet recovered. -/
structure Hurt where
  channel : Nat
  slot : Nat
  obj : MediaObj
  recovered : Bool                    -- its recovery has written the new copy of a tile that is being relocated (12 R286)
  deriving DecidableEq, Repr

/-- Failure record of one DRAM bank (12 R282, R283). Kept over every reset. -/
structure BankRec where
  channel : Nat
  bank : Nat
  fails : Nat
  remapped : Nat                      -- spare rows taken in the field
  pages : List Nat                    -- rows whose page is retired
  retired : Bool
  deriving DecidableEq, Repr

/-- Scrub passes in which a row needed single-symbol corrections (12 R282). -/
structure RowCe where
  channel : Nat
  bank : Nat
  row : Nat
  passes : Nat
  last : Nat                          -- the last of them
  deriving DecidableEq, Repr

/-- Rows in which a symbol position was corrected in this scrub period (12 R281). -/
structure PinSeen where
  channel : Nat
  pin : Nat
  banks : List (Nat × Nat)            -- (bank, ns out of P2 and P3 at which it was last seen)
  deriving DecidableEq, Repr

/-- A retired page (with its row) or bank that still holds tiles for want of room (12 R284). -/
structure StuckMem where
  channel : Nat
  bank : Nat
  row : Option Nat
  deriving DecidableEq, Repr

/-- A tile being relocated (12 R284). -/
structure Reloc where
  tile : Nat                          -- the model's own number of the tile
  channel : Nat
  bank : Nat
  runs : List HbmRun                  -- the new allocation
  deriving DecidableEq, Repr

/-- A command's plan scratchpad banks (12 R273). -/
structure BankHold where
  seq : Nat
  banks : Nat
  deriving DecidableEq, Repr

/-- What a generator run covers: a channel's first pages with the pattern of a seed (12 R289). -/
structure TgSpan where
  channel : Nat                       -- 0x1FF for every channel in service
  pattern : Nat
  seed : Nat
  pages : Nat                         -- 2 KiB pages of each channel
  deriving DecidableEq, Repr

/-- State of a traffic generator (12 R291, 13 R315). DEDUCED (log entry 46). -/
structure TestGen where
  state : Nat                         -- 0 IDLE, 1 RUNNING, 2 PASS, 3 FAIL
  failed : Nat                        -- FAILED_PINS, or FAILED_DIES
  errors : Nat
  pins : List Nat                     -- 72 counts for HBM, empty for flash
  written : List TgSpan               -- what WRITE_ONLY runs wrote, the last run with a channel and seed
  run : Option TgSpan                 -- what the present or last run compares; none where it compares nothing
  deriving DecidableEq, Repr

/-- State of HBM and of the shared store. -/
structure Hbm where
  mappedOut : List Nat                -- channels out of service
  marked : List Nat                   -- marked for map-out
  fenced : List Nat                   -- no longer answering
  banks : List BankRec
  spareUse : List (Nat × Nat × Nat)   -- (channel, bank, spare rows used at manufacture)
  skips : List (Nat × Nat × Nat)      -- (channel, first page, pages) that the page maps skip since the last start-up
  tiles : List HbmTile
  nextTile : Nat
  cache : List CacheLine
  uses : Nat                          -- uses of cache lines
  ce : List RowCe
  pins : List PinSeen
  lostPins : List (Nat × Nat)         -- (channel, pin)
  hurt : List Hurt
  relocs : List Reloc
  stuck : List StuckMem               -- retired pages and banks not yet relocated (HBM_PENDING_RETIREMENT)
  holds : List BankHold
  waiters : List BankHold
  tg : TestGen
  deriving DecidableEq, Repr

/-- A page that is lost (13 R303). -/
structure LostPage where
  kind : Nat                          -- 0 module, 1 collection, 2 head
  owner : Nat
  lpn : Nat
  deriving DecidableEq, Repr

/-- States of a copy in the window (13 R311). An ABSENT copy is not listed; EVICTING passes within one event. -/
inductive CopyState
  | promoting | resident
  deriving DecidableEq, Repr

/-- The HBM copy of a cold-tier page (13 R311). -/
structure Copy where
  page : Nat                          -- the page, by the model's number of it
  region : Nat                        -- region of the item that made it, by the model's number
  state : CopyState
  holders : List Nat                  -- commands (seq) that hold a reference; the count is their number
  released : Nat                      -- ns of the last release
  bad : Bool                          -- its read was uncorrectable
  dirty : Bool                        -- a holder has written it, and no write-back is durable
  pinned : Bool                       -- its window tile is PINNED (02 R36)
  deriving DecidableEq, Repr

/-- A request that waits for window space (13 R312). -/
structure SpaceWait where
  seq : Nat
  region : Nat
  capacity : Nat                      -- pages that the region holds
  pinned : Bool                       -- for a PINNED tile (02 R36)
  pages : List Nat
  deriving DecidableEq, Repr

/-- State of the cold tier. -/
structure Cold where
  lost : List LostPage
  deadDies : List (Nat × Nat)         -- (ONFI channel, die) failed and not yet rebuilt
  refresh : List (Nat × Nat)          -- (ONFI channel, block) queued for refresh
  sparePct : Nat                      -- COLD_SPARE_LEFT_PCT
  spareLow : Bool                     -- the record of R303 was written
  readOnly : Bool
  written : Nat                       -- bytes written to logical pages over the life
  programs : Nat                      -- bytes of NAND programs over the life
  patrolFrom : Nat                    -- ns out of P2 and P3: when the present patrol period began (13 R302)
  patrolled : Nat                     -- pages that the patrol has read in it
  copies : List Copy
  waits : List SpaceWait
  ftg : TestGen
  deriving DecidableEq, Repr

end Sys2Proof.Machine
end

