-- ==== Sys2Proof/Machine/Packets.lean ====
section
/-! DEFINITION. Operand forms of the commands that come from outside the module's own clockwork: frames, media events,
sensor readings and start-up facts. -/

namespace Sys2Proof.Machine

/-- The 64-byte request header that the module reads for a memory-layer command that a QUEUE_RESET ended before it had read
it (10 R231). DESIGN CHOICE (log entry 15). -/
structure HeaderRead where
  seq : Nat
  header : Bytes
  deriving DecidableEq, Repr

/-- Operation of a RoCEv2 packet (14 R323). -/
inductive PacketOp
  | send | readRequest | writeRequest | readResponse | ack | atomic | invalidate
  | nakSequence                 -- the other end misses packets (R336)
  | nakAccess                   -- it answers an RDMA READ or WRITE with a remote access error (15 R350)
  | nakNotReady                 -- it has no receive buffer (15 R343)
  deriving DecidableEq, Repr

/-- One RoCEv2 message as it arrives: the packets of one SEND are handed over together, their payload decrypted where
it authenticates. DESIGN CHOICE (log entry 7). -/
structure Packet where
  qpn : Nat
  psn : Nat                     -- number of its first packet
  packets : Nat                 -- packets in which it travels
  op : PacketOp
  ce : Bool                     -- marked CE (R327)
  authentic : Bool              -- every packet authenticates (R330)
  keyPhase : Bool               -- KEY_PHASE (R329)
  payload : Bytes
  deriving DecidableEq, Repr

/-- A frame on a data port, by its traffic kind (14 R322, R336). -/
inductive Frame
  | badFcs                      -- bad FCS or bad ICRC
  | ipv4Options
  | unaccepted                  -- outside the table of R322
  | roce (p : Packet)
  | ptp | dap | address | pfc
  | memoryWord (qpn : Option Nat)   -- an uncorrectable word of queue and transport memory, with the connection whose state or packets it held (R321)
  deriving DecidableEq, Repr

/-- Why a cold-tier page is read (13 R304, R313). -/
inductive FlashUse
  | host                        -- a command's own read
  | restore (coll part : Nat)   -- the last page of a partition being restored
  | restoreHead (head block : Nat)    -- the last page of a head's value rows, of a value-row block
  deriving DecidableEq, Repr

/-- Result of a cold-tier read (13 R297). -/
inductive FlashResult
  | first                       -- decoded at the first attempt
  | retried                     -- decoded after retry
  | rebuilt                     -- rebuilt from the parity group
  | lost                        -- a second page of the group is not decodable
  deriving DecidableEq, Repr

/-- A cold-tier page read that completes. DEDUCED (log entry 41). -/
structure FlashRead where
  kind : Nat                    -- owner kind: 0 module, 1 collection, 2 head
  owner : Nat
  lpn : Nat
  channel : Nat
  die : Nat                     -- the die of the channel that holds it
  group : Nat                   -- its parity group (R297)
  block : Nat
  result : FlashResult
  refresh : Bool                -- its bit-error count exceeds the refresh threshold
  copyHeld : Bool               -- the data is also held in HBM or in the master rows (R303)
  dieFailed : Option Nat        -- the die of the channel that this read shows to have failed
  use : FlashUse
  deriving DecidableEq, Repr

/-- A page that a run of the flash generator finds lost (13 R315). -/
structure LostRead where
  page : LostPage
  channel : Nat                 -- the ONFI channel that holds it
  deriving DecidableEq, Repr

/-- All readings of one sensor pass, hottest sensor of each unit, in 0.125 °C (18 R424, R427). -/
structure Sensors where
  hbm : List Int                -- 12 stacks
  dies : List Int               -- compute die 0, compute die 1
  hub : Int
  coolant : Int
  inputMv : Nat
  inputW : Nat                  -- averaged over 1 ms
  deriving DecidableEq, Repr

/-- What a plug-in declares over CMIS (20 R456). -/
inductive PlugIn
  | none | copper | krHost | other | overPower
  deriving DecidableEq, Repr

/-- What start-up finds (18 R431). -/
structure StartFacts where
  pufOk : Bool                  -- the seed check passed within four repeats (17 R394)
  badRecords : List Nat         -- flash offsets of records whose signature fails (17 R393)
  failedChannels : List Nat     -- channels that fail training or the channel test
  mapReadable : Bool            -- the cold-tier map was read
  holdupMj : Nat
  slotId : Nat
  plugs : List PlugIn           -- the four cages
  inputAbsent : Bool            -- the input was absent for at least 1 s before (18 R428)
  ms : Nat                      -- time from the input in range to the end of step 8
  deriving DecidableEq, Repr

/-- A burst that the patrol or a command reads, and what is wrong with it (12 R280, R282). DEDUCED (log entry 45). -/
structure Scrub where
  channel : Nat
  bank : Nat
  row : Nat
  burst : Nat                   -- the 64-byte burst within the row, 0 to 31
  symbols : List Nat            -- symbol positions (pins) in error
  silent : Bool                 -- the channel does not answer
  deriving DecidableEq, Repr

/-- A word of SRAM that its code cannot correct (12 R275). DEDUCED (log entry 64). -/
structure SramWord where
  unit : Nat                    -- cluster 0 to 31, or 32 + 40 × die + bank (19 R443)
  word : Nat                    -- word offset
  copyLost : Bool               -- its copy on the other die is beyond correction too
  media : List Nat              -- the entries of the affected-media list that it held for a command
  deriving DecidableEq, Repr

/-- The second mismatch on one command or chunk (19 R437). DEDUCED (log entry 64). -/
structure CodeMismatch where
  unit : Nat                    -- cluster, or 0xFFFF for the front end
  chunk : Nat                   -- offset of the chunk in the plan
  deriving DecidableEq, Repr

/-- What the check codes of a command's descriptor and of its plan's chunks show (19 R437). DEDUCED (log entry 64). -/
structure CodeChecks where
  retries : Nat                 -- first mismatches
  second : Option CodeMismatch
  deriving DecidableEq, Repr

/-- No check code differs. -/
def CodeChecks.match_ : CodeChecks := { retries := 0, second := none }

/-- What the codes of HBM and of the SRAM and the check codes find while a command runs (12 R275 R285, 19 R437). DEDUCED (log entry 64). -/
structure Upsets where
  bursts : List Scrub           -- bursts with errors that it reads from HBM
  corrected : Nat               -- SRAM words corrected
  words : List SramWord         -- SRAM words beyond correction
  codes : CodeChecks
  deriving DecidableEq, Repr

/-- Nothing is found. -/
def Upsets.quiet : Upsets := { bursts := [], corrected := 0, words := [], codes := CodeChecks.match_ }

/-- The number of a command whose row has come, and what the codes find while it runs. -/
structure CmdRun where
  seq : Nat
  upsets : Upsets
  deriving DecidableEq, Repr

/-- What an exact re-rank finds in the full vectors that it reads (07 R149, R162). -/
structure RerankReads where
  lost : List Nat               -- identifiers of which the cold tier has none left
  bursts : List Scrub           -- bursts with errors among the pinned ones
  deriving DecidableEq, Repr

/-- What one step of the patrol of the cold tier does (13 R302). -/
structure PatrolReads where
  read : FlashRead
  pages : Nat                   -- programs of the pages that the queued blocks hold
  deriving DecidableEq, Repr

/-- A PTP measurement (14 R339, R340). -/
structure PtpSync where
  offset : Int                  -- measured offset from the master, ns
  masterTime : Nat              -- the master's time at the measurement, ns since the PTP epoch
  deriving DecidableEq, Repr

end Sys2Proof.Machine
end

