-- ==== Sys2Proof/Syntax.lean ====
section
/-! DEFINITION. The commands of the block: one constructor for each row of spec/opcode_table.json, in the table's order.
`seq` is a command's order of receipt (Machine.Cmd.seq), `key` a query's own number, `t` the instant of the event in ns of
the module's time base, `peer` the module index of an SPP sender, `payload` an SPP payload, `session` a DAP session, `frame` the DAP frame that it sent, `input` the
bytes read from the host's input buffer, `others` whether every other owner holds a snapshot's epoch. -/

namespace Sys2Proof

open Machine in
/-- The commands. Each docstring gives the row's mnemonic, its rule and the table's own summary. -/
inductive Instr
  /-- QUEUE_CREATE (R342). Creates the connection's submission queue with its depth and priority class and assigns a QUEUE_ID. -/
  | queueCreate (qp : Nat) (entry : Bytes)
  /-- QUEUE_RESET (R354). Ends every outstanding command of the target queue with ABORTED_BY_RESET, then completes with the count ended. -/
  | queueReset (seq : Nat) (headers : List HeaderRead)
  /-- LOG_READ (R445). Returns black-box records from the requested sequence number, followed by a signed trailer. -/
  | logRead (seq : Nat)
  /-- ATTEST (R413). Returns an attestation report signed by the identity key, with measurements and manifests. -/
  | attest (seq : Nat)
  /-- ROLE_MANAGE (R410). Creates, deletes, sets or lists roles of the role table, from a HOST_ADMIN request. -/
  | roleManage (seq : Nat) (input : Bytes)
  /-- LOAD_PLAN (R358). Validates a plan, binds it to its collection or head and copies its constant records into their tiles. -/
  | loadPlan (seq : Nat) (input : Bytes) (codes : CodeChecks)
  /-- UNLOAD_PLAN (R358). Removes a loaded plan from its target when the command is dispatched. -/
  | unloadPlan (seq : Nat)
  /-- CREATE_COLLECTION (R104). Checks the schema and creates a collection at epoch 0, with its data key, regions and creation record. -/
  | createCollection (seq : Nat) (input : Bytes)
  /-- DELETE_COLLECTION (R105). Deletes a collection at its admission instant; commands admitted earlier run to completion. -/
  | deleteCollection (seq : Nat)
  /-- DATA_KEY_DESTROY (R407). When the last admitted command on a deleted owner completes, destroys its data key and releases its regions and pages. -/
  | dataKeyDestroy (kind : Nat) (id : Nat)
  /-- COLLECTION_INFO (R126). Returns the 64-byte status record of a collection. -/
  | collectionInfo (seq : Nat)
  /-- SNAPSHOT_COLLECTION (R125). Holds the collection's current epoch as a snapshot. -/
  | snapshotCollection (seq : Nat) (others : Bool) (t : Nat)
  /-- RELEASE_SNAPSHOT (R125). Drops the hold on a snapshot epoch. -/
  | releaseSnapshot (seq : Nat)
  /-- INSERT (R118). Checks the insert records and cuts the command into batches, each of which commits at its own epoch. -/
  | insert (seq : Nat) (input : Bytes)
  /-- DELETE (R119). Cuts the identifiers into batches and writes a tombstone for each identifier that is live at the commit epoch. -/
  | delete (seq : Nat) (input : Bytes)
  /-- MERGE (R123). Folds the append list and the tombstones at or below the cut epoch into the partition tree. -/
  | merge (seq : Nat)
  /-- BUILD_INDEX (R112). Builds the partition tree by hierarchical k-means, and the PQ codebook where needed, then commits the new version. -/
  | buildIndex (run : CmdRun)
  /-- LOAD_INDEX (R115). Checks an index image that the host built and installs it as a new tree version. -/
  | loadIndex (seq : Nat) (input : Bytes)
  /-- SEARCH (R129). Runs one query through its stages and writes one result set. -/
  | search (seq : Nat) (input : Bytes) (upsets : Upsets) (t : Nat)
  /-- UNIQUE_COUNT (R177). Counts the distinct values of one attribute field over a column or over a query's results. -/
  | uniqueCount (run : CmdRun) (input : Bytes) (t : Nat)
  /-- CREATE_MEMORY_HEAD (R207). Checks a head descriptor and creates the memory head with zero-filled tensors. -/
  | createMemoryHead (seq : Nat) (input : Bytes)
  /-- DELETE_MEMORY_HEAD (R362). Deletes a memory head at dispatch, in the manner of DELETE_COLLECTION. -/
  | deleteMemoryHead (seq : Nat)
  /-- HEAD_TENSOR_WRITE (R361). Writes rows or a tile of one head tensor, updating master rows, cold-tier copies and the replica digest. -/
  | headTensorWrite (seq : Nat) (input : Bytes)
  /-- MEMLAYER_FWD (R217). Runs the forward stages of one micro-batch of one head on this member. -/
  | memlayerFwd (seq : Nat) (input : Bytes) (upsets : Upsets) (t : Nat)
  /-- MEMLAYER_BWD (R244). Runs one micro-batch backward from its stash, writing gradient records and sending dw to output members. -/
  | memlayerBwd (run : CmdRun) (input : Bytes) (t : Nat)
  /-- MEMLAYER_UPDATE (R251). Closes a training step: adds the gradient records, reduces the replicated gradients and updates touched rows. -/
  | memlayerUpdate (run : CmdRun) (input : Bytes) (t : Nat)
  /-- COMMAND_DISPATCH (R352). At each dispatch slot, picks a queue by class and weight and dispatches its eligible command. -/
  | commandDispatch (t : Nat)
  /-- COMMAND_ADMIT (R462). When its hold on earlier committing commands ends, admits a command at its epoch. -/
  | commandAdmit (seq : Nat)
  /-- SLOE_PASS (R142). A Sloe engine scans one stripe's row groups for up to 64 waiting queries and forwards candidates. -/
  | sloePass (engine : Nat) (coll : Nat) (part : Nat) (stripe : Nat) (groups : List Nat) (queries : List Nat) (bursts : List Scrub)
  /-- PROBE_ROUND (R140). When a round's partitions are complete, widens the probe if the match count is below K. -/
  | probeRound (key : Nat)
  /-- ADC_SCAN (R147). Builds the asymmetric-distance table, scores the survivors and cuts them. -/
  | adcScan (key : Nat)
  /-- RERANK (R149). When the full vectors have arrived, scores the candidates exactly. -/
  | rerank (key : Nat) (reads : RerankReads)
  /-- FINAL_SELECTION (R151). Selects K entries from the tree-path and append candidates and writes the result set. -/
  | finalSelection (key : Nat) (t : Nat)
  /-- SCAN_CUT (R154). At T_SC, withdraws the incomplete partitions of a bounded query and forms the skipped set. -/
  | scanCut (key : Nat) (t : Nat)
  /-- LATE_STAGE_CUT (R155). At T_LS, skips whole any ADC or re-rank stage that has not completed. -/
  | lateStageCut (key : Nat) (t : Nat)
  /-- QUERY_STALL (R157). Counts an EXACT query that is still waiting for data at its deadline instant. -/
  | queryStall (key : Nat) (t : Nat)
  /-- COMPLETION_SEND (R347). Posts the completion of a command once the earlier completions of its queue on the same target are sent. -/
  | completionSend (seq : Nat) (t : Nat)
  /-- UNIT_COMMIT (R120). When a unit's log record is durable, raises the collection epoch by 1 and stamps the unit. -/
  | unitCommit (tag : Nat) (t : Nat)
  /-- APPEND_ROOM_RESUME (R121). Lets a batch that waited for append-list or tombstone room commit once room is made. -/
  | appendRoomResume (coll : Nat)
  /-- AUTO_MERGE_START (R124). Starts an automatic MERGE when the append list or the tombstones reach their thresholds. -/
  | autoMergeStart (coll : Nat)
  /-- SHARD_SEARCH_REQ (R193). An owner runs a shard's query at the coordinator's epoch and cut instant and returns its list. -/
  | shardSearchReq (peer : Nat) (payload : Bytes) (t : Nat)
  /-- SHARD_SEARCH_REPLY (R194). The coordinator takes a shard's partial list, or drops it if it is late or repeated. -/
  | shardSearchReply (peer : Nat) (payload : Bytes) (t : Nat)
  /-- SHARD_CANCEL (R198). An owner stops the shard query and sends no reply. -/
  | shardCancel (peer : Nat) (payload : Bytes)
  /-- SHARD_CUT (R201). At T_SH, skips the shards that have not replied, cancels them and merges the rest. -/
  | shardCut (key : Nat) (t : Nat)
  /-- SHARD_TIMEOUT (R201). An EXACT sharded query still missing a reply after SHARD_TIMEOUT_US completes with SHARD_UNAVAILABLE. -/
  | shardTimeout (key : Nat) (t : Nat)
  /-- ROW_FORWARD (R188). An owner commits a forwarded insert or delete sub-batch, or answers NOT_OWNER. -/
  | rowForward (peer : Nat) (payload : Bytes) (t : Nat)
  /-- ROW_RESULT (R200). The sender takes a unit's outcome, re-forwarding on NOT_OWNER. -/
  | rowResult (peer : Nat) (payload : Bytes) (t : Nat)
  /-- EPOCH_ALLOC (R189). The keeper grants the next epoch of the collection to an owner's unit. -/
  | epochAlloc (peer : Nat) (payload : Bytes) (t : Nat)
  /-- EPOCH_GRANT (R189). An owner stamps its unit with the granted epoch and answers EPOCH_STAMPED, or discards a void unit. -/
  | epochGrant (peer : Nat) (payload : Bytes) (t : Nat)
  /-- EPOCH_STAMPED (R189). The keeper records a stamped epoch and raises its stable epoch. -/
  | epochStamped (peer : Nat) (payload : Bytes) (t : Nat)
  /-- EPOCH_STABLE (R190). An owner takes the new stable epoch and relays it down the tree. -/
  | epochStable (peer : Nat) (payload : Bytes) (t : Nat)
  /-- EPOCH_VOID (R192). A granted epoch not stamped within SHARD_TIMEOUT_US becomes void. -/
  | epochVoid (coll : Nat) (epoch : Nat) (t : Nat)
  /-- BUCKET_MOVE_START (R203). After a committed map change, the source owner starts moving the next changed bucket. -/
  | bucketMoveStart (coll : Nat)
  /-- BUCKET_COPY (R203). The target commits a unit of a bucket's rows as an insert. -/
  | bucketCopy (peer : Nat) (payload : Bytes) (t : Nat)
  /-- BUCKET_CUTOVER (R203). Commits the final rows on the target and the tombstones on the source at one keeper epoch. -/
  | bucketCutover (peer : Nat) (payload : Bytes) (t : Nat)
  /-- MEMFWD_PARTIAL (R229). A member stores partial rows from another member and forms the group sums of its tokens. -/
  | memfwdPartial (peer : Nat) (payload : Bytes) (t : Nat)
  /-- MEMFWD_DONE (R230). Records that another member has received all of its partials. -/
  | memfwdDone (peer : Nat) (payload : Bytes) (t : Nat)
  /-- MEMFWD_REPEAT (R231). Sends all of this member's partials for the micro-batch again with the higher ATTEMPT. -/
  | memfwdRepeat (peer : Nat) (payload : Bytes) (t : Nat)
  /-- MEMFWD_ABORT (R230). Completes the forward micro-batch with GROUP_UNAVAILABLE, or with GROUP_MISMATCH on a digest difference. -/
  | memfwdAbort (peer : Nat) (payload : Bytes) (t : Nat)
  /-- FWD_EXCHANGE_TIMEOUT (R231). Requests a repeat when a partial is missing after STEP_TIMEOUT_US, and declares its sender failed after three repeats. -/
  | fwdExchangeTimeout (seq : Nat) (t : Nat)
  /-- MEMBWD_DW (R245). The output member takes dw values from a rank's owner and runs BWD_SCORE and BWD_WEIGHT. -/
  | membwdDw (peer : Nat) (payload : Bytes) (t : Nat)
  /-- MEMBWD_DONE (R260). Records that another member has received all of its dw messages. -/
  | membwdDone (peer : Nat) (payload : Bytes) (t : Nat)
  /-- MEMBWD_REPEAT (R245). Resends this member's dw messages for the micro-batch. -/
  | membwdRepeat (peer : Nat) (payload : Bytes) (t : Nat)
  /-- MEMBWD_ABORT (R230). Completes the backward micro-batch as an abort. -/
  | membwdAbort (peer : Nat) (payload : Bytes) (t : Nat)
  /-- BWD_EXCHANGE_TIMEOUT (R245). Applies the repeat-and-failure timeout rule to the backward exchange. -/
  | bwdExchangeTimeout (seq : Nat) (t : Nat)
  /-- STASH_HOLD_RELEASE (R241). Lets a held forward proceed once backwards have freed enough stash space. -/
  | stashHoldRelease (seq : Nat) (t : Nat)
  /-- STASH_WAIT_TIMEOUT (R241). Completes with STASH_FULL a forward held for STASH_WAIT_US without any space freed. -/
  | stashWaitTimeout (seq : Nat) (t : Nat)
  /-- REDUCE_AMAX (R258). Takes a rank's bucket maximum and fixes the BLOCK8 bucket scale. -/
  | reduceAmax (peer : Nat) (payload : Bytes) (t : Nat)
  /-- REDUCE_PARTIAL (R257). Decodes a received partial sum, adds the rank's own bucket and sends it on. -/
  | reducePartial (peer : Nat) (payload : Bytes) (t : Nat)
  /-- REDUCE_RESULT (R257). Takes the final bucket, forwards it round the ring and falls back on OVERFLOW. -/
  | reduceResult (peer : Nat) (payload : Bytes) (t : Nat)
  /-- REDUCE_SAMPLE (R262). Recomputes the sampled elements on the Yarrow path and compares them bit for bit. -/
  | reduceSample (peer : Nat) (payload : Bytes) (t : Nat)
  /-- REDUCE_REPEAT (R264). Performs the whole reduction again from bucket 0 with the higher ATTEMPT. -/
  | reduceRepeat (peer : Nat) (payload : Bytes) (t : Nat)
  /-- REDUCE_TIMEOUT (R264). Requests a repeat when a reduction message is missing, and declares a member failed after three repeats. -/
  | reduceTimeout (seq : Nat) (t : Nat)
  /-- UPDATE_VERDICT (R263). Combines the verdicts of all members and applies, repeats or fails the update. -/
  | updateVerdict (peer : Nat) (payload : Bytes) (t : Nat)
  /-- MEMBER_FAILED (R264). Records a member declared failed; later commands on its group complete with GROUP_UNAVAILABLE. -/
  | memberFailed (peer : Nat) (payload : Bytes) (t : Nat)
  /-- MEMBER_DEGRADED (R265). Records a degraded member; later commands on that group complete with GROUP_UNAVAILABLE. -/
  | memberDegraded (peer : Nat) (payload : Bytes)
  /-- STACK_DRAIN_COMPLETE (R265). Once the admitted memory-layer commands of a critical stack have finished, takes the stack out of service and sends MEMBER_DEGRADED. -/
  | stackDrainComplete (stack : Nat)
  /-- SCRATCH_BANKS_GRANTED (R273). Gives freed plan scratchpad banks to a waiting command in admission order. -/
  | scratchBanksGranted
  /-- SCRUB_PASS (R282). The patrol reads a slot and corrects it in place, acting on row failures. -/
  | scrubPass (scrub : Scrub) (t : Nat)
  /-- TILE_RELOCATION (R284). Starts relocating a tile that holds a unit in retired memory. -/
  | tileRelocation (tile : Nat) (channel : Nat) (bank : Nat) (whole : Bool) (row : Nat)
  /-- RELOCATION_SWITCH (R284). When the copy is complete, switches later commands to the new copy of the tile. -/
  | relocationSwitch (tile : Nat)
  /-- MEDIA_RECOVERY (R285). Completes the recovery of an uncorrectable unit from its source. -/
  | mediaRecovery (channel : Nat) (slot : Nat)
  /-- TG_WRITE_READ (R289). Starts a write-then-read run of an HBM channel's traffic generator. -/
  | tgWriteRead (session : Nat) (frame : Bytes) (t : Nat)
  /-- TG_READ_ONLY (R289). Starts a read-and-check run of an HBM channel's traffic generator. -/
  | tgReadOnly (session : Nat) (frame : Bytes) (t : Nat)
  /-- TG_WRITE_ONLY (R289). Starts a write-only run of an HBM channel's traffic generator. -/
  | tgWriteOnly (session : Nat) (frame : Bytes) (t : Nat)
  /-- TG_RUN_COMPLETE (R291). Ends an HBM generator run with PASS or FAIL and the failing pins. -/
  | tgRunComplete (pins : List Nat) (corrected : Nat) (uncorrectable : Nat)
  /-- FTG_WRITE_READ (R314). Writes a pattern into a flash channel's test blocks, then reads and compares it. -/
  | ftgWriteRead (session : Nat) (frame : Bytes) (t : Nat)
  /-- FTG_READ_VERIFY (R314). Reads and decodes every written user page of a flash channel without changing data. -/
  | ftgReadVerify (session : Nat) (frame : Bytes) (t : Nat)
  /-- FTG_ERASE_TEST (R314). Erases and verifies the test blocks of a flash channel. -/
  | ftgEraseTest (session : Nat) (frame : Bytes) (t : Nat)
  /-- FTG_RUN_COMPLETE (R315). Ends a flash generator run with PASS or FAIL and the failing dies. -/
  | ftgRunComplete (dies : Nat) (errors : Nat) (retries : Nat) (rebuilds : Nat) (lost : List LostRead)
  /-- FLASH_READ_COMPLETE (R297). A cold-tier page read completes, with LDPC retry or parity rebuild where needed. -/
  | flashReadComplete (read : FlashRead) (t : Nat)
  /-- PATROL (R302). Reads written pages on the patrol period and refreshes the queued blocks. -/
  | patrol (reads : PatrolReads) (t : Nat)
  /-- GARBAGE_COLLECTION (R302). Moves live pages out of mostly released blocks. -/
  | garbageCollection (pages : Nat) (sparePct : Nat)
  /-- DIE_REBUILD (R297). Restores the pages of a failed die into spare blocks. -/
  | dieRebuild (channel : Nat) (die : Nat) (pages : Nat) (sparePct : Nat)
  /-- PROMOTION_READ_COMPLETE (R311). A promoted page becomes RESIDENT, or its waiters meet uncorrectable data. -/
  | promotionReadComplete (page : Nat) (bad : Bool)
  /-- WINDOW_SPACE_FREED (R312). Serves a request that waited for window space once copies can be evicted. -/
  | windowSpaceFreed (region : Nat) (capacity : Nat)
  /-- FRAME_RECEIVE (R322). Accepts or drops a received frame by its traffic kind and applies the protocol-violation responses. -/
  | frameReceive (port : Nat) (sub : Nat) (frame : Frame) (t : Nat)
  /-- CONNECTION_REQUEST (R323). Sets up a reliable connection through the connection-management messages on QP1. -/
  | connectionRequest (port : Nat) (sub : Nat) (remote : Nat) (mtu : Nat) (peer : Nat) (reply : Bool) (t : Nat)
  /-- SPP_CONNECTION_OPEN (R325). Opens an SPP connection to a peer when one is first needed, on the port that the rule selects. -/
  | sppConnectionOpen (peer : Nat) (t : Nat)
  /-- SPP_IDLE_CLOSE (R325). Closes an SPP connection after SPP_IDLE_CLOSE_S without traffic. -/
  | sppIdleClose (qpn : Nat) (t : Nat)
  /-- LINK_KEY_A (R328). The responder takes the initiator's ephemeral point and certificate and answers LINK_KEY_B. -/
  | linkKeyA (qpn : Nat) (payload : Bytes) (t : Nat)
  /-- LINK_KEY_B (R328). The initiator verifies the responder and answers LINK_KEY_C. -/
  | linkKeyB (qpn : Nat) (payload : Bytes) (t : Nat)
  /-- LINK_KEY_C (R328). The responder verifies the confirmation and installs the keys. -/
  | linkKeyC (qpn : Nat) (payload : Bytes) (t : Nat)
  /-- LINK_REKEY (R330). After LINK_REKEY_PACKETS packets, derives the next key and salt and toggles KEY_PHASE. -/
  | linkRekey (qpn : Nat)
  /-- HELLO (R332). Chooses the protocol version and answers HELLO_REPLY, or refuses. -/
  | hello (qpn : Nat) (payload : Bytes) (t : Nat)
  /-- HELLO_REPLY (R331). Opens the connection at the chosen version, or closes it on a refusal. -/
  | helloReply (qpn : Nat) (payload : Bytes) (t : Nat)
  /-- CREDIT (R335). Takes back returned message and byte credit. -/
  | credit (qpn : Nat) (payload : Bytes) (t : Nat)
  /-- CREDIT_RETURN_TIMEOUT (R335). Sends a CREDIT frame when no frame has carried returned credit within 2 µs. -/
  | creditReturnTimeout (qpn : Nat) (t : Nat)
  /-- ACK_TIMEOUT (R324). Retransmits unacknowledged packets, and closes the connection when RETRY_COUNT is exhausted. -/
  | ackTimeout (qpn : Nat) (t : Nat)
  /-- SPP_SUSPEND_EXPIRY (R337). Resumes a suspended SPP connection after SPP_SUSPEND_MS with its credits reset. -/
  | sppSuspendExpiry (qpn : Nat) (t : Nat)
  /-- PFC_PAUSE (R326). Honours a PFC pause frame on its priority. -/
  | pfcPause (port : Nat) (sub : Nat) (priority : Nat) (paused : Bool) (t : Nat)
  /-- PFC_STORM (R326). Declares a storm on a priority paused for PFC_STORM_MS and disregards its pause. -/
  | pfcStorm (port : Nat) (sub : Nat) (priority : Nat) (t : Nat)
  /-- PFC_STORM_END (R326). Honours pause again after 100 ms without one. -/
  | pfcStormEnd (port : Nat) (sub : Nat) (priority : Nat) (t : Nat)
  /-- CNP_RECEIVE (R327). Lowers the connection's rate, target and estimate on receipt of a CNP. -/
  | cnpReceive (qpn : Nat) (t : Nat)
  /-- RP_RECOVERY (R327). Each RP_RECOVERY_US without a CNP, raises the connection's rate toward its target. -/
  | rpRecovery (qpn : Nat) (t : Nat)
  /-- LINK_TRAINING (R318). Trains a sub-port's link in its PORTn_MODE after signal detect. -/
  | linkTraining (port : Nat) (sub : Nat) (trained : Bool) (t : Nat)
  /-- CAGE_INSERT (R456). Reads a plug-in through CMIS and classifies the medium of its cage, or refuses it. -/
  | cageInsert (port : Nat) (plug : PlugIn) (t : Nat)
  /-- PTP_MESSAGE (R339). Disciplines the time base from PTP messages, and steps it at the first lock. -/
  | ptpMessage (sync : PtpSync) (t : Nat)
  /-- PTP_SYNC_LOSS (R339). After 3 s without sync, reports HOLDOVER. -/
  | ptpSyncLoss (t : Nat)
  /-- DAP_HANDSHAKE (R369). Opens a DTLS session and binds its role from the client certificate, or refuses it. -/
  | dapHandshake (mgmt : Bool) (certificate : Bytes) (t : Nat)
  /-- DAP_IDLE_TIMEOUT (R369). Closes a session that has sent no valid frame for DAP_IDLE_TIMEOUT_S. -/
  | dapIdleTimeout (session : Nat) (t : Nat)
  /-- READ (R374). Reads the named entries at one instant. -/
  | read (session : Nat) (frame : Bytes) (t : Nat)
  /-- WRITE (R374). Writes RW, WO or ADM entries live, for registers that have no behaviour of their own. -/
  | write (session : Nat) (frame : Bytes) (t : Nat)
  /-- STAGE (R378). Stages RWS values and takes ownership of their commit group. -/
  | stage (session : Nat) (frame : Bytes) (t : Nat)
  /-- READ_STAGED (R378). Returns the session's staged values, or the live ones where nothing is staged. -/
  | readStaged (session : Nat) (frame : Bytes) (t : Nat)
  /-- DESCRIBE (R377). Returns the descriptor of each named entry. -/
  | describe (session : Nat) (frame : Bytes) (t : Nat)
  /-- COMMIT_CHECK (R380). Checks every entry of the owned groups against staged and live values. -/
  | commitCheck (session : Nat) (frame : Bytes) (t : Nat)
  /-- COMMIT_APPLY (R381). Closes admission to the engines of the owned groups and waits for their boundaries. -/
  | commitApply (session : Nat) (frame : Bytes) (t : Nat)
  /-- COMMIT_BOUNDARY_REACHED (R381). Rechecks the staged set, writes the commit record, switches the values and does the post-switch work. -/
  | commitBoundaryReached (t : Nat)
  /-- COMMIT_APPLY_TIMEOUT (R381). Reopens admission and changes nothing when the boundary is not reached in time. -/
  | commitApplyTimeout (t : Nat)
  /-- COMMIT_ABORT (R379). Discards the session's staged values and releases its groups. -/
  | commitAbort (session : Nat) (frame : Bytes) (t : Nat)
  /-- ROLE_RECORD (R410). A DAP administrator's write of a role request that changes the role table. -/
  | roleRecord (session : Nat) (frame : Bytes) (t : Nat)
  /-- FACTORY_RESET (R416). Destroys every data key, releases user pages, empties the role table, restores defaults and resets. -/
  | factoryReset (session : Nat) (frame : Bytes) (t : Nat)
  /-- IMAGE_BEGIN (R404). Erases the slot of the kind that is not last good and opens an image load. -/
  | imageBegin (session : Nat) (frame : Bytes) (t : Nat)
  /-- IMAGE_BLOCK (R404). Appends a block of image bytes at the expected offset. -/
  | imageBlock (session : Nat) (frame : Bytes) (t : Nat)
  /-- IMAGE_FINISH (R404). Verifies the loaded image and sets its pending bit, or applies a key rotation. -/
  | imageFinish (session : Nat) (frame : Bytes) (t : Nat)
  /-- IMAGE_ABANDON (R404). Closes the load and leaves the erased slot empty. -/
  | imageAbandon (session : Nat) (frame : Bytes) (t : Nat)
  /-- IMAGE_MARK_PENDING (R404). Sets the pending bit of a kind for a slot that holds a valid image. -/
  | imageMarkPending (session : Nat) (frame : Bytes) (t : Nat)
  /-- IMAGE_CLEAR_PENDING (R404). Clears the pending bit of a kind. -/
  | imageClearPending (session : Nat) (frame : Bytes) (t : Nat)
  /-- IMAGE_ACTIVATE (R404). Starts a reset, so that the bundle selection runs again. -/
  | imageActivate (session : Nat) (frame : Bytes) (t : Nat)
  /-- MODULE_RESET (R430). Drains outstanding write units, runs the power-fail sequence without cutting input and restarts start-up. -/
  | moduleReset (session : Nat) (frame : Bytes) (t : Nat)
  /-- DIAGNOSTIC_MODE (R448). Closes AHP admission and waits for the module to become idle in order to enter diagnostic mode. -/
  | diagnosticMode (session : Nat) (frame : Bytes) (t : Nat)
  /-- DIAGNOSTIC_MODE_ENTERED (R448). On idle, closes every AHP and SPP connection and sets DIAGNOSTIC_STATE to ON, or fails after 10 s. -/
  | diagnosticModeEntered (t : Nat)
  /-- BLACKBOX_READ_FROM (R447). Sets the session's black-box reading pointer. -/
  | blackboxReadFrom (session : Nat) (frame : Bytes) (t : Nat)
  /-- BLACKBOX_WINDOW (R447). Returns up to 16 records from the pointer and advances it. -/
  | blackboxWindow (session : Nat) (frame : Bytes) (t : Nat)
  /-- BLACKBOX_APPEND (R442). Writes an event record into the ring, reads it back and advances the head word. -/
  | blackboxAppend (readBack : Bool) (t : Nat)
  /-- BLACKBOX_COALESCED (R442). At the end of a coalescing second, writes the count of repeats that were not written. -/
  | blackboxCoalesced (event : Nat) (unit : Nat) (key : Nat) (t : Nat)
  /-- P2_ENTRY (R421). After P2_IDLE_MS idle, stops the compute dies and puts HBM in self-refresh. -/
  | p2Entry (t : Nat)
  /-- P3_ENTRY (R421). After P3_IDLE_S in P2, powers down SRAM tiers, closes connections and stops ports 1–3. -/
  | p3Entry (t : Nat)
  /-- ENTRY_ABANDON (R422). Undoes a power-state entry on arriving traffic and returns to P0. -/
  | entryAbandon (t : Nat)
  /-- WAKE (R423). Wakes the module from P2 or P3 to P0 on a wake packet or DAP datagram. -/
  | wake (t : Nat)
  /-- CLUSTER_CLOCK_GATE (R419). Clock-gates a cluster that has had no micro-operation for 64 cycles. -/
  | clusterClockGate (cluster : Nat)
  /-- POWER_FAIL_SIGNAL (R429). Closes admission, completes started programs, writes the power-fail record and goes to P4. -/
  | powerFailSignal (inputMv : Nat) (t : Nat)
  /-- PWR_EN_FALL (R458). A falling PWR_EN raises the power-fail signal. -/
  | pwrEnFall (t : Nat)
  /-- START_UP (R431). Runs start-up steps 1 to 9 once the input has lain in range for 100 ms. -/
  | startUp (facts : StartFacts) (t : Nat)
  /-- SENSOR_READING (R424). Every 100 µs, reads all sensors and applies the HBM thermal steps. -/
  | sensorReading (sensors : Sensors) (t : Nat)
  /-- TRIP_RESTART (R428). Starts start-up again 300 s after a thermal trip. -/
  | tripRestart (t : Nat)
  /-- HEARTBEAT_TIMEOUT (R438). Restarts a Tansy core that has sent no heartbeat for 10 ms, and resets on repeated restarts. -/
  | heartbeatTimeout (core : Nat) (t : Nat)
  /-- BOTH_CORES_SILENT (R438). The always-on island starts a SUPERVISOR reset when both cores are silent for 100 ms. -/
  | bothCoresSilent (t : Nat)
  /-- LINK_DOWN (R338). A sub-port's or the management port's link goes down, and connections on it close if it stays down through their retries. -/
  | linkDown (port : Nat) (sub : Nat) (management : Bool) (t : Nat)
  /-- PLUG_IN_REMOVED (R456). A plug-in is removed from a cage, dropping its links and setting CAGE_MEDIUM to EMPTY. -/
  | plugInRemoved (port : Nat) (t : Nat)
  /-- PLUG_IN_HIGH_ALARM (R456). A plug-in's temperature exceeds its high alarm and CAGE_MEDIUM changes to REFUSED. -/
  | plugInHighAlarm (port : Nat) (t : Nat)
  /-- DISCONNECT_REQUEST (R338). A host or peer tears down a connection with a connection-management disconnect request, which for AHP acts as a queue reset. -/
  | disconnectRequest (qpn : Nat) (t : Nat)
  /-- CONNECTION_REQUEST_REPEAT (R423). A connection request to a peer unanswered within 2 ms is repeated to the peer's port 0 address to wake it. -/
  | connectionRequestRepeat (peer : Nat) (t : Nat)
  /-- EPOCH_HOLD_EXPIRY (R191). State kept for an epoch that was learned stable EPOCH_HOLD_US ago is released, so later queries at that epoch fail. -/
  | epochHoldExpiry (coll : Nat) (t : Nat)
  /-- STABLE_INTERVAL_EXPIRY (R190). When STABLE_INTERVAL_US has passed since the last EPOCH_STABLE and the stable epoch has risen since, the keeper sends EPOCH_STABLE down the relay tree. -/
  | stableIntervalExpiry (coll : Nat) (t : Nat)
  /-- KEEPER_UNREACHABLE_TIMEOUT (R192). An INSERT or DELETE that has waited SHARD_TIMEOUT_US because the keeper cannot be reached completes with SHARD_UNAVAILABLE. -/
  | keeperUnreachableTimeout (seq : Nat) (t : Nat)
  /-- DAP_SESSION_CLOSE (R378). A client closes its DTLS session, discarding its staged values and releasing its commit groups. -/
  | dapSessionClose (session : Nat)
  deriving DecidableEq, Repr

end Sys2Proof
end

