-- ==== Sys2Proof/Decode.lean ====
section
/-! DEFINITION. The decoder over the rows of spec/opcode_table.json that give bits. No row of the table gives any bits:
every row's "fields" is empty. -/

namespace Sys2Proof

/-- The command that a word spells by the table's bits: no row gives bits, so no word spells one. DESIGN CHOICE (log entry 10). -/
def decodeTableWord (_nbits _w : Nat) : Option Instr := none

end Sys2Proof
end

