-- ==== Sys2Proof/Machine/Operands.lean ====
section
/-! DEFINITION. The operand forms: fields of a byte string by byte offset and bit range (00 R6, R7), reserved fields
(R8), the little-endian encoder, and the list helpers that the families share. -/

namespace Sys2Proof.Machine

/-- The unsigned integer that a little-endian byte string spells (R6). -/
def leNat : Bytes → Nat
  | [] => 0
  | b :: r => b.toNat + 256 * leNat r

/-- The `n` low bytes of `v`, least significant first (R6). -/
def toLE : Nat → Nat → Bytes
  | 0, _ => []
  | n + 1, v => BitVec.ofNat 8 v :: toLE n (v / 256)

/-- `n` bytes from offset `off`. -/
def slice (b : Bytes) (off n : Nat) : Bytes := (b.drop off).take n

/-- The little-endian field of `n` bytes at offset `off`; bytes beyond the string read as 0. -/
def leAt (b : Bytes) (off n : Nat) : Nat := leNat (slice b off n)

/-- The byte at offset `off`. -/
def u8At (b : Bytes) (off : Nat) : Nat := leAt b off 1
/-- The U16 at offset `off`. -/
def u16At (b : Bytes) (off : Nat) : Nat := leAt b off 2
/-- The U32 at offset `off`. -/
def u32At (b : Bytes) (off : Nat) : Nat := leAt b off 4
/-- The U64 at offset `off`. -/
def u64At (b : Bytes) (off : Nat) : Nat := leAt b off 8

/-- Bits [hi:lo] of the word `w` (R7). -/
def bits (w hi lo : Nat) : Nat := (w >>> lo) % (1 <<< (hi + 1 - lo))

/-- Bit `i` of the word `w`. -/
def bit (w i : Nat) : Bool := w.testBit i

/-- Bit `i` of a packed bit string: bit (i mod 8) of byte (i div 8) (R7, R46). -/
def bitOf (b : Bytes) (i : Nat) : Bool := (u8At b (i / 8)).testBit (i % 8)

/-- `n` stream bits from stream bit `lo`, least significant first (R60). -/
def streamBits (b : Bytes) (lo : Nat) : Nat → Nat
  | 0 => 0
  | n + 1 => (if bitOf b lo then 1 else 0) + 2 * streamBits b (lo + 1) n

/-- A Bool as the bit it stores. -/
def b2n (b : Bool) : Nat := if b then 1 else 0

/-- The offset of the first non-zero byte among bytes `off .. off + n - 1`, where there is one (R8). -/
def firstNonZero (b : Bytes) (off n : Nat) : Option Nat :=
  ((slice b off n).findIdx? (· ≠ 0)).map (· + off)

/-- `n` zero bytes. -/
def zeros (n : Nat) : Bytes := List.replicate n 0

/-- `b` padded with zero bytes to a multiple of `k`. -/
def padTo (k : Nat) (b : Bytes) : Bytes := b ++ zeros ((k - b.length % k) % k)

/-- `n` rounded up to a multiple of `k`. -/
def roundUp (k n : Nat) : Nat := (n + k - 1) / k * k

/-- Quotient rounded up. -/
def ceilDiv (n k : Nat) : Nat := (n + k - 1) / k

/-- The bytes of a text. -/
def ascii (t : String) : Bytes := t.toList.map fun c => BitVec.ofNat 8 c.toNat

/-- The two's-complement integer that the low `w` bits of `v` spell. -/
def signedOf (w v : Nat) : Int := if v % (1 <<< w) < 1 <<< (w - 1) then (v % (1 <<< w) : Nat) else ((v % (1 <<< w) : Nat) : Int) - (1 <<< w : Nat)

/-- The low `w` bits of an integer, as an unsigned word. -/
def unsignedOf (w : Nat) (v : Int) : Nat := (v % (1 <<< w : Nat)).toNat

/-- The string cut into pieces of `k` bytes (the last may be short); `n` bounds the number of pieces. -/
def pieces {α : Type} (k : Nat) : Nat → List α → List (List α)
  | 0, _ => []
  | n + 1, l => if l.isEmpty then [] else l.take k :: pieces k n (l.drop k)

/-- The list cut into pieces of `k` elements. -/
def chunksOf {α : Type} (k : Nat) (l : List α) : List (List α) := pieces k l.length l

/-- `l` with the element `x` replaced by `f x` wherever `p x`. -/
def mapIf {α : Type} (p : α → Bool) (f : α → α) (l : List α) : List α := l.map fun x => if p x then f x else x

/-- `l` with the element at place `i` replaced by `f` of it. -/
def modAt {α : Type} (f : α → α) (i : Nat) (l : List α) : List α := l.modify i f

/-- Insertion of `x` into a list that rises by `le`; `x` goes before the first element that it does not follow. -/
def insertBy {α : Type} (le : α → α → Bool) (x : α) : List α → List α
  | [] => [x]
  | y :: r => if le x y then x :: y :: r else y :: insertBy le x r

/-- The list in rising order of `le`; equal elements keep their order. -/
def sortBy {α : Type} (le : α → α → Bool) : List α → List α
  | [] => []
  | x :: r => insertBy le x (sortBy le r)

/-- The list in ascending `key`. -/
def sortOn {α : Type} (key : α → Nat) (l : List α) : List α := sortBy (fun a b => key a ≤ key b) l

/-- Each element once, the first occurrence kept. -/
def dedup {α : Type} [BEq α] : List α → List α
  | [] => []
  | x :: r => x :: (dedup r).filter (fun y => !(y == x))

/-- The sum of a list. -/
def sumOf (l : List Nat) : Nat := l.foldl (· + ·) 0

/-- The largest element, 0 of an empty list. -/
def maxOf (l : List Nat) : Nat := l.foldl max 0

/-- Lexicographic order of two number lists. -/
def lexLe : List Nat → List Nat → Bool
  | [], _ => true
  | _ :: _, [] => false
  | a :: r, b :: t => a < b || (a == b && lexLe r t)

/-- Ascending in list order of the numbers. -/
def ascending : List Nat → Bool
  | a :: b :: r => a < b && ascending (b :: r)
  | _ => true

end Sys2Proof.Machine
end

