-- ==== Sys2Proof/Machine/Numeric.lean ====
section
/-! DEFINITION. Element formats, exact values, narrowing, accumulation and the distance arithmetic (03 R41-R49, R59-R62;
05 R86-R100). An exact value is a sign, a natural significand and a power of two; an element code is the unsigned number
that the element's bits spell. -/

namespace Sys2Proof.Machine

/-- An exact real `(-1)^neg * m * 2^e`, an infinity or not a number (03 R42). -/
inductive Num
  | nan
  | inf (neg : Bool)
  | fin (neg : Bool) (m : Nat) (e : Int)
  deriving DecidableEq, Repr

namespace Num

/-- The exact integer `i`. -/
def ofInt (i : Int) : Num := .fin (i < 0) i.natAbs 0
/-- Positive zero. -/
def zero : Num := .fin false 0 0
/-- Negation, which is exact (R45). -/
def neg : Num → Num
  | .nan => .nan
  | .inf s => .inf (!s)
  | .fin s m e => .fin (!s) m e
/-- Magnitude. -/
def abs : Num → Num
  | .nan => .nan
  | .inf _ => .inf false
  | .fin _ m e => .fin false m e
/-- Is the value not a number. -/
def isNan : Num → Bool
  | .nan => true
  | _ => false
/-- Is the value infinite. -/
def isInf : Num → Bool
  | .inf _ => true
  | _ => false
/-- Is the value finite. -/
def isFin : Num → Bool
  | .fin _ _ _ => true
  | _ => false
/-- Is the value a zero. -/
def isZero : Num → Bool
  | .fin _ m _ => m == 0
  | _ => false
/-- `m * 2^(e - lo)` for `lo ≤ e`. -/
def scaleTo (m : Nat) (e lo : Int) : Nat := m <<< (e - lo).toNat
/-- The signed significand. -/
def signed (s : Bool) (m : Nat) : Int := if s then -(m : Int) else m
/-- The exact sum; a sum of zero is +0 unless both operands are −0 (R86). -/
def add : Num → Num → Num
  | .nan, _ => .nan
  | _, .nan => .nan
  | .inf s, .inf t => if s == t then .inf s else .nan
  | .inf s, _ => .inf s
  | _, .inf t => .inf t
  | .fin s m e, .fin t n f =>
    if m == 0 && n == 0 then .fin (s && t) 0 0
    else if m == 0 then .fin t n f
    else if n == 0 then .fin s m e
    else
      let lo := min e f
      let v := signed s (scaleTo m e lo) + signed t (scaleTo n f lo)
      .fin (v < 0) v.natAbs lo
/-- The exact difference. -/
def sub (a b : Num) : Num := add a b.neg
/-- The exact product. -/
def mul : Num → Num → Num
  | .nan, _ => .nan
  | _, .nan => .nan
  | .inf s, .inf t => .inf (s != t)
  | .inf s, .fin t n _ => if n == 0 then .nan else .inf (s != t)
  | .fin s m _, .inf t => if m == 0 then .nan else .inf (s != t)
  | .fin s m e, .fin t n f => .fin (s != t) (m * n) (e + f)
/-- The product with `2^k`. -/
def scale2 (k : Int) : Num → Num
  | .fin s m e => .fin s m (e + k)
  | x => x
/-- The quotient, exact up to a sticky bit 200 places below the leading bit, which every narrowing reads as the exact
quotient (R76, R98: a division is exact before it is rounded). -/
def div : Num → Num → Num
  | .nan, _ => .nan
  | _, .nan => .nan
  | .inf _, .inf _ => .nan
  | .inf s, .fin t _ _ => .inf (s != t)
  | .fin s _ _, .inf t => .fin (s != t) 0 0
  | .fin s m e, .fin t n f =>
    if n == 0 then (if m == 0 then .nan else .inf (s != t))
    else if m == 0 then .fin (s != t) 0 0
    else
      let k := 200 + Nat.log2 n
      let q := (m <<< k) / n
      let r := (m <<< k) % n
      .fin (s != t) (2 * q + (if r == 0 then 0 else 1)) (e - f - (k + 1 : Nat))
/-- Strictly less, for numbers that are not NaN. -/
def lt : Num → Num → Bool
  | .nan, _ => false
  | _, .nan => false
  | .inf s, .inf t => s && !t
  | .inf s, _ => s
  | _, .inf t => !t
  | .fin s m e, .fin t n f =>
    let lo := min e f
    signed s (scaleTo m e lo) < signed t (scaleTo n f lo)
/-- Less or equal. -/
def le (a b : Num) : Bool := !a.isNan && !b.isNan && !(lt b a)
/-- The larger of two numbers. -/
def max (a b : Num) : Num := if lt a b then b else a
/-- The smaller of two numbers. -/
def min (a b : Num) : Num := if lt b a then b else a

end Num

/-- Nearest integer to `m * 2^e`, ties to even. -/
def roundNat (m : Nat) (e : Int) : Nat :=
  if 0 ≤ e then m <<< e.toNat
  else
    let k := (-e).toNat
    let q := m >>> k
    let r := m % (1 <<< k)
    let half := 1 <<< (k - 1)
    if half < r || (r == half && q % 2 == 1) then q + 1 else q

/-- A binary floating-point grid: `p` significant bits, spacing `2^qmin` at the bottom and `2^qmax` at the top, and the
largest significand at the top. -/
structure Grid where
  p : Nat
  qmin : Int
  qmax : Int
  mmax : Nat
  deriving DecidableEq, Repr

/-- The nearest point of the grid to `m * 2^e`, ties to even; above the top binade the top spacing goes on (R42). -/
def Grid.round (g : Grid) (m : Nat) (e : Int) : Nat × Int :=
  if m == 0 then (0, g.qmin)
  else
    let q := Min.min g.qmax (Max.max g.qmin (e + (Nat.log2 m + 1 : Nat) - (g.p : Int)))
    (roundNat m (e - q), q)

/-- Does the rounded point lie above the largest finite value. -/
def Grid.over (g : Grid) (r : Nat × Int) : Bool := r.2 == g.qmax && g.mmax < r.1

/-- The element formats of R41 that have a value of their own, the index formats, and the opaque ones. -/
inductive Fmt
  | fp32 | bf16 | fp16 | e4m3 | e5m2 | int8 | uint8 | uint16 | int32 | cb4 | cb8 | bin1 | pq4 | pq8 | id64 | scale8 | raw8
  | int64
  deriving DecidableEq, Repr

/-- The format of a code (R41); other codes are reserved. -/
def Fmt.ofCode : Nat → Option Fmt
  | 0x01 => some .fp32 | 0x02 => some .bf16 | 0x03 => some .fp16 | 0x04 => some .e4m3 | 0x05 => some .e5m2
  | 0x06 => some .int8 | 0x07 => some .uint8 | 0x08 => some .uint16 | 0x09 => some .int32 | 0x0A => some .cb4
  | 0x0B => some .cb8 | 0x0C => some .bin1 | 0x0D => some .pq4 | 0x0E => some .pq8 | 0x0F => some .id64
  | 0x10 => some .scale8 | 0x11 => some .raw8 | 0x12 => some .int64 | _ => none

/-- Bits of an element (R41). -/
def Fmt.width : Fmt → Nat
  | .fp32 | .int32 => 32
  | .bf16 | .fp16 | .uint16 => 16
  | .e4m3 | .e5m2 | .int8 | .uint8 | .cb8 | .pq8 | .scale8 | .raw8 => 8
  | .cb4 | .pq4 => 4
  | .bin1 => 1
  | .id64 | .int64 => 64

/-- Exponent and mantissa widths of a floating-point format. -/
def Fmt.em : Fmt → Option (Nat × Nat)
  | .fp32 => some (8, 23) | .bf16 => some (8, 7) | .fp16 => some (5, 10) | .e4m3 => some (4, 3) | .e5m2 => some (5, 2)
  | _ => none

/-- The grid of a floating-point format (R41). -/
def Fmt.grid : Fmt → Grid
  | .bf16 => { p := 8, qmin := -133, qmax := 120, mmax := 0xFF }
  | .fp16 => { p := 11, qmin := -24, qmax := 5, mmax := 0x7FF }
  | .e4m3 => { p := 4, qmin := -9, qmax := 5, mmax := 14 }
  | .e5m2 => { p := 3, qmin := -16, qmax := 13, mmax := 7 }
  | _ => { p := 24, qmin := -149, qmax := 104, mmax := 0xFFFFFF }

/-- The grid of the chunk format CF (R86). -/
def cfGrid : Grid := { p := 16, qmin := -141, qmax := 112, mmax := 0xFFFF }

/-- max_finite of an integer format (R41). -/
def Fmt.intMax : Fmt → Option Int
  | .int8 => some 127
  | .uint8 => some 255
  | .uint16 => some 65535
  | .int32 => some 2147483647
  | .int64 => some 9223372036854775807
  | _ => none

/-- min_finite of an integer format: −128 for INT8, and −max_finite for every other (R42). -/
def Fmt.intMin (f : Fmt) (hi : Int) : Int := if f == .int8 then -128 else -hi

/-- The lowest point of the grid of an integer format: 0 for an unsigned one (R41). -/
def Fmt.intFloor (f : Fmt) : Int := match f with | .uint8 | .uint16 => 0 | _ => -(1 <<< (f.width - 1) : Nat)

/-- The canonical NaN code of a format, 0 for an integer format (R41, R42). DEDUCED (log entry 19). -/
def Fmt.nanCode : Fmt → Nat
  | .fp32 => 0x7FC00000 | .bf16 => 0x7FC0 | .fp16 => 0x7E00 | .e4m3 => 0x7F | .e5m2 => 0x7E | _ => 0

/-- The code of a grid point of a floating-point format with sign `s`. -/
def Fmt.encode (f : Fmt) (s : Bool) (r : Nat × Int) : Nat :=
  match f.em with
  | none => 0
  | some (e, m) =>
    let g := f.grid
    let (sig, q) := if r.1 == 1 <<< g.p then (1 <<< (g.p - 1), r.2 + 1) else r
    let body := if sig < 1 <<< m then sig else ((q - g.qmin + 1).toNat <<< m) + (sig - (1 <<< m))
    (b2n s <<< (e + m)) + body

/-- The value of an element code (R41); index and opaque formats read as the unsigned integer. -/
def Fmt.value (f : Fmt) (c : Nat) : Num :=
  match f.em with
  | some (e, m) =>
    let s := c.testBit (e + m)
    let x := bits c (e + m - 1) m
    let t := c % (1 <<< m)
    let top := (1 <<< e) - 1
    if x == top && f == .e4m3 then (if t == 7 then .nan else .fin s (t + 8) (f.grid.qmin + x - 1))
    else if x == top then (if t == 0 then .inf s else .nan)
    else if x == 0 then .fin s t f.grid.qmin
    else .fin s (t + (1 <<< m)) (f.grid.qmin + x - 1)
  | none =>
    match f with
    | .int8 => .ofInt (signedOf 8 c)
    | .int32 => .ofInt (signedOf 32 c)
    | .int64 => .ofInt (signedOf 64 c)
    | _ => .fin false c 0

/-- Rounding to FP32 or CF: beyond the range it becomes an infinity (R42, R86). -/
def roundGrid (g : Grid) : Num → Num
  | .fin s m e => let r := g.round m e; if g.over r then .inf s else .fin s r.1 r.2
  | x => x

/-- Rounding to FP32 as a value. DEDUCED (log entry 5). -/
def r32 (x : Num) : Num := roundGrid Fmt.fp32.grid x

/-- The code of a value in FP32: every NaN is the canonical one. -/
def code32 : Num → Nat
  | .nan => 0x7FC00000
  | .inf s => (b2n s <<< 31) + 0x7F800000
  | .fin s m e =>
    let r := Fmt.fp32.grid.round m e
    if Fmt.fp32.grid.over r then (b2n s <<< 31) + 0x7F800000 else Fmt.fp32.encode s r

/-- The value of an FP32 code. -/
def val32 (c : Nat) : Num := Fmt.fp32.value c

/-- `narrow` of R42: the element code and the flag SATURATED that it raises. The nearest point of an unsigned grid to a value below 0 is 0; the
code of a min_finite that the format does not hold is 0 too, which no rule asks for. DESIGN CHOICE (log entry 19). -/
def narrow (f : Fmt) (x : Num) : Nat × Bool :=
  match f.intMax with
  | some hi =>
    match x with
    | .nan => (0, true)
    | .inf s => (unsignedOf f.width (if s then max f.intFloor (f.intMin hi) else hi), true)
    | .fin s m e =>
      let v := max f.intFloor (Num.signed s (roundNat m e))
      if hi < v then (unsignedOf f.width hi, true)
      else if v < f.intMin hi then (unsignedOf f.width (f.intMin hi), true)
      else (unsignedOf f.width v, false)
  | none =>
    match x with
    | .nan => (f.nanCode, true)
    | .inf s =>
      if f == .fp32 then (code32 x, false)
      else (f.encode s (f.grid.mmax, f.grid.qmax), true)
    | .fin s m e =>
      let r := f.grid.round m e
      if f.grid.over r then
        (if f == .fp32 then (code32 x, false) else (f.encode s (f.grid.mmax, f.grid.qmax), true))
      else (f.encode s r, false)

/-- The code that `narrow` stores. -/
def narrowCode (f : Fmt) (x : Num) : Nat := (narrow f x).1

/-- The value after narrowing, widened again (exact). -/
def narrowVal (f : Fmt) (x : Num) : Num := f.value (narrowCode f x)

/-- Is an element NaN or infinite (R43). -/
def Fmt.nonFinite (f : Fmt) (c : Nat) : Bool := !(f.value c).isFin

/-! ### Scores and identifiers -/

/-- The fill identifier (R44). -/
def fillId : Nat := 0xFFFFFFFFFFFFFFFF

/-- The canonical score of a value: −0 becomes +0 and NaN becomes +infinity (R45); the FP32 code. -/
def canonScore (x : Num) : Nat :=
  match x with
  | .nan => 0x7F800000
  | _ => let c := code32 x; if c == 0x80000000 then 0 else c

/-- A number that rises with the real value of a canonical score (R45). -/
def scoreKey (c : Nat) : Nat := if c < 0x80000000 then 0x80000000 + c else 0x80000000 - (c - 0x80000000)

/-- The number of 1 bits of a byte string. -/
def popcount (b : Bytes) : Nat := sumOf (b.map fun x => sumOf ((List.range 8).map fun i => b2n (x.toNat.testBit i)))

/-- Exclusive or of two byte strings. -/
def xorBytes (a b : Bytes) : Bytes := List.zipWith (· ^^^ ·) a b

/-- The Hamming distance of two binary codes (R46, R95). -/
def hamming (a b : Bytes) : Nat := popcount (xorBytes a b)

/-- Code word index of subspace `j` of a PQ code (R47). -/
def pqIndex (pqBits : Nat) (code : Bytes) (j : Nat) : Nat :=
  if pqBits == 8 then u8At code j else if j % 2 == 0 then u8At code (j / 2) % 16 else u8At code (j / 2) / 16

/-- Bytes of a PQ code (R47): the last byte of an odd number of 4-bit codes holds one (DEDUCED, notes/assumptions/19.md). DEDUCED (log entry 19). -/
def pqCodeBytes (pqBits m : Nat) : Nat := if pqBits == 8 then m else (m + 1) / 2

/-- The element code of index `n` of a densely packed string (R59). -/
def elemAt (f : Fmt) (b : Bytes) (n : Nat) : Nat :=
  match f.width with
  | 1 => b2n (bitOf b n)
  | 4 => if n % 2 == 0 then u8At b (n / 2) % 16 else u8At b (n / 2) / 16
  | w => leAt b (n * (w / 8)) (w / 8)

/-- Bytes of `n` elements, densely packed and rounded up to whole bytes. -/
def elemBytes (f : Fmt) (n : Nat) : Nat := ceilDiv (n * f.width) 8

/-- Byte offset of element `n`. -/
def elemOff (f : Fmt) (n : Nat) : Nat := n * f.width / 8

/-- The element codes of `n` elements, packed (R59). -/
def packElems (f : Fmt) (cs : List Nat) : Bytes :=
  match f.width with
  | 4 => (chunksOf 2 cs).map fun p => BitVec.ofNat 8 (p.getD 0 0 % 16 + 16 * (p.getD 1 0 % 16))
  | 1 => (chunksOf 8 cs).map fun p => BitVec.ofNat 8 (leBits p)
  | w => (cs.map (toLE (w / 8))).flatten
where
  leBits : List Nat → Nat
    | [] => 0
    | b :: r => b % 2 + 2 * leBits r

/-! ### Additions, products and the fixed tree (05) -/

/-- add_cf of R86. -/
def addCf (a b : Num) : Num := roundGrid cfGrid (Num.add a b)
/-- add_32 of R86. -/
def add32 (a b : Num) : Num := r32 (Num.add a b)

/-- Largest power of two that is less than `n`, for `n ≥ 2`. -/
def leftPart (n : Nat) : Nat := 1 <<< Nat.log2 (n - 1)

/-- `tree` of R88 over a list, with fuel for its depth. -/
def treeGo {α : Type} (add : α → α → α) (d : α) : Nat → List α → α
  | 0, l => l.headD d
  | k + 1, l =>
    if l.length ≤ 1 then l.headD d
    else
      let h := leftPart l.length
      add (treeGo add d k (l.take h)) (treeGo add d k (l.drop h))

/-- `tree` of R88 (a list of no terms gives the default). -/
def tree (add : Num → Num → Num) (l : List Num) : Num := treeGo add Num.zero (Nat.log2 l.length + 2) l

/-- The operand path of a product (R87). -/
inductive Path
  | fp8 | int | bf16 | split
  deriving DecidableEq, Repr

/-- The chunked tree of R89 with a chunk addition and a total addition. -/
def chunkedTree (ca ta : Num → Num → Num) (p : List Num) : Num :=
  tree ta ((chunksOf 64 p).map (tree ca))

/-- Truncation of a finite value to a mantissa of 7 bits (R72). -/
def trunc8 : Num → Num
  | .fin s m e =>
    if m == 0 then .fin s 0 e
    else
      let q := Max.max (-133) (e + (Nat.log2 m + 1 : Nat) - 8)
      if q ≤ e then .fin s m e else .fin s (m >>> (q - e).toNat) q
  | x => x

/-- The BF16 pieces of an element of `n` pieces (R72). -/
def splitPieces : Nat → Num → List Num
  | 0, _ => []
  | 1, x => [narrowVal .bf16 x]
  | n + 1, x => let p := trunc8 x; p :: splitPieces n (Num.sub x p)

/-- Pieces of an element of a format on the SPLIT path (R92). -/
def piecesOf (f : Fmt) (x : Num) : List Num :=
  match f with
  | .fp32 => splitPieces 3 x
  | .fp16 => splitPieces 2 x
  | _ => [x]

/-- The piece products in the order of R92: descending i + j, then descending i. -/
def pieceProducts (pa pb : List Num) : List Num :=
  let na := pa.length
  let nb := pb.length
  ((List.range (na + nb - 1)).reverse.map fun t =>
    (List.range na).reverse.filterMap fun i =>
      if i ≤ t && t - i < nb then some (r32 (Num.mul (pa.getD i .zero) (pb.getD (t - i) .zero))) else none).flatten

/-- Folding a non-empty list from its first element. -/
def foldFirst (add : Num → Num → Num) : List Num → Num
  | [] => .zero
  | x :: r => r.foldl add x

/-- element_product of R92, with the rule for an infinite or NaN element. -/
def elementProduct (fa fb : Fmt) (a b : Num) : Num :=
  if a.isFin && b.isFin then foldFirst add32 (pieceProducts (piecesOf fa a) (piecesOf fb b))
  else r32 (Num.mul a b)

/-- A product on a path (R87, R92). -/
def product (path : Path) (fa fb : Fmt) (a b : Num) : Num :=
  match path with
  | .fp8 => Num.mul a b
  | .int => Num.mul a b
  | .bf16 => roundGrid cfGrid (Num.mul a b)
  | .split => elementProduct fa fb a b

/-- dot of R89 over the values of two rows. -/
def dot (path : Path) (fa fb : Fmt) (a b : List Num) : Num :=
  let p := List.zipWith (product path fa fb) a b
  match path with
  | .int => p.foldl Num.add .zero
  | .split => chunkedTree add32 add32 p
  | _ => chunkedTree addCf add32 p

/-- sat32 of R93: the value and the flag ACC_SATURATED. -/
def sat32 (v : Int) : Int × Bool :=
  if 2147483647 < v then (2147483647, true) else if v < -2147483648 then (-2147483648, true) else (v, false)

/-- The negated inner product or the squared distance on the SPLIT path (R97); both lists hold FP32 values. -/
def exactScore (dist : Nat) (fq fx : Fmt) (q x : List Num) : Num :=
  if dist == 2 then (dot .split fq fx q x).neg
  else
    let d := List.zipWith (fun a b => r32 (Num.sub a b)) q x
    dot .split .fp32 .fp32 d d

/-- adc sum of R96: the 16-bit sum and the flag ACC_SATURATED. -/
def adcSum16 (s : Nat) : Nat × Bool := if 65535 < s then (65535, true) else (s, false)

/-! ### The exponential and the square root, correctly rounded -/

/-- The alternating series of `exp (-t)`, `t` in fixed point of 300 bits. DEDUCED (log entry 5). -/
def expSeries (t : Nat) : Nat → Nat → Nat → Int → Int
  | 0, _, _, acc => acc
  | n + 1, k, term, acc =>
    expSeries t n (k + 1) (((term * t) >>> 300) / (k + 1)) (if k % 2 == 0 then acc + term else acc - term)

/-- Squaring `n` times in fixed point of 300 bits. DEDUCED (log entry 5). -/
def squareN : Nat → Nat → Nat
  | 0, x => x
  | n + 1, x => squareN n ((x * x) >>> 300)

/-- exp_rn of R98 for an argument of at most 0: the exponential rounded to FP32. The argument is divided by 1 024, its
exponential summed to 30 terms in fixed point of 300 fraction bits, and squared ten times; the error lies far below the
half spacing of FP32, so the rounding is the correct one (DEDUCED, notes/assumptions/5.md). DEDUCED (log entry 5). -/
def expRn : Num → Num
  | .nan => .nan
  | .inf _ => .zero
  | .fin _ m e =>
    if m == 0 then .fin false 1 0
    else if 7 < e + (Nat.log2 m : Int) then .zero
    else
      let t := roundNat m (e + 300 - 10)
      r32 (.fin false (squareN 10 (expSeries t 30 0 (1 <<< 300) 0).toNat) (-300))

/-- Integer square root by bits: `r` so far, bit `i` tried next. -/
def isqrtGo (n : Nat) : Nat → Nat → Nat
  | 0, r => r
  | i + 1, r => let c := r + (1 <<< i); if c * c ≤ n then isqrtGo n i c else isqrtGo n i r

/-- The integer square root. -/
def isqrt (n : Nat) : Nat := isqrtGo n (Nat.log2 n / 2 + 1) 0

/-- sqrt_rn: the square root rounded to FP32, of a value of at least 0. DEDUCED (log entry 5). -/
def sqrtRn : Num → Num
  | .nan => .nan
  | .inf s => if s then .nan else .inf false
  | .fin s m e =>
    if m == 0 then .fin s 0 0
    else if s then .nan
    else
      let k := 200 + (e % 2).toNat
      let n := m <<< k
      let r := isqrt n
      r32 (.fin false (2 * r + (if r * r == n then 0 else 1)) ((e - k) / 2 - 1))

/-- rowstat of R98: weights, row maximum and row sum as FP32 values, and whether the row holds a NaN. -/
def rowstat (v : List Num) : List Num × Num × Num × Bool :=
  if v.any Num.isNan then (v.map fun _ => .nan, .nan, .nan, true)
  else
    let mx := v.foldl (fun a b => if Num.lt a b then b else a) (v.headD .zero)
    let e := v.map fun x =>
      if mx.isInf then (if Num.le mx x then Num.fin false 1 0 else Num.zero) else expRn (r32 (Num.sub x mx))
    let s := tree add32 e
    (e.map fun x => r32 (Num.div x s), mx, s, false)

/-- The INT64 update of REDUCE_SHARED (R100). -/
def reduceInt64 (dst src : Int) : Int := signedOf 64 (unsignedOf 64 (dst + src))

/-! ### Exponent-plane packing (R60-R62) -/

/-- The bit stream of `cs`, each a field of `w` bits, as one number. -/
def bitStream (w : Nat) : List Nat → Nat
  | [] => 0
  | c :: r => c % (1 <<< w) + (bitStream w r <<< w)

/-- Number of low zero mantissa bits that every element of the block has, at most `m` (R61). -/
def mDrop (m : Nat) (mants : List Nat) : Nat :=
  ((List.range (m + 1)).reverse.find? fun d => mants.all fun x => x % (1 <<< d) == 0).getD 0

/-- Width that holds `n`. -/
def widthOf (n : Nat) : Nat := if n == 0 then 0 else Nat.log2 n + 1

/-- pack one block of at most 256 element codes (R61). -/
def packBlock (fcode : Nat) (f : Fmt) (cs : List Nat) : Bytes :=
  match f.em with
  | none => []
  | some (e, m) =>
    let n := cs.length
    let es := cs.map fun c => bits c (e + m - 1) m
    let base := es.foldl Min.min (es.headD 0)
    let ebits := widthOf (maxOf es - base)
    let drop := mDrop m (cs.map fun c => c % (1 <<< m))
    let w := 1 + m - drop
    let epl := ceilDiv (n * ebits) 8
    let len := roundUp 8 (8 + epl + ceilDiv (n * w) 8)
    let rawLen := roundUp 8 (8 + n * f.width / 8)
    let hdr (base ebits drop raw len : Nat) := toLE 8 (fcode + ((n - 1) <<< 8) + (base <<< 16) + (ebits <<< 24) + (drop <<< 32) + (raw <<< 40) + (len <<< 48))
    if len < rawLen then
      padTo 8 (hdr base ebits drop 0 len ++ toLE epl (bitStream ebits (es.map (· - base)))
        ++ toLE (ceilDiv (n * w) 8) (bitStream w (cs.map fun c => ((c >>> (e + m)) <<< (w - 1)) + ((c % (1 <<< m)) >>> drop))))
    else padTo 8 (hdr 0 0 0 1 rawLen ++ packElems f cs)

/-- decode one block (R60); `none` where it is malformed (R62). `last` tells whether it is the tile's last block. -/
def decodeBlock (fcode : Nat) (f : Fmt) (last : Bool) (b : Bytes) : Option (List Nat) :=
  match f.em with
  | none => none
  | some (e, m) =>
    let h := u64At b 0
    let n := bits h 15 8 + 1
    let base := bits h 23 16
    let ebits := bits h 31 24
    let drop := bits h 39 32
    let raw := bit h 40
    let len := bits h 63 48
    let w := 1 + m - drop
    let epl := ceilDiv (n * ebits) 8
    let want := if raw then roundUp 8 (8 + n * f.width / 8) else roundUp 8 (8 + epl + ceilDiv (n * w) 8)
    if bits h 7 0 ≠ fcode || bits h 47 41 ≠ 0 || e < ebits || m < drop || (!last && n ≠ 256) || len ≠ want || b.length < len then none
    else if raw then
      if base ≠ 0 || ebits ≠ 0 || drop ≠ 0 then none else some ((List.range n).map (elemAt f (b.drop 8)))
    else
      let ep := b.drop 8
      let sp := b.drop (8 + epl)
      let offs := (List.range n).map fun i => streamBits ep (i * ebits) ebits
      if offs.any fun o => (1 <<< e) - 1 < base + o then none
      else some ((List.range n).map fun i =>
        let sm := streamBits sp (i * w) w
        ((sm >>> (w - 1)) <<< (e + m)) + ((base + offs.getD i 0) <<< m) + ((sm % (1 <<< (w - 1))) <<< drop))

end Sys2Proof.Machine
end

