-- ==== Sys2Proof/Config.lean ====
section
/-! DEFINITION. What the spec fixes for each module and does not give here, and the free values. None of these constants
has a body, so that no proof can rest on what they are. -/

namespace Sys2Proof.Config

/-- A value that the spec leaves open; its argument is the step's own number (State.free). notes/assumptions/8.md. DESIGN CHOICE (log entry 8). -/
opaque freeValue : Nat → Nat

/-- The 16 characters of SERIAL_NUMBER (00 R2), 0 to 9 and A to Z. -/
opaque serial : Vector (Fin 36) 16

/-- The identity public key (17 R394): X and Y, 32 B each, big-endian. -/
opaque identityKey : Vector Byte 64

/-- The identity certificate (17 R395). -/
opaque identityCertificate : Bytes

/-- The SM2 signature of a digest under the identity key (17 R391); it may differ from call to call. DESIGN CHOICE (log entry 54). -/
opaque sm2Sign (call : Nat) (digest : Bytes) : Vector Byte 64

/-- Whether an SM2 signature of a digest verifies under a public key (17 R391). -/
opaque sm2Verify (key digest signature : Bytes) : Bool

/-- The public key of an X.509 certificate whose signature, validity dates and key usage hold (17 R408). -/
opaque certKey (certificate : Bytes) : Option Bytes

/-- Whether the key confirmation of an SM2 key exchange is the right one (14 R328). -/
opaque confirms (peerKey message : Bytes) : Bool

/-- The wrapped record of a new data key (17 R406). DESIGN CHOICE (log entry 54). -/
opaque wrapKey (draw : Nat) (kind id : Nat) : Bytes

/-- The log record of a unit of a collection, from what the unit holds: its layout is not stated (06 R120, 17 R414). DESIGN CHOICE (log entry 54). -/
opaque logRecord (kind : Nat) (content : Bytes) : Bytes

/-- The ROM's bytes, as measurement register 0 sees them (17 R403). -/
opaque romDigest : Vector Byte 32

/-- The helper data of the PUF (17 R393), and the records that the configuration flash holds at manufacture. -/
opaque helperDigest : Vector Byte 32

/-- The SM3 digest of a record that the module added to the configuration flash, in flash order; the layout of these records is not
stated (17 R393, R403). -/
opaque recordDigest : Nat → Vector Byte 32

/-- The two vendor public keys of epoch 0 (17 R399). -/
opaque vendorKey : Fin 2 → Vector Byte 64

/-- Minor version and patch of the image of a kind with which the module was shipped; its major version is 1 (00 R1). -/
opaque shippedVersion : Fin 4 → BitVec 24

/-- The image of a kind that the module holds at manufacture, in slot A. -/
opaque shippedImage : Fin 4 → Bytes

/-- Bytes 0 to 39 of black-box record 0, which is written at manufacture (19 R441). -/
opaque recordZero : Vector Byte 40

/-- The value of an attribute field of a row that another shard holds at an epoch: (COLLECTION_ID, epoch, identifier, field). No message carries
it (08 R177, 09 R199). DESIGN CHOICE (log entry 8). -/
opaque remoteValue (coll epoch id field : Nat) : Nat

/-- Where an area of an owner's logical pages begins: (owner kind, owner, area). The module allocates them (13 R296, R301). DESIGN CHOICE (log entry
40). -/
opaque lpnBase (kind owner area : Nat) : Nat

end Sys2Proof.Config
end

