-- ==== Sys2Proof/Machine/AdminTypes.lean ====
section
/-! DEFINITION. State of DAP, security, power and the black box (16, 17, 18, 19). -/

namespace Sys2Proof.Machine

/-- A staged value (16 R376, R378); the key is index × 256 + subindex. -/
structure Staged where
  key : Nat
  value : Bytes
  closed : Bool
  deriving DecidableEq, Repr

/-- State of a session's staged set (16 R379). -/
inductive StagePhase
  | empty | staged | checked | applying
  deriving DecidableEq, Repr

/-- A reply kept for repeats (16 R375). -/
structure Kept where
  requestId : Nat
  reply : Bytes
  deriving DecidableEq, Repr

/-- One DAP session (16 R369). -/
structure Session where
  id : Nat
  mgmt : Bool                   -- on the management port
  level : Nat                   -- role, 1 to 3
  role : Nat                    -- ROLE_ID of its key
  lastFrame : Nat               -- ns of its last valid frame
  staged : List Staged          -- ascending key
  groups : List Nat             -- commit groups owned
  phase : StagePhase
  kept : List Kept              -- newest last, at most 16
  outstanding : List Nat        -- REQUEST_IDs in progress
  highest : Option Nat
  readFrom : Nat                -- BLACKBOX_READ_FROM
  gone : Bool                   -- closed while APPLYING
  deriving DecidableEq, Repr

/-- A COMMIT_APPLY that runs or waits (16 R381). -/
structure Apply where
  session : Nat
  requestId : Nat
  received : Nat                -- ns
  deriving DecidableEq, Repr

/-- A DIAGNOSTIC_MODE write that waits for the module to be idle (19 R448). -/
structure DiagWait where
  session : Nat
  since : Nat                   -- ns
  frame : Bytes                 -- the request, which its reply answers
  deriving DecidableEq, Repr

/-- State of DAP. -/
structure Dap where
  sessions : List Session
  applies : List Apply          -- the head is the running one
  sequence : Nat                -- COMMIT_SEQUENCE
  lastTime : Nat                -- LAST_APPLY_TIME
  lastResult : Nat              -- LAST_APPLY_RESULT
  diagRequest : Option DiagWait
  deriving DecidableEq, Repr

/-- One role (17 R408). -/
structure Role where
  id : Nat
  key : Bytes
  ahp : Nat                     -- 0 NONE, 1 TENANT, 2 HOST_ADMIN
  dap : Nat                     -- 0 to 3
  deriving DecidableEq, Repr

/-- An image slot (17 R396). -/
structure ImageSlot where
  kind : Nat
  slot : Nat                    -- 0 A, 1 B
  image : Bytes                 -- empty when erased
  deriving DecidableEq, Repr

/-- An open image load (17 R404). -/
structure ImageLoad where
  session : Nat
  kind : Nat
  received : Bytes
  deriving DecidableEq, Repr

/-- The two vendor keys of an epoch (17 R399). -/
structure VendorKeys where
  epoch : Nat
  slot0 : Bytes
  slot1 : Bytes
  deriving DecidableEq, Repr

/-- A data key, named by its wrapped record (17 R406). -/
structure DataKey where
  kind : Nat                    -- 1 collection, 2 head
  id : Nat
  wrapped : Bytes
  deriving DecidableEq, Repr

/-- The state chain of a collection or a head (17 R414). -/
structure Chain where
  kind : Nat
  id : Nat
  digest : Bytes
  deriving DecidableEq, Repr

/-- State of the Medlar island and of the role table. -/
structure Sec where
  roles : List Role             -- ascending ROLE_ID
  epoch : Nat                   -- current vendor key epoch
  acceptFrom : Nat
  vendor : List VendorKeys
  minVersion : List Nat         -- minimum security versions, kinds 1 to 4
  slots : List ImageSlot
  lastGood : Nat                -- LAST_GOOD_SLOTS
  pendMask : Nat
  pendSlots : Nat
  attempts : Nat
  bootResult : Nat
  running : List Nat            -- VERSIONs of the running images, kinds 1 to 4
  load : Option ImageLoad
  loadState : Nat
  loadReason : Nat
  loadBytes : Nat
  measure : List Bytes          -- the eight measurement registers
  keys : List DataKey
  chains : List Chain
  records : Nat                 -- records that the module has added to the configuration flash (17 R393)
  signCount : Nat
  bootCount : Nat
  deriving DecidableEq, Repr

/-- Where the module is in its power states and start-up (18 R418, R431). P1 is P0 with every cluster gated and no command
outstanding (R419). -/
inductive PowerState
  | p0 | p2 | p3 | p4
  | recovery                    -- recovery mode (17 R402)
  | idFault                     -- no identity: the ROM has stopped (17 R394)
  deriving DecidableEq, Repr

/-- Thermal state of an HBM stack (18 R424). -/
structure Stack where
  state : Nat                   -- 0 NORMAL to 4 OUT_OF_SERVICE
  temp : Int                    -- 0.125 °C
  coolSince : Option Nat        -- ns since when every reading lies 3 °C below the present threshold
  deriving DecidableEq, Repr

/-- Thermal state and clock of a compute die (18 R427). -/
structure DieClock where
  temp : Int
  step : Nat                    -- steps below 1.2 GHz that the temperature demands, 0 to 2
  coolSince : Option Nat
  cap : Nat                     -- steps below 1.2 GHz that the power cap demands, 0 to 3
  mhz : Nat
  deriving DecidableEq, Repr

/-- State of power and thermal control and of the connector. -/
structure Power where
  state : PowerState
  entry : Option (Nat × Nat)    -- an entry in progress: target 2 or 3, ns of its start
  p2Since : Nat
  suspended : Nat                     -- ns spent in P2 and P3, which the patrols' passes do not count (18 R420)
  idleSince : Nat               -- ns: the last end of work that sends nothing (R420)
  gated : List Nat              -- clock-gated clusters
  hbmStacks : List Stack
  dies : List DieClock
  hubTemp : Int
  capSince : Option Nat         -- ns since when power lies below 95 % of the cap
  draining : List Nat           -- critical stacks whose admitted memory-layer commands still run
  degraded : Bool
  resetting : Option (Nat × Nat)   -- a reset under way (18 R430): its cause, ns of its start
  trips : List Int              -- times of recent thermal trips, ns
  tripHold : Bool
  tripAt : Option Nat           -- P4 was entered by a trip at this instant
  cause : Nat                   -- LAST_RESET_CAUSE
  startMs : Nat                 -- START_UP_TIME_MS
  inputMv : Nat
  inputW : Nat
  coolant : Int
  holdupMj : Nat
  holdupWeak : Bool
  slotId : Nat                  -- ENCLOSURE_SLOT
  pwrEn : Bool
  deriving DecidableEq, Repr

/-- An event on its way into the black box (19 R443). -/
structure Event where
  code : Nat
  severity : Nat
  unit : Nat
  detail : Bytes                -- 24 B
  time : Nat
  boot : Nat                    -- BOOT_COUNT when it occurred
  deriving DecidableEq, Repr

/-- A written event that still coalesces repeats (19 R442). -/
structure Recent where
  event : Event
  count : Nat
  deriving DecidableEq, Repr

/-- State of the black box, the control cores and diagnostic mode. -/
structure BlackBox where
  records : List Bytes          -- the ring, oldest first; the last is HEAD_SEQUENCE
  head : Nat                    -- HEAD_SEQUENCE
  fault : Bool
  queue : List Event
  recent : List Recent
  misread : Bool                -- the record being written read back differently once (R442)
  restarts : List (Nat × Nat)   -- restarts of the control cores: (0 service, 1 supervisor; ns)
  diag : Nat                    -- DIAGNOSTIC_STATE
  classes : List Nat            -- ERROR_CLASS_COUNTS
  deriving DecidableEq, Repr

end Sys2Proof.Machine
end

