-- ==== Sys2Proof/Machine/Digest.lean ====
section
/-! DEFINITION. The two checks that the spec computes over byte strings: CRC-32C (Castagnoli), and the SM3 digest of
GB/T 32905, which the spec names and whose algorithm is taken from that standard (PRESUMED, notes/assumptions/4.md). -/

namespace Sys2Proof.Machine

/-- Eight shift steps of the reflected CRC-32C register. -/
def crcSteps : Nat → BitVec 32 → BitVec 32
  | 0, c => c
  | n + 1, c => crcSteps n (if c.getLsbD 0 then (c >>> 1) ^^^ 0x82F63B78#32 else c >>> 1)

/-- The CRC-32C register after a byte string. -/
def crcRun : Bytes → BitVec 32 → BitVec 32
  | [], c => c
  | b :: r, c => crcRun r (crcSteps 8 (c ^^^ b.zeroExtend 32))

/-- CRC-32C of a byte string, as the U32 that a CRC field holds. PRESUMED (log entry 4). -/
def crc32c (b : Bytes) : Nat := (~~~ crcRun b 0xFFFFFFFF#32).toNat

/-- Big-endian word of four bytes. -/
def be32 : Bytes → BitVec 32
  | a :: b :: c :: d :: _ => BitVec.ofNat 32 (((a.toNat * 256 + b.toNat) * 256 + c.toNat) * 256 + d.toNat)
  | _ => 0

/-- The four bytes of a word, most significant first. -/
def toBE32 (w : BitVec 32) : Bytes :=
  [BitVec.ofNat 8 (w.toNat / 16777216), BitVec.ofNat 8 (w.toNat / 65536), BitVec.ofNat 8 (w.toNat / 256), BitVec.ofNat 8 w.toNat]

/-- The first permutation of SM3. -/
def sm3P0 (x : BitVec 32) : BitVec 32 := x ^^^ x.rotateLeft 9 ^^^ x.rotateLeft 17
/-- The second permutation of SM3. -/
def sm3P1 (x : BitVec 32) : BitVec 32 := x ^^^ x.rotateLeft 15 ^^^ x.rotateLeft 23

/-- The message schedule: `w` holds the words so far, newest first; `n` words are added. -/
def sm3Expand : Nat → List (BitVec 32) → List (BitVec 32)
  | 0, w => w
  | n + 1, w =>
    let g (k : Nat) := w.getD (k - 1) 0
    sm3Expand n ((sm3P1 (g 16 ^^^ g 9 ^^^ (g 3).rotateLeft 15) ^^^ (g 13).rotateLeft 7 ^^^ g 6) :: w)

/-- The eight registers of SM3. -/
structure Sm3Regs where
  a : BitVec 32
  b : BitVec 32
  c : BitVec 32
  d : BitVec 32
  e : BitVec 32
  f : BitVec 32
  g : BitVec 32
  h : BitVec 32
  deriving DecidableEq, Repr

/-- One round `j` of SM3 with the schedule words `w` and `w4` (four places on). -/
def sm3Round (r : Sm3Regs) (j : Nat) (w w4 : BitVec 32) : Sm3Regs :=
  let t : BitVec 32 := if j < 16 then 0x79CC4519#32 else 0x7A879D8A#32
  let ss1 := (r.a.rotateLeft 12 + r.e + t.rotateLeft (j % 32)).rotateLeft 7
  let ss2 := ss1 ^^^ r.a.rotateLeft 12
  let ff := if j < 16 then r.a ^^^ r.b ^^^ r.c else (r.a &&& r.b) ||| (r.a &&& r.c) ||| (r.b &&& r.c)
  let gg := if j < 16 then r.e ^^^ r.f ^^^ r.g else (r.e &&& r.f) ||| (~~~ r.e &&& r.g)
  let tt1 := ff + r.d + ss2 + (w ^^^ w4)
  let tt2 := gg + r.h + ss1 + w
  { a := tt1, b := r.a, c := r.b.rotateLeft 9, d := r.c, e := sm3P0 tt2, f := r.e, g := r.f.rotateLeft 19, h := r.g }

/-- The rounds from round `j` over the rest of the schedule. -/
def sm3Rounds : Nat → Nat → List (BitVec 32) → Sm3Regs → Sm3Regs
  | 0, _, _, r => r
  | n + 1, j, w, r => sm3Rounds n (j + 1) (w.drop 1) (sm3Round r j (w.getD 0 0) (w.getD 4 0))

/-- One block of 64 bytes. -/
def sm3Block (v : Sm3Regs) (blk : Bytes) : Sm3Regs :=
  let w := ((chunksOf 4 blk).map be32).reverse
  let sched := (sm3Expand 52 w).reverse
  let r := sm3Rounds 64 0 sched v
  { a := r.a ^^^ v.a, b := r.b ^^^ v.b, c := r.c ^^^ v.c, d := r.d ^^^ v.d,
    e := r.e ^^^ v.e, f := r.f ^^^ v.f, g := r.g ^^^ v.g, h := r.h ^^^ v.h }

/-- The message with its padding: a one bit, zeros, and its length in bits as a big-endian U64. -/
def sm3Pad (b : Bytes) : Bytes :=
  b ++ [0x80#8] ++ zeros ((119 - b.length % 64) % 64) ++ (toLE 8 (8 * b.length)).reverse

/-- The SM3 digest, 32 bytes. PRESUMED (log entry 4). -/
def sm3 (b : Bytes) : Bytes :=
  let v0 : Sm3Regs := { a := 0x7380166F#32, b := 0x4914B2B9#32, c := 0x172442D7#32, d := 0xDA8A0600#32,
                        e := 0xA96F30BC#32, f := 0x163138AA#32, g := 0xE38DEE4D#32, h := 0xB0FB0E4E#32 }
  let r := (chunksOf 64 (sm3Pad b)).foldl sm3Block v0
  ([r.a, r.b, r.c, r.d, r.e, r.f, r.g, r.h].map toBE32).flatten

/-- The low 64 bits of an SM3 digest: its bytes 0 to 7 read as a little-endian U64 (R54). PRESUMED (log entry 4). -/
def sm3Low64 (b : Bytes) : Nat := u64At (sm3 b) 0

/-- A structure with its CRC-32C of all bytes so far appended as a U32. -/
def withCrc (b : Bytes) : Bytes := b ++ toLE 4 (crc32c b)

end Sys2Proof.Machine
end

