-- ==== Sys2Proof/Machine/HeadTypes.lean ====
section
/-! DEFINITION. State of memory heads and of the memory-layer commands in flight (10, 11). Values in FP32 are held as
their codes. -/

namespace Sys2Proof.Machine

/-- An FP32 master row and its optimiser state (10 R210, 11 R254). -/
structure Master where
  slot : Nat
  x : List Nat
  m : List Nat
  v : Nat
  deriving DecidableEq, Repr

/-- One token of a stashed micro-batch (03 R57), with the half selections that the forward formed. -/
structure StashTok where
  token : Nat
  slots : List Nat              -- in rank order
  weights : List Nat            -- wb[n], BF16 codes; empty in RECOMPUTE form
  rowScale : Nat                -- BF16 code; 0 in RECOMPUTE form
  codes : List Nat              -- FP8_E4M3 codes of q; empty in RECOMPUTE form
  half1 : List Nat              -- sub-keys kept of table 1, by rank
  half2 : List Nat
  deriving DecidableEq, Repr

/-- The stash of one micro-batch (11 R240). -/
structure StashMb where
  step : Nat
  mb : Nat
  order : Nat                   -- admission order of its forward
  plan : Nat
  tokens : Nat
  recompute : Bool
  ready : Bool                  -- its forward has completed
  toks : List StashTok
  inputs : List (List Nat)      -- retained ACT_FORMAT codes, or input rows when D_MODEL is 0
  wides : List (Nat × Nat × List Nat) -- the model's own: token, first column and BF16 codes of what a RECOMPUTE forward ran wide (11 R242)
  actScale : Nat                -- FP32 code of the step's projection-input scale
  stashBytes : Nat              -- stash-region space reserved
  inputBytes : Nat              -- input-region space reserved
  deriving DecidableEq, Repr

/-- A gradient record (03 R58). -/
structure GradRec where
  slot : Nat
  rank : Nat
  head : Nat
  token : Nat
  mb : Nat
  elems : List Nat
  deriving DecidableEq, Repr

/-- A step accumulator of a replicated tensor row (11 R247): tensor 1, 2 or 3. -/
structure Accum where
  tensor : Nat
  row : Nat
  elems : List Nat
  deriving DecidableEq, Repr

/-- What the backwards of one step have left on a head (11 R239, R244, R247, R249). -/
structure BwdStep where
  step : Nat
  mask : Bytes                      -- train mask of its first backward
  noted : List (Nat × Nat)          -- admission order and MICRO_BATCH of its backwards
  records : List GradRec            -- of its completed backwards, not yet folded
  table : List (Nat × List Nat)     -- slot-gradient table, ascending slot
  accums : List Accum               -- accumulators that have received a contribution
  deriving DecidableEq, Repr

/-- One memory head (10 R206-R216, 11 R236-R252). -/
structure Head where
  id : Nat
  owner : Nat
  desc : Bytes
  rows : List (Nat × Nat × Bytes)   -- (tensor 1-4, row or slot, bytes); a row never written holds zero bytes
  tiles : List (Nat × Bytes)        -- tensors 5-13 that have been written
  masters : List Master
  trained : Option Nat              -- TRAINED_STEP
  openStep : Option Nat             -- the step whose projection-input scale is fixed
  seenSteps : List (Nat × Nat)      -- STEP and admission order of forwards that were checked and have not run (R216)
  closedSteps : List Nat            -- the steps that have closed
  stepScale : Nat                   -- its scale, an FP32 code, which TENSOR_SCALE of tensor 13 holds (R77)
  calib : Bytes                     -- tensor 13 as a HEAD_TENSOR_WRITE or a ring write last left it (R215)
  stepMax : List Nat                -- per-column maxima of the open step; empty where no command contributed
  gradStep : Option Nat             -- the open gradient step
  gradPlan : Nat                    -- the plan whose gradient calibration tile it uses
  gradScale : Nat
  gradMax : List Nat
  stash : List StashMb
  steps : List BwdStep              -- steps with an admitted backward and no update yet
  deleting : Bool
  deleteSeq : Option Nat
  damagedRows : List Nat            -- value-row blocks with uncorrectable data; fillId names a replicated tensor
  damagedTile : Bool                -- the value table's scale tile or side tensor has uncorrectable data
  damagedAccum : Bool               -- a gradient record, an accumulator or the slot-gradient table has uncorrectable data
  healed : List (Nat × Nat)         -- what has been recovered since, with the place in the order of admission from which commands read it whole
  restoring : Bool                  -- value rows not yet back in HBM after a reset (18 R432)
  members : List Nat                -- the member list of its group at its creation (R212)
  deriving DecidableEq, Repr

/-- What one member has sent of an exchange (10 R229, 11 R245). -/
structure PeerPart where
  pos : Nat
  rows : List (Nat × List Nat)      -- token, values: a partial row, or a rank mask followed by the dw values
  next : Nat                        -- first token of the part still awaited
  complete : Bool
  incomplete : Bool
  deriving DecidableEq, Repr

/-- Stage of a memory-layer command in flight. -/
inductive MemPhase
  | waiting     -- waits for an earlier write, update or forward (R216, R237)
  | held        -- held for stash space (11 R241)
  | banks       -- waits for its plan's scratchpad banks (12 R273)
  | exchange
  deriving DecidableEq, Repr

/-- A forward micro-batch in flight (10 R217-R231). -/
structure MemFwd where
  seq : Nat
  head : Nat
  order : Nat                       -- its command's place in the order of admission
  plan : Nat
  step : Nat
  mb : Nat
  last : Bool
  stash : Bool
  tokens : Nat
  request : Bytes
  digest : Nat
  replica : Nat
  phase : MemPhase
  since : Nat                       -- ns: since when it is held, or when its partials were sent
  attempt : Nat
  own : List (Nat × List Nat)       -- own partial rows, by token
  parts : List PeerPart
  dones : List Nat
  maxima : List Nat                 -- per-column maxima of the input
  incomplete : Bool
  media : List Nat
  flags : Nat
  recompute : Bool
  pages : List Nat                  -- value-row blocks awaited (R232)
  deriving DecidableEq, Repr

/-- A backward micro-batch in flight (11 R243-R248). -/
structure MemBwd where
  seq : Nat
  head : Nat
  plan : Nat
  step : Nat
  mb : Nat
  last : Bool
  tokens : Nat
  request : Bytes
  digest : Nat
  replica : Nat
  phase : MemPhase
  since : Nat
  attempt : Nat
  ghat : List (List Nat)            -- dequantised gradient rows, FP32 codes
  dwOwn : List (Nat × List Nat)     -- token: rank mask, then dw values
  records : List GradRec
  parts : List PeerPart
  dones : List Nat
  maxima : List Nat
  incomplete : Bool
  media : List Nat
  flags : Nat
  pages : List Nat                  -- value pages awaited
  deriving DecidableEq, Repr

/-- A wire message of a bucket that this rank has received and not yet discarded (11 R257-R260). -/
structure RedMsg where
  rank : Nat                        -- SENDER_RANK
  result : Bool                     -- REDUCE_RESULT; otherwise REDUCE_PARTIAL
  block8 : Bool
  ovf : Bool                        -- OVERFLOW
  shifts : List Nat                 -- one per block; none in BINARY32
  codes : List Nat                  -- FP8_E4M3 codes, or FP32 codes in BINARY32
  deriving DecidableEq, Repr

/-- One bucket of a reduction at this rank (11 R257-R259). -/
structure Bucket where
  idx : Nat
  amax : List (Nat × Nat)           -- (rank, FP32 code of its maximum)
  inbox : List RedMsg
  chain : Option (List Nat)         -- shifts of the partial sent along the chain
  leader : Option (List Nat)        -- shifts of the partial sent between sub-groups
  final : Option (List Nat)         -- shifts of the broadcast formed here
  ovf : Bool                        -- OVERFLOW
  fell : Bool                       -- reduced again in BINARY32 (R259)
  result : Option (List Nat)        -- FP32 codes
  deriving DecidableEq, Repr

/-- One sampled element of a rank's own reduction step (11 R262). -/
structure Sample where
  index : Nat
  contribution : Nat
  shiftChain : Nat
  shiftLeader : Nat
  shiftFinal : Nat
  deriving DecidableEq, Repr

/-- The samples of one rank in one bucket. -/
structure RankSamples where
  rank : Nat
  bucket : Nat
  samples : List Sample
  deriving DecidableEq, Repr

/-- An update in flight (11 R251-R264). DESIGN CHOICE (log entry 63). -/
structure Update where
  seq : Nat
  head : Nat
  plan : Nat
  step : Nat
  request : Bytes
  digest : Nat
  ring : List Nat                   -- module indices by rank
  rank : Nat
  g : List Nat                      -- this rank's replicated gradient
  attempt : Nat
  buckets : List Bucket
  samples : List RankSamples        -- this rank's own among them, once sent
  verdicts : List (Nat × Nat)       -- by rank, this rank's own among them
  mismatches : Nat                  -- consecutive MISMATCH outcomes of the STEP
  since : Nat                       -- ns: since when it is ready for what it lacks
  pages : List Nat                  -- master pages awaited
  media : List Nat                  -- value-row blocks with uncorrectable data
  deriving DecidableEq, Repr

/-- A message of the memory layers that came before its command started here. -/
structure Early where
  peer : Nat
  type : Nat
  payload : Bytes
  deriving DecidableEq, Repr

/-- A HEAD_TENSOR_WRITE of several write units that are not all durable (15 R363). -/
structure HeadWrite where
  tag : Nat                         -- UNIT_TAG of its units
  seq : Nat
  head : Nat
  tensor : Nat
  first : Nat                       -- the first row of the next unit of tensors 1 to 4
  landed : Bytes                    -- what has become durable of tensors 5 to 13
  stored : Nat                      -- rows that this module has stored
  units : List Bytes                -- the units that are left, in offset order
  deriving DecidableEq, Repr

/-- State of the memory layers. -/
structure Mem where
  heads : List Head
  early : List Early                -- oldest first
  fwds : List MemFwd
  bwds : List MemBwd
  upds : List Update
  writes : List HeadWrite           -- oldest first
  failed : List (Nat × Nat)         -- (group, module declared failed) (11 R264)
  degraded : List Nat               -- groups with a degraded member (11 R265)
  lastFailed : Nat                  -- LAST_FAILED_MODULE
  deriving DecidableEq, Repr

end Sys2Proof.Machine
end

