-- ==== Sys2Proof/Machine/NetTypes.lean ====
section
/-! DEFINITION. State of the Ethernet attachment: sub-ports, connections, time, and what the module has sent
(14 R317-R340, 20 R456). -/

namespace Sys2Proof.Machine

/-- Connection states, with the codes of 14 R333. -/
inductive ConnPhase
  | established | keying | negotiating | open_ | suspended
  deriving DecidableEq, Repr

/-- A priority of a sub-port that the link partner has paused (14 R326). -/
structure Pause where
  prio : Nat
  since : Nat                   -- ns: since when it has stayed paused
  last : Nat                    -- ns of the last pause frame
  storm : Bool
  deriving DecidableEq, Repr

/-- One sub-port of a port in its present mode (14 R317). -/
structure SubPort where
  port : Nat
  sub : Nat
  up : Bool
  downSince : Nat
  pauses : List Pause
  deriving DecidableEq, Repr

/-- One connection that is not closed (14 R331-R335). DESIGN CHOICE (log entries 7, 49). -/
structure Conn where
  qpn : Nat
  remote : Nat                  -- remote QP number
  mtu : Nat                     -- path MTU, B
  port : Nat
  sub : Nat
  proto : Nat                   -- 1 AHP, 2 SPP; 0 before HELLO
  major : Nat
  minor : Nat
  phase : ConnPhase
  peer : Nat                    -- module index, 0xFFFF for a host
  key : Bytes                   -- remote SM2 public key once authenticated
  role : Nat                    -- ROLE_ID of the key, 0 for none
  initiator : Bool              -- this module initiated the connection
  keyStep : Nat                 -- LINK_KEY messages taken or sent so far
  txPackets : Nat               -- packets sent under the current key (PACKET_NUMBER)
  unacked : Nat                 -- packets sent that are not acknowledged
  sentAt : Nat                  -- ns: since when its acknowledgement timer runs (R324)
  txPhase : Bool
  rxPhase : Bool
  rxNew : Nat                   -- packets of the new phase authenticated while the old key is kept
  rxOld : Bool                  -- the previous receive key is still kept
  authRun : Nat                 -- consecutive authentication failures
  psn : Nat                     -- next packet sequence number expected
  txSeq : Nat                   -- SPP frames sent
  rxSeq : Nat                   -- SPP frames received
  creditMsgs : Nat              -- credit held towards the other end (R335)
  creditBytes : Nat
  owedMsgs : Nat                -- credit to return
  owedBytes : Nat
  heldMsgs : Nat                -- credit that the other end holds
  heldBytes : Nat
  startMsgs : Nat               -- the initial credit received
  startBytes : Nat
  grantMsgs : Nat               -- the initial credit granted
  grantBytes : Nat
  rnr : List Nat                -- ns of recent receiver-not-ready NAKs
  rc : Rat                      -- rate, Mb/s (R327)
  rt : Rat
  alpha : Rat
  periods : Nat                 -- recovery periods since the last CNP
  rpAt : Nat                    -- ns: since when the present recovery period runs (R327)
  cnpAt : Option Nat            -- ns of the last CNP sent
  retries : Nat
  lastTraffic : Nat             -- ns
  suspendedAt : Nat             -- ns
  deriving DecidableEq, Repr

/-- A connection that the module has asked a peer for (14 R325, 18 R423). -/
structure ConnReq where
  peer : Nat
  since : Nat
  repeated : Bool
  deriving DecidableEq, Repr

/-- An SPP message that waits for a connection or for credit (14 R335). -/
structure SppWait where
  peer : Nat
  type : Nat
  payload : Bytes
  deriving DecidableEq, Repr

/-- What the module sends. The model's own record of its output, newest last. DESIGN CHOICE (log entry 12). -/
inductive Out
  | completion (conn : Nat) (bytes : Bytes)                   -- a SEND of a completion record (15 R347)
  | xrdy (conn : Nat) (bytes : Bytes)                         -- a SEND of XRDY (15 R349)
  | write (conn addr key : Nat) (bytes : Bytes)               -- an RDMA WRITE of output
  | spp (peer type : Nat) (payload : Bytes)                   -- an SPP message
  | credit (conn : Nat)                                       -- a CREDIT frame (14 R335)
  | nak (conn kind : Nat)                                     -- 1 sequence error, 2 invalid request, 3 remote access error, 4 receiver not ready
  | ack (conn : Nat)
  | cnp (conn : Nat)
  | resend (conn : Nat)                                       -- unacknowledged packets sent again
  | keyB (conn : Nat) | keyA (conn : Nat) | keyC (conn : Nat) -- LINK_KEY messages (14 R328)
  | hello (conn : Nat) (bytes : Bytes)
  | helloReply (conn : Nat) (bytes : Bytes)
  | cmReply (conn : Nat) | cmReject (remote : Nat) | cmRequest (peer : Nat) (toPort0 : Bool) | cmDisconnect (conn : Nat)
  | dapReply (session : Nat) (frame : Bytes)
  deriving DecidableEq, Repr

/-- State of the attachment. -/
structure Net where
  cages : List Nat              -- CAGE_MEDIUM of the four cages
  subs : List SubPort
  conns : List Conn             -- ascending QPN
  nextQpn : Nat
  requests : List ConnReq
  waits : List SppWait          -- oldest first
  timeState : Nat               -- TIME_STATE
  offset : Int                  -- PTP_OFFSET_NS
  lastSync : Nat                -- ns
  locked : Bool                 -- locked since start-up
  mgmtUp : Bool
  lastOut : Nat                 -- ns of the last output
  out : List Out
  deriving DecidableEq, Repr

end Sys2Proof.Machine
end

