-- ==== Sys2Proof/Machine/QueueTypes.lean ====
section
/-! DEFINITION. State of the AHP front end: submission entries, commands, queues, plans (15 R342-R358, 02 R32-R40). -/

namespace Sys2Proof.Machine

/-- The fields of a submission entry (15 R345). -/
structure Entry where
  opcode : Nat
  fence : Bool
  arg2 : Nat
  cmdId : Nat
  target : Nat
  arg0 : Nat
  arg1 : Nat
  inAddr : Nat
  inKey : Nat
  inLen : Nat
  outAddr : Nat
  outKey : Nat
  outLen : Nat
  deriving DecidableEq, Repr

/-- What FIELD_OFFSET counts from (15 R348). -/
inductive FieldSource
  | none | entry | payload | tile
  deriving DecidableEq, Repr

/-- The content of a completion that is ready to be sent (15 R347). -/
structure Comp where
  status : Nat
  info : Nat := 0
  source : FieldSource := .none
  offset : Nat := 0
  outBytes : Nat := 0
  flags : Nat := 0
  deriving DecidableEq, Repr

/-- A plan held by the module (02 R32, R40; 15 R358). DESIGN CHOICE (log entry 63). -/
structure Plan where
  kind : Nat                    -- 1 SEARCH, 2 MEMORY_LAYER, 3 INDEX_BUILD
  target : Nat                  -- COLLECTION_ID or HEAD_ID
  planId : Nat
  bytes : Bytes
  bound : Bool
  tiles : List (Nat × Bytes)    -- contents of the constant-filled tiles (R34), by TILE_ID
  deriving DecidableEq, Repr

/-- How far a command has come (15 R343, R346, R353; 06 R462). DESIGN CHOICE (log entry 11). -/
inductive CmdPhase
  | received      -- accepted at R346, not dispatched
  | dispatched    -- dispatched; its hold under R462 or its chapter's rule has not ended
  | admitted      -- admitted; its input has not been checked
  | working       -- its input passed; its work runs
  | done          -- its completion is ready to be sent
  deriving DecidableEq, Repr

/-- One outstanding command. DESIGN CHOICE (log entry 11). -/
structure Cmd where
  seq : Nat                     -- order of receipt on the module (the model's own number)
  queue : Nat
  entry : Entry
  arrived : Nat                 -- time stamp of the entry's arrival, ns (07 R138)
  phase : CmdPhase
  dispatchedAt : Nat            -- ns; 0 before dispatch
  dispatchEpoch : Nat           -- epoch of its collection at its dispatch (R359)
  epoch : Nat                   -- epoch taken at admission (06 R122); 0 before
  held : List Nat               -- snapshot epochs that a query could name at its admission (06 R125)
  deadline : Nat                -- deadline instant of its query, ns; 0 for none (07 R156)
  config : List (Nat × Bytes)   -- the dictionary values as they stood at its admission (06 R127, 07 R164)
  late : Bool                   -- resolves its target when an earlier create or delete completes (R346)
  internal : Bool               -- started by the module itself (an automatic MERGE, 06 R124)
  order : Nat                   -- order of admission on the module; 0 before (12 R273, 10 R216)
  plan : Option Plan            -- the plan that it named, as it was at its admission (R358)
  report : Bytes                -- what its admission gave: a report, the bound of a reset, or one byte where it had its effect
  replica : Nat                 -- replica digest of its head, as it was at its admission (10 R215)
  stalledAt : Option Nat        -- ns: since when it waits for value rows that are not in HBM (10 R232)
  waitsFor : List Nat           -- commands whose completions are sent before its own (R354)
  tileFlags : Nat               -- the flags of the tiles that its plan's micro-operations wrote (05 R94)
  comp : Option Comp
  deriving DecidableEq, Repr

/-- One submission queue (15 R342). -/
structure Queue where
  qid : Nat
  conn : Nat                    -- its connection (QPN)
  role : Nat                    -- tenant role of the connection (R344)
  admin : Bool                  -- the role is of the host administrator kind (R355)
  minor : Nat                   -- negotiated AHP minor version
  depth : Nat
  cls : Nat                     -- 0 URGENT, 1 HIGH, 2 MEDIUM, 3 LOW
  suspended : Bool              -- R337
  deriving DecidableEq, Repr

/-- State of the AHP front end. -/
structure Ahp where
  cmds : List Cmd
  queues : List Queue
  nextSeq : Nat
  nextOrder : Nat
  used : List Nat               -- used[high], used[medium], used[low] (R352)
  last : List (Option Nat)      -- last[c] of the four classes (R352)
  plans : List Plan
  closed : List Nat             -- commit groups for which admission is closed (16 R381)
  admissionOpen : Bool          -- false in diagnostic mode, power fail, recovery (18 R429, 19 R448)
  deriving DecidableEq, Repr

end Sys2Proof.Machine
end

