-- ==== Sys2Proof/Machine/SearchTypes.lean ====
section
/-! DEFINITION. State of collections, queries, sharding and their units (06, 07, 08, 09). -/

namespace Sys2Proof.Machine

/-- One stored vector (06 R109, R119). -/
structure Row where
  id : Nat
  code : Bytes
  attr : Bytes
  full : Bytes
  pq : Bytes                    -- empty on the append list
  epoch : Nat                   -- stamp of the unit that wrote it
  deriving DecidableEq, Repr

/-- One node entry with its centroid (06 R108). -/
structure Node where
  first : Nat                   -- FIRST_CHILD
  count : Nat                   -- CHILD_COUNT, 0 for a leaf
  vectors : Nat                 -- VECTOR_COUNT
  centroid : Bytes
  deriving DecidableEq, Repr

/-- One tree version (06 R106, R117). -/
structure Tree where
  epoch : Nat                   -- epoch at which it was committed
  rootChildren : Nat
  levels : List (List Node)     -- levels 1 to DEPTH
  parts : List (List Row)       -- partitions, each in ascending identifier
  codebook : Bytes              -- PQ codebook (03 R48), empty without one
  deriving DecidableEq, Repr

/-- One append-list entry (06 R119). -/
structure AEntry where
  row : Row
  foldedAt : Option Nat         -- epoch of the tree version that holds it
  deriving DecidableEq, Repr

/-- One tombstone (06 R119). -/
structure Tomb where
  id : Nat
  epoch : Nat
  recent : Bool                 -- still in the recent-tombstone table
  foldedAt : Option Nat         -- epoch of the tree version that has applied it
  deriving DecidableEq, Repr

/-- What a committing unit does when it is stamped (06 R120). -/
inductive UnitBody
  | insert (rows : List Row)
  | delete (ids : List Nat)
  | version (tree : Tree) (cut folded : Nat)       -- a new tree version, its cut epoch, and how many unfolded append entries stamped at or below
                                -- the cut it folds
  | handOver (bucket : Nat)                         -- a bucket's cutover at its source (09 R203)
  | takeOver (bucket epoch : Nat) (rows : List Row) -- the same at its target, with the keeper epoch
  deriving DecidableEq, Repr

/-- Where the outcome of a unit goes (06 R120, 09 R188, R200). -/
inductive UnitFrom
  | command (seq : Nat)
  | peer (sender tag : Nat)
  | local_                      -- the module's own bucket work
  deriving DecidableEq, Repr

/-- How far a unit has come (06 R120, R121). -/
inductive UnitPhase
  | waits       -- waits for room in the append list or in the table of recent tombstones
  | writing     -- its HBM state and its log record are being written
  | logged      -- its log record is durable; it waits for its epoch (09 R189)
  deriving DecidableEq, Repr

/-- A unit that has not been stamped. -/
structure CUnit where
  tag : Nat                     -- UNIT_TAG at this module
  coll : Nat
  body : UnitBody
  origin : UnitFrom
  phase : UnitPhase
  limit : Nat                   -- APPEND_LIST_LIMIT and AUTO_MERGE_APPEND that it is held to (R127)
  auto : Nat
  deriving DecidableEq, Repr

/-- A sub-batch forwarded to another owner and not yet answered (09 R188). -/
structure Fwd where
  tag : Nat
  shard : Nat
  owner : Nat
  count : Nat
  body : Bytes
  deriving DecidableEq, Repr

/-- One INSERT or DELETE command at work (06 R118, R119). -/
structure Ingest where
  seq : Nat
  coll : Nat
  insert : Bool
  rows : List (List Row)        -- batches not yet started (INSERT)
  ids : List (List Nat)         -- batches not yet started (DELETE)
  pending : List Nat            -- tags of this module's units in the running batch
  fwds : List Fwd               -- forwarded sub-batches of the running batch
  batch : Nat                   -- vectors or identifiers of the running batch
  committed : Nat               -- vectors or identifiers in committed batches
  live : Nat                    -- identifiers found live (DELETE)
  lastEpoch : Nat
  limit : Nat                   -- APPEND_LIST_LIMIT and AUTO_MERGE_APPEND as its command took them (R127)
  auto : Nat
  since : Nat                   -- ns: since when its running batch has waited (09 R192)
  deriving DecidableEq, Repr

/-- State of an epoch grant at the keeper (09 R189, R192). -/
inductive GrantState
  | granted | stamped | void
  deriving DecidableEq, Repr

/-- A grant of the epoch keeper. -/
structure Grant where
  epoch : Nat
  tag : Nat
  owner : Nat
  state : GrantState
  at_ : Nat                     -- ns
  due : Nat                     -- ns: until when it must be stamped, by the SHARD_TIMEOUT_US of its grant (R205)
  deriving DecidableEq, Repr

/-- A bucket move under way at its source (09 R203). -/
structure Move where
  bucket : Nat
  target : Nat                  -- module index of the target
  targetShard : Nat
  unsent : List Row             -- live rows not yet sent
  unsentDel : List Nat          -- identifiers deleted since their copy was sent
  sent : Option (Nat × List Row × List Nat)   -- the unit not yet answered: its tag, its rows, its identifiers
  cutover : Option (Nat × Nat)  -- tag and epoch of the cutover once BUCKET_CUTOVER is sent
  deriving DecidableEq, Repr

/-- Sharding state of a collection that a shard map names (09 R187-R192, R203). -/
structure Shard where
  learned : List (Nat × Nat)    -- (stable epoch, ns at which it was learned), oldest first
  holdFrom : Nat                -- lowest epoch that is still kept (R191)
  grants : List Grant           -- at the keeper: void grants, and grants above the stable epoch, in ascending epoch
  stamped : List (Nat × Nat)    -- this module's units by tag, with the epoch at which each was stamped, while it is held (R192)
  taken : List (Nat × Nat × Nat)  -- buckets taken over whose cutover is not yet stable: (bucket, its epoch, module index of the source)
  nextEpoch : Nat               -- at the keeper
  stableSent : Nat              -- at the keeper: stable epoch last sent down the tree
  stableAt : Nat                -- ns of that sending
  reach : List (Nat × Nat)      -- (queue, highest epoch at which its commands have committed) (R190)
  liveOwner : List (Nat × Nat)  -- buckets whose live owner differs from the map: (bucket, module index)
  toMove : List Nat             -- changed buckets not yet started, ascending
  move : Option Move
  deriving DecidableEq, Repr

/-- The structural command running on a collection (06 R124). -/
structure Job where
  seq : Nat
  kind : Nat                    -- 1 MERGE, 2 BUILD_INDEX, 3 LOAD_INDEX
  deriving DecidableEq, Repr

/-- One collection (06 R102-R125). -/
structure Coll where
  id : Nat
  owner : Nat                   -- tenant role
  schema : Bytes
  epoch : Nat
  trees : List Tree             -- newest first
  append : List AEntry          -- in commit order
  tombs : List Tomb             -- in commit order
  snapshots : List Nat
  reserved : Nat                -- append-list entries for which HBM was reserved at creation (R128)
  job : Option Job
  autoOff : Bool                -- no automatic MERGE until a build or load commits (R123)
  deleting : Bool               -- its DELETE_COLLECTION has taken effect (R105)
  deleteSeq : Option Nat        -- that command
  unrestored : List Nat         -- partitions whose stripes are not yet back in HBM after a reset (13 R313)
  damaged : List Nat            -- parts whose data is uncorrectable and not recovered (12 R285): partitions, 0xFFFFFFFF the append list, 0xFFFFFFFE
                                -- the tree, 2^32 + p the pinned full vectors of partition p
  healed : List (Nat × Nat)     -- parts recovered since, with the place in the order of admission from which commands read them whole
  shard : Option Shard
  deriving DecidableEq, Repr

/-- One candidate or result entry (03 R56, 08 R165). -/
structure Cand where
  score : Nat                   -- canonical FP32 code
  id : Nat
  stage : Nat
  shard : Nat
  part : Nat                    -- partition that it came from; 0xFFFFFFFF for the append list
  deriving DecidableEq, Repr

/-- Progress of one probed partition (07 R140-R148). -/
structure Probe where
  part : Nat
  groups : List (Nat × Nat)     -- (stripe, row group) scanned
  matched : Nat                 -- rows live at E that pass the filter, once it is complete
  damaged : Bool                -- uncorrectable data met (R162)
  complete : Bool
  deriving DecidableEq, Repr

/-- Where a query stands (07 R129). -/
inductive QPhase
  | scanning      -- stages 1 and 2 and the append-list pass
  | adc           -- stage 3 is next
  | rerank        -- stage 5 is next
  | final         -- stage 6 is next
  | shards        -- a coordinator waiting for shard replies
  | finished
  deriving DecidableEq, Repr

/-- Who asked for a query. -/
inductive QFrom
  | search (seq : Nat)
  | count (seq : Nat)                       -- UNIQUE_COUNT over its results
  | column (seq : Nat)                      -- UNIQUE_COUNT over a column
  | peer (module qid : Nat)                 -- a coordinator elsewhere
  | self (qid : Nat)                        -- this module's own shard of its own query
  deriving DecidableEq, Repr

/-- A shard of a coordinator's query (09 R193-R202). -/
structure ShardWait where
  shard : Nat
  owner : Nat
  list : Option (List Cand × Nat × Nat)     -- entries, VALID_COUNT is their number, BOUNDARY_TIES, K
  degraded : Bool
  skips : List Nat                          -- skip entries of its replay record, with markers
  stages : Nat
  media : List Nat
  status : Nat
  offset : Nat
  skipped : Bool                            -- skipped at T_SH or listed whole
  replied : Bool
  deriving DecidableEq, Repr

/-- A query at work (07 R129-R162). -/
structure Query where
  key : Nat                     -- the model's own number of the query
  origin : QFrom
  coll : Nat
  plan : Nat                    -- PLAN_ID
  tag : Nat                     -- QUERY_TAG
  record : Bytes                -- the query record
  request : Bytes               -- the UNIQUE_COUNT request, empty for a SEARCH
  epoch : Nat                   -- E
  deadline : Nat                -- deadline instant, ns; 0 when none
  order : Nat                   -- its command's place in the order of admission
  exact : Bool                  -- MODE EXACT, or a replay
  replay : Option (List Nat × Nat)  -- replayed skip entries and stages
  tsc : Nat                     -- T_SC, ns
  tls : Nat                     -- T_LS, ns
  adc : Bool                    -- its path has stage 3
  phase : QPhase
  probeList : List Nat
  taken : Nat                   -- positions of the probe list issued
  probes : List Probe
  appendCands : List Cand       -- append candidates with their exact scores
  appendBin : List Cand         -- the same with their Hamming distances
  appendMatch : Nat
  radius : Nat                  -- largest binary score that the engines still forward, a canonical FP32 code (R143)
  cands : List Cand             -- candidates of the last completed stage
  binaryScores : Bool           -- they are BINARY scores on another scale (R151)
  skips : List Nat              -- partitions skipped
  stages : Nat                  -- SKIPPED_STAGES
  media : List Nat              -- partitions of the affected-media list
  saturated : Bool              -- ACC_SATURATED (05 R96)
  stalled : Bool                -- counted in QUERY_STALLS
  shards : List ShardWait
  tsh : Nat                     -- T_SH, ns
  shardSince : Nat              -- ns of the fan-out
  deriving DecidableEq, Repr

/-- State of search. -/
structure Search where
  colls : List Coll
  queries : List Query
  ingests : List Ingest
  units : List CUnit
  nextTag : Nat
  nextQuery : Nat
  deriving DecidableEq, Repr

end Sys2Proof.Machine
end

