-- ==== Sys2Proof/Machine/State.lean ====
section
/-! DEFINITION. The state of the block: plain data. The counters, the dictionary's stored values, and one group of fields
for each part of the module. INVENTORY.md lists every piece with its rule and its reset value. -/

namespace Sys2Proof.Machine

/-- The state of the module. -/
structure State where
  pending : List Instr            -- the commands that wait, first in, first out
  free : Nat                      -- the model's own: how many free values have been used (notes/assumptions/8.md)
  now : Nat                       -- the time base, ns (14 R340)
  counters : List (Nat × Nat)     -- counters that are not 0, by index × 256 + subindex, rising
  settings : List (Nat × Bytes)   -- RW, RWS and ADM values that differ from their defaults, by index × 256 + subindex, rising
  ahp : Ahp
  search : Search
  mem : Mem
  net : Net
  hbm : Hbm
  cold : Cold
  dap : Dap
  sec : Sec
  power : Power
  box : BlackBox
  deriving DecidableEq, Repr

/-- Why the block stops. No command of this block stops it: the spec gives every case an answer (00 R3), so nobody raises a
fault. -/
inductive Fault
  /-- Raised by nobody: the spec names no event that stops the module without an effect. Safe. -/
  | none
  deriving DecidableEq, Repr

/-- Why a command has no meaning. -/
inductive Refusal
  /-- Raised by an arm of exec whose command has no meaning yet. Safe: the run stops. -/
  | notModelled (mnemonic : String)
  deriving DecidableEq, Repr

/-- The front end after reset: no queue, no command, no plan. DESIGN CHOICE (log entry 9). -/
def Ahp.reset : Ahp where
  cmds := []
  queues := []
  nextSeq := 0
  nextOrder := 1
  used := [0, 0, 0]
  last := [none, none, none, none]
  plans := []
  closed := []
  admissionOpen := true

/-- Search after reset of a module that holds no collection. DESIGN CHOICE (log entry 9). -/
def Search.reset : Search where
  colls := []
  queries := []
  ingests := []
  units := []
  nextTag := 0
  nextQuery := 0

/-- Memory layers after reset of a module that holds no head. DESIGN CHOICE (log entry 9). -/
def Mem.reset : Mem where
  heads := []
  early := []
  fwds := []
  bwds := []
  upds := []
  writes := []
  failed := []
  degraded := []
  lastFailed := 0xFFFF

/-- The sub-port 0 of each port: every PORTn_MODE is 1 at reset (14 R341). -/
def Net.portsReset : List SubPort :=
  (List.range 4).map fun p => { port := p, sub := 0, up := false, downSince := 0, pauses := [] }

/-- The attachment after reset: empty cages, links down, no connection. DESIGN CHOICE (log entry 9). -/
def Net.reset : Net where
  cages := [0, 0, 0, 0]
  subs := Net.portsReset
  conns := []
  nextQpn := 2
  requests := []
  waits := []
  timeState := 0
  offset := 0
  lastSync := 0
  locked := false
  mgmtUp := true
  lastOut := 0
  out := []

/-- A traffic generator at rest, with `n` pin counts. -/
def TestGen.idle (n : Nat) : TestGen where
  state := 0
  failed := 0
  errors := 0
  pins := List.replicate n 0
  written := []
  run := none

/-- HBM after reset: every channel in service. DESIGN CHOICE (log entry 9). -/
def Hbm.reset : Hbm where
  mappedOut := []
  marked := []
  fenced := []
  banks := []
  spareUse := []
  skips := []
  tiles := []
  nextTile := 0
  cache := []
  uses := 0
  ce := []
  pins := []
  lostPins := []
  hurt := []
  relocs := []
  stuck := []
  holds := []
  waiters := []
  tg := TestGen.idle 72

/-- The cold tier after reset of a module that holds no user data. DESIGN CHOICE (log entry 9). -/
def Cold.reset : Cold where
  lost := []
  deadDies := []
  refresh := []
  sparePct := 100
  spareLow := false
  readOnly := false
  written := 0
  programs := 0
  patrolFrom := 0
  patrolled := 0
  copies := []
  waits := []
  ftg := TestGen.idle 0

/-- DAP after reset: no session; LAST_APPLY_RESULT is 3 (16 R389). DESIGN CHOICE (log entry 9). -/
def Dap.reset : Dap where
  sessions := []
  applies := []
  sequence := 0
  lastTime := 0
  lastResult := 3
  diagRequest := none

/-- The image slots at manufacture: slot A of each kind holds the shipped image. -/
def Sec.shippedSlots : List ImageSlot :=
  (List.finRange 4).flatMap fun k =>
    [{ kind := k.val + 1, slot := 0, image := Config.shippedImage k },
     { kind := k.val + 1, slot := 1, image := [] }]

/-- Versions of the shipped images: major version 1 (00 R1). -/
def Sec.shippedVersions : List Nat := (List.finRange 4).map fun k => (1 <<< 24) + (Config.shippedVersion k).toNat

/-- Security after reset of a module that nobody has claimed; the measurement registers start at zero (17 R403). DESIGN CHOICE (log entries 6, 9). -/
def Sec.reset : Sec where
  roles := []
  epoch := 0
  acceptFrom := 0
  vendor := [{ epoch := 0, slot0 := (Config.vendorKey 0).toList, slot1 := (Config.vendorKey 1).toList }]
  minVersion := [0, 0, 0, 0]
  slots := Sec.shippedSlots
  lastGood := 0
  pendMask := 0
  pendSlots := 0
  attempts := 0
  bootResult := 0
  running := Sec.shippedVersions
  load := none
  loadState := 0
  loadReason := 0
  loadBytes := 0
  measure := List.replicate 8 (List.replicate 32 0)
  keys := []
  chains := []
  records := 0
  signCount := 0
  bootCount := 0

/-- A stack at rest. 200 is 25 °C (notes/assumptions/9.md). DESIGN CHOICE (log entry 9). -/
def Stack.reset : Stack where
  state := 0
  temp := 200
  coolSince := none

/-- A compute die at rest, at 1.2 GHz. DESIGN CHOICE (log entry 9). -/
def DieClock.reset : DieClock where
  temp := 200
  step := 0
  coolSince := none
  cap := 0
  mhz := 1200

/-- Power and thermal control after reset: P0 (18 R435). The readings without a stated reset value are those of
notes/assumptions/9.md. DESIGN CHOICE (log entry 9). -/
def Power.reset : Power where
  state := .p0
  entry := none
  p2Since := 0
  suspended := 0
  idleSince := 0
  gated := []
  hbmStacks := List.replicate 12 Stack.reset
  dies := [DieClock.reset, DieClock.reset]
  hubTemp := 200
  capSince := none
  draining := []
  degraded := false
  resetting := none
  trips := []
  tripHold := false
  tripAt := none
  cause := 0
  startMs := 980
  inputMv := 50000
  inputW := 0
  coolant := 200
  holdupMj := 6530
  holdupWeak := false
  slotId := 0
  pwrEn := true

/-- Bytes 0 to 15 of the digest that record 0 links to (19 R441). -/
def BlackBox.link0 : Bytes := (sm3 (ascii "ALBB" ++ Config.identityKey.toList)).take 16

/-- Record 0, written at manufacture (19 R441): its SEQUENCE is 0. DESIGN CHOICE (log entry 6). -/
def BlackBox.record0 : Bytes := Config.recordZero.toList ++ zeros 8 ++ BlackBox.link0

/-- The black box as it leaves manufacture (19 R441). DESIGN CHOICE (log entry 9). -/
def BlackBox.reset : BlackBox where
  records := [BlackBox.record0]
  head := 0
  fault := false
  queue := []
  recent := []
  misread := false
  restarts := []
  diag := 0
  classes := List.replicate 8 0

/-- The module right after reset: every dictionary entry at its default, every part at rest (notes/assumptions/9.md). DESIGN CHOICE (log entries 1, 9). -/
def State.reset : State where
  pending := []
  free := 0
  now := 0
  counters := []
  settings := []
  ahp := Ahp.reset
  search := Search.reset
  mem := Mem.reset
  net := Net.reset
  hbm := Hbm.reset
  cold := Cold.reset
  dap := Dap.reset
  sec := Sec.reset
  power := Power.reset
  box := BlackBox.reset

end Sys2Proof.Machine
end

