-- ==== Sys2Proof/Machine/Dictionary.lean ====
section
/-! DEFINITION. The object dictionary's table of entries (16 R366-R368, R377), with the entries of 00 R2, 01 R15, 04 R85,
05 R101, 06 R127, 07 R164, 08 R180, 09 R205, 10 R235, 11 R267, 12 R288 R292, 13 R316, 14 R341, 15 R365, 16 R389, 17 R417,
18 R435, 19 R449 and 20 R461. -/

namespace Sys2Proof.Machine

/-- Access rights, with the codes of R377. -/
inductive Access
  | ro | rw | rws | wo | adm
  deriving DecidableEq, Repr

/-- One entry. For STR and BLOB, `hi` is the maximum length and `dflt` the default length (R377). -/
structure DictEntry where
  key : Nat                     -- index × 256 + subindex
  type : Nat                    -- R367
  access : Access
  role : Nat                    -- minimum role (R368)
  group : Nat                   -- commit group (R382), 0 for none
  lo : Nat                      -- smallest value, as encoded
  hi : Nat                      -- largest value
  dflt : Nat
  len : Nat                     -- bytes of the largest value
  deriving DecidableEq, Repr

namespace Key

/-- PART_NUMBER -/
abbrev partNumber : Nat := 0x100101
/-- PACKAGE_STEPPING -/
abbrev packageStepping : Nat := 0x100102
/-- MODULE_HW_REVISION -/
abbrev moduleHwRevision : Nat := 0x100103
/-- SERIAL_NUMBER -/
abbrev serialNumber : Nat := 0x100104
/-- FIRMWARE_BUNDLE_VERSION -/
abbrev firmwareBundleVersion : Nat := 0x100201
/-- DICTIONARY_VERSION -/
abbrev dictionaryVersion : Nat := 0x100202
/-- INSTALLATION_MODULE_COUNT -/
abbrev installationModuleCount : Nat := 0x101001
/-- INSTALLATION_MODE -/
abbrev installationMode : Nat := 0x101002
/-- MODULE_INDEX -/
abbrev moduleIndex : Nat := 0x101003
/-- WIDE_RERUN_TILES -/
abbrev wideRerunTiles : Nat := 0x704001
/-- WIDE_PATH_SATURATIONS -/
abbrev widePathSaturations : Nat := 0x704002
/-- VALUE_ROW_CLAMPS -/
abbrev valueRowClamps : Nat := 0x704003
/-- SCALE_TILE_REJECTS -/
abbrev scaleTileRejects : Nat := 0x704004
/-- INT_ACC_SATURATIONS -/
abbrev intAccSaturations : Nat := 0x704101
/-- ADC_SUM_SATURATIONS -/
abbrev adcSumSaturations : Nat := 0x704102
/-- ROWSTAT_NAN_ROWS -/
abbrev rowstatNanRows : Nat := 0x704103
/-- MAX_COLLECTIONS -/
abbrev maxCollections : Nat := 0x300101
/-- AUTO_MERGE_APPEND -/
abbrev autoMergeAppend : Nat := 0x300201
/-- AUTO_MERGE_TOMBSTONES -/
abbrev autoMergeTombstones : Nat := 0x300202
/-- APPEND_LIST_LIMIT -/
abbrev appendListLimit : Nat := 0x300203
/-- RECENT_TOMBSTONE_CAPACITY -/
abbrev recentTombstoneCapacity : Nat := 0x300204
/-- BUILD_ITERATIONS -/
abbrev buildIterations : Nat := 0x300301
/-- BUILD_SAMPLE_PER_CENTROID -/
abbrev buildSamplePerCentroid : Nat := 0x300302
/-- BUILD_SEED -/
abbrev buildSeed : Nat := 0x300303
/-- TREE_PIN_BANKS -/
abbrev treePinBanks : Nat := 0x300401
/-- FINISH_RESERVE_US -/
abbrev finishReserveUs : Nat := 0x310101
/-- ADC_RESERVE_US -/
abbrev adcReserveUs : Nat := 0x310102
/-- BEAM_WIDTH_LIMIT -/
abbrev beamWidthLimit : Nat := 0x310401
/-- PROBE_BUDGET_LIMIT -/
abbrev probeBudgetLimit : Nat := 0x310402
/-- MAX_QUERIES_IN_FLIGHT -/
abbrev maxQueriesInFlight : Nat := 0x310501
/-- QUERIES_COMPLETED. DEDUCED (log entry 16). -/
abbrev queriesCompleted : Nat := 0x704201
/-- DEGRADED_RESULTS -/
abbrev degradedResults : Nat := 0x704202
/-- SKIPPED_PARTITIONS -/
abbrev skippedPartitions : Nat := 0x704203
/-- SKIPPED_STAGES -/
abbrev skippedStages : Nat := 0x704204
/-- DEADLINE_MISSES -/
abbrev deadlineMisses : Nat := 0x704205
/-- QUERY_STALLS -/
abbrev queryStalls : Nat := 0x704206
/-- FILTER_EXHAUSTED_RESULTS -/
abbrev filterExhaustedResults : Nat := 0x704207
/-- WIDENING_ROUNDS -/
abbrev wideningRounds : Nat := 0x704208
/-- SELECTION_PASSES. DEDUCED (log entry 16). -/
abbrev selectionPasses : Nat := 0x704301
/-- DEDUPLICATED_ENTRIES. DEDUCED (log entry 16). -/
abbrev deduplicatedEntries : Nat := 0x704302
/-- UNIQUE_COUNT_TRUNCATIONS -/
abbrev uniqueCountTruncations : Nat := 0x704303
/-- INSTALLATION_DESCRIPTOR -/
abbrev installationDescriptor : Nat := 0x101101
/-- MERGE_RESERVE_US -/
abbrev mergeReserveUs : Nat := 0x310601
/-- SHARD_TIMEOUT_US -/
abbrev shardTimeoutUs : Nat := 0x310602
/-- EPOCH_HOLD_US -/
abbrev epochHoldUs : Nat := 0x310603
/-- STABLE_INTERVAL_US -/
abbrev stableIntervalUs : Nat := 0x310604
/-- SHARD_REQUESTS_SENT -/
abbrev shardRequestsSent : Nat := 0x704401
/-- SHARDS_SKIPPED -/
abbrev shardsSkipped : Nat := 0x704402
/-- LATE_SHARD_REPLIES -/
abbrev lateShardReplies : Nat := 0x704403
/-- SHARD_UNAVAILABLE_RESULTS -/
abbrev shardUnavailableResults : Nat := 0x704404
/-- BUCKETS_MOVED -/
abbrev bucketsMoved : Nat := 0x704405
/-- EPOCHS_VOIDED -/
abbrev epochsVoided : Nat := 0x704406
/-- MAX_HEADS -/
abbrev maxHeads : Nat := 0x400101
/-- STEP_TIMEOUT_US -/
abbrev stepTimeoutUs : Nat := 0x400201
/-- MEMFWD_TOKENS -/
abbrev memfwdTokens : Nat := 0x704501
/-- VALUE_PAGE_STALLS -/
abbrev valuePageStalls : Nat := 0x704502
/-- VALUE_PAGE_STALL_US -/
abbrev valuePageStallUs : Nat := 0x704503
/-- FWD_EXCHANGE_REPEATS. DEDUCED (log entry 16). -/
abbrev fwdExchangeRepeats : Nat := 0x704504
/-- GROUP_MISMATCHES -/
abbrev groupMismatches : Nat := 0x704505
/-- STASH_WAIT_US -/
abbrev stashWaitUs : Nat := 0x400301
/-- LAST_FAILED_MODULE -/
abbrev lastFailedModule : Nat := 0x400302
/-- MEMBWD_TOKENS -/
abbrev membwdTokens : Nat := 0x704601
/-- STASH_HOLDS -/
abbrev stashHolds : Nat := 0x704602
/-- RECOMPUTE_MICRO_BATCHES -/
abbrev recomputeMicroBatches : Nat := 0x704603
/-- GRADIENT_RECORDS -/
abbrev gradientRecords : Nat := 0x704604
/-- EARLY_FOLDS -/
abbrev earlyFolds : Nat := 0x704605
/-- REDUCE_REPEATS -/
abbrev reduceRepeats : Nat := 0x704606
/-- BLOCK8_FALLBACKS -/
abbrev block8Fallbacks : Nat := 0x704607
/-- SAMPLE_MISMATCHES -/
abbrev sampleMismatches : Nat := 0x704608
/-- ROWS_UPDATED -/
abbrev rowsUpdated : Nat := 0x704609
/-- UPDATE_STALLS -/
abbrev updateStalls : Nat := 0x70460A
/-- MEMBERS_DECLARED_FAILED -/
abbrev membersDeclaredFailed : Nat := 0x70460B
/-- HBM_CAPACITY_KIB -/
abbrev hbmCapacityKib : Nat := 0x200101
/-- HBM_CHANNELS_IN_SERVICE -/
abbrev hbmChannelsInService : Nat := 0x200102
/-- HBM_CHANNEL_MAP -/
abbrev hbmChannelMap : Nat := 0x200103
/-- HBM_MAPOUT_PENDING -/
abbrev hbmMapoutPending : Nat := 0x200104
/-- HBM_RETIRED_PAGES -/
abbrev hbmRetiredPages : Nat := 0x200105
/-- HBM_RETIRED_BANKS -/
abbrev hbmRetiredBanks : Nat := 0x200106
/-- HBM_PENDING_RETIREMENT -/
abbrev hbmPendingRetirement : Nat := 0x200107
/-- SCRUB_PERIOD_H -/
abbrev scrubPeriodH : Nat := 0x200201
/-- ROW_CE_THRESHOLD -/
abbrev rowCeThreshold : Nat := 0x200202
/-- SCRATCH_BANK_COUNT -/
abbrev scratchBankCount : Nat := 0x200301
/-- CACHE_BANKS -/
abbrev cacheBanks : Nat := 0x200302
/-- TG_CONTROL -/
abbrev tgControl : Nat := 0x704801
/-- TG_STATUS -/
abbrev tgStatus : Nat := 0x704802
/-- TG_SEED -/
abbrev tgSeed : Nat := 0x704803
/-- TG_BYTES -/
abbrev tgBytes : Nat := 0x704804
/-- TG_ERROR_COUNT -/
abbrev tgErrorCount : Nat := 0x704805
/-- TG_PIN_ERRORS -/
abbrev tgPinErrors : Nat := 0x704806
/-- HBM_CORRECTED_BURSTS -/
abbrev hbmCorrectedBursts : Nat := 0x704701
/-- HBM_UNCORRECTABLE_BURSTS -/
abbrev hbmUncorrectableBursts : Nat := 0x704702
/-- HBM_ROWS_REMAPPED -/
abbrev hbmRowsRemapped : Nat := 0x704703
/-- TILES_RELOCATED -/
abbrev tilesRelocated : Nat := 0x704704
/-- MEDIA_RECOVERIES -/
abbrev mediaRecoveries : Nat := 0x704705
/-- LOST_PINS -/
abbrev lostPins : Nat := 0x704706
/-- SRAM_CORRECTED -/
abbrev sramCorrected : Nat := 0x704707
/-- SRAM_UNCORRECTABLE -/
abbrev sramUncorrectable : Nat := 0x704708
/-- SCRATCH_WAITS -/
abbrev scratchWaits : Nat := 0x704709
/-- COLD_RAW_CAPACITY_GB -/
abbrev coldRawCapacityGb : Nat := 0x201001
/-- COLD_USER_CAPACITY_GB -/
abbrev coldUserCapacityGb : Nat := 0x201002
/-- COLD_USED_GB. DEDUCED (log entry 27). -/
abbrev coldUsedGb : Nat := 0x201003
/-- COLD_LIFE_USED_PCT -/
abbrev coldLifeUsedPct : Nat := 0x201004
/-- COLD_SPARE_LEFT_PCT -/
abbrev coldSpareLeftPct : Nat := 0x201005
/-- COLD_BYTES_WRITTEN_GB -/
abbrev coldBytesWrittenGb : Nat := 0x201006
/-- COLD_PATROL_DAYS -/
abbrev coldPatrolDays : Nat := 0x201101
/-- BACKGROUND_SHARE_PCT -/
abbrev backgroundSharePct : Nat := 0x201102
/-- COLD_RANDOM_READS -/
abbrev coldRandomReads : Nat := 0x704901
/-- PROMOTIONS -/
abbrev promotions : Nat := 0x704902
/-- PROMOTION_JOINS -/
abbrev promotionJoins : Nat := 0x704903
/-- WINDOW_WAITS -/
abbrev windowWaits : Nat := 0x704904
/-- EVICTIONS -/
abbrev evictions : Nat := 0x704905
/-- COLD_CORRECTED_PAGES -/
abbrev coldCorrectedPages : Nat := 0x704906
/-- COLD_PARITY_REBUILDS -/
abbrev coldParityRebuilds : Nat := 0x704907
/-- COLD_LOST_PAGES -/
abbrev coldLostPages : Nat := 0x704908
/-- FTG_CONTROL -/
abbrev ftgControl : Nat := 0x704A01
/-- FTG_STATUS -/
abbrev ftgStatus : Nat := 0x704A02
/-- FTG_SEED -/
abbrev ftgSeed : Nat := 0x704A03
/-- FTG_ERROR_COUNT -/
abbrev ftgErrorCount : Nat := 0x704A04
/-- PORT_MODE -/
abbrev portMode : Nat := 0x102001
/-- PORT_ADDRESS -/
abbrev portAddress : Nat := 0x102005
/-- RDMA_PRIORITY -/
abbrev rdmaPriority : Nat := 0x102101
/-- CNP_PRIORITY -/
abbrev cnpPriority : Nat := 0x102102
/-- PFC_ENABLE_MASK -/
abbrev pfcEnableMask : Nat := 0x102103
/-- PFC_STORM_MS -/
abbrev pfcStormMs : Nat := 0x102104
/-- CNP_INTERVAL_US -/
abbrev cnpIntervalUs : Nat := 0x102105
/-- RP_G -/
abbrev rpG : Nat := 0x102106
/-- RP_RECOVERY_US -/
abbrev rpRecoveryUs : Nat := 0x102107
/-- RP_AI_MBPS -/
abbrev rpAiMbps : Nat := 0x102108
/-- ACK_TIMEOUT_EXP -/
abbrev ackTimeoutExp : Nat := 0x102201
/-- RETRY_COUNT -/
abbrev retryCount : Nat := 0x102202
/-- FLOOD_SUSPEND_COUNT -/
abbrev floodSuspendCount : Nat := 0x102301
/-- SPP_SUSPEND_MS -/
abbrev sppSuspendMs : Nat := 0x102302
/-- SPP_CREDIT_MESSAGES -/
abbrev sppCreditMessages : Nat := 0x102303
/-- SPP_CREDIT_BYTES -/
abbrev sppCreditBytes : Nat := 0x102304
/-- SPP_IDLE_CLOSE_S -/
abbrev sppIdleCloseS : Nat := 0x102305
/-- LINK_REKEY_PACKETS -/
abbrev linkRekeyPackets : Nat := 0x102401
/-- PTP_DOMAIN -/
abbrev ptpDomain : Nat := 0x102501
/-- TIME_STATE -/
abbrev timeState : Nat := 0x102502
/-- PTP_OFFSET_NS -/
abbrev ptpOffsetNs : Nat := 0x102503
/-- CONNECTION_TABLE -/
abbrev connectionTable : Nat := 0x102601
/-- IPV4_OPTION_DROPS -/
abbrev ipv4OptionDrops : Nat := 0x705001
/-- UNACCEPTED_FRAMES -/
abbrev unacceptedFrames : Nat := 0x705002
/-- ICRC_DROPS -/
abbrev icrcDrops : Nat := 0x705003
/-- AUTH_FAILURES -/
abbrev authFailures : Nat := 0x705004
/-- SEQUENCE_NAKS -/
abbrev sequenceNaks : Nat := 0x705005
/-- UNSUPPORTED_OPCODE_NAKS -/
abbrev unsupportedOpcodeNaks : Nat := 0x705006
/-- SPP_MALFORMED_DROPS -/
abbrev sppMalformedDrops : Nat := 0x705007
/-- SPP_VERSION_DROPS -/
abbrev sppVersionDrops : Nat := 0x705008
/-- RNR_NAKS -/
abbrev rnrNaks : Nat := 0x705009
/-- QUEUE_SUSPENSIONS -/
abbrev queueSuspensions : Nat := 0x70500A
/-- PFC_STORMS -/
abbrev pfcStorms : Nat := 0x70500B
/-- CONNECTIONS_REFUSED -/
abbrev connectionsRefused : Nat := 0x70500C
/-- ARB_WEIGHT_HIGH -/
abbrev arbWeightHigh : Nat := 0x103001
/-- ARB_WEIGHT_MEDIUM -/
abbrev arbWeightMedium : Nat := 0x103002
/-- ARB_WEIGHT_LOW -/
abbrev arbWeightLow : Nat := 0x103003
/-- MAX_QUEUES_PER_PORT -/
abbrev maxQueuesPerPort : Nat := 0x103004
/-- MAX_QUEUE_DEPTH -/
abbrev maxQueueDepth : Nat := 0x103005
/-- MAX_PLANS -/
abbrev maxPlans : Nat := 0x103101
/-- COMMANDS_COMPLETED. DEDUCED (log entry 16). -/
abbrev commandsCompleted : Nat := 0x705101
/-- COMMANDS_ABORTED. DEDUCED (log entry 16). -/
abbrev commandsAborted : Nat := 0x705102
/-- ENTRIES_REJECTED -/
abbrev entriesRejected : Nat := 0x705103
/-- QUEUE_RESETS. DEDUCED (log entry 16). -/
abbrev queueResets : Nat := 0x705104
/-- MGMT_ADDRESS_MODE -/
abbrev mgmtAddressMode : Nat := 0x104001
/-- MGMT_ADDRESS -/
abbrev mgmtAddress : Nat := 0x104002
/-- MGMT_PREFIX_LENGTH -/
abbrev mgmtPrefixLength : Nat := 0x104003
/-- MGMT_GATEWAY -/
abbrev mgmtGateway : Nat := 0x104004
/-- DAP_SESSION_LIMIT -/
abbrev dapSessionLimit : Nat := 0x104101
/-- DAP_IDLE_TIMEOUT_S -/
abbrev dapIdleTimeoutS : Nat := 0x104102
/-- COMMIT_APPLY_TIMEOUT_MS -/
abbrev commitApplyTimeoutMs : Nat := 0x800001
/-- COMMIT_SEQUENCE -/
abbrev commitSequence : Nat := 0x800002
/-- COMMITTED_CONFIG_DIGEST -/
abbrev committedConfigDigest : Nat := 0x800003
/-- LAST_APPLY_TIME -/
abbrev lastApplyTime : Nat := 0x800004
/-- LAST_APPLY_RESULT -/
abbrev lastApplyResult : Nat := 0x800005
/-- STAGING_STATE -/
abbrev stagingState : Nat := 0x800101
/-- COMMIT_GROUP_TABLE -/
abbrev commitGroupTable : Nat := 0x800201
/-- DAP_FRAMES -/
abbrev dapFrames : Nat := 0x705201
/-- DAP_FRAMES_REJECTED -/
abbrev dapFramesRejected : Nat := 0x705202
/-- DAP_SESSIONS_REFUSED -/
abbrev dapSessionsRefused : Nat := 0x705203
/-- COMMIT_CHECK_FAILURES -/
abbrev commitCheckFailures : Nat := 0x705204
/-- COMMIT_APPLY_TIMEOUTS -/
abbrev commitApplyTimeouts : Nat := 0x705205
/-- IDENTITY_PUBLIC_KEY -/
abbrev identityPublicKey : Nat := 0x500001
/-- IDENTITY_CERTIFICATE -/
abbrev identityCertificate : Nat := 0x500002
/-- IDENTITY_KEY_DIGEST -/
abbrev identityKeyDigest : Nat := 0x500003
/-- MEASUREMENTS -/
abbrev measurements : Nat := 0x500004
/-- BOOT_COUNT -/
abbrev bootCount : Nat := 0x500005
/-- CLAIM_STATE -/
abbrev claimState : Nat := 0x500201
/-- ROLE_RECORD -/
abbrev roleRecord : Nat := 0x500202
/-- ROLE_COUNT -/
abbrev roleCount : Nat := 0x500203
/-- ROLE_TABLE -/
abbrev roleTable : Nat := 0x500204
/-- FACTORY_RESET -/
abbrev factoryReset : Nat := 0x500401
/-- IMAGE_SLOT_TABLE -/
abbrev imageSlotTable : Nat := 0x501001
/-- LAST_GOOD_SLOTS -/
abbrev lastGoodSlots : Nat := 0x501002
/-- PENDING_SLOTS -/
abbrev pendingSlots : Nat := 0x501003
/-- BOOT_RESULT -/
abbrev bootResult : Nat := 0x501004
/-- VENDOR_KEY_EPOCH -/
abbrev vendorKeyEpoch : Nat := 0x501005
/-- ACCEPT_FROM_EPOCH -/
abbrev acceptFromEpoch : Nat := 0x501006
/-- IMAGE_LOAD_CONTROL -/
abbrev imageLoadControl : Nat := 0x501101
/-- IMAGE_BLOCK. -/
abbrev imageBlock : Nat := 0x501102
/-- IMAGE_LOAD_STATUS -/
abbrev imageLoadStatus : Nat := 0x501103
/-- IMAGE_ACTIVATE -/
abbrev imageActivate : Nat := 0x501104
/-- SIGNED_DIGESTS -/
abbrev signedDigests : Nat := 0x705301
/-- ATTESTATIONS -/
abbrev attestations : Nat := 0x705302
/-- IMAGES_REJECTED -/
abbrev imagesRejected : Nat := 0x705303
/-- BOOT_FALLBACKS -/
abbrev bootFallbacks : Nat := 0x705304
/-- KEYS_DESTROYED -/
abbrev keysDestroyed : Nat := 0x705305
/-- POWER_STATE -/
abbrev powerState : Nat := 0x600101
/-- DEEPEST_STATE -/
abbrev deepestState : Nat := 0x600102
/-- P2_IDLE_MS -/
abbrev p2IdleMs : Nat := 0x600103
/-- P3_IDLE_S -/
abbrev p3IdleS : Nat := 0x600104
/-- POWER_CAP_W -/
abbrev powerCapW : Nat := 0x600201
/-- INPUT_VOLTAGE_MV -/
abbrev inputVoltageMv : Nat := 0x600202
/-- INPUT_POWER_W -/
abbrev inputPowerW : Nat := 0x600203
/-- CLUSTER_CLOCK_MHZ_DIE0 -/
abbrev clusterClockMhzDie0 : Nat := 0x600301
/-- CLUSTER_CLOCK_MHZ_DIE1 -/
abbrev clusterClockMhzDie1 : Nat := 0x600302
/-- HBM_THROTTLE_1_C -/
abbrev hbmThrottle1C : Nat := 0x600401
/-- HBM_THROTTLE_2_C -/
abbrev hbmThrottle2C : Nat := 0x600402
/-- HBM_CRITICAL_C -/
abbrev hbmCriticalC : Nat := 0x600403
/-- HBM_TEMPERATURES -/
abbrev hbmTemperatures : Nat := 0x600501
/-- DIE_TEMPERATURES -/
abbrev dieTemperatures : Nat := 0x600502
/-- HBM_THROTTLE_STATE -/
abbrev hbmThrottleState : Nat := 0x600503
/-- MODULE_RESET -/
abbrev moduleReset : Nat := 0x600601
/-- LAST_RESET_CAUSE -/
abbrev lastResetCause : Nat := 0x600602
/-- START_UP_TIME_MS -/
abbrev startUpTimeMs : Nat := 0x600603
/-- MODULE_DEGRADED -/
abbrev moduleDegraded : Nat := 0x600604
/-- P2_ENTRIES -/
abbrev p2Entries : Nat := 0x705401
/-- P3_ENTRIES -/
abbrev p3Entries : Nat := 0x705402
/-- ENTRIES_ABANDONED -/
abbrev entriesAbandoned : Nat := 0x705403
/-- HBM_THERMAL_STEPS -/
abbrev hbmThermalSteps : Nat := 0x705404
/-- CLOCK_STEPS -/
abbrev clockSteps : Nat := 0x705405
/-- POWER_CAP_EVENTS -/
abbrev powerCapEvents : Nat := 0x705406
/-- POWER_FAILS. -/
abbrev powerFails : Nat := 0x705407
/-- THERMAL_TRIPS -/
abbrev thermalTrips : Nat := 0x705408
/-- REOPENED_OBJECTS -/
abbrev reopenedObjects : Nat := 0x705409
/-- BLACKBOX_CAPACITY -/
abbrev blackboxCapacity : Nat := 0x706001
/-- BLACKBOX_HEAD_SEQUENCE -/
abbrev blackboxHeadSequence : Nat := 0x706002
/-- BLACKBOX_OLDEST_SEQUENCE -/
abbrev blackboxOldestSequence : Nat := 0x706003
/-- BLACKBOX_HEAD_DIGEST -/
abbrev blackboxHeadDigest : Nat := 0x706004
/-- BLACKBOX_READ_FROM -/
abbrev blackboxReadFrom : Nat := 0x706005
/-- BLACKBOX_WINDOW -/
abbrev blackboxWindow : Nat := 0x706006
/-- BLACKBOX_COALESCED -/
abbrev blackboxCoalesced : Nat := 0x706007
/-- BLACKBOX_DROPPED -/
abbrev blackboxDropped : Nat := 0x706008
/-- BLACKBOX_STATE -/
abbrev blackboxState : Nat := 0x706009
/-- ERROR_CLASS_COUNTS -/
abbrev errorClassCounts : Nat := 0x706101
/-- CONTROL_CORE_RESTARTS -/
abbrev controlCoreRestarts : Nat := 0x706102
/-- CHECK_CODE_RETRIES -/
abbrev checkCodeRetries : Nat := 0x706103
/-- DIAGNOSTIC_MODE -/
abbrev diagnosticMode : Nat := 0x706201
/-- DIAGNOSTIC_STATE -/
abbrev diagnosticState : Nat := 0x706202
/-- ENCLOSURE_SLOT -/
abbrev enclosureSlot : Nat := 0x105001
/-- CAGE_MEDIUM -/
abbrev cageMedium : Nat := 0x105101
/-- COOLANT_INLET_TEMPERATURE -/
abbrev coolantInletTemperature : Nat := 0x600504
/-- HOLDUP_ENERGY_MJ -/
abbrev holdupEnergyMj : Nat := 0x600505
/-- HOLDUP_WEAK -/
abbrev holdupWeak : Nat := 0x600506
/-- LOCATE -/
abbrev locate : Nat := 0x600701
/-- CAGE_MODULES_REFUSED -/
abbrev cageModulesRefused : Nat := 0x705501

end Key

namespace Dict

/-- Entries, part 0. -/
def part0 : List DictEntry := [
  ⟨0x100101, 9, .ro, 2, 0, 0, 8, 8, 8⟩,
  ⟨0x100102, 9, .ro, 2, 0, 0, 2, 2, 2⟩,
  ⟨0x100103, 1, .ro, 2, 0, 2, 2, 2, 1⟩,
  ⟨0x100104, 9, .ro, 2, 0, 0, 16, 16, 16⟩,
  ⟨0x100201, 3, .ro, 2, 0, 16777216, 33554431, 0, 4⟩,
  ⟨0x100202, 2, .ro, 2, 0, 256, 256, 256, 2⟩,
  ⟨0x101001, 2, .ro, 2, 0, 0, 4096, 0, 2⟩,
  ⟨0x101002, 8, .ro, 2, 0, 0, 2, 0, 1⟩,
  ⟨0x101003, 2, .ro, 2, 0, 0, 65535, 65535, 2⟩,
  ⟨0x101101, 10, .rws, 3, 1, 0, 67108864, 0, 67108864⟩,
  ⟨0x102001, 8, .rws, 2, 3, 1, 3, 1, 1⟩,
  ⟨0x102002, 8, .rws, 2, 3, 1, 3, 1, 1⟩,
  ⟨0x102003, 8, .rws, 2, 3, 1, 3, 1, 1⟩,
  ⟨0x102004, 8, .rws, 2, 3, 1, 3, 1, 1⟩,
  ⟨0x102005, 10, .rw, 2, 0, 0, 16, 16, 16⟩,
  ⟨0x102006, 10, .rw, 2, 0, 0, 16, 16, 16⟩,
  ⟨0x102007, 10, .rw, 2, 0, 0, 16, 16, 16⟩,
  ⟨0x102008, 10, .rw, 2, 0, 0, 16, 16, 16⟩,
  ⟨0x102009, 10, .rw, 2, 0, 0, 16, 16, 16⟩,
  ⟨0x10200A, 10, .rw, 2, 0, 0, 16, 16, 16⟩,
  ⟨0x10200B, 10, .rw, 2, 0, 0, 16, 16, 16⟩,
  ⟨0x10200C, 10, .rw, 2, 0, 0, 16, 16, 16⟩,
  ⟨0x10200D, 10, .rw, 2, 0, 0, 16, 16, 16⟩,
  ⟨0x10200E, 10, .rw, 2, 0, 0, 16, 16, 16⟩,
  ⟨0x10200F, 10, .rw, 2, 0, 0, 16, 16, 16⟩,
  ⟨0x102010, 10, .rw, 2, 0, 0, 16, 16, 16⟩,
  ⟨0x102101, 1, .rw, 2, 0, 0, 7, 3, 1⟩,
  ⟨0x102102, 1, .rw, 2, 0, 0, 7, 6, 1⟩,
  ⟨0x102103, 1, .rw, 2, 0, 0, 255, 8, 1⟩,
  ⟨0x102104, 2, .rw, 2, 0, 10, 10000, 100, 2⟩,
  ⟨0x102105, 2, .rw, 2, 0, 1, 1000, 50, 2⟩,
  ⟨0x102106, 1, .rw, 2, 0, 1, 255, 16, 1⟩]

/-- Entries, part 1. -/
def part1 : List DictEntry := [
  ⟨0x102107, 2, .rw, 2, 0, 10, 10000, 55, 2⟩,
  ⟨0x102108, 3, .rw, 2, 0, 1, 100000, 5000, 4⟩,
  ⟨0x102201, 1, .rw, 2, 0, 8, 20, 14, 1⟩,
  ⟨0x102202, 1, .rw, 2, 0, 1, 7, 7, 1⟩,
  ⟨0x102301, 3, .rw, 2, 0, 16, 1048576, 1024, 4⟩,
  ⟨0x102302, 2, .rw, 2, 0, 1, 10000, 10, 2⟩,
  ⟨0x102303, 2, .rw, 2, 0, 16, 4096, 256, 2⟩,
  ⟨0x102304, 3, .rw, 2, 0, 4194304, 67108864, 16777216, 4⟩,
  ⟨0x102305, 2, .rw, 2, 0, 1, 3600, 60, 2⟩,
  ⟨0x102401, 3, .rw, 2, 0, 1048576, 4294967295, 2147483648, 4⟩,
  ⟨0x102501, 1, .rw, 2, 0, 0, 127, 0, 1⟩,
  ⟨0x102502, 8, .ro, 2, 0, 0, 2, 0, 1⟩,
  ⟨0x102503, 5, .ro, 2, 0, 2147483648, 2147483647, 0, 4⟩,
  ⟨0x102601, 10, .ro, 2, 0, 0, 524288, 0, 524288⟩,
  ⟨0x103001, 1, .rws, 2, 4, 1, 255, 8, 1⟩,
  ⟨0x103002, 1, .rws, 2, 4, 1, 255, 4, 1⟩,
  ⟨0x103003, 1, .rws, 2, 4, 1, 255, 1, 1⟩,
  ⟨0x103004, 2, .ro, 2, 0, 1024, 1024, 1024, 2⟩,
  ⟨0x103005, 2, .ro, 2, 0, 65535, 65535, 65535, 2⟩,
  ⟨0x103101, 2, .ro, 2, 0, 4096, 4096, 4096, 2⟩,
  ⟨0x104001, 8, .rws, 2, 5, 0, 1, 1, 1⟩,
  ⟨0x104002, 10, .rws, 2, 5, 0, 16, 16, 16⟩,
  ⟨0x104003, 1, .rws, 2, 5, 1, 128, 64, 1⟩,
  ⟨0x104004, 10, .rws, 2, 5, 0, 16, 16, 16⟩,
  ⟨0x104101, 2, .ro, 2, 0, 32, 32, 32, 2⟩,
  ⟨0x104102, 3, .rw, 2, 0, 30, 86400, 300, 4⟩,
  ⟨0x105001, 1, .ro, 2, 0, 0, 63, 0, 1⟩,
  ⟨0x105101, 8, .ro, 2, 0, 0, 3, 0, 1⟩,
  ⟨0x105102, 8, .ro, 2, 0, 0, 3, 0, 1⟩,
  ⟨0x105103, 8, .ro, 2, 0, 0, 3, 0, 1⟩,
  ⟨0x105104, 8, .ro, 2, 0, 0, 3, 0, 1⟩,
  ⟨0x200101, 3, .ro, 2, 0, 0, 805306368, 805306368, 4⟩]

/-- Entries, part 2. -/
def part2 : List DictEntry := [
  ⟨0x200102, 2, .ro, 2, 0, 0, 384, 384, 2⟩,
  ⟨0x200103, 10, .ro, 2, 0, 0, 48, 48, 48⟩,
  ⟨0x200104, 10, .ro, 2, 0, 0, 48, 48, 48⟩,
  ⟨0x200105, 3, .ro, 2, 0, 0, 4294967295, 0, 4⟩,
  ⟨0x200106, 2, .ro, 2, 0, 0, 24576, 0, 2⟩,
  ⟨0x200107, 3, .ro, 2, 0, 0, 4294967295, 0, 4⟩,
  ⟨0x200201, 2, .rw, 2, 0, 1, 168, 24, 2⟩,
  ⟨0x200202, 1, .rw, 2, 0, 1, 16, 2, 1⟩,
  ⟨0x200301, 1, .rws, 2, 2, 1, 36, 16, 1⟩,
  ⟨0x200302, 1, .ro, 2, 0, 2, 37, 15, 1⟩,
  ⟨0x201001, 3, .ro, 2, 0, 64000, 64000, 64000, 4⟩,
  ⟨0x201002, 3, .ro, 2, 0, 61440, 61440, 61440, 4⟩,
  ⟨0x201003, 3, .ro, 2, 0, 0, 61440, 0, 4⟩,
  ⟨0x201004, 1, .ro, 2, 0, 0, 255, 0, 1⟩,
  ⟨0x201005, 1, .ro, 2, 0, 0, 100, 100, 1⟩,
  ⟨0x201006, 4, .ro, 2, 0, 0, 18446744073709551615, 0, 8⟩,
  ⟨0x201101, 1, .rw, 2, 0, 1, 30, 7, 1⟩,
  ⟨0x201102, 1, .rw, 2, 0, 1, 25, 5, 1⟩,
  ⟨0x300101, 2, .ro, 2, 0, 4096, 4096, 4096, 2⟩,
  ⟨0x300201, 3, .rw, 2, 0, 0, 16777216, 1048576, 4⟩,
  ⟨0x300202, 3, .rw, 2, 0, 0, 524288, 131072, 4⟩,
  ⟨0x300203, 3, .rw, 2, 0, 65536, 16777216, 4194304, 4⟩,
  ⟨0x300204, 3, .ro, 2, 0, 524288, 524288, 524288, 4⟩,
  ⟨0x300301, 1, .rw, 2, 0, 1, 64, 10, 1⟩,
  ⟨0x300302, 2, .rw, 2, 0, 32, 4096, 256, 2⟩,
  ⟨0x300303, 4, .rw, 2, 0, 0, 18446744073709551615, 0, 8⟩,
  ⟨0x300401, 1, .rws, 2, 2, 1, 24, 8, 1⟩,
  ⟨0x310101, 3, .rw, 2, 0, 0, 100000, 30, 4⟩,
  ⟨0x310102, 3, .rw, 2, 0, 0, 100000, 20, 4⟩,
  ⟨0x310401, 2, .rw, 2, 0, 1, 1024, 1024, 2⟩,
  ⟨0x310402, 3, .rw, 2, 0, 1, 65536, 65536, 4⟩,
  ⟨0x310501, 3, .ro, 2, 0, 16384, 16384, 16384, 4⟩]

/-- Entries, part 3. -/
def part3 : List DictEntry := [
  ⟨0x310601, 3, .rw, 2, 0, 0, 100000, 40, 4⟩,
  ⟨0x310602, 3, .rw, 2, 0, 10000, 60000000, 5000000, 4⟩,
  ⟨0x310603, 3, .rw, 2, 0, 10000, 10000000, 100000, 4⟩,
  ⟨0x310604, 2, .rw, 2, 0, 1, 1000, 10, 2⟩,
  ⟨0x400101, 2, .ro, 2, 0, 1024, 1024, 1024, 2⟩,
  ⟨0x400201, 3, .rw, 2, 0, 1000, 60000000, 2000000, 4⟩,
  ⟨0x400301, 3, .rw, 2, 0, 1000, 60000000, 1000000, 4⟩,
  ⟨0x400302, 2, .ro, 2, 0, 0, 65535, 65535, 2⟩,
  ⟨0x500001, 10, .ro, 2, 0, 0, 64, 64, 64⟩,
  ⟨0x500002, 10, .ro, 2, 0, 0, 4096, 0, 4096⟩,
  ⟨0x500003, 10, .ro, 2, 0, 0, 32, 32, 32⟩,
  ⟨0x500004, 10, .ro, 2, 0, 0, 256, 256, 256⟩,
  ⟨0x500005, 4, .ro, 2, 0, 0, 18446744073709551615, 0, 8⟩,
  ⟨0x500201, 8, .ro, 2, 0, 0, 1, 0, 1⟩,
  ⟨0x500202, 10, .wo, 3, 0, 0, 128, 0, 128⟩,
  ⟨0x500203, 2, .ro, 2, 0, 0, 1023, 0, 2⟩,
  ⟨0x500204, 10, .adm, 3, 0, 0, 49104, 0, 49104⟩,
  ⟨0x500401, 3, .wo, 3, 0, 0, 4294967295, 0, 4⟩,
  ⟨0x501001, 10, .ro, 2, 0, 0, 128, 128, 128⟩,
  ⟨0x501002, 1, .ro, 2, 0, 0, 255, 0, 1⟩,
  ⟨0x501003, 1, .ro, 2, 0, 0, 255, 0, 1⟩,
  ⟨0x501004, 8, .ro, 2, 0, 0, 3, 0, 1⟩,
  ⟨0x501005, 2, .ro, 2, 0, 0, 65535, 0, 2⟩,
  ⟨0x501006, 2, .ro, 2, 0, 0, 65535, 0, 2⟩,
  ⟨0x501101, 3, .wo, 3, 0, 0, 4294967295, 0, 4⟩,
  ⟨0x501102, 10, .wo, 3, 0, 0, 1024, 0, 1024⟩,
  ⟨0x501103, 3, .ro, 2, 0, 0, 4294967295, 0, 4⟩,
  ⟨0x501104, 7, .wo, 3, 0, 1, 1, 0, 1⟩,
  ⟨0x600101, 8, .ro, 2, 0, 0, 3, 0, 1⟩,
  ⟨0x600102, 8, .rw, 2, 0, 1, 3, 2, 1⟩,
  ⟨0x600103, 3, .rw, 2, 0, 1, 3600000, 500, 4⟩,
  ⟨0x600104, 3, .rw, 2, 0, 1, 86400, 600, 4⟩]

/-- Entries, part 4. -/
def part4 : List DictEntry := [
  ⟨0x600201, 2, .rw, 2, 0, 800, 1400, 1400, 2⟩,
  ⟨0x600202, 3, .ro, 2, 0, 0, 65000, 0, 4⟩,
  ⟨0x600203, 2, .ro, 2, 0, 0, 1600, 0, 2⟩,
  ⟨0x600301, 2, .ro, 2, 0, 600, 1200, 1200, 2⟩,
  ⟨0x600302, 2, .ro, 2, 0, 600, 1200, 1200, 2⟩,
  ⟨0x600401, 1, .rws, 2, 16, 75, 90, 85, 1⟩,
  ⟨0x600402, 1, .rws, 2, 16, 78, 94, 90, 1⟩,
  ⟨0x600403, 1, .rws, 2, 16, 81, 97, 95, 1⟩,
  ⟨0x600501, 10, .ro, 2, 0, 0, 24, 24, 24⟩,
  ⟨0x600502, 10, .ro, 2, 0, 0, 6, 6, 6⟩,
  ⟨0x600503, 10, .ro, 2, 0, 0, 12, 12, 12⟩,
  ⟨0x600504, 5, .ro, 2, 0, 4294966976, 1200, 0, 4⟩,
  ⟨0x600505, 2, .ro, 2, 0, 0, 10000, 0, 2⟩,
  ⟨0x600506, 7, .ro, 2, 0, 0, 1, 0, 1⟩,
  ⟨0x600601, 7, .wo, 3, 0, 1, 1, 0, 1⟩,
  ⟨0x600602, 8, .ro, 2, 0, 0, 6, 0, 1⟩,
  ⟨0x600603, 3, .ro, 2, 0, 0, 4294967295, 0, 4⟩,
  ⟨0x600604, 7, .ro, 2, 0, 0, 1, 0, 1⟩,
  ⟨0x600701, 7, .rw, 2, 0, 0, 1, 0, 1⟩,
  ⟨0x704001, 4, .ro, 2, 0, 0, 18446744073709551615, 0, 8⟩,
  ⟨0x704002, 4, .ro, 2, 0, 0, 18446744073709551615, 0, 8⟩,
  ⟨0x704003, 4, .ro, 2, 0, 0, 18446744073709551615, 0, 8⟩,
  ⟨0x704004, 4, .ro, 2, 0, 0, 18446744073709551615, 0, 8⟩,
  ⟨0x704101, 4, .ro, 2, 0, 0, 18446744073709551615, 0, 8⟩,
  ⟨0x704102, 4, .ro, 2, 0, 0, 18446744073709551615, 0, 8⟩,
  ⟨0x704103, 4, .ro, 2, 0, 0, 18446744073709551615, 0, 8⟩,
  ⟨0x704201, 4, .ro, 2, 0, 0, 18446744073709551615, 0, 8⟩,
  ⟨0x704202, 4, .ro, 2, 0, 0, 18446744073709551615, 0, 8⟩,
  ⟨0x704203, 4, .ro, 2, 0, 0, 18446744073709551615, 0, 8⟩,
  ⟨0x704204, 4, .ro, 2, 0, 0, 18446744073709551615, 0, 8⟩,
  ⟨0x704205, 4, .ro, 2, 0, 0, 18446744073709551615, 0, 8⟩,
  ⟨0x704206, 4, .ro, 2, 0, 0, 18446744073709551615, 0, 8⟩]

/-- Entries, part 5. -/
def part5 : List DictEntry := [
  ⟨0x704207, 4, .ro, 2, 0, 0, 18446744073709551615, 0, 8⟩,
  ⟨0x704208, 4, .ro, 2, 0, 0, 18446744073709551615, 0, 8⟩,
  ⟨0x704301, 4, .ro, 2, 0, 0, 18446744073709551615, 0, 8⟩,
  ⟨0x704302, 4, .ro, 2, 0, 0, 18446744073709551615, 0, 8⟩,
  ⟨0x704303, 4, .ro, 2, 0, 0, 18446744073709551615, 0, 8⟩,
  ⟨0x704401, 4, .ro, 2, 0, 0, 18446744073709551615, 0, 8⟩,
  ⟨0x704402, 4, .ro, 2, 0, 0, 18446744073709551615, 0, 8⟩,
  ⟨0x704403, 4, .ro, 2, 0, 0, 18446744073709551615, 0, 8⟩,
  ⟨0x704404, 4, .ro, 2, 0, 0, 18446744073709551615, 0, 8⟩,
  ⟨0x704405, 4, .ro, 2, 0, 0, 18446744073709551615, 0, 8⟩,
  ⟨0x704406, 4, .ro, 2, 0, 0, 18446744073709551615, 0, 8⟩,
  ⟨0x704501, 4, .ro, 2, 0, 0, 18446744073709551615, 0, 8⟩,
  ⟨0x704502, 4, .ro, 2, 0, 0, 18446744073709551615, 0, 8⟩,
  ⟨0x704503, 4, .ro, 2, 0, 0, 18446744073709551615, 0, 8⟩,
  ⟨0x704504, 4, .ro, 2, 0, 0, 18446744073709551615, 0, 8⟩,
  ⟨0x704505, 4, .ro, 2, 0, 0, 18446744073709551615, 0, 8⟩,
  ⟨0x704601, 4, .ro, 2, 0, 0, 18446744073709551615, 0, 8⟩,
  ⟨0x704602, 4, .ro, 2, 0, 0, 18446744073709551615, 0, 8⟩,
  ⟨0x704603, 4, .ro, 2, 0, 0, 18446744073709551615, 0, 8⟩,
  ⟨0x704604, 4, .ro, 2, 0, 0, 18446744073709551615, 0, 8⟩,
  ⟨0x704605, 4, .ro, 2, 0, 0, 18446744073709551615, 0, 8⟩,
  ⟨0x704606, 4, .ro, 2, 0, 0, 18446744073709551615, 0, 8⟩,
  ⟨0x704607, 4, .ro, 2, 0, 0, 18446744073709551615, 0, 8⟩,
  ⟨0x704608, 4, .ro, 2, 0, 0, 18446744073709551615, 0, 8⟩,
  ⟨0x704609, 4, .ro, 2, 0, 0, 18446744073709551615, 0, 8⟩,
  ⟨0x70460A, 4, .ro, 2, 0, 0, 18446744073709551615, 0, 8⟩,
  ⟨0x70460B, 4, .ro, 2, 0, 0, 18446744073709551615, 0, 8⟩,
  ⟨0x704701, 4, .ro, 2, 0, 0, 18446744073709551615, 0, 8⟩,
  ⟨0x704702, 4, .ro, 2, 0, 0, 18446744073709551615, 0, 8⟩,
  ⟨0x704703, 4, .ro, 2, 0, 0, 18446744073709551615, 0, 8⟩,
  ⟨0x704704, 4, .ro, 2, 0, 0, 18446744073709551615, 0, 8⟩,
  ⟨0x704705, 4, .ro, 2, 0, 0, 18446744073709551615, 0, 8⟩]

/-- Entries, part 6. -/
def part6 : List DictEntry := [
  ⟨0x704706, 4, .ro, 2, 0, 0, 18446744073709551615, 0, 8⟩,
  ⟨0x704707, 4, .ro, 2, 0, 0, 18446744073709551615, 0, 8⟩,
  ⟨0x704708, 4, .ro, 2, 0, 0, 18446744073709551615, 0, 8⟩,
  ⟨0x704709, 4, .ro, 2, 0, 0, 18446744073709551615, 0, 8⟩,
  ⟨0x704801, 3, .rw, 2, 0, 0, 4294967295, 66047, 4⟩,
  ⟨0x704802, 3, .ro, 2, 0, 0, 4294967295, 0, 4⟩,
  ⟨0x704803, 4, .rw, 2, 0, 1, 18446744073709551615, 1, 8⟩,
  ⟨0x704804, 4, .rw, 2, 0, 0, 2147483648, 0, 8⟩,
  ⟨0x704805, 4, .ro, 2, 0, 0, 18446744073709551615, 0, 8⟩,
  ⟨0x704806, 10, .ro, 2, 0, 0, 288, 288, 288⟩,
  ⟨0x704901, 4, .ro, 2, 0, 0, 18446744073709551615, 0, 8⟩,
  ⟨0x704902, 4, .ro, 2, 0, 0, 18446744073709551615, 0, 8⟩,
  ⟨0x704903, 4, .ro, 2, 0, 0, 18446744073709551615, 0, 8⟩,
  ⟨0x704904, 4, .ro, 2, 0, 0, 18446744073709551615, 0, 8⟩,
  ⟨0x704905, 4, .ro, 2, 0, 0, 18446744073709551615, 0, 8⟩,
  ⟨0x704906, 4, .ro, 2, 0, 0, 18446744073709551615, 0, 8⟩,
  ⟨0x704907, 4, .ro, 2, 0, 0, 18446744073709551615, 0, 8⟩,
  ⟨0x704908, 4, .ro, 2, 0, 0, 18446744073709551615, 0, 8⟩,
  ⟨0x704A01, 3, .rw, 2, 0, 0, 4294967295, 65599, 4⟩,
  ⟨0x704A02, 3, .ro, 2, 0, 0, 4294967295, 0, 4⟩,
  ⟨0x704A03, 4, .rw, 2, 0, 1, 18446744073709551615, 1, 8⟩,
  ⟨0x704A04, 4, .ro, 2, 0, 0, 18446744073709551615, 0, 8⟩,
  ⟨0x705001, 4, .ro, 2, 0, 0, 18446744073709551615, 0, 8⟩,
  ⟨0x705002, 4, .ro, 2, 0, 0, 18446744073709551615, 0, 8⟩,
  ⟨0x705003, 4, .ro, 2, 0, 0, 18446744073709551615, 0, 8⟩,
  ⟨0x705004, 4, .ro, 2, 0, 0, 18446744073709551615, 0, 8⟩,
  ⟨0x705005, 4, .ro, 2, 0, 0, 18446744073709551615, 0, 8⟩,
  ⟨0x705006, 4, .ro, 2, 0, 0, 18446744073709551615, 0, 8⟩,
  ⟨0x705007, 4, .ro, 2, 0, 0, 18446744073709551615, 0, 8⟩,
  ⟨0x705008, 4, .ro, 2, 0, 0, 18446744073709551615, 0, 8⟩,
  ⟨0x705009, 4, .ro, 2, 0, 0, 18446744073709551615, 0, 8⟩,
  ⟨0x70500A, 4, .ro, 2, 0, 0, 18446744073709551615, 0, 8⟩]

/-- Entries, part 7. -/
def part7 : List DictEntry := [
  ⟨0x70500B, 4, .ro, 2, 0, 0, 18446744073709551615, 0, 8⟩,
  ⟨0x70500C, 4, .ro, 2, 0, 0, 18446744073709551615, 0, 8⟩,
  ⟨0x705101, 4, .ro, 2, 0, 0, 18446744073709551615, 0, 8⟩,
  ⟨0x705102, 4, .ro, 2, 0, 0, 18446744073709551615, 0, 8⟩,
  ⟨0x705103, 4, .ro, 2, 0, 0, 18446744073709551615, 0, 8⟩,
  ⟨0x705104, 4, .ro, 2, 0, 0, 18446744073709551615, 0, 8⟩,
  ⟨0x705201, 4, .ro, 2, 0, 0, 18446744073709551615, 0, 8⟩,
  ⟨0x705202, 4, .ro, 2, 0, 0, 18446744073709551615, 0, 8⟩,
  ⟨0x705203, 4, .ro, 2, 0, 0, 18446744073709551615, 0, 8⟩,
  ⟨0x705204, 4, .ro, 2, 0, 0, 18446744073709551615, 0, 8⟩,
  ⟨0x705205, 4, .ro, 2, 0, 0, 18446744073709551615, 0, 8⟩,
  ⟨0x705301, 4, .ro, 2, 0, 0, 18446744073709551615, 0, 8⟩,
  ⟨0x705302, 4, .ro, 2, 0, 0, 18446744073709551615, 0, 8⟩,
  ⟨0x705303, 4, .ro, 2, 0, 0, 18446744073709551615, 0, 8⟩,
  ⟨0x705304, 4, .ro, 2, 0, 0, 18446744073709551615, 0, 8⟩,
  ⟨0x705305, 4, .ro, 2, 0, 0, 18446744073709551615, 0, 8⟩,
  ⟨0x705401, 4, .ro, 2, 0, 0, 18446744073709551615, 0, 8⟩,
  ⟨0x705402, 4, .ro, 2, 0, 0, 18446744073709551615, 0, 8⟩,
  ⟨0x705403, 4, .ro, 2, 0, 0, 18446744073709551615, 0, 8⟩,
  ⟨0x705404, 4, .ro, 2, 0, 0, 18446744073709551615, 0, 8⟩,
  ⟨0x705405, 4, .ro, 2, 0, 0, 18446744073709551615, 0, 8⟩,
  ⟨0x705406, 4, .ro, 2, 0, 0, 18446744073709551615, 0, 8⟩,
  ⟨0x705407, 4, .ro, 2, 0, 0, 18446744073709551615, 0, 8⟩,
  ⟨0x705408, 4, .ro, 2, 0, 0, 18446744073709551615, 0, 8⟩,
  ⟨0x705409, 4, .ro, 2, 0, 0, 18446744073709551615, 0, 8⟩,
  ⟨0x705501, 4, .ro, 2, 0, 0, 18446744073709551615, 0, 8⟩,
  ⟨0x706001, 3, .ro, 2, 0, 261120, 261120, 261120, 4⟩,
  ⟨0x706002, 4, .ro, 2, 0, 0, 18446744073709551615, 0, 8⟩,
  ⟨0x706003, 4, .ro, 2, 0, 0, 18446744073709551615, 0, 8⟩,
  ⟨0x706004, 10, .ro, 2, 0, 0, 32, 32, 32⟩,
  ⟨0x706005, 4, .wo, 3, 0, 0, 18446744073709551615, 0, 8⟩,
  ⟨0x706006, 10, .ro, 3, 0, 0, 1024, 0, 1024⟩]

/-- Entries, part 8. -/
def part8 : List DictEntry := [
  ⟨0x706007, 4, .ro, 2, 0, 0, 18446744073709551615, 0, 8⟩,
  ⟨0x706008, 4, .ro, 2, 0, 0, 18446744073709551615, 0, 8⟩,
  ⟨0x706009, 8, .ro, 2, 0, 0, 1, 0, 1⟩,
  ⟨0x706101, 10, .ro, 2, 0, 0, 64, 64, 64⟩,
  ⟨0x706102, 4, .ro, 2, 0, 0, 18446744073709551615, 0, 8⟩,
  ⟨0x706103, 4, .ro, 2, 0, 0, 18446744073709551615, 0, 8⟩,
  ⟨0x706201, 7, .wo, 3, 0, 1, 1, 0, 1⟩,
  ⟨0x706202, 8, .ro, 2, 0, 0, 2, 0, 1⟩,
  ⟨0x800001, 3, .rw, 2, 0, 100, 600000, 10000, 4⟩,
  ⟨0x800002, 4, .ro, 2, 0, 0, 18446744073709551615, 0, 8⟩,
  ⟨0x800003, 10, .ro, 2, 0, 0, 32, 32, 32⟩,
  ⟨0x800004, 4, .ro, 2, 0, 0, 18446744073709551615, 0, 8⟩,
  ⟨0x800005, 8, .ro, 2, 0, 0, 4, 3, 1⟩,
  ⟨0x800101, 10, .ro, 2, 0, 0, 48, 0, 48⟩,
  ⟨0x800201, 10, .ro, 2, 0, 0, 92, 92, 92⟩]

/-- Every entry, in ascending (index, subindex). -/
def table : List DictEntry := part0 ++ part1 ++ part2 ++ part3 ++ part4 ++ part5 ++ part6 ++ part7 ++ part8

end Dict

/-- The entry with this key, where a chapter defines one (R366). -/
def dictEntry (key : Nat) : Option DictEntry := Dict.table.find? (·.key == key)

/-- Size of a value of a fixed-size type (R367); 0 for STR and BLOB. -/
def typeSize (t : Nat) : Nat :=
  match t with
  | 1 => 1 | 2 => 2 | 3 => 4 | 4 => 8 | 5 => 4 | 6 => 4 | 7 => 1 | 8 => 1 | _ => 0

/-- The default value of a stored entry: RW and RWS BLOBs default to zero bytes. -/
def DictEntry.default (e : DictEntry) : Bytes := if e.type ≥ 9 then zeros e.dflt else toLE (typeSize e.type) e.dflt

end Sys2Proof.Machine
end

