-- ==== Sys2Proof/Machine/Flags.lean ====
section
/-! DEFINITION. Status codes (15 R351), completion flags (R348) and the error class of a status or counter (19 R436). -/

namespace Sys2Proof.Machine

namespace Status

/-- 0x0000 -/
abbrev success : Nat := 0x0000
/-- 0x0001 -/
abbrev invalidField : Nat := 0x0001
/-- 0x0002 -/
abbrev lengthMismatch : Nat := 0x0002
/-- 0x0003 -/
abbrev abortedByReset : Nat := 0x0003
/-- 0x0004. -/
abbrev notReady : Nat := 0x0004
/-- 0x0005 -/
abbrev accessDenied : Nat := 0x0005
/-- 0x0006 -/
abbrev capacityExceeded : Nat := 0x0006
/-- 0x0007 -/
abbrev incompleteMedia : Nat := 0x0007
/-- 0x0010 -/
abbrev invalidPlan : Nat := 0x0010
/-- 0x0011 -/
abbrev planNotBound : Nat := 0x0011
/-- 0x0020 -/
abbrev collectionExists : Nat := 0x0020
/-- 0x0021 -/
abbrev collectionNotFound : Nat := 0x0021
/-- 0x0022 -/
abbrev appendListFull : Nat := 0x0022
/-- 0x0023 -/
abbrev epochUnavailable : Nat := 0x0023
/-- 0x0030 -/
abbrev shardUnavailable : Nat := 0x0030
/-- 0x0031 -/
abbrev shardMapMismatch : Nat := 0x0031
/-- 0x0032 -/
abbrev notOwner : Nat := 0x0032
/-- 0x0040 -/
abbrev headExists : Nat := 0x0040
/-- 0x0041 -/
abbrev headNotFound : Nat := 0x0041
/-- 0x0042 -/
abbrev groupMismatch : Nat := 0x0042
/-- 0x0043 -/
abbrev groupUnavailable : Nat := 0x0043
/-- 0x0044 -/
abbrev stashNotFound : Nat := 0x0044
/-- 0x0045 -/
abbrev stashFull : Nat := 0x0045
/-- 0x0046 -/
abbrev nonfiniteGradient : Nat := 0x0046
/-- 0x0047 -/
abbrev reductionMismatch : Nat := 0x0047
/-- 0x0048 -/
abbrev moduleDegraded : Nat := 0x0048

end Status

namespace Cflag

/-- bit 0 -/
abbrev saturated : Nat := 1
/-- bit 1 -/
abbrev accSaturated : Nat := 2
/-- bit 2 -/
abbrev deadlineMissed : Nat := 4
/-- bit 3 -/
abbrev recomputed : Nat := 8
/-- bit 4 -/
abbrev degraded : Nat := 16
/-- bit 5 -/
abbrev incomplete : Nat := 32
/-- bit 6 -/
abbrev filterExhausted : Nat := 64

end Cflag

/-- A flag as its bit, where the condition holds (R348). -/
def flagIf (c : Bool) (f : Nat) : Nat := if c then f else 0

/-- FIELD_SOURCE as it is encoded (R348). -/
def FieldSource.code : FieldSource → Nat
  | .none => 0
  | .entry => 1
  | .payload => 2
  | .tile => 3

/-- The error class that a completion's status adds to (R436); notes/assumptions/14.md. DEDUCED (log entry 14). -/
def statusClass (st : Nat) : Option Nat :=
  if st = Status.incompleteMedia then some 1
  else if [Status.shardUnavailable, Status.groupMismatch, Status.groupUnavailable, Status.reductionMismatch].contains st then some 4
  else if st = Status.moduleDegraded then some 6
  else if [Status.success, Status.abortedByReset, Status.nonfiniteGradient, Status.notOwner].contains st then none
  else some 2

/-- The error class that an increment of a counter adds to (R436); notes/assumptions/14.md. DEDUCED (log entry 14). -/
def counterClass (key : Nat) : Option Nat :=
  if [0x704707, 0x704701, 0x704906, 0x704907].contains key then some 0
  else if key / 256 = 0x7050 then some 3
  else if [0x705404, 0x705406, 0x705407, 0x705408].contains key then some 6
  else if [0x705303, 0x705304].contains key then some 7
  else if [0x706102, 0x706103].contains key then some 5
  else none

end Sys2Proof.Machine
end

