-- ==== Sys2Proof/Machine/Ops.lean ====
section
/-! DEFINITION. The operations that every family shares: sparse tables, counters, settings, time, free values, the
module's output, black-box events, and the command records of the front end. -/

namespace Sys2Proof.Machine

/-- What a command answers. -/
abbrev Res := Host.Outcome State Fault Refusal

/-! ## Sparse tables: rising keys, no entry for a key that reads as the default -/

/-- The value listed for `k`. -/
def tableGet {α : Type} (l : List (Nat × α)) (k : Nat) : Option α :=
  match l with
  | [] => none
  | (k', v) :: r => if k' = k then some v else tableGet r k

/-- The table without `k`. -/
def tableErase {α : Type} (l : List (Nat × α)) (k : Nat) : List (Nat × α) := l.filter (·.1 ≠ k)

/-- The table with `v` listed for `k`, keys rising. -/
def tablePut {α : Type} (l : List (Nat × α)) (k : Nat) (v : α) : List (Nat × α) :=
  match l with
  | [] => [(k, v)]
  | (k', v') :: r => if k < k' then (k, v) :: (k', v') :: r else if k = k' then (k, v) :: r else (k', v') :: tablePut r k v

/-- Keys rise and no listed value is the default that `dflt` gives for its key: the canonical form. -/
def Table.wf {α : Type} [BEq α] (dflt : Nat → α) : List (Nat × α) → Bool
  | [] => true
  | [(k, v)] => v != dflt k
  | (k, v) :: (k', v') :: r => decide (k < k') && v != dflt k && Table.wf dflt ((k', v') :: r)

/-- The table with `k` reading as `v`: a default value is not listed. -/
def tableSet {α : Type} [BEq α] (dflt : Nat → α) (l : List (Nat × α)) (k : Nat) (v : α) : List (Nat × α) :=
  if v == dflt k then tableErase l k else tablePut l k v

/-! ## Time and free values -/

/-- The time base moves to the instant of the event; it never decreases (14 R340). DESIGN CHOICE (log entry 2). -/
def tick (t : Nat) (s : State) : State := { s with now := max s.now t }

/-- The free value that the next use takes (notes/assumptions/8.md). DESIGN CHOICE (log entry 8). -/
def freeOf (s : State) : Nat := Config.freeValue s.free

/-- The state after one free value has been used. DESIGN CHOICE (log entry 8). -/
def useFree (s : State) : State := { s with free := s.free + 1 }

/-! ## Counters and error classes -/

/-- A counter's value. -/
def counter (s : State) (k : Nat) : Nat := (tableGet s.counters k).getD 0

/-- ERROR_CLASS_COUNTS of class `c` raised by one (19 R436). DEDUCED (log entry 14). -/
def raiseClass (c : Nat) (s : State) : State := { s with box := { s.box with classes := modAt (· + 1) c s.box.classes } }

/-- A counter set to a value. -/
def setCounter (k v : Nat) (s : State) : State := { s with counters := tableSet (fun _ => 0) s.counters k v }

/-- A counter raised by `n`. Its range is 0 to 2^64 − 1; past that the spec states no value (notes/assumptions/8.md). DESIGN CHOICE (log entry 8). -/
def addCounter (k n : Nat) (s : State) : State :=
  if counter s k + n < 1 <<< 64 then setCounter k (counter s k + n) s
  else useFree (setCounter k (freeOf s % (1 <<< 64)) s)

/-- A counter raised by `n`, with its error class (19 R436). DEDUCED (log entry 14). -/
def bumpBy (k n : Nat) (s : State) : State :=
  match counterClass k with
  | none => addCounter k n s
  | some c => (List.range n).foldl (fun u _ => raiseClass c u) (addCounter k n s)

/-- A counter raised by 1. DEDUCED (log entry 16). -/
def bump (k : Nat) (s : State) : State := bumpBy k 1 s

/-! ## Settings -/

/-- The default of a stored entry. -/
def settingDefault (k : Nat) : Bytes := ((dictEntry k).map DictEntry.default).getD []

/-- The live value of an RW or RWS entry (16 R384). -/
def setting (s : State) (k : Nat) : Bytes := (tableGet s.settings k).getD (settingDefault k)

/-- The live value of an unsigned RW or RWS entry. -/
def settingNat (s : State) (k : Nat) : Nat := leNat (setting s k)

/-- A live value set. -/
def setSetting (k : Nat) (v : Bytes) (s : State) : State := { s with settings := tableSet settingDefault s.settings k v }

/-- A setting in µs, as ns. -/
def settingUs (s : State) (k : Nat) : Nat := settingNat s k * 1000

/-! ## Output -/

/-- The connection on which an output goes as packets that are acknowledged, and its bytes. DESIGN CHOICE (log entry 12). -/
def outLoad : Out → Option (Nat × Nat)
  | .completion c b | .xrdy c b | .write c _ _ b | .hello c b | .helloReply c b => some (c, b.length)
  | .credit c => some (c, 32)
  | .keyA c => some (c, 64 + Config.identityCertificate.length)
  | .keyB c => some (c, 96 + Config.identityCertificate.length)
  | .keyC c => some (c, 32)
  | _ => none

/-- The packets that carry `n` bytes at a path MTU. DESIGN CHOICE (log entry 12). -/
def packetsOf (mtu n : Nat) : Nat := max 1 (ceilDiv n (max 1 mtu))

/-- `n` packets have gone out on a connection: they count under its key once it has one (14 R329), and its acknowledgement timer runs (14 R324). DESIGN
CHOICE (log entry 12). -/
def sentOn (now n : Nat) (c : Conn) : Conn :=
  { c with
    txPackets := if c.phase = .established ∨ c.phase = .keying then c.txPackets else c.txPackets + n
    unacked := c.unacked + n
    sentAt := if c.unacked = 0 then now else c.sentAt
    lastTraffic := now }

/-- The module sends `o`. DESIGN CHOICE (log entries 7, 12). -/
def emit (o : Out) (s : State) : State :=
  match outLoad o with
  | none => { s with net := { s.net with out := s.net.out ++ [o], lastOut := s.now } }
  | some (q, n) =>
    { s with net := { s.net with
        out := s.net.out ++ [o]
        lastOut := s.now
        conns := mapIf (fun c => c.qpn == q) (fun c => sentOn s.now (packetsOf c.mtu n) c) s.net.conns } }

/-- The module sends each of `os`. DESIGN CHOICE (log entry 12). -/
def emitAll (os : List Out) (s : State) : State := os.foldl (fun u o => emit o u) s

/-! ## Black-box events -/

/-- DETAIL padded to its 24 bytes (19 R440). -/
def detail24 (b : Bytes) : Bytes := (b ++ zeros 24).take 24

/-- An event goes into the writer's queue; one beyond its 256 places is dropped and counted (19 R438, R442). DEDUCED (log entry 60). -/
def logEvent (code severity unit : Nat) (detail : Bytes) (s : State) : State :=
  if s.box.queue.length < 256 then
    { s with box := { s.box with queue := s.box.queue ++
        [{ code := code, severity := severity, unit := unit, detail := detail24 detail, time := s.now, boot := s.sec.bootCount }] } }
  else bump Key.blackboxDropped s

/-! ## Commands of the front end -/

/-- The command with this order of receipt. -/
def findCmd (s : State) (seq : Nat) : Option Cmd := s.ahp.cmds.find? (·.seq == seq)

/-- The command when it is admitted and its input has not been checked. DESIGN CHOICE (log entry 11). -/
def admittedCmd (s : State) (seq opcode : Nat) : Option Cmd :=
  match findCmd s seq with
  | some c => if c.phase = .admitted ∧ c.entry.opcode = opcode then some c else none
  | none => none

/-- The command when its work runs. DESIGN CHOICE (log entry 11). -/
def workingCmd (s : State) (seq opcode : Nat) : Option Cmd :=
  match findCmd s seq with
  | some c => if c.phase = .working ∧ c.entry.opcode = opcode then some c else none
  | none => none

/-- One command changed by `f`. -/
def updCmd (seq : Nat) (f : Cmd → Cmd) (s : State) : State :=
  { s with ahp := { s.ahp with cmds := mapIf (fun c => c.seq == seq) f s.ahp.cmds } }

/-- The queue with this QUEUE_ID. -/
def findQueue (s : State) (qid : Nat) : Option Queue := s.ahp.queues.find? (·.qid == qid)

/-- One queue changed by `f`. -/
def updQueue (qid : Nat) (f : Queue → Queue) (s : State) : State :=
  { s with ahp := { s.ahp with queues := mapIf (fun q => q.qid == qid) f s.ahp.queues } }

/-- The connection of a command's queue; 0 where the queue is gone. -/
def connOf (s : State) (c : Cmd) : Nat := ((findQueue s c.queue).map (·.conn)).getD 0

/-- The tenant role of a command's queue; 0 where the queue is gone. -/
def roleOf (s : State) (c : Cmd) : Nat := ((findQueue s c.queue).map (·.role)).getD 0

/-- Whether the command's queue acts as the host administrator (15 R355). -/
def adminOf (s : State) (c : Cmd) : Bool := ((findQueue s c.queue).map (·.admin)).getD false

/-- The AHP minor version of the command's queue. -/
def minorOf (s : State) (c : Cmd) : Nat := ((findQueue s c.queue).map (·.minor)).getD 0

/-- A completion record (15 R347). -/
def completionBytes (commandId : Nat) (c : Comp) : Bytes :=
  withCrc (toLE 4 1 ++ toLE 4 commandId ++ toLE 1 c.flags ++ toLE 1 c.source.code ++ toLE 2 c.status ++ toLE 8 c.info ++
    toLE 4 c.offset ++ toLE 4 c.outBytes)

/-- A command releases every copy of the window that it holds; an uncorrectable copy that nobody holds is ABSENT (13 R311). DESIGN CHOICE (log entry 40). -/
def releaseCopies (seq : Nat) (s : State) : State :=
  let held := mapIf (fun c : Copy => c.holders.contains seq)
    (fun c => { c with holders := c.holders.filter (· ≠ seq), released := s.now }) s.cold.copies
  { s with cold := { s.cold with copies := held.filter fun c => !(c.bad && c.holders.isEmpty) } }

/-- Work that sends nothing has ended now (18 R420). -/
def idleFrom (s : State) : State := { s with power := { s.power with idleSince := s.now } }

/-- The completion of a command becomes ready (15 R353). The output was written before it (R350); scratchpad banks that the
command held are free again (12 R273). A command that the module started itself has no completion. DESIGN CHOICE (log entry 11). -/
def finish (seq : Nat) (comp : Comp) (output : Bytes) (s : State) : State :=
  match findCmd s seq with
  | none => s
  | some c =>
    let s1 := if output.isEmpty then s else emit (.write (connOf s c) c.entry.outAddr c.entry.outKey output) s
    let s2 := releaseCopies seq { s1 with hbm := { s1.hbm with holds := s1.hbm.holds.filter (·.seq ≠ seq), waiters := s1.hbm.waiters.filter (·.seq ≠ seq) } }
    if c.internal then idleFrom { s2 with ahp := { s2.ahp with cmds := s2.ahp.cmds.filter (·.seq ≠ seq) } }
    else updCmd seq (fun d => { d with phase := .done, comp := some comp }) s2

/-- A completion with SUCCESS, INFO and output. -/
def succeed (seq info : Nat) (output : Bytes) (s : State) : State :=
  finish seq { status := Status.success, info := info, outBytes := output.length } output s

/-- A completion with a status and nothing else. -/
def fail (seq status : Nat) (s : State) : State := finish seq { status := status } [] s

/-- INVALID_FIELD at an offset of the input buffer (15 R348). -/
def failPayload (seq offset : Nat) (s : State) : State :=
  finish seq { status := Status.invalidField, source := .payload, offset := offset } [] s

/-- INVALID_FIELD at an offset of the submission entry (15 R348). -/
def failEntry (seq offset : Nat) (s : State) : State :=
  finish seq { status := Status.invalidField, source := .entry, offset := offset } [] s

/-- The command's input has passed its checks and its work runs. DESIGN CHOICE (log entry 11). -/
def startWork (seq : Nat) (s : State) : State := updCmd seq (fun c => { c with phase := .working }) s

/-! ## Objects -/

/-- The collection with this COLLECTION_ID, one that is being deleted among them. -/
def findColl (s : State) (id : Nat) : Option Coll := s.search.colls.find? (·.id == id)

/-- One collection changed by `f`. -/
def updColl (id : Nat) (f : Coll → Coll) (s : State) : State :=
  { s with search := { s.search with colls := mapIf (fun c => c.id == id) f s.search.colls } }

/-- The head with this HEAD_ID, one that is being deleted among them. -/
def findHead (s : State) (id : Nat) : Option Head := s.mem.heads.find? (·.id == id)

/-- One head changed by `f`. -/
def updHead (id : Nat) (f : Head → Head) (s : State) : State :=
  { s with mem := { s.mem with heads := mapIf (fun h => h.id == id) f s.mem.heads } }

/-- The query with this key. -/
def findQuery (s : State) (key : Nat) : Option Query := s.search.queries.find? (·.key == key)

/-- One query changed by `f`. -/
def updQuery (key : Nat) (f : Query → Query) (s : State) : State :=
  { s with search := { s.search with queries := mapIf (fun q => q.key == key) f s.search.queries } }

/-- The connection with this local QP number. -/
def findConn (s : State) (qpn : Nat) : Option Conn := s.net.conns.find? (·.qpn == qpn)

/-- One connection changed by `f`. -/
def updConn (qpn : Nat) (f : Conn → Conn) (s : State) : State :=
  { s with net := { s.net with conns := mapIf (fun c => c.qpn == qpn) f s.net.conns } }

/-- The state chain of a collection or head (17 R414). DESIGN CHOICE (log entry 54). -/
def chainOf (s : State) (kind id : Nat) : Bytes :=
  ((s.sec.chains.find? fun c => c.kind == kind && c.id == id).map (·.digest)).getD []

/-- The chain of a new collection or head starts as the digest of its schema or descriptor. DESIGN CHOICE (log entry 54). -/
def chainStart (kind id : Nat) (d : Bytes) (s : State) : State :=
  { s with sec := { s.sec with chains := s.sec.chains.filter (fun c => !(c.kind == kind && c.id == id)) ++ [{ kind := kind, id := id, digest := sm3 d }] } }

/-- The chain takes SM3(previous ‖ SM3 of the unit) (17 R414). DESIGN CHOICE (log entry 54). -/
def chainExtend (kind id : Nat) (unit : Bytes) (s : State) : State :=
  { s with sec := { s.sec with chains := mapIf (fun c => c.kind == kind && c.id == id) (fun c => { c with digest := sm3 (c.digest ++ sm3 unit) }) s.sec.chains } }

/-- Low 64 bits of the SM3 digest of the identity public key (17 R395). -/
def identityDigest : Nat := sm3Low64 Config.identityKey.toList

/-- An SM2 signature of the module over the SM3 of `b`; the signature is not determined by its message, so each is a new
draw (17 R391). DESIGN CHOICE (log entries 6, 8, 54). -/
def signBytes (s : State) (b : Bytes) : Bytes := (Config.sm2Sign s.free (sm3 b)).toList

end Sys2Proof.Machine
end

