-- ==== Sys2Proof/Machine/HeadFields.lean ====
section
/-! DEFINITION. The head descriptor's fields, the rows and tiles of a head's tensors, and the digests that its group compares (10 R207,
R210, R215; 15 R361). TENSOR codes 1 to 4 are the sub-key tables, the projection and the value table; 5 to 8 their scale tiles; 9 to 12
their side tensors; 13 the projection-input calibration tile. -/

namespace Sys2Proof.Machine

namespace Hd

/-- RESIDENCY is STREAMED. -/
def streamed (d : Bytes) : Bool := u8At d 31 == 2
/-- CALIB_WINDOW. -/
def calibWindow (d : Bytes) : Nat := u8At d 30
/-- FROZEN_PROJECTION. -/
def frozenProj (d : Bytes) : Bool := bit (u8At d 24) 1
/-- FROZEN_SUBKEYS. -/
def frozenKeys (d : Bytes) : Bool := bit (u8At d 24) 0
/-- HEAD_ID. -/
def id (d : Bytes) : Nat := u32At d 8
/-- OUTPUT_FORMAT code. -/
def outputFormat (d : Bytes) : Nat := u8At d 32
/-- INPUT_FORMAT code. -/
def inputFormat (d : Bytes) : Nat := u8At d 33
/-- ACT_FORMAT code. -/
def actFormat (d : Bytes) : Nat := u8At d 34
/-- PROJ_FORMAT code. -/
def projFormat (d : Bytes) : Nat := u8At d 35
/-- SUBKEY_FORMAT code. -/
def subkeyFormat (d : Bytes) : Nat := u8At d 36
/-- VALUE_FORMAT code. -/
def valueFormat (d : Bytes) : Nat := u8At d 37
/-- KHALF. -/
def khalf (d : Bytes) : Nat := u8At d 38
/-- KSEL. -/
def ksel (d : Bytes) : Nat := u8At d 39
/-- GROUP_ID. -/
def group (d : Bytes) : Nat := u16At d 40
/-- HALF_DIM. -/
def halfDim (d : Bytes) : Nat := u16At d 42
/-- D_V. -/
def dv (d : Bytes) : Nat := u16At d 44
/-- D_MODEL. -/
def dModel (d : Bytes) : Nat := u16At d 46
/-- SUBKEYS_1. -/
def subkeys1 (d : Bytes) : Nat := u32At d 48
/-- SUBKEYS_2. -/
def subkeys2 (d : Bytes) : Nat := u32At d 52
/-- VALUE_SOURCE_HEAD. -/
def source (d : Bytes) : Nat := u32At d 56
/-- S, the number of value slots. -/
def slots (d : Bytes) : Nat := subkeys1 d * subkeys2 d
/-- D_IN, the width of an input row (R213). -/
def dIn (d : Bytes) : Nat := if dModel d = 0 then 2 * halfDim d else dModel d
/-- The head reads the value table of another head. -/
def tied (d : Bytes) : Bool := source d != id d

end Hd

namespace Hd

/-- Rows of tensor 1 to 4. -/
def rows (d : Bytes) (t : Nat) : Nat := if t = 1 then subkeys1 d else if t = 2 then subkeys2 d else if t = 3 then 2 * halfDim d else slots d

/-- Columns of tensor 1 to 4. -/
def cols (d : Bytes) (t : Nat) : Nat := if t = 3 then dModel d else if t = 4 then dv d else halfDim d

/-- Format code of tensor 1 to 4. -/
def formatCode (d : Bytes) (t : Nat) : Nat := if t = 3 then projFormat d else if t = 4 then valueFormat d else subkeyFormat d

/-- Format of tensor 1 to 4. -/
def fmt (d : Bytes) (t : Nat) : Fmt := (Fmt.ofCode (formatCode d t)).getD .fp32

/-- Bytes of a row of tensor 1 to 4 (03 R59). -/
def rowBytes (d : Bytes) (t : Nat) : Nat := elemBytes (fmt d t) (cols d t)

/-- Format of the activations. -/
def actFmt (d : Bytes) : Fmt := (Fmt.ofCode (actFormat d)).getD .fp32

/-- Format of the input rows. -/
def inputFmt (d : Bytes) : Fmt := (Fmt.ofCode (inputFormat d)).getD .fp32

/-- Format of the output rows. -/
def outputFmt (d : Bytes) : Fmt := (Fmt.ofCode (outputFormat d)).getD .fp32

/-- The tensor that a tile tensor belongs to: 5-8 are scale tiles, 9-12 side tensors. -/
def tileOf (t : Nat) : Nat := if t = 13 then 3 else (t - 1) % 4 + 1

/-- The head holds the tensor (15 R361): no projection without D_MODEL, no value table on a tied head. -/
def holds (d : Bytes) (t : Nat) : Bool :=
  if tileOf t = 3 then dModel d != 0 else if tileOf t = 4 then !tied d else true

end Hd

/-- The code bytes of a row of tensor 1 to 4; a row never written holds zero bytes (10 R210). -/
def headRow (h : Head) (t r : Nat) : Bytes :=
  ((h.rows.find? fun x => x.1 == t && x.2.1 == r).map (·.2.2)).getD (zeros (Hd.rowBytes h.desc t))

/-- A row of tensor 1 to 4 set. -/
def setRow (t r : Nat) (b : Bytes) (h : Head) : Head :=
  { h with rows := insertBy (fun x y => x.1 < y.1 || (x.1 == y.1 && x.2.1 ≤ y.2.1)) (t, r, b) (h.rows.filter fun x => !(x.1 == t && x.2.1 == r)) }

/-- The bytes of a tile; a tile never written holds none here. -/
def headTile (h : Head) (t : Nat) : Bytes := ((h.tiles.find? fun x => x.1 == t).map (·.2)).getD []

/-- A tile set. -/
def setTile (t : Nat) (b : Bytes) (h : Head) : Head := { h with tiles := insertBy (fun x y => x.1 ≤ y.1) (t, b) (h.tiles.filter (·.1 ≠ t)) }

/-- Element codes of a row of tensor 1 to 4. -/
def rowCodes (h : Head) (t r : Nat) : List Nat := (List.range (Hd.cols h.desc t)).map (elemAt (Hd.fmt h.desc t) (headRow h t r))

/-! ## Digests (R215) -/

/-- The replicated parts of a head, in ascending TENSOR code: its code, its length and its bytes; the calibration tile as a
HEAD_TENSOR_WRITE or a ring write left it. -/
def replicaParts (h : Head) : Bytes :=
  ([1, 2, 3, 5, 6, 7, 9, 10, 11, 13].map fun t =>
    let b := if Hd.holds h.desc t = false then []
      else if t ≤ 3 then ((List.range (Hd.rows h.desc t)).map (headRow h t)).flatten
      else if t = 13 then h.calib
      else headTile h t
    toLE 1 t ++ toLE 8 b.length ++ b).flatten

/-- The replica digest. -/
def replicaDigest (h : Head) : Nat := sm3Low64 (replicaParts h)

/-- The request digest. -/
def requestDigest (request : Bytes) (plan : Nat) : Nat := sm3Low64 (request ++ toLE 8 plan)

end Sys2Proof.Machine
end

