-- ==== Sys2Proof/Machine/Install.lean ====
section
/-! DEFINITION. The installation descriptor: its parts, its check and what the module reads from it (09 R181-R187, 01
R13-R16). -/

namespace Sys2Proof.Machine

/-! ## Where the parts lie (R182-R185) -/

/-- MODULE_COUNT. -/
def descModules (d : Bytes) : Nat := u16At d 52
/-- GROUP_COUNT. -/
def descGroups (d : Bytes) : Nat := u16At d 54
/-- SHARD_MAP_COUNT. -/
def descMaps (d : Bytes) : Nat := u16At d 56
/-- RING_COUNT. -/
def descRings (d : Bytes) : Nat := u16At d 58
/-- SEQUENCE. -/
def descSequence (d : Bytes) : Nat := u64At d 40

/-- Offset of module entry `i`. -/
def moduleAt (i : Nat) : Nat := 64 + 80 * i
/-- IDENTITY_DIGEST of module entry `i`. -/
def moduleDigest (d : Bytes) (i : Nat) : Nat := u64At d (moduleAt i + 8)
/-- PORT_MASK of module entry `i`. -/
def modulePorts (d : Bytes) (i : Nat) : Nat := bits (u8At d (moduleAt i + 2)) 3 0
/-- Offset of group entry `g`. -/
def groupAt (d : Bytes) (g : Nat) : Nat := 64 + 80 * descModules d + 64 * g
/-- The members of group `g`, in the fixed member order; none where the descriptor holds no such group. -/
def groupMembers (d : Bytes) (g : Nat) : List Nat :=
  if g < descGroups d then (List.range (u8At d (groupAt d g + 2))).map fun m => u16At d (groupAt d g + 8 + 2 * m) else []

/-- Bytes of a ring of `n` modules. -/
def ringBytes (n : Nat) : Nat := 8 + 2 * roundUp 4 n

/-- Offset of each ring, as the rings follow one another from `off`. -/
def ringOffsets (d : Bytes) : Nat → Nat → List Nat
  | 0, _ => []
  | n + 1, off => off :: ringOffsets d n (off + ringBytes (u16At d (off + 2)))

/-- Offset of the first ring. -/
def ringsAt (d : Bytes) : Nat := groupAt d (descGroups d)

/-- The module indices of each ring. -/
def descRingList (d : Bytes) : List (List Nat) :=
  (ringOffsets d (descRings d) (ringsAt d)).map fun o => (List.range (u16At d (o + 2))).map fun i => u16At d (o + 8 + 2 * i)

/-- Offset of the first shard map. -/
def mapsAt (d : Bytes) : Nat :=
  (ringOffsets d (descRings d) (ringsAt d)).foldl (fun _ o => o + ringBytes (u16At d (o + 2))) (ringsAt d)

/-- Offset of each shard map. -/
def mapOffsets (d : Bytes) : Nat → Nat → List Nat
  | 0, _ => []
  | n + 1, off => off :: mapOffsets d n (off + u32At d (off + 4))

/-- A shard map, read from the descriptor (R185). -/
structure ShardMap where
  coll : Nat
  keeper : Nat
  owners : List Nat             -- module index of each shard's owner
  buckets : List Nat            -- shard of each of the 4 096 buckets
  deriving DecidableEq, Repr

/-- The shard map at an offset. -/
def shardMapAt (d : Bytes) (o : Nat) : ShardMap where
  coll := u32At d (o + 16)
  keeper := u16At d (o + 22)
  owners := (List.range (u16At d (o + 20))).map fun i => u16At d (o + 64 + 2 * i)
  buckets := (List.range 4096).map fun b => u16At d (o + 64 + 8 * ceilDiv (u16At d (o + 20)) 4 + 2 * b)

/-- Every shard map. -/
def shardMaps (d : Bytes) : List ShardMap := (mapOffsets d (descMaps d) (mapsAt d)).map (shardMapAt d)

/-! ## The check (R186) -/

/-- The first failure of a list of checks. -/
def firstFail {α : Type} : List (Option α) → Option α
  | [] => none
  | some x :: _ => some x
  | none :: r => firstFail r

/-- A check that reports `off` where its condition fails. -/
def require (c : Bool) (off : Nat) : Option Nat := if c then none else some off

/-- A reserved field of `n` bytes at `off`, reported at its first byte. -/
def reserved (b : Bytes) (off n : Nat) : Option Nat := require (leAt b off n == 0) off

/-- Padding of `n` bytes at `off`, each reported at its own offset (00 R8). -/
def padding (b : Bytes) (off n : Nat) : Option Nat := firstNonZero b off n

/-- Module entry `i` (R183); `own` is the module's own identity digest. -/
def moduleFail (d : Bytes) (own i : Nat) : Option Nat :=
  let o := moduleAt i
  let earlier := (List.range i).map (moduleDigest d)
  firstFail [
    require (u16At d o == i) o,
    require (modulePorts d i != 0) (o + 2),
    require (bits (leAt d (o + 2) 6) 47 4 == 0) (o + 2),
    require (!earlier.contains (moduleDigest d i)) (o + 8),
    require (i + 1 != descModules d || (moduleDigest d i :: earlier).contains own) (o + 8),
    firstFail ((List.range 4).map fun p => require ((leAt d (o + 16 + 16 * p) 16 != 0) == bit (modulePorts d i) p) (o + 16 + 16 * p))]

/-- Group entry `g` (R184). -/
def groupFail (d : Bytes) (g : Nat) : Option Nat :=
  let o := groupAt d g
  let n := u8At d (o + 2)
  let member := fun m => u16At d (o + 8 + 2 * m)
  firstFail [
    require (u16At d o == g) o,
    require (1 ≤ n && n ≤ 16 && (descModules d != 1 || n == 1)) (o + 2),
    reserved d (o + 3) 5,
    firstFail ((List.range 16).map fun m => require
      (if m < n then member m < descModules d && !((List.range m).map member).contains (member m) else member m == 0xFFFF) (o + 8 + 2 * m)),
    reserved d (o + 40) 24]

/-- The rings from `off` on (R184), `r` of them read: the failure, or the end of the last. -/
def ringsFail (d : Bytes) (len : Nat) : Nat → Nat → Nat → Option Nat × Nat
  | 0, _, off => (none, off)
  | n + 1, r, off =>
    let k := u16At d (off + 2)
    let index := fun i => u16At d (off + 8 + 2 * i)
    match firstFail [
      require (off + 8 ≤ len) 58,
      require (u16At d off == r) off,
      require (2 ≤ k && k ≤ 4096 && off + ringBytes k ≤ len) (off + 2),
      reserved d (off + 4) 4,
      firstFail ((List.range k).map fun i => require (index i < descModules d && !((List.range i).map index).contains (index i)) (off + 8 + 2 * i)),
      padding d (off + 8 + 2 * k) (ringBytes k - 8 - 2 * k)] with
    | some x => (some x, off)
    | none => ringsFail d len n (r + 1) (off + ringBytes k)

/-- The shard maps from `off` on (R185), with the COLLECTION_IDs of those read: the failure, or the end of the last. -/
def mapsFail (d : Bytes) (len : Nat) : Nat → List Nat → Nat → Option Nat × Nat
  | 0, _, off => (none, off)
  | n + 1, seen, off =>
    let k := u16At d (off + 20)
    let owner := fun i => u16At d (off + 64 + 2 * i)
    let owners := (List.range k).map owner
    let table := off + 64 + 8 * ceilDiv k 4
    match firstFail [
      require (off < len) 56,
      require (u32At d off == 0x4D534C41) off,
      require (off + max 64 (u32At d (off + 4)) ≤ len) (off + 4),
      reserved d (off + 8) 8,
      require (u32At d (off + 16) != 0xFFFFFFFF && !seen.contains (u32At d (off + 16))) (off + 16),
      require (1 ≤ k && k ≤ 4096 && (descModules d != 1 || k == 1) && u32At d (off + 4) == 64 + 8 * ceilDiv k 4 + 8192) (off + 20),
      require (u16At d (off + 22) < descModules d) (off + 22),
      reserved d (off + 24) 40,
      firstFail ((List.range k).map fun i => require (owner i < descModules d && !((List.range i).map owner).contains (owner i) &&
        (i + 1 != k || owners.contains (u16At d (off + 22)))) (off + 64 + 2 * i)),
      padding d (off + 64 + 2 * k) (8 * ceilDiv k 4 - 2 * k),
      firstFail ((List.range 4096).map fun b => require (u16At d (table + 2 * b) < k) (table + 2 * b))] with
    | some x => (some x, off)
    | none => mapsFail d len n (u32At d (off + 16) :: seen) (off + u32At d (off + 4))

/-- The offset at which COMMIT_CHECK refuses a descriptor (R186, 01 R13); `live` is the SEQUENCE of the live descriptor where
there is one. -/
def descriptorFail (d : Bytes) (own : Nat) (live : Option Nat) : Option Nat :=
  let len := d.length
  let mc := descModules d
  match firstFail [
    require (u32At d 0 == 0x44494C41) 0,
    require (u32At d 8 == len && 64 ≤ len && len % 8 == 0 && len ≤ 64 * 1024 * 1024) 8,
    require (u32At d 60 == crc32c (slice d 0 60)) 60,
    reserved d 4 4, reserved d 12 28,
    require (match live with | none => true | some l => descSequence d > l) 40,
    reserved d 48 4,
    require ((mc == 1 || (8 ≤ mc && mc ≤ 4096)) && 64 + 80 * mc ≤ len) 52,
    require (descGroups d ≤ 4096 && groupAt d (descGroups d) ≤ len) 54,
    require (descMaps d ≤ 4096) 56,
    require (descRings d ≤ 4096) 58,
    firstFail ((List.range mc).map (moduleFail d own)),
    firstFail ((List.range (descGroups d)).map (groupFail d))] with
  | some x => some x
  | none =>
    match ringsFail d len (descRings d) 0 (ringsAt d) with
    | (some x, _) => some x
    | (none, off) =>
      match mapsFail d len (descMaps d) [] off with
      | (some x, _) => some x
      | (none, stop) => require (stop == len) 8

/-! ## What the module reads from the live descriptor -/

/-- The live descriptor, empty where none is. -/
def liveDesc (s : State) : Bytes := setting s Key.installationDescriptor

/-- INSTALLATION_MODULE_COUNT (01 R15). -/
def moduleCount (s : State) : Nat := if (liveDesc s).isEmpty then 0 else descModules (liveDesc s)

/-- INSTALLATION_MODE (01 R15): 0 NONE, 1 BRING_UP, 2 INSTALLATION. -/
def installMode (s : State) : Nat := if moduleCount s = 0 then 0 else if moduleCount s = 1 then 1 else 2

/-- MODULE_INDEX (01 R15), 0xFFFF without a descriptor. -/
def moduleIndex (s : State) : Nat :=
  (((List.range (moduleCount s)).find? fun i => moduleDigest (liveDesc s) i == identityDigest)).getD 0xFFFF

/-- The shard map of a collection, where the descriptor names it. -/
def shardMapOf (s : State) (coll : Nat) : Option ShardMap :=
  if (liveDesc s).isEmpty then none else (shardMaps (liveDesc s)).find? (·.coll == coll)

/-- The shard that this module owns of a map. -/
def ownShard (s : State) (m : ShardMap) : Option Nat := m.owners.idxOf? (moduleIndex s)

/-- The shard number of the module's own rows in result records: 0 for an unsharded collection (R186). -/
def ownShardNo (s : State) (coll : Nat) : Nat :=
  match shardMapOf s coll with
  | none => 0
  | some m => (ownShard s m).getD 0

/-- The hash of 06 R113, on 64-bit words. -/
def hash64 (x : Nat) : Nat :=
  let z := ((x ^^^ (x >>> 30)) * 0xBF58476D1CE4E5B9) % (1 <<< 64)
  let w := ((z ^^^ (z >>> 27)) * 0x94D049BB133111EB) % (1 <<< 64)
  w ^^^ (w >>> 31)

/-- The bucket of an identifier (R187). -/
def bucketOf (id : Nat) : Nat := hash64 id >>> 52

end Sys2Proof.Machine
end

