-- ==== Sys2Proof/Machine/Front.lean ====
section
/-! DEFINITION. The command front end: checks of a submission entry, receipt, the choice of a command, what holds an admission, and the
sending of completions (15 R342-R353, R355-R358; 06 R462; 07 R138; 12 R273). Admit.lean holds dispatch and admission themselves. -/

namespace Sys2Proof.Machine

/-! ## The entry (R345) and the table of opcodes (R355) -/

/-- The fields of an entry. -/
def parseEntry (b : Bytes) : Entry where
  opcode := u8At b 0
  fence := bit (u8At b 1) 0
  arg2 := u16At b 2
  cmdId := u32At b 4
  target := u32At b 8
  arg0 := u64At b 12
  arg1 := u64At b 20
  inAddr := u64At b 28
  inKey := u32At b 36
  inLen := u32At b 40
  outAddr := u64At b 44
  outKey := u32At b 52
  outLen := u32At b 56

/-- What TARGET_ID of an opcode names (R355). -/
inductive TargetUse
  | zero | queue | attest | coll | head | either
  deriving DecidableEq, Repr

/-- One row of the table of opcodes (R355, R356). -/
structure OpRow where
  op : Nat
  minor : Nat                   -- lowest AHP minor version
  tenant : Bool                 -- role T may use it
  admin : Bool                  -- role A may use it
  target : TargetUse
  data : Bool                   -- kind D
  arg0 : Nat                    -- used low bits of ARG_0
  arg1 : Nat
  arg2 : Nat
  input : Bool                  -- it has an input
  inputZero : Bool              -- IN_LENGTH 0 is allowed where it has one (R357)
  minOut : Nat                  -- fixed part of the smallest OUT_LENGTH
  deriving DecidableEq, Repr

/-- Role T rows without a target check of their own. -/
def opTable : List OpRow := [
  ⟨0x01, 0, true, true, .zero, false, 24, 0, 0, false, true, 0⟩,
  ⟨0x02, 0, true, true, .queue, false, 0, 0, 0, false, true, 0⟩,
  ⟨0x04, 0, false, true, .zero, false, 64, 32, 0, false, true, 256⟩,
  ⟨0x05, 0, true, true, .attest, false, 64, 0, 1, false, true, 4096⟩,
  ⟨0x06, 0, false, true, .zero, false, 0, 0, 0, true, false, 64⟩,
  ⟨0x10, 0, true, false, .either, false, 0, 0, 0, true, false, 0⟩,
  ⟨0x11, 0, true, false, .either, false, 64, 0, 1, false, true, 0⟩,
  ⟨0x20, 0, true, false, .coll, false, 0, 0, 0, true, false, 0⟩,
  ⟨0x21, 0, true, true, .coll, false, 0, 0, 0, false, true, 0⟩,
  ⟨0x22, 0, true, true, .coll, false, 0, 0, 0, false, true, 64⟩,
  ⟨0x23, 0, true, false, .coll, false, 0, 0, 0, false, true, 0⟩,
  ⟨0x24, 0, true, false, .coll, false, 64, 0, 0, false, true, 0⟩,
  ⟨0x25, 0, true, false, .coll, true, 0, 32, 0, true, true, 0⟩,
  ⟨0x26, 0, true, false, .coll, true, 0, 32, 0, true, true, 0⟩,
  ⟨0x27, 0, true, false, .coll, true, 0, 0, 0, false, true, 0⟩,
  ⟨0x28, 0, true, false, .coll, true, 64, 0, 1, false, true, 0⟩,
  ⟨0x29, 3, true, false, .coll, true, 0, 0, 0, true, false, 0⟩,
  ⟨0x2A, 0, true, false, .coll, true, 64, 64, 0, true, false, 0⟩,
  ⟨0x2B, 1, true, false, .coll, true, 64, 64, 0, true, false, 0⟩,
  ⟨0x30, 0, true, false, .head, false, 0, 0, 0, true, false, 0⟩,
  ⟨0x31, 0, true, true, .head, false, 0, 0, 0, false, true, 0⟩,
  ⟨0x32, 0, true, false, .head, true, 64, 0, 16, true, true, 0⟩,
  ⟨0x33, 0, true, false, .head, true, 64, 0, 0, true, false, 0⟩,
  ⟨0x34, 0, true, false, .head, true, 64, 0, 0, true, false, 0⟩,
  ⟨0x35, 0, true, false, .head, true, 64, 0, 0, true, false, 0⟩]

/-- The row of an opcode. -/
def opRow (op : Nat) : Option OpRow := opTable.find? (·.op == op)

/-- A part of a `w`-bit argument at byte `off` beyond its `used` low bits is reserved (R345, 00 R8); its offset is that of the
byte that holds its least significant bit. -/
def unusedPart (v used off : Nat) : Option Nat := require (v >>> used == 0) (off + used / 8)

/-- Step 7 of R346: the fields in ascending byte offset. `s` and `role` decide the target of a QUEUE_RESET (R354). -/
def entryFieldFail (s : State) (r : OpRow) (role minor : Nat) (b : Bytes) : Option Nat :=
  let e := parseEntry b
  let tensor := e.arg2
  firstFail [
    require (u8At b 1 < 2) 1,
    unusedPart e.arg2 r.arg2 2,
    require (r.op != 0x32 || (1 ≤ tensor && tensor ≤ 13)) 2,
    (match r.target with
      | .zero => require (e.target == 0) 8
      | .queue => firstFail [require ((s.ahp.queues.find? fun q => q.qid == e.target % 65536 && q.role == role).isSome) 8, require (e.target < 65536) 10]
      | .attest => require (!(e.target == 0xFFFFFFFF && bit e.arg2 0)) 8
      | _ => require (e.target != 0xFFFFFFFF) 8),
    unusedPart e.arg0 r.arg0 12,
    require (r.op != 0x01 || e.arg0 % 65536 != 0) 12,
    require (r.op != 0x01 || bits e.arg0 23 16 < 4) 14,
    require (!(r.op == 0x32 && 5 ≤ tensor && e.arg0 != 0)) 12,
    unusedPart e.arg1 r.arg1 20,
    (if e.inLen == 0 then require (e.inAddr == 0 && e.inKey == 0) 40 else none),
    require (if r.input then r.inputZero || e.inLen != 0 else e.inLen == 0) 40,
    require (!(r.op == 0x32 && 5 ≤ tensor && e.inLen == 0)) 40,
    (if e.outLen == 0 then require (e.outAddr == 0 && e.outKey == 0) 56 else none),
    require (r.minOut + (if r.op == 0x04 then 64 * (e.arg1 % (1 <<< 32)) else 0) ≤ e.outLen) 56,
    require (!((r.op == 0x25 || r.op == 0x26) && e.outLen != 0 && (e.outLen < 16 || minor < 4))) 56]

/-- What the checks of an entry answer (R346). -/
inductive EntryCheck
  | ok (row : OpRow)
  | bad (comp : Comp)
  deriving DecidableEq, Repr

/-- The checks of R346 in their order, on a connection with its queue where it has one. -/
def checkEntry (s : State) (conn : Conn) (queue : Option Queue) (b : Bytes) : EntryCheck :=
  let role := (s.sec.roles.find? (·.id == conn.role))
  let admin := (role.map (·.ahp)).getD 0 == 2
  let bad := fun off => EntryCheck.bad { status := Status.invalidField, source := .entry, offset := off }
  if b.length ≠ 64 then .bad { status := Status.lengthMismatch }
  else if u32At b 60 ≠ crc32c (slice b 0 60) then bad 60
  else if queue = none ∧ u8At b 0 ≠ 0x01 then .bad { status := Status.notReady }
  else match opRow (u8At b 0) with
    | none => bad 0
    | some r =>
      if conn.minor < r.minor ∨ (r.op = 0x01 ∧ queue ≠ none) then bad 0
      else if (if admin then r.admin else r.tenant) = false then .bad { status := Status.accessDenied }
      else if (r.data ∧ (installMode s = 0 ∨ s.power.holdupWeak)) ∨
          (s.box.diag = 2 ∧ ([0x01, 0x02, 0x04].contains r.op) = false) then .bad { status := Status.notReady }
      else match entryFieldFail s r conn.role conn.minor b with
        | some off => bad off
        | none => .ok r

/-- COMMAND_ID as the received bytes hold it, all ones where they do not (R336, R347). -/
def receivedId (b : Bytes) : Nat := if 8 ≤ b.length then u32At b 4 else 0xFFFFFFFF

/-! ## Sending a completion -/

/-- A completion goes out; its status counts under its class (19 R436). DEDUCED (log entry 14). -/
def sendCompletion (conn id : Nat) (c : Comp) (s : State) : State :=
  let s1 := emit (.completion conn (completionBytes id c)) s
  match statusClass c.status with
  | none => s1
  | some k => raiseClass k s1

/-- An entry that fails a check is answered at once and is no command (R346). -/
def rejectEntry (conn : Nat) (b : Bytes) (c : Comp) (s : State) : State :=
  bump Key.entriesRejected (sendCompletion conn (receivedId b) c s)

/-! ## Queues (R342, R343) -/

/-- The queue of a connection. -/
def queueOfConn (s : State) (qpn : Nat) : Option Queue := s.ahp.queues.find? (·.conn == qpn)

/-- The commands of a queue that are outstanding. -/
def outstanding (s : State) (qid : Nat) : Nat := (s.ahp.cmds.filter (·.queue == qid)).length

/-- The lowest index free on a port. -/
def freeQueueIndex (s : State) (port : Nat) : Option Nat :=
  (List.range 1024).find? fun n => !(s.ahp.queues.any (·.qid == 1024 * port + n))

/-- A checked QUEUE_CREATE: the queue with its depth and class (R342). -/
def createQueue (conn : Conn) (e : Entry) (s : State) : State :=
  match freeQueueIndex s conn.port with
  | none => bump Key.commandsCompleted (sendCompletion conn.qpn e.cmdId { status := Status.capacityExceeded } s)
  | some n =>
    let q : Queue := {
      qid := 1024 * conn.port + n
      conn := conn.qpn
      role := conn.role
      admin := (s.sec.roles.any fun r => r.id == conn.role && r.ahp == 2)
      minor := conn.minor
      depth := e.arg0 % 65536
      cls := bits e.arg0 23 16
      suspended := false }
    bump Key.commandsCompleted (sendCompletion conn.qpn e.cmdId { status := Status.success, info := q.qid }
      { s with ahp := { s.ahp with queues := insertBy (fun a b => a.qid ≤ b.qid) q s.ahp.queues } })

/-- A checked entry becomes the queue's newest outstanding command. -/
def enqueue (q : Queue) (e : Entry) (t : Nat) (s : State) : State :=
  let c : Cmd := {
    seq := s.ahp.nextSeq
    queue := q.qid
    entry := e
    arrived := t
    phase := .received
    dispatchedAt := 0
    dispatchEpoch := 0
    epoch := 0
    held := []
    deadline := 0
    config := []
    late := false
    internal := false
    order := 0
    plan := none
    report := []
    replica := 0
    stalledAt := none
    waitsFor := []
    tileFlags := 0
    comp := none }
  { s with ahp := { s.ahp with cmds := s.ahp.cmds ++ [c], nextSeq := s.ahp.nextSeq + 1 } }

/-- A SEND arrives on an OPEN AHP connection (R343, R346). DESIGN CHOICE (log entry 11). -/
def receiveEntry (conn : Conn) (b : Bytes) (t : Nat) (s : State) : State :=
  match checkEntry s conn (queueOfConn s conn.qpn) b with
  | .bad c => rejectEntry conn.qpn b c s
  | .ok r =>
    if r.op = 0x01 then createQueue conn (parseEntry b) s
    else match queueOfConn s conn.qpn with
      | none => s
      | some q => enqueue q (parseEntry b) t s

/-- QUEUE_CREATE (R342): the entry arrives on connection `qp`, which is OPEN and speaks AHP. -/
def execQueueCreate (qp : Nat) (entry : Bytes) (s : State) : Res :=
  match findConn s qp with
  | none => .next s
  | some c => .next (if c.phase = .open_ ∧ c.proto = 1 ∧ u8At entry 0 = 0x01 then receiveEntry c entry s.now s else s)

/-! ## Targets and plans (R344, R353, R358) -/

/-- The targets of a command: (false, COLLECTION_ID) or (true, HEAD_ID) (R353). -/
def targetsOf (e : Entry) : List (Bool × Nat) :=
  match (opRow e.opcode).map OpRow.target with
  | some .coll => [(false, e.target)]
  | some .head => [(true, e.target)]
  | some .attest => if e.target = 0xFFFFFFFF then [] else [(bit e.arg2 0, e.target)]
  | some .either => if e.opcode = 0x10 then [(false, e.target), (true, e.target)] else [(bit e.arg2 0, e.target)]
  | _ => []

/-- Whether two commands name a common target. -/
def sharesTarget (a b : Entry) : Bool := (targetsOf a).any fun x => (targetsOf b).contains x

/-- Whether a collection can be named by a role: it is held, it is not deleted, it is the role's own, and a sharded one has a
shard here (R344, 06 R102, R105, 09 R187). -/
def collVisible (s : State) (id role : Nat) (admin : Bool) : Bool :=
  match findColl s id with
  | none => false
  | some c => !c.deleting && (admin || c.owner == role) &&
      (match shardMapOf s id with | none => true | some m => (ownShard s m).isSome)

/-- Whether a head can be named by a role (R344, R362). -/
def headVisible (s : State) (id role : Nat) (admin : Bool) : Bool :=
  match findHead s id with
  | none => false
  | some h => !h.deleting && (admin || h.owner == role)

/-- Whether one target of a command can be named. -/
def targetVisible (s : State) (c : Cmd) (t : Bool × Nat) : Bool :=
  let admin := adminOf s c && ((opRow c.entry.opcode).map (·.admin)).getD false
  if t.1 then headVisible s t.2 (roleOf s c) admin else collVisible s t.2 (roleOf s c) admin

/-- The status that a command's target gives (R346): creations and LOAD_PLAN resolve no target here. A
command that the module started itself acts for the collection's owner. -/
def targetFail (s : State) (c : Cmd) : Option Nat :=
  if c.internal then (if (findColl s c.entry.target).any (fun k => !k.deleting) then none else some Status.collectionNotFound)
  else if [0x10, 0x20, 0x30].contains c.entry.opcode then none
  else ((targetsOf c.entry).find? fun t => !targetVisible s c t).map fun t => if t.1 then Status.headNotFound else Status.collectionNotFound

/-- The kind of plan that an opcode names in ARG_0 (R356). -/
def planKindOf (op : Nat) : Option Nat :=
  if op = 0x2A ∨ op = 0x2B then some 1
  else if op = 0x28 then some 3
  else if op = 0x33 ∨ op = 0x34 ∨ op = 0x35 then some 2
  else none

/-- The plan that a command names, where it is loaded, bound and of the opcode's kind (R356, R358). -/
def namedPlan (s : State) (e : Entry) (kind : Nat) : Option Plan :=
  s.ahp.plans.find? fun p => p.kind == kind && p.target == e.target && p.planId == e.arg0 && p.bound

/-- The status that a command's plan gives. -/
def planFail (s : State) (c : Cmd) : Option Nat :=
  match planKindOf c.entry.opcode with
  | none => none
  | some k => if (namedPlan s c.entry k).isNone then some Status.planNotBound else none

/-- SCRATCH_BANKS of a plan (02 R32). -/
def planBanks (p : Plan) : Nat := u16At p.bytes 20

/-! ## Admission -/

/-- Whether the commands of an opcode commit units of a collection (06 R462). -/
def commits (op : Nat) : Bool := [0x25, 0x26, 0x27, 0x28, 0x29].contains op

/-- An earlier creation or deletion of the same target in the command's queue has not completed (R346). -/
def targetPending (s : State) (c : Cmd) : Bool :=
  s.ahp.cmds.any fun d => d.queue == c.queue && d.seq < c.seq && d.phase != .done &&
    [0x20, 0x21, 0x30, 0x31].contains d.entry.opcode && sharesTarget d.entry c.entry

/-- An earlier committing command of the queue on the collection is at work (06 R462). -/
def commitPending (s : State) (c : Cmd) : Bool :=
  s.ahp.cmds.any fun d => d.queue == c.queue && d.seq < c.seq && d.phase != .done && commits d.entry.opcode &&
    (targetsOf c.entry).contains (false, d.entry.target)

/-- An earlier command of the queue on the target is itself still held by a pending target (R346). -/
def behindLate (s : State) (c : Cmd) : Bool :=
  s.ahp.cmds.any fun d => d.queue == c.queue && d.seq < c.seq && d.phase == .dispatched && d.late && sharesTarget d.entry c.entry

/-- The banks that running commands hold (12 R273). -/
def banksHeld (s : State) : Nat := sumOf (s.hbm.holds.map (·.banks))

/-- The plan scratchpad banks that are free on each die. -/
def banksFree (s : State) : Nat := settingNat s Key.scratchBankCount - banksHeld s

/-- Whether an apply holds the command's admission (16 R381, R382): group 1 every command, group 2 those that use scratchpad
banks. -/
def heldByApply (s : State) (c : Cmd) : Bool :=
  s.ahp.closed.contains 1 ||
  (s.ahp.closed.contains 2 && (match planKindOf c.entry.opcode with
    | none => false
    | some k => match namedPlan s c.entry k with | some p => planBanks p != 0 | none => false))

/-- Whether a structural command must wait for the one that runs (06 R124). -/
def behindJob (s : State) (c : Cmd) : Bool :=
  [0x27, 0x28, 0x29].contains c.entry.opcode &&
    (match findColl s c.entry.target with
      | none => false
      | some k => k.job.isSome || s.ahp.cmds.any (fun d => d.entry.target == c.entry.target && [0x27, 0x28, 0x29].contains d.entry.opcode &&
          d.phase == .admitted && d.seq != c.seq))

/-- Commands of the memory layers (11 R265). -/
def memoryLayer (op : Nat) : Bool := [0x33, 0x34, 0x35].contains op

/-- On a sharded collection a query is held until the stable epoch covers every earlier command of its queue (09 R190). DEDUCED (log entry 65). -/
def reached (s : State) (c : Cmd) : Bool :=
  match findColl s c.entry.target with
  | none => true
  | some k => !(c.entry.opcode == 0x2A || c.entry.opcode == 0x2B) ||
      (match k.shard with | none => true | some x => x.reach.all fun r => r.1 != c.queue || r.2 ≤ k.epoch)

/-- Whether nothing holds a dispatched command (06 R462, R124; 15 R346; 16 R381; 18 R425). -/
def holdEnded (s : State) (c : Cmd) : Bool :=
  !targetPending s c && !commitPending s c && !behindLate s c && !heldByApply s c && !behindJob s c && reached s c &&
    !(memoryLayer c.entry.opcode && !s.power.draining.isEmpty)

/-- Place of a command in the order of admission. -/
def orderOf (s : State) (seq : Nat) : Nat := ((findCmd s seq).map (·.order)).getD 0

/-- A command at its first micro-operation takes its plan's scratchpad banks, or waits for them in order of admission (12 R273). One that
has them, or waits already, changes nothing. -/
def takeBanks (c : Cmd) (s : State) : State :=
  let w : BankHold := { seq := c.seq, banks := (c.plan.map planBanks).getD 0 }
  if w.banks = 0 ∨ s.hbm.holds.any (·.seq == c.seq) ∨ s.hbm.waiters.any (·.seq == c.seq) then s
  else if s.hbm.waiters.isEmpty ∧ w.banks ≤ banksFree s then { s with hbm := { s.hbm with holds := s.hbm.holds ++ [w] } }
  else bump Key.scratchWaits { s with hbm := { s.hbm with waiters := insertBy (fun a b => orderOf s a.seq ≤ orderOf s b.seq) w s.hbm.waiters } }

/-- The command still waits for its plan's scratchpad banks (12 R273). -/
def awaitsBanks (s : State) (seq : Nat) : Bool := s.hbm.waiters.any (·.seq == seq)

/-- The transfer of a command's input was longer or shorter than announced (14 R336). -/
def wrongTransfer (c : Cmd) (input : Bytes) : Bool := input.length != c.entry.inLen

/-- The value of an entry as it stood at the admission of a command. -/
def cmdSetting (c : Cmd) (k : Nat) : Nat := leNat ((tableGet c.config k).getD (settingDefault k))

/-- The command is admitted (06 R122, 10 R215, R216): it takes the epoch, its plan and the replica digest of its head as they stand, and its
place in the order of admission. The clusters run for it (18 R419). DESIGN CHOICE (log entry 11); DEDUCED (log entry 23). -/
def admitNow (c : Cmd) (s : State) : State :=
  match targetFail s c with
  | some st => fail c.seq st s
  | none =>
    match planFail s c with
    | some st => fail c.seq st s
    | none =>
      if memoryLayer c.entry.opcode && s.power.degraded then fail c.seq Status.moduleDegraded s
      else
        let plan := (planKindOf c.entry.opcode).bind (namedPlan s c.entry)
        let replica := if memoryLayer c.entry.opcode then ((findHead s c.entry.target).map replicaDigest).getD 0 else 0
        let epoch := ((findColl s c.entry.target).map (·.epoch)).getD 0
        let held := ((findColl s c.entry.target).map (·.snapshots)).getD []
        let s1 := updCmd c.seq (fun d => { d with phase := .admitted, epoch := epoch, config := s.settings, held := held, plan := plan, replica := replica, order := s.ahp.nextOrder }) s
        { s1 with ahp := { s1.ahp with nextOrder := s1.ahp.nextOrder + 1 }, power := { s1.power with gated := [] } }

/-! ## Dispatch (R352, R353) -/

/-- Queries that are admitted or about to be (07 R138). -/
def queriesInFlight (s : State) : Nat :=
  (s.ahp.cmds.filter fun c => (c.entry.opcode == 0x2A || c.entry.opcode == 0x2B) && c.phase != .received && c.phase != .done).length +
  (s.search.queries.filter fun q => match q.origin with | .peer _ _ => true | _ => false).length

/-- A received command may be dispatched: its FENCE is satisfied and no module-wide limit holds it (R353). -/
def mayDispatch (s : State) (c : Cmd) : Bool :=
  !(c.entry.fence && s.ahp.cmds.any fun d => d.queue == c.queue && d.seq < c.seq) &&
  !((c.entry.opcode == 0x2A || c.entry.opcode == 0x2B) && 16384 ≤ queriesInFlight s)

/-- The command of a queue that the urgent class may take: a QUEUE_RESET, or the queue's oldest when the queue is urgent (R354). -/
def urgentOf (s : State) (q : Queue) : Option Cmd :=
  let mine := s.ahp.cmds.filter fun c => c.queue == q.qid && c.phase == .received
  match mine.find? fun c => c.entry.opcode == 0x02 && mayDispatch s c with
  | some c => some c
  | none => if q.cls = 0 then (mine.find? (·.entry.opcode != 0x02)).filter (mayDispatch s) else none

/-- The eligible command of a queue for its own class: its oldest undispatched one (R353). -/
def eligibleOf (s : State) (q : Queue) : Option Cmd :=
  ((s.ahp.cmds.filter fun c => c.queue == q.qid && c.phase == .received && c.entry.opcode != 0x02).head?).filter (mayDispatch s)

/-- next_queue of R352: the queues that `take` gives a command for, in ascending QUEUE_ID after `last` and wrapping round. -/
def nextQueue (s : State) (cls : Nat) (take : Queue → Option Cmd) : Option (Queue × Cmd) :=
  let after : List Queue := match s.ahp.last.getD cls none with
    | none => s.ahp.queues
    | some l => s.ahp.queues.filter (fun q => q.qid > l) ++ s.ahp.queues.filter (fun q => q.qid ≤ l)
  after.findSome? fun q => (take q).map fun c => (q, c)

/-- One pass over the three lower classes (R352). -/
def passOf (s : State) (used : List Nat) : List Nat → Option (Nat × Queue × Cmd)
  | [] => none
  | c :: r =>
    if used.getD (c - 1) 0 < settingNat s (Key.arbWeightHigh + (c - 1)) then
      match nextQueue s c (fun q : Queue => if q.cls = c then eligibleOf s q else none) with
      | some x => some (c, x)
      | none => passOf s used r
    else passOf s used r

/-- next_dispatch of R352: the class, the queue and the command, with used[] after it. -/
def nextDispatch (s : State) : Option (Nat × Queue × Cmd) × List Nat :=
  match nextQueue s 0 (urgentOf s) with
  | some x => (some (0, x), s.ahp.used)
  | none =>
    match passOf s s.ahp.used [1, 2, 3] with
    | some x => (some x, modAt (· + 1) (x.1 - 1) s.ahp.used)
    | none =>
      match passOf s [0, 0, 0] [1, 2, 3] with
      | some x => (some x, modAt (· + 1) (x.1 - 1) [0, 0, 0])
      | none => (none, [0, 0, 0])

/-- XRDY of a dispatched command (R349). -/
def xrdyBytes (c : Cmd) (t : Nat) : Bytes :=
  withCrc (toLE 4 2 ++ toLE 4 c.entry.cmdId ++ zeros 4 ++ toLE 8 t ++ toLE 4 c.entry.inLen ++ zeros 4)

/-- The present epoch of the collection that a command names; 0 where it names none. -/
def epochOf (s : State) (c : Cmd) : Nat := ((findColl s c.entry.target).map (·.epoch)).getD 0

/-- Whether the front end works: P0 (P1 among it) and admission open. DEDUCED (log entries 55, 68). -/
def frontOpen (s : State) : Bool := s.power.state == .p0 && s.ahp.admissionOpen

/-! ## Completions (R353) -/

/-- Whether the command's completion may go: every earlier completion of its queue on the same target, and every completion
that it waits for, has been sent (R353, R354). -/
def maySend (s : State) (c : Cmd) : Bool :=
  !(s.ahp.cmds.any fun d => (d.queue == c.queue && d.seq < c.seq && sharesTarget d.entry c.entry) || c.waitsFor.contains d.seq)

/-- A QUEUE_RESET that completes ends the suspension of its target queue (R354, 14 R337). DEDUCED (log entry 48). -/
def resumeQueue (qid : Nat) (s : State) : State :=
  match findQueue s qid with
  | none => s
  | some q => updConn q.conn (fun c => if c.phase = .suspended then { c with phase := .open_, rnr := [] } else c)
      (updQueue qid (fun x => { x with suspended := false }) s)

end Sys2Proof.Machine
end

