-- ==== Sys2Proof/Machine/Spp.lean ====
section
/-! DEFINITION. Sending SPP messages: the connection to a peer, the credit that a frame costs, and the messages that wait
(14 R325, R334, R335). -/

namespace Sys2Proof.Machine

namespace Spp

/-- TYPE 0x0101 (09 R198). -/
abbrev shardSearchReq : Nat := 0x0101
/-- TYPE 0x0102 -/
abbrev shardSearchReply : Nat := 0x0102
/-- TYPE 0x0103 -/
abbrev shardCancel : Nat := 0x0103
/-- TYPE 0x0104 -/
abbrev rowForward : Nat := 0x0104
/-- TYPE 0x0105 -/
abbrev rowResult : Nat := 0x0105
/-- TYPE 0x0106 -/
abbrev epochAlloc : Nat := 0x0106
/-- TYPE 0x0107 -/
abbrev epochGrant : Nat := 0x0107
/-- TYPE 0x0108 -/
abbrev epochStamped : Nat := 0x0108
/-- TYPE 0x0109 -/
abbrev epochStable : Nat := 0x0109
/-- TYPE 0x010A -/
abbrev bucketCopy : Nat := 0x010A
/-- TYPE 0x010B -/
abbrev bucketCutover : Nat := 0x010B
/-- TYPE 0x0201 (10 R228). -/
abbrev memfwdPartial : Nat := 0x0201
/-- TYPE 0x0202 -/
abbrev memfwdDone : Nat := 0x0202
/-- TYPE 0x0203 -/
abbrev memfwdRepeat : Nat := 0x0203
/-- TYPE 0x0204 -/
abbrev memfwdAbort : Nat := 0x0204
/-- TYPE 0x0205 (11 R260). -/
abbrev membwdDw : Nat := 0x0205
/-- TYPE 0x0206 -/
abbrev membwdDone : Nat := 0x0206
/-- TYPE 0x0207 -/
abbrev membwdRepeat : Nat := 0x0207
/-- TYPE 0x0208 -/
abbrev membwdAbort : Nat := 0x0208
/-- TYPE 0x0209 -/
abbrev reduceAmax : Nat := 0x0209
/-- TYPE 0x020A -/
abbrev reducePartial : Nat := 0x020A
/-- TYPE 0x020B -/
abbrev reduceResult : Nat := 0x020B
/-- TYPE 0x020C -/
abbrev reduceSample : Nat := 0x020C
/-- TYPE 0x020D -/
abbrev reduceRepeat : Nat := 0x020D
/-- TYPE 0x020E -/
abbrev updateVerdict : Nat := 0x020E
/-- TYPE 0x020F -/
abbrev memberFailed : Nat := 0x020F
/-- TYPE 0x0210 -/
abbrev memberDegraded : Nat := 0x0210

end Spp

/-- The SPP connection to a peer that carries frames. -/
def sppConn (s : State) (peer : Nat) : Option Conn := s.net.conns.find? fun c => c.proto == 2 && c.peer == peer && c.phase == .open_

/-- Whether a connection holds the credit of a frame with `n` payload bytes (R335). DEDUCED (log entry 48). -/
def hasCredit (c : Conn) (n : Nat) : Bool := 1 ≤ c.creditMsgs && 32 + n ≤ c.creditBytes

/-- A frame with `n` payload bytes has gone out: it costs its credit and returns all that is owed (R335). DEDUCED (log entry 48). -/
def spendCredit (now n : Nat) (c : Conn) : Conn :=
  { sentOn now (packetsOf c.mtu (32 + n)) c with
    txSeq := c.txSeq + 1
    creditMsgs := c.creditMsgs - 1
    creditBytes := c.creditBytes - (32 + n)
    heldMsgs := c.heldMsgs + c.owedMsgs
    heldBytes := c.heldBytes + c.owedBytes
    owedMsgs := 0
    owedBytes := 0 }

/-- The messages that wait for a peer go out in order, as long as credit lasts; `fuel` bounds their number. -/
def flushGo (peer : Nat) : Nat → State → State
  | 0, s => s
  | n + 1, s =>
    match s.net.waits.find? (·.peer == peer), sppConn s peer with
    | some w, some c =>
      if hasCredit c w.payload.length then
        let s1 := updConn c.qpn (spendCredit s.now w.payload.length) s
        flushGo peer n (emit (.spp peer w.type w.payload)
          { s1 with net := { s1.net with waits := s1.net.waits.eraseP (·.peer == peer) } })
      else s
    | _, _ => s

/-- What waits for a peer goes out as far as it can. DESIGN CHOICE (log entry 13). -/
def flushPeer (peer : Nat) (s : State) : State := flushGo peer s.net.waits.length s

/-- An SPP message to a peer. It waits behind the peer's earlier ones, for a connection, or for credit (R335). DESIGN CHOICE (log entry 13). -/
def sendSpp (peer type : Nat) (payload : Bytes) (s : State) : State :=
  flushPeer peer { s with net := { s.net with waits := s.net.waits ++ [{ peer := peer, type := type, payload := payload }] } }

/-- The same message to each of several peers. -/
def sendAll (peers : List Nat) (type : Nat) (payload : Bytes) (s : State) : State :=
  peers.foldl (fun u p => sendSpp p type payload u) s

/-- QUERY_ID of this module's query (09 R199). -/
def queryId (s : State) (key : Nat) : Nat := moduleIndex s <<< 48 + key % (1 <<< 48)

end Sys2Proof.Machine
end

