-- ==== Sys2Proof/Machine/HeadDefs.lean ====
section
/-! DEFINITION. Who owns which slot of a head, its group, the headers of its requests, and what its commands send and release (10
R211-R214, R230; 11 R237, R238, R260). -/

namespace Sys2Proof.Machine

/-- The member list of a head's group in the live descriptor. -/
def headMembers (s : State) (h : Head) : List Nat := groupMembers (liveDesc s) (Hd.group h.desc)

/-- This module's position in a member list. -/
def ownPosition (s : State) (members : List Nat) : Option Nat := members.idxOf? (moduleIndex s)

/-- The members other than this module. -/
def otherMembers (s : State) (members : List Nat) : List Nat := members.filter (· ≠ moduleIndex s)

/-- The position that owns a slot (R211). -/
def slotOwner (slot mm : Nat) : Nat := slot / 4096 % mm

/-- The 32-byte payload of the DONE, REPEAT and ABORT messages (10 R230). -/
def exchangePayload (head mb pos step attempt cause : Nat) (digest : Option Nat) : Bytes :=
  toLE 4 head ++ toLE 2 mb ++ toLE 2 pos ++ toLE 8 step ++ toLE 1 attempt ++ toLE 1 cause ++ toLE 1 (b2n digest.isSome) ++
    zeros 5 ++ toLE 8 (digest.getD 0)

/-- An abort of a micro-batch goes to every other member of the head's group (10 R231). -/
def sendAbort (type : Nat) (h : Head) (mb step cause : Nat) (digest : Option Nat) (s : State) : State :=
  let members := headMembers s h
  match ownPosition s members with
  | none => s
  | some p => sendAll (otherMembers s members) type (exchangePayload h.id mb p step 0 cause digest) s

/-- The 32-byte payload of MEMBER_FAILED and MEMBER_DEGRADED (11 R260). -/
def memberNotice (module cause stack head step group ring : Nat) : Bytes :=
  toLE 2 module ++ toLE 1 cause ++ toLE 1 stack ++ toLE 4 head ++ toLE 8 step ++ toLE 2 group ++ toLE 2 ring ++ zeros 12

/-- The stash entries of a head that `gone` tells are released; forwards held for the same space start to wait afresh (11 R241). -/
def dropStash (head : Nat) (gone : StashMb → Bool) (s : State) : State :=
  match findHead s head with
  | none => s
  | some h =>
    let plans := (h.stash.filter gone).map (·.plan)
    let s1 := updHead head (fun x => { x with stash := x.stash.filter fun e => !gone e }) s
    { s1 with mem := { s1.mem with
        fwds := mapIf (fun f => f.head == head && f.phase == .held && plans.contains f.plan) (fun f => { f with since := s1.now }) s1.mem.fwds } }

/-- The stash entries of one micro-batch are released (10 R231, 11 R241). DEDUCED (log entry 34). -/
def releaseStash (head step mb : Nat) (s : State) : State := dropStash head (fun x => x.step == step && x.mb == mb) s

/-! ## Request headers (10 R213, R214, R216; 11 R237-R239) -/

namespace Fw

/-- STEP of a forward, backward request. -/
def step (b : Bytes) : Nat := u64At b 48
/-- MICRO_BATCH. -/
def mb (b : Bytes) : Nat := u16At b 46
/-- TOKEN_COUNT. -/
def tokens (b : Bytes) : Nat := u32At b 56
/-- LAST_IN_STEP. -/
def last (b : Bytes) : Bool := bit (u8At b 45) 1
/-- STASH. -/
def stash (b : Bytes) : Bool := bit (u8At b 45) 0
/-- MAGIC of a forward request. -/
abbrev magic : Nat := 0x464D4C41
/-- MAGIC of a partial. -/
abbrev partMagic : Nat := 0x504D4C41
/-- The types of the forward exchange. -/
def types : List Nat := [Spp.memfwdPartial, Spp.memfwdDone, Spp.memfwdRepeat, Spp.memfwdAbort]

end Fw

namespace Bw

/-- MAGIC of a backward request. -/
abbrev magic : Nat := 0x424D4C41
/-- MAGIC of a MEMBWD_DW. -/
abbrev partMagic : Nat := 0x574D4C41
/-- GRAD_FORMAT. -/
def gradFmt (b : Bytes) : Fmt := (Fmt.ofCode (u8At b 39)).getD .fp32
/-- The train mask. -/
def mask (b : Bytes) : Bytes := slice b 64 96
/-- The types of the backward exchange. -/
def types : List Nat := [Spp.membwdDw, Spp.membwdDone, Spp.membwdRepeat, Spp.membwdAbort]
/-- STAGE_CODEs of a backward. -/
def stages : List Nat := [0x30, 0x31, 0x32, 0x36]

end Bw

/-- A STEP that lies below the open step, has closed, or lies below that of a forward that was admitted before `order` (R216). DEDUCED (log
entry 33). -/
def stepOver (h : Head) (step order : Nat) : Bool :=
  (match h.openStep with | some n => step < n | none => false) || h.closedSteps.contains step || h.seenSteps.any fun x => step < x.1 && x.2 < order

/-- What a head's step has of its backwards. -/
def stepOf (h : Head) (step : Nat) : Option BwdStep := h.steps.find? (·.step == step)

/-- The stash entries of a micro-batch. -/
def stashOf (h : Head) (step mb : Nat) : Option StashMb := h.stash.find? fun x => x.step == step && x.mb == mb

/-- MICRO_BATCH ascends strictly with the order of admission among the backwards of a step (11 R237). -/
def batchInOrder (h : Head) (step mb order : Nat) : Bool :=
  match stepOf h step with
  | none => true
  | some x => x.noted.all fun n => if n.1 < order then n.2 < mb else mb < n.2

/-- The fields of a forward's header in ascending byte offset (R213, R214, R216); `order` is its command's place in the order of admission. -/
def fwdHeaderFail (h : Head) (order : Nat) (b : Bytes) : Option Nat := firstFail [
  reserved b 8 32,
  require (u32At b 40 == h.id) 40,
  reserved b 44 1,
  require (u8At b 45 < 4) 45,
  require (!stepOver h (Fw.step b) order) 48,
  require (Fw.tokens b ≤ 65536) 56]

/-- The fields of a backward's header in ascending byte offset (11 R237, R238). -/
def bwdHeaderFail (h : Head) (order : Nat) (b : Bytes) : Option Nat := firstFail [
  reserved b 8 31,
  require (u8At b 39 == 1 || u8At b 39 == 2) 39,
  require (u32At b 40 == h.id) 40,
  require (u16At b 44 % 512 == 0) 44,
  require (u8At b 45 < 4) 45,
  require (batchInOrder h (Fw.step b) (Fw.mb b) order) 46,
  require (Fw.tokens b ≤ 65536 && (match stashOf h (Fw.step b) (Fw.mb b) with | none => true | some x => x.tokens == Fw.tokens b)) 56]

/-- A header alone passes its checks (R231): MAGIC, REQUEST_LENGTH, REQUEST_CRC, and the fields that `fail` examines. -/
def headerGood (magic len : Nat) (fail : Bytes → Option Nat) (b : Bytes) : Bool :=
  64 ≤ b.length && u32At b 0 == magic && u32At b 4 == len && u32At b 60 == crc32c (slice b 0 60) && (fail b).isNone

end Sys2Proof.Machine
end

