-- ==== Sys2Proof/Machine/Abort.lean ====
section
/-! DEFINITION. Ending commands: the reset of a queue, and what closing a connection does (15 R354; 07 R152; 09 R201; 10 R231;
14 R338). -/

namespace Sys2Proof.Machine

/-- STATUS, INFO and report of an ended INSERT or DELETE: what its batches committed (15 R359). DEDUCED (log entry 26). -/
def ingestReport (c : Cmd) (g : Ingest) : Nat × Bytes :=
  (if g.insert then g.committed else g.live, if 16 ≤ c.entry.outLen then toLE 8 g.lastEpoch ++ toLE 8 g.committed else [])

/-- The report of an INSERT or DELETE that had not started. DEDUCED (log entry 26). -/
def emptyReport (s : State) (c : Cmd) : Bytes :=
  if 16 ≤ c.entry.outLen then toLE 8 (if c.phase = .received then epochOf s c else c.dispatchEpoch) ++ zeros 8 else []

/-- A query is for this command. -/
def queryOf (seq : Nat) (q : Query) : Bool :=
  match q.origin with
  | .search n => n == seq
  | .count n => n == seq
  | .column n => n == seq
  | _ => false

/-- The module's own shard query of the query with this key. -/
def selfOf (key : Nat) (q : Query) : Bool := match q.origin with | .self k => k == key | _ => false

/-- The queries of a command stop, and every owner that they asked is told (09 R201). DEDUCED (log entry 65). -/
def stopQueries (seq : Nat) (s : State) : State :=
  let mine := s.search.queries.filter (queryOf seq)
  let s1 := mine.foldl (fun u q => (q.shards.filter fun w => w.owner != moduleIndex u).foldl
    (fun v w => sendSpp w.owner Spp.shardCancel (toLE 8 (queryId v q.key) ++ toLE 4 q.coll ++ toLE 2 w.shard ++ zeros 2) v) u) s
  { s1 with search := { s1.search with queries := s1.search.queries.filter fun q => !(queryOf seq q || mine.any fun m => selfOf m.key q) } }

/-- A unit belongs to this command. -/
def unitOf (seq : Nat) (u : CUnit) : Bool := match u.origin with | .command n => n == seq | _ => false

/-- The batches of a command stop: units that have not committed are discarded (06 R118, 09 R188). -/
def stopIngest (seq : Nat) (s : State) : State :=
  { s with search := { s.search with
      ingests := s.search.ingests.filter (·.seq ≠ seq)
      units := s.search.units.filter fun u => !unitOf seq u } }

/-- A structural command stops without a commit. -/
def stopJob (seq : Nat) (s : State) : State :=
  { s with search := { s.search with
      colls := s.search.colls.map fun c => if c.job.any (·.seq == seq) then { c with job := none } else c
      units := s.search.units.filter fun u => !unitOf seq u } }

/-- The abort that a memory-layer command sends when it ends before it has read its header (10 R231). DESIGN CHOICE (log entry 15); DEDUCED (log entry 35). -/
def abortUnread (headers : List HeaderRead) (c : Cmd) (s : State) : State :=
  if c.entry.opcode ≠ 0x33 ∧ c.entry.opcode ≠ 0x34 then s
  else
    let magic := if c.entry.opcode = 0x33 then 0x464D4C41 else 0x424D4C41
    let type := if c.entry.opcode = 0x33 then Spp.memfwdAbort else Spp.membwdAbort
    match headers.find? (·.seq == c.seq), findHead s c.entry.target with
    | some r, some h =>
      let fail := if c.entry.opcode = 0x33 then fwdHeaderFail h c.order else bwdHeaderFail h c.order
      if headerGood magic c.entry.inLen fail r.header then
        sendAbort type h (u16At r.header 46) (u64At r.header 48) 1 none s
      else s
    | _, _ => s

/-- A forward, backward or update stops, and the other members are told (10 R231, 11 R245). -/
def stopMemory (headers : List HeaderRead) (c : Cmd) (s : State) : State :=
  match s.mem.fwds.find? (·.seq == c.seq), s.mem.bwds.find? (·.seq == c.seq) with
  | some f, _ =>
    let s1 := match findHead s f.head with
      | some h => sendAbort Spp.memfwdAbort h f.mb f.step 1 (some f.digest) s
      | none => s
    releaseStash f.head f.step f.mb { s1 with mem := { s1.mem with fwds := s1.mem.fwds.filter (·.seq ≠ c.seq) } }
  | none, some b =>
    let s1 := match findHead s b.head with
      | some h => sendAbort Spp.membwdAbort h b.mb b.step 1 (some b.digest) s
      | none => s
    releaseStash b.head b.step b.mb { s1 with mem := { s1.mem with bwds := s1.mem.bwds.filter (·.seq ≠ c.seq) } }
  | none, none =>
    let s1 := if c.phase = .working then s else abortUnread headers c s
    { s1 with mem := { s1.mem with upds := s1.mem.upds.filter (·.seq ≠ c.seq) } }

/-- The work of a command stops, as its chapter defines. -/
def stopWork (headers : List HeaderRead) (c : Cmd) (s : State) : State :=
  let s1 := stopMemory headers c (stopJob c.seq (stopIngest c.seq (stopQueries c.seq s)))
  { s1 with cold := { s1.cold with waits := s1.cold.waits.filter (·.seq ≠ c.seq) }, mem := { s1.mem with writes := s1.mem.writes.filter (·.seq ≠ c.seq) } }

/-- The completion of a command that ends after its work did: an INSERT or DELETE still reports what it committed. DEDUCED (log entry 67). -/
def endedComp (c : Cmd) : Comp :=
  match c.comp with
  | some x => if c.entry.opcode = 0x25 ∨ c.entry.opcode = 0x26 then { status := Status.abortedByReset, info := x.info, outBytes := x.outBytes }
    else { status := Status.abortedByReset }
  | none => { status := Status.abortedByReset }

/-- One command ends with ABORTED_BY_RESET after the completions `after` (R354). DEDUCED (log entry 67). -/
def endCmd (headers : List HeaderRead) (after : List Nat) (c : Cmd) (s : State) : State :=
  if c.phase = .done then bump Key.commandsAborted (updCmd c.seq (fun d => { d with waitsFor := after, comp := some (endedComp c) }) s) else
  let ing := s.search.ingests.find? (·.seq == c.seq)
  let report : Nat × Bytes :=
    match ing with
    | some g => ingestReport c g
    | none => (0, if c.entry.opcode = 0x25 ∨ c.entry.opcode = 0x26 then emptyReport s c else [])
  let s1 := bump Key.commandsAborted (stopWork headers c s)
  updCmd c.seq (fun d => { d with waitsFor := after })
    (finish c.seq { status := Status.abortedByReset, info := report.1, outBytes := report.2.length } report.2 s1)

/-- The outstanding commands of a queue whose completion is not queued for sending: it is not ready, or it waits for an earlier one (R354; 07
R152). DEDUCED (log entry 67). -/
def endable (s : State) (qid : Nat) : List Cmd :=
  s.ahp.cmds.filter fun c => c.queue == qid && !c.internal && (c.phase != .done || !maySend s c)

/-- Each of a list of commands ends, in order of submission. DEDUCED (log entry 67). -/
def endAll (headers : List HeaderRead) : List Nat → List Cmd → State → State
  | _, [], s => s
  | before, c :: r, s => endAll headers (before ++ [c.seq]) r (endCmd headers before c s)

/-- An earlier QUEUE_RESET of the same queue has not completed (R354). DEDUCED (log entry 67). -/
def resetPending (s : State) (c : Cmd) : Bool :=
  s.ahp.cmds.any fun d => d.entry.opcode == 0x02 && d.entry.target == c.entry.target && d.phase != .received && d.order < c.order && d.seq != c.seq

/-- The commands of a queue end and their completions are discarded; the queue ceases to exist (14 R338). DEDUCED (log entry 67). -/
def dropQueue (q : Queue) (s : State) : State :=
  let ended := endable s q.qid
  let s1 := (endAll [] [] ended s)
  { s1 with ahp := { s1.ahp with cmds := s1.ahp.cmds.filter (·.queue ≠ q.qid), queues := s1.ahp.queues.filter (·.qid ≠ q.qid) } }

/-- A connection closes (14 R338). For AHP that resets its queue; what waits for an SPP peer is dropped, and the operations that
used the connection follow their own timeout rules. DEDUCED (log entry 67). -/
def closeConn (qpn : Nat) (s : State) : State :=
  match findConn s qpn with
  | none => s
  | some c =>
    let s1 := match queueOfConn s qpn with
      | some q => dropQueue q s
      | none => s
    { s1 with net := { s1.net with
        conns := s1.net.conns.filter (·.qpn ≠ qpn)
        waits := if c.proto = 2 then s1.net.waits.filter (·.peer ≠ c.peer) else s1.net.waits } }

/-- Every connection of a list closes. -/
def closeConns (qpns : List Nat) (s : State) : State := qpns.foldl (fun u q => closeConn q u) s

/-- A connection closes with a disconnect request to the other end. -/
def disconnect (qpn : Nat) (s : State) : State :=
  match findConn s qpn with
  | none => s
  | some _ => emit (.cmDisconnect qpn) (closeConn qpn s)

/-- A session closes: its staged values are discarded and its groups are released, but an apply that runs goes on (16 R378, R379). -/
def closeSession (id : Nat) (s : State) : State :=
  let keep := fun x : Session => x.id != id || x.phase == .applying
  let s1 := { s with dap := { s.dap with
      sessions := mapIf (fun x => x.id == id) (fun x => { x with gone := true }) (s.dap.sessions.filter keep) } }
  match s1.sec.load with
  | some l => if l.session = id then { s1 with sec := { s1.sec with load := none, loadState := 0 } } else s1
  | none => s1

/-- The role that a connection was keyed with is gone or demoted (17 R410). DEDUCED (log entry 52). -/
def staleConn (s : State) (c : Conn) : Bool :=
  c.role != 0 && (match s.sec.roles.find? (·.id == c.role) with
    | none => true
    | some r => r.ahp == 0 || (s.ahp.queues.any fun q => q.conn == c.qpn && q.admin && r.ahp != 2))

/-- The role of a session is gone or demoted (17 R410). DEDUCED (log entry 52). -/
def staleSession (s : State) (x : Session) : Bool :=
  match s.sec.roles.find? (·.id == x.role) with
  | none => true
  | some r => r.dap < x.level

/-- Connections and sessions whose role is gone or demoted close (17 R410). DEDUCED (log entry 52). -/
def closeStale (s : State) : State :=
  let s1 := closeConns ((s.net.conns.filter (staleConn s)).map (·.qpn)) s
  ((s1.dap.sessions.filter (staleSession s1)).map (·.id)).foldl (fun u i => closeSession i u) s1

/-- What follows the completion of an opcode when it has been sent: a QUEUE_RESET resumes its queue, and a ROLE_MANAGE closes what it
demoted. DEDUCED (log entry 67). -/
def afterCompletion (e : Entry) (s : State) : State :=
  if e.opcode = 0x02 then resumeQueue (e.target % 65536) s else if e.opcode = 0x06 then closeStale s else s

end Sys2Proof.Machine
end

