-- ==== Sys2Proof/Machine/Box.lean ====
section
/-! DEFINITION. The black box: its ring and chain, the writer, coalescing, and LOG_READ (19 R439-R447). -/

namespace Sys2Proof.Machine

namespace Ev

/-- 0x0001 (R443) -/
abbrev powerFail : Nat := 0x0001
/-- 0x0002. -/
abbrev thermalTrip : Nat := 0x0002
/-- 0x0003 -/
abbrev p3Entry : Nat := 0x0003
/-- 0x0004 -/
abbrev startUpComplete : Nat := 0x0004
/-- 0x0005 -/
abbrev resetStarted : Nat := 0x0005
/-- 0x0010 -/
abbrev bootFallback : Nat := 0x0010
/-- 0x0011 -/
abbrev imageRefused : Nat := 0x0011
/-- 0x0012 -/
abbrev keyRotated : Nat := 0x0012
/-- 0x0013 -/
abbrev configRecordInvalid : Nat := 0x0013
/-- 0x0014 -/
abbrev roleClaimed : Nat := 0x0014
/-- 0x0015 -/
abbrev factoryReset : Nat := 0x0015
/-- 0x0016 -/
abbrev recoveryMode : Nat := 0x0016
/-- 0x0020 -/
abbrev hbmUncorrectable : Nat := 0x0020
/-- 0x0021 -/
abbrev hbmPinLost : Nat := 0x0021
/-- 0x0022 -/
abbrev hbmPageRetired : Nat := 0x0022
/-- 0x0023 -/
abbrev hbmBankRetired : Nat := 0x0023
/-- 0x0024 -/
abbrev hbmStackOut : Nat := 0x0024
/-- 0x0025 -/
abbrev sramUncorrectable : Nat := 0x0025
/-- 0x0030 -/
abbrev coldPageLost : Nat := 0x0030
/-- 0x0031 -/
abbrev coldSpareLow : Nat := 0x0031
/-- 0x0040 -/
abbrev pfcStorm : Nat := 0x0040
/-- 0x0041 -/
abbrev connectionSuspended : Nat := 0x0041
/-- 0x0050 -/
abbrev sampleMismatch : Nat := 0x0050
/-- 0x0051 -/
abbrev memberFailed : Nat := 0x0051
/-- 0x0052 -/
abbrev moduleDegraded : Nat := 0x0052
/-- 0x0060 -/
abbrev dictionaryValueReset : Nat := 0x0060
/-- 0x0061 -/
abbrev diagnosticEntered : Nat := 0x0061
/-- 0x0070 -/
abbrev coreRestart : Nat := 0x0070
/-- 0x0071 -/
abbrev checkCodeMismatch : Nat := 0x0071
/-- 0x0072 -/
abbrev coalesced : Nat := 0x0072

/-- INFO -/
abbrev info : Nat := 0
/-- WARNING -/
abbrev warning : Nat := 1
/-- ERROR -/
abbrev error : Nat := 2
/-- FATAL -/
abbrev fatal : Nat := 3

end Ev

/-- Slots of the ring (R439). -/
abbrev ringSlots : Nat := 261120

/-- OLDEST_SEQUENCE (R439). -/
def oldestSequence (b : BlackBox) : Nat := b.head - (ringSlots - 1)

/-- The record that HEAD_SEQUENCE names. -/
def headRecord (b : BlackBox) : Bytes := b.records.getLast?.getD []

/-- The chain head digest (R441). -/
def headDigest (b : BlackBox) : Bytes := sm3 (headRecord b)

/-- The `n` records from `first` on, in ascending sequence. -/
def recordsFrom (b : BlackBox) (first n : Nat) : List Bytes := (b.records.drop (first - oldestSequence b)).take n

/-- A record (R440). -/
def recordBytes (s : State) (e : Event) : Bytes :=
  e.detail ++ toLE 2 e.boot ++ toLE 2 e.unit ++ [0] ++ toLE 1 e.severity ++ toLE 2 e.code ++ toLE 8 e.time ++
    toLE 8 (s.box.head + 1) ++ (headDigest s.box).take 16

/-- The newest records that fit into the ring. DEDUCED (log entry 60). -/
def inRing (l : List Bytes) : List Bytes := (l.reverse.take ringSlots).reverse

/-- A record goes into its slot and the head word follows (R442). DEDUCED (log entry 60). -/
def putRecord (e : Event) (s : State) : State :=
  { s with box := { s.box with
      records := inRing (s.box.records ++ [recordBytes s e])
      head := s.box.head + 1
      recent := s.box.recent ++ [{ event := e, count := 0 }] } }

/-- Two events that coalesce: EVENT, UNIT_INDEX and DETAIL bytes 0–7 agree (R442). -/
def sameEvent (a b : Event) : Bool := a.code == b.code && a.unit == b.unit && a.detail.take 8 == b.detail.take 8

/-- A written record still coalesces the event: less than 1 s has passed. DEDUCED (log entry 60). -/
def coalesces (e : Event) (r : Recent) : Bool := sameEvent r.event e && e.time < r.event.time + 1000000000

/-- The writer deals with one event whose record reads back well: it is counted where it repeats, and written otherwise (R442). DEDUCED (log entry 60). -/
def writeEvent (e : Event) (s : State) : State :=
  if s.box.fault then s
  else if s.box.recent.any (coalesces e) then
    bump Key.blackboxCoalesced { s with box := { s.box with
      recent := mapIf (coalesces e) (fun r => { r with count := r.count + 1 }) s.box.recent } }
  else putRecord e s

/-- The service core restarts and appends nothing (R438): 30 ms from the restart. DEDUCED (log entry 59). -/
def serviceDown (s : State) : Bool := s.box.restarts.any fun r => r.1 == 0 && s.now < r.2 + 30000000

/-- The supervisor core restarts (R438). DEDUCED (log entry 59). -/
def supervisorDown (s : State) : Bool := s.box.restarts.any fun r => r.1 == 1 && s.now < r.2 + 30000000

/-- BLACKBOX_APPEND (R442): the oldest queued event. A record that reads back differently is written again; twice in succession is
a fault of the MRAM. DEDUCED (log entry 60). -/
def execBlackboxAppend (readBack : Bool) (t : Nat) (s : State) : Res :=
  let s0 := tick t s
  match s0.box.queue with
  | [] => .next s0
  | e :: r =>
    if serviceDown s0 ∨ s0.box.fault then .next s0
    else if readBack ∨ s0.box.recent.any (coalesces e) then
      .next (writeEvent e { s0 with box := { s0.box with queue := r, misread := false } })
    else if s0.box.misread then .next { s0 with box := { s0.box with fault := true, misread := false, queue := r } }
    else .next { s0 with box := { s0.box with misread := true } }

/-- BLACKBOX_COALESCED (R442): the second of a written record ends; `key` is DETAIL bytes 0–7 as a U64. DEDUCED (log entry 60). -/
def execBlackboxCoalesced (event unit key t : Nat) (s : State) : Res :=
  let s0 := tick t s
  let ended := fun r : Recent => r.event.code == event && r.event.unit == unit && u64At r.event.detail 0 == key &&
    decide (r.event.time + 1000000000 ≤ s0.now)
  let repeats := sumOf ((s0.box.recent.filter ended).map (·.count))
  let s1 := { s0 with box := { s0.box with recent := s0.box.recent.filter fun r => !ended r } }
  .next (if repeats = 0 then s1 else logEvent Ev.coalesced Ev.info unit (toLE 4 event ++ toLE 4 repeats) s1)

/-- Under a power failure the writer writes what is queued (R442). DEDUCED (log entry 60). -/
def flushEvents (s : State) : State :=
  s.box.queue.foldl (fun u e => writeEvent e u) { s with box := { s.box with queue := [], misread := false } }

/-- The trailer of LOG_READ without its signature (R446). -/
def logTrailer (s : State) (first n dispatched : Nat) : Bytes :=
  toLE 4 0x48424C41 ++ toLE 4 256 ++ zeros 72 ++ toLE 8 s.sec.bootCount ++ toLE 8 dispatched ++ zeros 4 ++ toLE 4 n ++ toLE 8 first ++
    toLE 8 (oldestSequence s.box) ++ toLE 8 s.box.head ++ sm3 Config.identityKey.toList ++ headDigest s.box

/-- A signature of the module has been made: SIGN_COUNT rises (17 R415), and the next signature is another draw. -/
def signed (s : State) : State := useFree { s with sec := { s.sec with signCount := s.sec.signCount + 1 } }

/-- The records that LOG_READ returns and its trailer without the signature, as they stand at the command's dispatch (R445). -/
def logReport (s : State) (c : Cmd) : Bytes :=
  let first := max c.entry.arg0 (oldestSequence s.box)
  let n := min (c.entry.arg1 % (1 <<< 32)) (s.box.head + 1 - first)
  (recordsFrom s.box first n).flatten ++ logTrailer s (if n = 0 then 0 else first) n c.dispatchedAt

/-- LOG_READ (R445): the records read at its dispatch, and the signed trailer. DEDUCED (log entry 60). -/
def execLogRead (seq : Nat) (s : State) : Res :=
  match admittedCmd s seq 0x04 with
  | none => .next s
  | some c =>
    if c.entry.arg1 % (1 <<< 32) = 0 then .next (succeed seq 0 [] s)
    else .next (succeed seq ((c.report.length - 192) / 64) (c.report ++ signBytes s c.report) (signed s))

end Sys2Proof.Machine
end

