-- ==== Sys2Proof/Machine/Layout.lean ====
section
/-! DEFINITION. Where data lies in HBM: channels in service, bank records, page maps, the address hash and the allocator, and the lines of
the cache banks (12 R269-R272, R276, R277; 07 R141). -/

namespace Sys2Proof.Machine

/-! ## Capacity (R276, R287) -/

/-- Channels of a stack. -/
def stackChannels (stack : Nat) : List Nat := (List.range 32).map (32 * stack + ·)

/-- The channels in service. -/
def channelsInService (s : State) : List Nat := (List.range 384).filter fun c => !s.hbm.mappedOut.contains c

/-- Retired banks, of channels in service. -/
def retiredBanks (s : State) : Nat := (s.hbm.banks.filter fun b => b.retired && !s.hbm.mappedOut.contains b.channel).length

/-- Retired pages in banks still in service. -/
def retiredPages (s : State) : Nat := sumOf ((s.hbm.banks.filter fun b => !s.hbm.mappedOut.contains b.channel).map (·.pages.length))

/-- HBM_CAPACITY_KIB (R276). -/
def hbmCapacityKib (s : State) : Nat := 2097152 * (channelsInService s).length - 32768 * retiredBanks s - 2 * retiredPages s

/-! ## Page maps (R277, R283) -/

/-- Pages of a DRAM bank. -/
abbrev bankPages : Nat := 16384

/-- Pages of a channel. -/
abbrev channelPages : Nat := 1048576

/-- Slots of a page. -/
abbrev pageSlots : Nat := 8

/-- What the page map of a channel has skipped since the last start-up: first page and pages, ascending. -/
def skipsOf (s : State) (channel : Nat) : List (Nat × Nat) := (s.hbm.skips.filter (·.1 == channel)).map (·.2)

/-- The slot page of a physical page, where the map has it. Page `r` of bank `b` is physical page 16384 b + r. DESIGN CHOICE (log entry 71). -/
def slotPage (s : State) (channel page : Nat) : Option Nat :=
  let skips := skipsOf s channel
  if skips.any fun x => x.1 ≤ page && page < x.1 + x.2 then none
  else some (page - sumOf ((skips.filter (·.1 ≤ page)).map (·.2)))

/-- The physical page of a slot page: the skips below it push it up. -/
def physPage : List (Nat × Nat) → Nat → Nat
  | [], p => p
  | x :: l, p => physPage l (if x.1 ≤ p then p + x.2 else p)

/-- The slot that holds a burst of a page: bursts 4 u to 4 u + 3 are slot u of the page. DESIGN CHOICE (log entry 71). -/
def slotAt (s : State) (channel bank row burst : Nat) : Option Nat :=
  (slotPage s channel (bankPages * bank + row)).map fun p => pageSlots * p + burst / 4

/-- What a start-up leaves out of the page maps: the retired banks and pages (R277). -/
def startSkips (s : State) : List (Nat × Nat × Nat) :=
  s.hbm.banks.flatMap fun b =>
    if b.retired then [(b.channel, bankPages * b.bank, bankPages)] else (sortOn id b.pages).map fun r => (b.channel, bankPages * b.bank + r, 1)

/-- The slots of a DRAM bank in its channel's page map: the first, and how many. -/
def bankSlots (s : State) (channel bank : Nat) : Nat × Nat :=
  let first := bankPages * bank
  let skips := skipsOf s channel
  let before := sumOf ((skips.filter (·.1 < first)).map (·.2))
  let inside := sumOf ((skips.filter fun x => first ≤ x.1 && x.1 < first + bankPages).map (·.2))
  (pageSlots * (first - before), pageSlots * (bankPages - inside))

/-- Slots that a channel lacks: those of what has been retired since the last start-up, and those beyond its last page, as (channel, first, count). -/
def holes (s : State) : List (Nat × Nat × Nat) :=
  let late := s.hbm.banks.flatMap fun b =>
    if b.retired then [(b.channel, bankSlots s b.channel b.bank)]
    else b.pages.filterMap fun r => (slotPage s b.channel (bankPages * b.bank + r)).map fun p => (b.channel, pageSlots * p, pageSlots)
  let short := (dedup (s.hbm.skips.map (·.1))).map fun c =>
    let gone := sumOf ((skipsOf s c).map (·.2))
    (c, pageSlots * (channelPages - gone), pageSlots * gone)
  late.filter (fun h => h.2.2 != 0) ++ short

/-! ## The hash and the allocator (R277) -/

/-- A placement takes in a channel: near a die, or all. -/
def placed (placement channel : Nat) : Bool := placement == 2 || (placement == 1) == decide (192 ≤ channel)

/-- The channel set of an allocation row. -/
def channelSet (s : State) (placement : Nat) (lack : List Nat) : List Nat :=
  (channelsInService s).filter fun c => placed placement c && !lack.contains c

/-- channel_of of R277. -/
def channelOf (k slot : Nat) (c : List Nat) : Nat := c.getD ((k + hash64 slot % c.length) % c.length) 0

/-- Where row group `g` of a tile lies: its channel and its first slot. A group of several units takes them in consecutive rows on the channel that the
hash chooses from its first address (07 R141); with one unit it is unit `g` of R277. -/
def groupPlace (s : State) (placement depth : Nat) : List HbmRun → Nat → Option (Nat × Nat)
  | [], _ => none
  | r :: l, g =>
    let set := channelSet s placement r.lack
    let n := set.length
    let held := r.count / depth * n
    if g < held then
      let slot := r.slot + g / n * depth
      some (channelOf (g % n) slot set, slot)
    else groupPlace s placement depth l (g - held)

/-- A run holds a slot of a channel. -/
def runHolds (s : State) (placement channel slot : Nat) (r : HbmRun) : Bool :=
  r.slot ≤ slot && slot < r.slot + r.count && placed placement channel && !s.hbm.mappedOut.contains channel && !r.lack.contains channel

/-- The tile that holds a slot of a channel. -/
def hbmTileAt (s : State) (channel slot : Nat) : Option HbmTile := s.hbm.tiles.find? fun t => t.runs.any (runHolds s t.placement channel slot)

/-- What a slot of a channel holds. -/
def objectAt (s : State) (channel slot : Nat) : Option MediaObj := (hbmTileAt s channel slot).map (·.obj)

/-- A command that was admitted before `order` is still at work. -/
def readerBefore (s : State) (order : Nat) : Bool :=
  (s.ahp.cmds.any fun c => (c.phase == .admitted || c.phase == .working) && c.order < order) ||
  (s.search.queries.any fun q => (match q.origin with | .peer _ _ => true | _ => false) && q.order < order)

/-- Runs that the tiles of a placement may not take: those of every tile that shares a channel with it, the copies that are being written, and the old
copies that still have a reader (R284). -/
def takenRuns (s : State) (placement : Nat) : List HbmRun :=
  (s.hbm.tiles.filter fun t => t.placement == placement || t.placement == 2 || placement == 2).flatMap fun t =>
    t.runs ++ ((t.old.filter fun o => readerBefore s o.order).flatMap (·.runs)) ++ ((s.hbm.relocs.filter (·.tile == t.id)).flatMap (·.runs))

/-- The allocator: rows of `depth` slots are taken from the lowest free slots, each with the channels that have them, until `groups` groups are placed.
`cuts` are the slots at which what is free changes. -/
def allocGo (s : State) (placement depth : Nat) (used : List HbmRun) (gaps : List (Nat × Nat × Nat)) : List Nat → Nat → Option (List HbmRun)
  | _, 0 => some []
  | a :: b :: l, left =>
    let lack := dedup ((gaps.filter fun h => h.2.1 ≤ a && a < h.2.1 + h.2.2 && placed placement h.1).map (·.1))
    let n := (channelSet s placement lack).length
    let rows := (b - a) / depth
    if used.any (fun r => r.slot ≤ a && a < r.slot + r.count) || n == 0 || rows == 0 then allocGo s placement depth used gaps (b :: l) left
    else
      let take := min rows (ceilDiv left n)
      (allocGo s placement depth used gaps (b :: l) (left - take * n)).map fun r => { slot := a, count := take * depth, lack := lack } :: r
  | _, _ => none

/-- An allocation of a placement, or none where free HBM cannot hold it. DESIGN CHOICE (log entry 71). -/
def allocate (s : State) (placement depth groups : Nat) : Option (List HbmRun) :=
  let used := takenRuns s placement
  let gaps := holes s
  let ends := used.flatMap (fun r => [r.slot, r.slot + r.count]) ++ gaps.flatMap (fun h => [h.2.1, h.2.1 + h.2.2])
  allocGo s placement depth used gaps (sortOn id (dedup ([0, pageSlots * channelPages] ++ ends))) groups

/-! ## Shared-store banks and the lines of the cache banks (R269-R272) -/

/-- The role of a shared-store bank (R269). -/
inductive BankRole
  | tombstones | tree | scratch | cache
  deriving DecidableEq, Repr

/-- The role of bank `b` of either die (R269). -/
def bankRole (s : State) (b : Nat) : BankRole :=
  let t := settingNat s Key.treePinBanks
  if b = 0 then .tombstones else if b ≤ t then .tree else if b ≤ t + settingNat s Key.scratchBankCount then .scratch else .cache

/-- A bank in cache mode holds HBM lines; one in scratchpad mode holds data at assigned addresses. -/
def cacheMode (s : State) (b : Nat) : Bool := bankRole s b == .cache

/-- The home die of a unit: the one against whose stacks its channel lies (R271). -/
def homeDie (channel : Nat) : Nat := if channel < 192 then 0 else 1

/-- The cache bank of the home die, and the set in it, that a unit's address selects. A bank of 8 MiB has 2 048 sets of 16 lines of 256 B.
DESIGN CHOICE (log entry 72). -/
def lineHome (s : State) (channel slot : Nat) : Nat × Nat :=
  let first := 1 + settingNat s Key.treePinBanks + settingNat s Key.scratchBankCount
  let h := hash64 (channel * 8388608 + slot)
  (first + h % (40 - first), h / 64 % 2048)

/-- The line that holds a unit. -/
def lineOf (s : State) (channel slot : Nat) : Option CacheLine := s.hbm.cache.find? fun l => l.channel == channel && l.slot == slot

/-- The cache without what it holds of a unit. -/
def dropLine (channel slot : Nat) (s : State) : State :=
  { s with hbm := { s.hbm with cache := s.hbm.cache.filter fun l => !(l.channel == channel && l.slot == slot) } }

/-- A unit is used through its home die's cache banks; `dirty` where it is written. A line that is not there is brought in over the least recently used line of
its set, which is written back where it is dirty (R271). An atomic is one use: its line stays from the read to the write (R272). -/
def useLine (dirty : Bool) (s : State) (u : Nat × Nat) : State :=
  let home := lineHome s u.1 u.2
  let die := homeDie u.1
  let put := fun (way : Nat) (d : Bool) => { s with hbm := { s.hbm with
    uses := s.hbm.uses + 1
    cache := (s.hbm.cache.filter fun l => !(l.die == die && l.bank == home.1 && l.set == home.2 && l.way == way)) ++
      [{ die := die, bank := home.1, set := home.2, way := way, channel := u.1, slot := u.2, dirty := d, used := s.hbm.uses }] } }
  match lineOf s u.1 u.2 with
  | some l => put l.way (l.dirty || dirty)
  | none =>
    let lines := s.hbm.cache.filter fun l => l.die == die && l.bank == home.1 && l.set == home.2
    match (List.range 16).find? fun w => !(lines.any (·.way == w)) with
    | some w => put w dirty
    | none => put (((sortOn (·.used) lines).head?.map (·.way)).getD 0) dirty

/-- The units of some row groups of a tile. -/
def groupUnits (s : State) (t : HbmTile) (groups : List Nat) : List (Nat × Nat) :=
  groups.flatMap fun g => ((groupPlace s t.placement t.depth t.runs g).map fun p => (List.range t.depth).map fun i => (p.1, p.2 + i)).getD []

/-- The head whose tensors or training state an object is. -/
def objHead : MediaObj → Option Nat
  | .valueBlock h _ | .replicated h _ | .training h => some h
  | _ => none

/-- The collection that an object is part of. -/
def objColl : MediaObj → Option Nat
  | .partition c _ | .append c | .tree c | .fullVec c _ => some c
  | _ => none

/-- A line holds a unit of an object that `p` names. -/
def lineHolds (s : State) (p : MediaObj → Bool) (l : CacheLine) : Bool := (objectAt s l.channel l.slot).any p

/-- A transfer that does not pass through the caches writes objects: their cached copies are invalidated before it (R271). -/
def bypassWrite (p : MediaObj → Bool) (s : State) : State :=
  if s.hbm.cache.isEmpty then s else { s with hbm := { s.hbm with cache := s.hbm.cache.filter fun l => !lineHolds s p l } }

/-- A transfer that does not pass through the caches reads objects: their dirty lines are written back before it (R271). -/
def bypassRead (p : MediaObj → Bool) (s : State) : State :=
  if s.hbm.cache.isEmpty then s else { s with hbm := { s.hbm with cache := mapIf (lineHolds s p) (fun l => { l with dirty := false }) s.hbm.cache } }

/-- The banks have new modes: the lines whose unit no longer has its line there are written back and invalidated (R270). -/
def reshapeCache (s : State) : State :=
  { s with hbm := { s.hbm with cache := s.hbm.cache.filter fun l => lineHome s l.channel l.slot == (l.bank, l.set) } }

/-- Every cache bank is written back and lost (R274). -/
def loseCache (s : State) : State := { s with hbm := { s.hbm with cache := [] } }

end Sys2Proof.Machine
end

