-- ==== Sys2Proof/Machine/Hbm.lean ====
section
/-! DEFINITION. HBM: what a burst with errors leaves, row failures, remap and retirement, uncorrectable data and its recovery, and the
generators (12 R280-R291). -/

namespace Sys2Proof.Machine

/-! ## Bank records -/

/-- The record of a bank; none has failed where there is no record. -/
def bankRec (s : State) (channel bank : Nat) : BankRec :=
  (s.hbm.banks.find? fun b => b.channel == channel && b.bank == bank).getD
    { channel := channel, bank := bank, fails := 0, remapped := 0, pages := [], retired := false }

/-- The record of a bank set. -/
def setBank (b : BankRec) (s : State) : State :=
  let others := s.hbm.banks.filter fun x => !(x.channel == b.channel && x.bank == b.bank)
  { s with hbm := { s.hbm with banks := insertBy (fun x y => x.channel * 64 + x.bank ≤ y.channel * 64 + y.bank) b others } }

/-- A channel is marked for map-out (R281, R283, R287). -/
def markChannel (c : Nat) (s : State) : State :=
  if s.hbm.marked.contains c then s else { s with hbm := { s.hbm with marked := insertBy (· ≤ ·) c s.hbm.marked } }

/-- Banks of a channel that have been retired. -/
def channelRetired (s : State) (channel : Nat) : Nat := (s.hbm.banks.filter fun b => b.channel == channel && b.retired).length

/-- A bank is retired (R283): its pages no longer count by themselves, and four of a channel mark it. DEDUCED (log entry 45). -/
def retireBank (b : BankRec) (s : State) : State :=
  let s1 := setBank { b with retired := true, pages := [] } s
  let n := channelRetired s1 b.channel
  let s2 := logEvent Ev.hbmBankRetired Ev.error b.channel (toLE 1 b.bank ++ toLE 1 n) s1
  if 4 ≤ n then markChannel b.channel s2 else s2

/-- A page is retired (R283). DEDUCED (log entry 45). -/
def retirePage (b : BankRec) (row : Nat) (s : State) : State :=
  logEvent Ev.hbmPageRetired Ev.warning b.channel (toLE 1 b.bank ++ zeros 3 ++ toLE 4 row) (setBank { b with pages := b.pages ++ [row] } s)

/-- Spare rows of a bank that are left (R282): of two, those used at manufacture and in the field are gone. -/
def sparesLeft (s : State) (b : BankRec) : Nat :=
  2 - (((s.hbm.spareUse.find? fun x => x.1 == b.channel && x.2.1 == b.bank).map (·.2.2)).getD 0) - b.remapped

/-- A row fails (R283): it is remapped to a spare, its page is retired, or its bank is. DEDUCED (log entry 45). -/
def rowFails (channel bank row : Nat) (s : State) : State :=
  let old := bankRec s channel bank
  let b := { old with fails := old.fails + 1 }
  if old.retired ∨ old.pages.contains row then s
  else if 3 ≤ b.fails then retireBank b s
  else if 0 < sparesLeft s old then bump Key.hbmRowsRemapped (setBank { b with remapped := b.remapped + 1 } s)
  else retirePage b row s

/-! ## Uncorrectable data (R285, R286) -/

/-- The recovery source of the table of R286 exists, or the SRAM word has one (R275). -/
def recoverable : MediaObj → Bool
  | .partition _ _ | .append _ | .tree _ | .valueBlock _ _ | .replicated _ _ | .fullVec _ _ | .tombTable | .level _ => true
  | .plan _ _ _ | .planTile _ _ _ | .stash _ _ _ | .working _ | .training _ => false

/-- How a collection's tree is named among its damaged partitions: a query that meets it walks no node, and lists what it would have probed. DESIGN
CHOICE (log entry 71). -/
abbrev treeMark : Nat := 0xFFFFFFFE

/-- Added to a partition, it names that partition's pinned full vectors. -/
abbrev fullMark : Nat := 0x100000000

/-- How the value table's scale tile and side tensor are named among a head's damaged blocks. -/
abbrev tileMark : Nat := fillId + 1

/-- A tensor is the value table's scale tile or side tensor. -/
def valueTile (tensor : Nat) : Bool := 5 ≤ tensor && Hd.tileOf tensor == 4

/-- A list of damaged parts with one more. -/
def addPart (p : Nat) (l : List Nat) : List Nat := insertBy (· ≤ ·) p (l.filter (· ≠ p))

/-- A command at work meets uncorrectable data in what it works on. -/
def hurtWork (seq : Nat) (s : State) : State :=
  { s with
    search := { s.search with queries := mapIf (queryOf seq) (fun q => { q with media := addPart 0xFFFFFFFF q.media }) s.search.queries }
    mem := { s.mem with
      fwds := mapIf (fun f => f.seq == seq) (fun f => { f with incomplete := true, media := [fillId] }) s.mem.fwds
      bwds := mapIf (fun f => f.seq == seq) (fun f => { f with incomplete := true, media := [fillId] }) s.mem.bwds
      upds := mapIf (fun f => f.seq == seq) (fun f => { f with media := [fillId] }) s.mem.upds } }

/-- Commands at work under a plan. -/
def workersOf (s : State) (kind target planId : Nat) : List Nat :=
  (s.ahp.cmds.filter fun c => c.phase == .working && c.plan.any fun p => p.kind == kind && p.target == target && p.planId == planId).map (·.seq)

/-- The state meets uncorrectable data: later readers of the object meet it until it is recovered; a plan becomes unbound, a stash
entry is discarded, and the commands that work on the data report it. DEDUCED (log entries 45, 66). -/
def hurtObject (o : MediaObj) (s : State) : State :=
  match o with
  | .partition coll part => updColl coll (fun c => { c with damaged := addPart part c.damaged }) s
  | .append coll => updColl coll (fun c => { c with damaged := addPart 0xFFFFFFFF c.damaged }) s
  | .tree coll => updColl coll (fun c => { c with damaged := addPart treeMark c.damaged }) s
  | .fullVec coll part => updColl coll (fun c => { c with damaged := addPart (fullMark + part) c.damaged }) s
  | .valueBlock head block => updHead head (fun h => { h with damagedRows := addPart block h.damagedRows }) s
  | .replicated head tensor => updHead head (fun h =>
      if valueTile tensor then { h with damagedTile := true } else { h with damagedRows := addPart fillId h.damagedRows }) s
  | .training head => updHead head (fun h => { h with damagedAccum := true }) s
  | .plan kind target planId => { s with ahp := { s.ahp with
      plans := mapIf (fun p => p.kind == kind && p.target == target && p.planId == planId) (fun p => { p with bound := false }) s.ahp.plans } }
  | .planTile kind target planId => (workersOf s kind target planId).foldl (fun u q => hurtWork q u) s
  | .stash head step mb => releaseStash head step mb s
  | .working seq => hurtWork seq s
  | .tombTable | .level _ => s

/-- An object is whole again once no other unit of it is uncorrectable, for the commands admitted from now on (R285). DEDUCED (log entries 45, 66). -/
def healObject (o : MediaObj) (s : State) : State :=
  let from_ := s.ahp.nextOrder
  let noteC := fun (p : Nat) (c : Coll) => { c with healed := c.healed ++ [(p, from_)] }
  let noteH := fun (p : Nat) (h : Head) => { h with healed := h.healed ++ [(p, from_)] }
  if s.hbm.hurt.any (fun h => h.obj == o) then s
  else match o with
    | .partition coll part => updColl coll (fun c => noteC part { c with damaged := c.damaged.filter (· ≠ part) }) s
    | .append coll => updColl coll (fun c => noteC 0xFFFFFFFF { c with damaged := c.damaged.filter (· ≠ 0xFFFFFFFF) }) s
    | .tree coll => updColl coll (fun c => noteC treeMark { c with damaged := c.damaged.filter (· ≠ treeMark) }) s
    | .fullVec coll part => updColl coll (fun c => noteC (fullMark + part) { c with damaged := c.damaged.filter (· ≠ fullMark + part) }) s
    | .valueBlock head block => updHead head (fun h => noteH block { h with damagedRows := h.damagedRows.filter (· ≠ block) }) s
    | .replicated head tensor => updHead head (fun h =>
        if valueTile tensor then noteH tileMark { h with damagedTile := false }
        else noteH fillId { h with damagedRows := h.damagedRows.filter (· ≠ fillId) }) s
    | _ => s

/-- Whether a command at a place in the order of admission meets uncorrectable data in a part of a collection. -/
def partHurt (c : Coll) (order part : Nat) : Bool := c.damaged.contains part || c.healed.any fun h => h.1 == part && order < h.2

/-- The same of a block of a head's value rows, or of its replicated tensors. -/
def blockHurt (h : Head) (order block : Nat) : Bool := h.damagedRows.contains block || h.healed.any fun x => x.1 == block && order < x.2

/-- The same of the value table's scale tile and side tensor. -/
def tileHurt (h : Head) (order : Nat) : Bool := h.damagedTile || h.healed.any fun x => x.1 == tileMark && order < x.2

/-- A unit is uncorrectable: what it holds is hurt, and its recovery is scheduled where there is a source (R285, R286). DEDUCED (log entry 45). -/
def hurtSlot (channel slot : Nat) (s : State) : State :=
  match objectAt s channel slot with
  | none => s
  | some o =>
    hurtObject o (if recoverable o then
      { s with hbm := { s.hbm with hurt := s.hbm.hurt.filter (fun h => !(h.channel == channel && h.slot == slot)) ++
          [{ channel := channel, slot := slot, obj := o, recovered := false }] } }
    else s)

/-- A read of a burst is uncorrectable: it is counted and recorded, the unit is hurt, and the row has failed (R285). DEDUCED (log entry 45). -/
def burstLost (x : Scrub) (s : State) : State :=
  let slot := (slotAt s x.channel x.bank x.row x.burst).getD 0
  let s1 := logEvent Ev.hbmUncorrectable Ev.error x.channel (toLE 1 x.bank ++ zeros 3 ++ toLE 4 x.row ++ toLE 4 slot)
    (bump Key.hbmUncorrectableBursts s)
  rowFails x.channel x.bank x.row (match slotAt s x.channel x.bank x.row x.burst with | none => s1 | some q => hurtSlot x.channel q s1)

/-- A page, or a bank where `row` is none, is retired. -/
def isRetired (s : State) (channel bank : Nat) (row : Option Nat) : Bool :=
  let b := bankRec s channel bank
  b.retired || (match row with | none => false | some r => b.pages.contains r)

/-- A slot lies in memory that has been retired. -/
def slotRetired (s : State) (channel slot : Nat) : Bool :=
  let p := physPage (skipsOf s channel) (slot / pageSlots)
  isRetired s channel (p / bankPages) (some (p % bankPages))

/-- What lies in the shared store's own banks and not in HBM. -/
def sramObject : MediaObj → Bool
  | .tombTable | .level _ => true
  | _ => false

/-- MEDIA_RECOVERY (R285, R286): the recovery of a unit completes. One in a tile that is being relocated writes the new copy, which serves from the
switch on, and one in retired memory waits for that relocation (R284). A fenced channel recovers at the reset (R287). DEDUCED (log entry 45). -/
def execMediaRecovery (channel slot : Nat) (s : State) : Res :=
  match s.hbm.hurt.find? fun h => h.channel == channel && h.slot == slot && !h.recovered with
  | none => .next s
  | some h =>
    let tile := hbmTileAt s channel slot
    let here := fun x : Hurt => x.channel == channel && x.slot == slot
    if sramObject h.obj then
      .next (idleFrom { s with hbm := { s.hbm with hurt := s.hbm.hurt.filter fun x => !here x } })
    else if s.hbm.fenced.contains channel then .next s
    else if tile.any fun t => s.hbm.relocs.any (·.tile == t.id) then
      .next (idleFrom (bump Key.mediaRecoveries { s with hbm := { s.hbm with hurt := mapIf here (fun x => { x with recovered := true }) s.hbm.hurt } }))
    else if slotRetired s channel slot then .next s
    else
      .next (idleFrom (bump Key.mediaRecoveries (healObject h.obj { s with hbm := { s.hbm with hurt := s.hbm.hurt.filter fun x => !here x } })))

/-! ## Scrub (R281, R282) -/

/-- A scrub period, in ns. -/
def scrubPeriod (s : State) : Nat := settingNat s Key.scrubPeriodH * 3600000000000

/-- The time that counts for the patrols: that in P2 and P3 does not (18 R420). -/
def patrolTime (s : State) : Nat := s.now - s.power.suspended

/-- The distinct banks of a channel in which a pin was corrected within one scrub period, this one among them. -/
def pinBanks (s : State) (channel pin bank : Nat) : List (Nat × Nat) :=
  let seen := ((s.hbm.pins.find? fun p => p.channel == channel && p.pin == pin).map (·.banks)).getD []
  (seen.filter fun b => b.1 != bank && patrolTime s < b.2 + scrubPeriod s) ++ [(bank, patrolTime s)]

/-- A pin is lost (R281): the second of a channel marks it. DEDUCED (log entry 45). -/
def losePin (channel pin banks : Nat) (s : State) : State :=
  let s1 := logEvent Ev.hbmPinLost Ev.warning channel (toLE 1 pin ++ toLE 1 banks) (bump Key.lostPins s)
  let s2 := { s1 with hbm := { s1.hbm with lostPins := s1.hbm.lostPins ++ [(channel, pin)], pins := s1.hbm.pins.filter fun p => !(p.channel == channel && p.pin == pin) } }
  if 2 ≤ (s2.hbm.lostPins.filter (·.1 == channel)).length then markChannel channel s2 else s2

/-- A symbol position was corrected in a bank (R281). DEDUCED (log entry 45). -/
def seePin (channel bank : Nat) (s : State) (pin : Nat) : State :=
  let banks := pinBanks s channel pin bank
  if 16 ≤ banks.length then losePin channel pin banks.length s
  else { s with hbm := { s.hbm with pins := s.hbm.pins.filter (fun p => !(p.channel == channel && p.pin == pin)) ++
      [{ channel := channel, pin := pin, banks := banks }] } }

/-- The scrub pass that is under way: passes follow one another without a gap, but for the time in P2 and P3 (18 R420). DESIGN
CHOICE (log entry 71). -/
def scrubPassNo (s : State) : Nat := patrolTime s / max 1 (scrubPeriod s)

/-- Scrub passes in which a row has needed single-symbol corrections, the present one among them (R282). -/
def rowPasses (s : State) (x : Scrub) : Nat :=
  match s.hbm.ce.find? fun r => r.channel == x.channel && r.bank == x.bank && r.row == x.row with
  | none => 1
  | some r => if r.last = scrubPassNo s then r.passes else r.passes + 1

/-- The row's passes recorded. -/
def setPasses (x : Scrub) (n : Nat) (s : State) : State :=
  let others := s.hbm.ce.filter fun r => !(r.channel == x.channel && r.bank == x.bank && r.row == x.row)
  { s with hbm := { s.hbm with ce :=
      if n = 0 then others else others ++ [{ channel := x.channel, bank := x.bank, row := x.row, passes := n, last := scrubPassNo s }] } }

/-- Symbol positions in error, those of lost pins not among them: the code decodes these as erasures (R281). -/
def badSymbols (s : State) (x : Scrub) : List Nat := (dedup x.symbols).filter fun p => !s.hbm.lostPins.contains (x.channel, p)

/-- The code corrects up to three symbols beside a lost pin, and detects four or five (R280, R281). More, which the spec leaves open, are taken as
detected; so is a channel that does not answer. DESIGN CHOICE (log entry 71). -/
def correctable (s : State) (x : Scrub) : Bool := !x.silent && !s.hbm.fenced.contains x.channel && (badSymbols s x).length ≤ 3

/-- A read that the code corrects: errors at a lost position do not count toward row failures (R281), and single-symbol corrections count by scrub pass
(R282). DEDUCED (log entry 45). -/
def correctedRead (scrub : Bool) (x : Scrub) (s : State) : State :=
  let symbols := badSymbols s x
  let s1 := symbols.foldl (seePin x.channel x.bank) (bump Key.hbmCorrectedBursts s)
  if 2 ≤ symbols.length then rowFails x.channel x.bank x.row (setPasses x 0 s1)
  else if symbols.length = 1 ∧ scrub = true then
    let n := rowPasses s x
    if settingNat s Key.rowCeThreshold ≤ n then rowFails x.channel x.bank x.row (setPasses x 0 s1) else setPasses x n s1
  else s1

/-- Every access to a fenced channel is uncorrectable data (R287): a tile with a unit on it is hurt. -/
def hurtTile (channel : Nat) (s : State) (t : HbmTile) : State :=
  match t.runs.find? fun r => runHolds s t.placement channel r.slot r with
  | none => s
  | some r => hurtSlot channel r.slot s

/-- A marked channel that stops answering is fenced (R287). -/
def fence (channel : Nat) (s : State) : State :=
  if s.hbm.fenced.contains channel then s
  else s.hbm.tiles.foldl (hurtTile channel) { s with hbm := { s.hbm with fenced := insertBy (· ≤ ·) channel s.hbm.fenced } }

/-- A burst that the patrol or a command reads (R280-R282, R285, R287). -/
def readBurst (scrub : Bool) (x : Scrub) (s : State) : State :=
  let s1 := if x.silent && s.hbm.marked.contains x.channel then fence x.channel s else s
  if s.hbm.mappedOut.contains x.channel then s
  else if correctable s1 x = false then burstLost x s1
  else if x.symbols.isEmpty then s1
  else correctedRead scrub x s1

/-! ## The generators (R289-R291) -/

/-- RAW of TG_CONTROL. -/
def tgRaw (s : State) : Bool := bit (settingNat s Key.tgControl) 24

/-- Bursts that a run covers (R289): 32 in a page of each channel in service that it names. -/
def tgBursts (s : State) : Nat :=
  match s.hbm.tg.run with
  | none => 0
  | some x => 32 * x.pages * (if x.channel = 0x1FF then (channelsInService s).length else b2n (!s.hbm.mappedOut.contains x.channel))

/-- TG_RUN_COMPLETE (R289, R291): with RAW, the differing bits of each pin; without, corrected and uncorrectable bursts, counted as a
read counts them. None counts beyond what the run covers, where it compares a known pattern. DEDUCED (log entry 46). -/
def execTgRunComplete (pins : List Nat) (corrected uncorrectable : Nat) (s : State) : Res :=
  if s.hbm.tg.state ≠ 1 then .next s
  else
    let covered := fun n most : Nat => if s.hbm.tg.run.isNone then n else min n most
    let bad := covered uncorrectable (tgBursts s)
    let mended := covered corrected (tgBursts s - bad)
    let counts := if tgRaw s then pins.map (covered · (8 * tgBursts s)) else List.replicate 72 0
    let errors := if tgRaw s then sumOf counts else mended + bad
    let done : TestGen := {
      state := if errors = 0 then 2 else 3
      failed := (counts.filter (· ≠ 0)).length
      errors := errors
      pins := counts
      written := s.hbm.tg.written
      run := s.hbm.tg.run }
    let s1 := { s with hbm := { s.hbm with tg := done } }
    .next (if tgRaw s then s1 else bumpBy Key.hbmUncorrectableBursts bad (bumpBy Key.hbmCorrectedBursts mended s1))

end Sys2Proof.Machine
end

