-- ==== Sys2Proof/Machine/Cold.lean ====
section
/-! DEFINITION. The cold tier: page reads, lost pages, background work, the window's copies, and the end of a flash generator run
(13 R296-R315). -/

namespace Sys2Proof.Machine

/-! ## Writes and lost pages -/

/-- `n` bytes have been written to logical pages (R302). -/
def coldWrite (n : Nat) (s : State) : State :=
  { s with cold := { s.cold with written := s.cold.written + n, programs := s.cold.programs + n } }

/-- `n` bytes have been programmed by background work. -/
def coldProgram (n : Nat) (s : State) : State := { s with cold := { s.cold with programs := s.cold.programs + n } }

/-- What is left of the spare area (R303): below 2 % a record is written once, and with none the tier becomes read-only. DEDUCED (log entry 41). -/
def setSpare (pct : Nat) (s : State) : State :=
  let s1 := { s with cold := { s.cold with sparePct := pct, readOnly := s.cold.readOnly || pct == 0 } }
  if pct < 2 ∧ s.cold.spareLow = false then
    logEvent Ev.coldSpareLow Ev.warning 0 (toLE 1 pct) { s1 with cold := { s1.cold with spareLow := true } }
  else s1

/-- A page has no source left (R303). DEDUCED (log entry 41). -/
def losePage (kind owner lpn channel : Nat) (s : State) : State :=
  let p : LostPage := { kind := kind, owner := owner, lpn := lpn }
  if s.cold.lost.contains p then s
  else
    let s1 := { s with cold := { s.cold with lost := s.cold.lost ++ [p] } }
    logEvent Ev.coldPageLost Ev.error channel (toLE 1 kind ++ zeros 3 ++ toLE 4 owner ++ toLE 5 lpn) (bump Key.coldLostPages s1)

/-- A block waits for refresh (R297). DEDUCED (log entry 41). -/
def queueRefresh (channel block : Nat) (s : State) : State :=
  if s.cold.refresh.contains (channel, block) then s else { s with cold := { s.cold with refresh := s.cold.refresh ++ [(channel, block)] } }

/-- A die has failed (R297). DEDUCED (log entry 41). -/
def failDie (channel die : Nat) (s : State) : State :=
  if s.cold.deadDies.contains (channel, die) then s else { s with cold := { s.cold with deadDies := s.cold.deadDies ++ [(channel, die)] } }

/-- The owner of lost pages has written them anew (R303). -/
def clearLost (kind owner : Nat) (lpns : List Nat) (s : State) : State :=
  { s with cold := { s.cold with lost := s.cold.lost.filter fun p => !(p.kind == kind && p.owner == owner && lpns.contains p.lpn) } }

/-- One of these pages of an owner is lost: every read of it is uncorrectable data (R303). -/
def pagesLost (s : State) (kind owner : Nat) (lpns : List Nat) : Bool :=
  s.cold.lost.any fun p => p.kind == kind && p.owner == owner && lpns.contains p.lpn

/-- The channel of the parity page of a group, which rotates from group to group (R297). DESIGN CHOICE (log entry 41). -/
def parityChannel (group : Nat) : Nat := group % 32

/-- The result of a read (R297): a page of a die that failed is rebuilt from its parity group until the rebuild of the die completes. -/
def readResult (r : FlashRead) (s : State) : FlashResult :=
  if s.cold.deadDies.contains (r.channel, r.die) && r.result != .lost then .rebuilt else r.result

/-- What a read of one page leaves (R297, R303). A parity page holds no owner's data. DEDUCED (log entry 41). -/
def pageRead (r : FlashRead) (s : State) : State :=
  let s1 := match readResult r s with
    | .first => s
    | .retried => bump Key.coldCorrectedPages s
    | .rebuilt => bump Key.coldParityRebuilds (coldProgram 4096 s)
    | .lost => if r.copyHeld || r.channel == parityChannel r.group then coldProgram 4096 s else losePage r.kind r.owner r.lpn r.channel s
  let s2 := if r.refresh then queueRefresh r.channel r.block s1 else s1
  match r.dieFailed with
  | none => s2
  | some d => failDie r.channel d s2

/-- What the data of the page is for (R313). DEDUCED (log entries 41, 66). -/
def pageUsed (r : FlashRead) (s : State) : State :=
  let gone := r.result == .lost && !r.copyHeld
  match r.use with
  | .host => bump Key.coldRandomReads s
  | .restore coll part => updColl coll (fun c => { c with
      unrestored := c.unrestored.filter (· ≠ part)
      damaged := if gone then insertBy (· ≤ ·) part (c.damaged.filter (· ≠ part)) else c.damaged }) s
  | .restoreHead head block => updHead head (fun h => { h with
      restoring := false
      damagedRows := if gone then insertBy (· ≤ ·) block (h.damagedRows.filter (· ≠ block)) else h.damagedRows }) s

/-- The flash controller runs in P0 to P2 (02 R28); P1 is P0 here. -/
def flashRuns (s : State) : Bool := s.power.state == .p0 || s.power.state == .p2

/-- FLASH_READ_COMPLETE (R297): a cold-tier page read completes. -/
def execFlashReadComplete (read : FlashRead) (t : Nat) (s : State) : Res :=
  let s0 := tick t s
  .next (if flashRuns s0 then pageUsed read (pageRead read s0) else s0)

/-- Background work runs only outside P2 and P3 (18 R420). DEDUCED (log entry 68). -/
def backgroundRuns (s : State) : Bool := s.power.state == .p0

/-- GARBAGE_COLLECTION (R302): live pages move out of mostly released blocks. DEDUCED (log entry 41). -/
def execGarbageCollection (pages sparePct : Nat) (s : State) : Res :=
  .next (if backgroundRuns s then setSpare sparePct (coldProgram (4096 * pages) s) else s)

/-- DIE_REBUILD (R297): the pages of a failed die are restored into spare blocks. DEDUCED (log entry 41). -/
def execDieRebuild (channel die pages sparePct : Nat) (s : State) : Res :=
  if s.cold.deadDies.contains (channel, die) && backgroundRuns s then
    .next (setSpare sparePct (coldProgram (4096 * pages)
      { s with cold := { s.cold with deadDies := s.cold.deadDies.filter (· ≠ (channel, die)) } }))
  else .next s

/-! ## The window (R307-R312) -/

/-- The copy of a page. -/
def copyOf (s : State) (page : Nat) : Option Copy := s.cold.copies.find? (·.page == page)

/-- A copy that may enter EVICTING (R311): never one of a PINNED tile (02 R36). -/
def evictable (c : Copy) : Bool := c.state == .resident && c.holders.isEmpty && !c.bad && !c.dirty && !c.pinned

/-- Copies of a region. -/
def regionCopies (s : State) (region : Nat) : List Copy := s.cold.copies.filter (·.region == region)

/-- The copies of a region that may be evicted, the one released longest ago first, then the lower page (R312). -/
def evictOrder (s : State) (region : Nat) : List Copy :=
  sortBy (fun a b => a.released < b.released || (a.released == b.released && a.page ≤ b.page)) ((regionCopies s region).filter evictable)

/-- `n` copies of a region are evicted. -/
def evict (region n : Nat) (s : State) : State :=
  let gone := ((evictOrder s region).take n).map (·.page)
  bumpBy Key.evictions gone.length { s with cold := { s.cold with copies := s.cold.copies.filter fun c => !gone.contains c.page } }

/-- A request for a page by a command (R311). -/
def requestPage (seq region : Nat) (pinned : Bool) (page : Nat) (s : State) : State :=
  match copyOf s page with
  | none => bump Key.promotions { s with cold := { s.cold with copies := s.cold.copies ++
      [{ page := page, region := region, state := .promoting, holders := [seq], released := s.now, bad := false, dirty := false, pinned := pinned }] } }
  | some c =>
    let s1 := { s with cold := { s.cold with copies := mapIf (fun x => x.page == page) (fun x => { x with holders := x.holders ++ [seq] }) s.cold.copies } }
    if c.state = .promoting then bump Key.promotionJoins s1 else s1

/-- Pages of a request that have no copy yet. -/
def absentPages (s : State) (pages : List Nat) : List Nat := pages.filter fun p => (copyOf s p).isNone

/-- A region can take the copies that a request lacks, evicting what it may without those that the request needs. -/
def hasRoom (s : State) (region capacity : Nat) (pages : List Nat) : Bool :=
  (regionCopies s region).length + (absentPages s pages).length ≤
    capacity + ((evictOrder s region).filter fun c => !pages.contains c.page).length

/-- The request takes its references and its space at once: a copy that it needs is not evicted for it. -/
def grantPages (seq region capacity : Nat) (pinned : Bool) (pages : List Nat) (s : State) : State :=
  let absent := absentPages s pages
  let s1 := (pages.filter fun p => !absent.contains p).foldl (fun u p => requestPage seq region pinned p u) s
  let need := (regionCopies s1 region).length + absent.length - capacity
  absent.foldl (fun u p => requestPage seq region pinned p u) (evict region need s1)

/-- A request for pages (R311, R312): it waits where too few copies may be evicted. Pages beyond the region's capacity come in rounds,
which change timing only; a round never needs more than the region holds. -/
def requestPages (seq region capacity : Nat) (pinned : Bool) (pages : List Nat) (s : State) : State :=
  let round := pages.take (max 1 capacity)
  if hasRoom s region capacity round then grantPages seq region capacity pinned round s
  else bump Key.windowWaits { s with cold := { s.cold with waits := s.cold.waits ++ [{ seq := seq, region := region, capacity := capacity, pinned := pinned, pages := round }] } }

/-- FTG_RUN_COMPLETE (R314, R315): READ_VERIFY counts retries, rebuilds and lost pages. DEDUCED (log entry 46). -/
def execFtgRunComplete (dies errors retries rebuilds : Nat) (lost : List LostRead) (s : State) : Res :=
  if s.cold.ftg.state ≠ 1 then .next s
  else
    let done : TestGen := { state := if errors = 0 ∧ lost.isEmpty then 2 else 3, failed := dies, errors := errors, pins := [], written := [], run := none }
    let s1 := { s with cold := { s.cold with ftg := done } }
    if bits (settingNat s Key.ftgControl) 25 24 = 1 then
      let s2 := bumpBy Key.coldParityRebuilds rebuilds (bumpBy Key.coldCorrectedPages retries s1)
      .next (lost.foldl (fun u p => losePage p.page.kind p.page.owner p.page.lpn p.channel u) s2)
    else .next s1

end Sys2Proof.Machine
end

