-- ==== Sys2Proof/Machine/Plans.lean ====
section
/-! DEFINITION. Plan validation: checks 1 to 12 of 02 R39, with the item layouts of 02 R32-R38, 07 R136 R137, 08 R168,
10 R225-R227, 11 R240, 13 R307-R309, and the shape rules of 05 R91 R93 R98 R100. -/

namespace Sys2Proof.Machine

/-- A condition on several fields is reported at the one of highest plan offset (02 R39). -/
def requireAt (c : Bool) (offs : List Nat) : Option Nat := if c then none else some (maxOf offs)

/-- PLAN_KIND of a plan (02 R32). -/
def planKind (b : Bytes) : Nat := u8At b 6
/-- PLAN_ID of a plan. -/
def planIdOf (b : Bytes) : Nat := u64At b 40
/-- STASH_MIB of a plan. -/
def planStashMib (b : Bytes) : Nat := u32At b 16
/-- WORKING_HBM_MIB of a plan. -/
def planWorkingMib (b : Bytes) : Nat := u32At b 32
/-- TARGET_DIGEST of a plan. -/
def planTargetDigest (b : Bytes) : Nat := u64At b 24
/-- SECTION_COUNT of a plan. -/
def planSections (b : Bytes) : Nat := u16At b 36

/-- A section-table entry (02 R33). -/
structure Section where
  base : Nat                    -- offset of its entry
  type : Nat
  off : Nat
  len : Nat
  count : Nat
  deriving DecidableEq, Repr

/-- Section-table entry `i`. -/
def sectionAt (b : Bytes) (i : Nat) : Section where
  base := 64 + 16 * i
  type := u16At b (64 + 16 * i)
  off := u32At b (64 + 16 * i + 4)
  len := u32At b (64 + 16 * i + 8)
  count := u32At b (64 + 16 * i + 12)

/-- Every section of a plan. -/
def sectionsOf (b : Bytes) : List Section := (List.range (planSections b)).map (sectionAt b)

/-- The section of a type; an empty one where the plan holds none. -/
def sectionOf (b : Bytes) (type : Nat) : Section :=
  ((sectionsOf b).find? (·.type == type)).getD { base := 0, type := type, off := 0, len := 0, count := 0 }

/-- Item size of a section type; none for CONSTANTS (02 R33). -/
def sectionItem (type : Nat) : Option Nat :=
  match type with
  | 1 => some 16 | 2 => some 32 | 3 => some 16 | 4 => some 8 | 6 => some 16 | _ => none

/-- One region (02 R35). -/
structure Region where
  id : Nat
  at_ : Nat                     -- offset of its entry
  tier : Nat
  size : Nat
  deriving DecidableEq, Repr

/-- The regions of a plan. -/
def regionsOf (b : Bytes) : List Region :=
  let s := sectionOf b 1
  (List.range s.count).map fun i =>
    { id := u8At b (s.off + 16 * i), at_ := s.off + 16 * i, tier := u8At b (s.off + 16 * i + 1), size := u64At b (s.off + 16 * i + 8) }

/-- One tile descriptor (02 R36). -/
structure TileDesc where
  id : Nat
  at_ : Nat                     -- offset of its descriptor
  compressed : Bool
  transposeOnLoad : Bool
  pinned : Bool
  tier : Nat
  placement : Nat
  region : Nat
  format : Nat
  rows : Nat
  cols : Nat
  regionOffset : Nat
  bytes : Nat
  scaleTile : Nat
  deriving DecidableEq, Repr

/-- The tile descriptor at an offset. -/
def tileAt (b : Bytes) (o : Nat) : TileDesc where
  id := u32At b o
  at_ := o
  compressed := bit (u8At b (o + 8)) 3
  transposeOnLoad := bit (u8At b (o + 8)) 2
  pinned := bit (u8At b (o + 8)) 1
  tier := bits (u8At b (o + 8)) 5 4
  placement := bits (u8At b (o + 8)) 7 6
  region := u8At b (o + 10)
  format := u8At b (o + 11)
  rows := u16At b (o + 12)
  cols := u16At b (o + 14)
  regionOffset := u64At b (o + 16)
  bytes := u32At b (o + 24)
  scaleTile := u32At b (o + 28)

/-- A tile that a stream mover transposes on its way into cluster memory is stored there as COLS rows of ROWS columns (03 R59).
DEDUCED (log entry 69). -/
def TileDesc.turned (t : TileDesc) : Bool := t.transposeOnLoad && t.tier == 0

/-- Rows of a tile as it is stored. -/
def TileDesc.r (t : TileDesc) : Nat := if t.turned then t.cols else t.rows
/-- Columns of a tile as it is stored. -/
def TileDesc.c (t : TileDesc) : Nat := if t.turned then t.rows else t.cols
/-- Offset of the field that gives the rows of a tile as it is stored. -/
def TileDesc.rAt (t : TileDesc) : Nat := t.at_ + if t.turned then 14 else 12
/-- Offset of the field that gives the columns of a tile as it is stored. -/
def TileDesc.cAt (t : TileDesc) : Nat := t.at_ + if t.turned then 12 else 14

/-- The tiles of a plan. -/
def tilesOf (b : Bytes) : List TileDesc :=
  let s := sectionOf b 2
  (List.range s.count).map fun i => tileAt b (s.off + 32 * i)

/-- Element bits of a format code (03 R41); 0 for a reserved code. -/
def formatBits (f : Nat) : Nat :=
  match f with
  | 1 => 32 | 2 => 16 | 3 => 16 | 4 => 8 | 5 => 8 | 6 => 8 | 7 => 8 | 8 => 16 | 9 => 32 | 10 => 4 | 11 => 8 | 12 => 1
  | 13 => 4 | 14 => 8 | 15 => 64 | 16 => 8 | 17 => 8 | 18 => 64 | _ => 0

/-- STAGE_CODE of each STAGE_LIST item (07 R136). -/
def stagesOf (b : Bytes) : List Nat :=
  let s := sectionOf b 4
  (List.range s.count).map fun i => u8At b (s.off + 8 * i + 1)

/-! ## Checks 1 to 5 -/

/-- Checks 1 to 5 of R39: LENGTH, HEADER, VERSION, DIGEST, HEADER_FIELDS. -/
def planHeaderFail (b : Bytes) : Option Nat :=
  let n := u32At b 8
  firstFail [
    require (b.length == n && n % 64 == 0 && 256 ≤ n && n ≤ 64 * 1024 * 1024) 8,
    require (u32At b 0 == 0x4C504C41) 0,
    require (u32At b 60 == crc32c (slice b 0 60)) 60,
    require (u8At b 4 ≤ 3) 4,
    require (u8At b 5 == 2) 5,
    require (slice b (n - 32) 32 == sm3 (slice b 0 (n - 32))) (n - 32),
    require (1 ≤ planKind b && planKind b ≤ 3) 6,
    reserved b 7 1,
    reserved b 12 4,
    require (planStashMib b == 0 || planKind b == 2) 16,
    require (u16At b 20 ≤ 40) 20,
    reserved b 22 2,
    require (4 ≤ planSections b && planSections b ≤ 6) 36,
    reserved b 38 2,
    reserved b 48 12]

/-! ## Check 6: SECTIONS -/

/-- Whether two ranges of bytes share a byte. -/
def overlaps (a n b m : Nat) : Bool := n != 0 && m != 0 && a < b + m && b < a + n

/-- The failure of section-table entry `i` (R33). A section that does not start inside its bounds fails at OFFSET, one that only runs
past their end at LENGTH. DESIGN CHOICE (log entry 69). -/
def sectionFail (b : Bytes) (i : Nat) : Option Nat :=
  let s := sectionAt b i
  let earlier := (List.range i).map (sectionAt b)
  let tableEnd := 64 + 16 * planSections b
  let top := b.length - 32
  firstFail [
    require (1 ≤ s.type && s.type ≤ 6 && !(earlier.any (·.type == s.type))) s.base,
    reserved b (s.base + 2) 2,
    require (s.off % 64 == 0 && tableEnd ≤ s.off && s.off ≤ top) (s.base + 4),
    require (s.off + s.len ≤ top && !(earlier.any fun e => overlaps e.off e.len s.off s.len)) (s.base + 8),
    require (match sectionItem s.type with | none => s.count == 0 | some k => s.len == s.count * k) (s.base + 12)]

/-- A section put among others by ascending OFFSET. -/
def insertSection (x : Section) : List Section → List Section
  | [] => [x]
  | y :: r => if x.off ≤ y.off then x :: y :: r else y :: insertSection x r

/-- The first byte that is not 0 between the parts of a plan from `pos` on, up to BODY_DIGEST: bytes of no part are padding (00 R8). -/
def gapFail (b : Bytes) : Nat → List Section → Option Nat
  | pos, [] => padding b pos (b.length - 32 - pos)
  | pos, s :: r => firstFail [padding b pos (s.off - pos), gapFail b (s.off + s.len) r]

/-- Check 6 of R39. The entries are examined in full before the condition that every required type is present, and the padding between
the sections after both. DESIGN CHOICE (log entry 69). -/
def sectionsFail (b : Bytes) : Option Nat :=
  firstFail [
    firstFail ((List.range (planSections b)).map (sectionFail b)),
    require ([1, 2, 3, 4].all fun t => (sectionsOf b).any (·.type == t)) (64 + 16 * (planSections b - 1)),
    gapFail b (64 + 16 * planSections b) (((sectionsOf b).filter (·.len != 0)).foldr insertSection [])]

/-! ## Checks 7 and 8: BUFFER_MAP, TILES -/

/-- Check 7 of R39: each region under R35, with the REGION_ID before it. -/
def regionsFail (b : Bytes) : Option Nat → List Region → Option Nat
  | _, [] => none
  | prev, r :: rest =>
    match firstFail [
      require (match prev with | none => true | some p => p < r.id) r.at_,
      require (r.tier ≤ 3) (r.at_ + 1),
      reserved b (r.at_ + 2) 6,
      require (r.size != 0 && r.size % 256 == 0) (r.at_ + 8)] with
    | some x => some x
    | none => regionsFail b (some r.id) rest

/-- The stored size of an uncompressed tile (R36). -/
def tileBytes (rows cols format : Nat) : Nat := roundUp 256 (ceilDiv (rows * cols * formatBits format) 8)

/-- The bound on the stored size of a compressed tile (R36). -/
def tileBound (rows cols format : Nat) : Nat :=
  roundUp 256 (ceilDiv (rows * cols * formatBits format) 8 + 16 * ceilDiv (rows * cols) 256)

/-- The failure of one tile descriptor (R36, 03 R60), with the tiles before it. DEDUCED (log entry 19). REGION_ID counts among the fields
of the condition that TIER is its region's. DESIGN CHOICE (log entry 69). -/
def tileFail (b : Bytes) (regions : List Region) (ids : List Nat) (before : List TileDesc) (t : TileDesc) : Option Nat :=
  let o := t.at_
  match firstFail [
    require (t.id != 0xFFFFFFFF && (match before.getLast? with | none => true | some p => p.id < t.id)) o,
    reserved b (o + 4) 4,
    require (!(bit (u8At b (o + 8)) 0)) (o + 8),
    require (t.placement != 3) (o + 8),
    reserved b (o + 9) 1] with
  | some x => some x
  | none =>
    match regions.find? (·.id == t.region) with
    | none => some (o + 10)
    | some r => firstFail [
        requireAt (t.tier == r.tier) [o + 10, r.at_ + 1],
        require (formatBits t.format != 0 && (!t.compressed || (1 ≤ t.format && t.format ≤ 5))) (o + 11),
        require (1 ≤ t.rows && t.rows ≤ 4096) (o + 12),
        require (1 ≤ t.cols && t.cols ≤ 8192) (o + 14),
        require (t.regionOffset % 256 == 0) (o + 16),
        require (if t.compressed then t.bytes ≤ tileBound t.rows t.cols t.format else t.bytes == tileBytes t.rows t.cols t.format) (o + 24),
        requireAt (t.regionOffset + t.bytes ≤ r.size) [o + 24, r.at_ + 8],
        require (!(before.any fun e => e.region == t.region && overlaps e.regionOffset e.bytes t.regionOffset t.bytes)) (o + 24),
        require (t.scaleTile == 0xFFFFFFFF || ids.contains t.scaleTile) (o + 28)]

/-- Check 8 of R39 over the tiles in ascending offset; `before` in that order. -/
def tilesFail (b : Bytes) (regions : List Region) (ids : List Nat) (before : List TileDesc) : List TileDesc → Option Nat
  | [] => none
  | t :: rest =>
    match tileFail b regions ids before t with
    | some x => some x
    | none => tilesFail b regions ids (before ++ [t]) rest

/-! ## Check 9: STAGES -/

/-- The stages of a plan kind in their order, and whether each is optional (07 R137, 10 R226). -/
def stageTemplate (kind : Nat) : List (Nat × Bool) :=
  if kind = 1 then [(0x01, false), (0x02, false), (0x03, false), (0x04, true), (0x05, false), (0x06, true), (0x07, false)]
  else if kind = 3 then [(0x10, false), (0x11, false), (0x12, false)]
  else [(0x20, true), (0x21, false), (0x22, false), (0x23, false), (0x24, false), (0x25, false), (0x26, true), (0x30, true),
    (0x31, true), (0x32, true), (0x33, true), (0x34, true), (0x35, true), (0x36, true)]

/-- The rest of the template after a stage code, where it may come next. -/
def stageNext (code : Nat) : List (Nat × Bool) → Option (List (Nat × Bool))
  | [] => none
  | (c, opt) :: r => if c = code then some r else if opt then stageNext code r else none

/-- Check 9 of R39 from item `i` of `n`, with the template that is left. DESIGN CHOICE (log entry 63). -/
def stagesFail (b : Bytes) (s : Section) : Nat → Nat → List (Nat × Bool) → Option Nat
  | 0, _, rest =>
    if rest.any (fun x => !x.2) then some (if s.count = 0 then s.base + 12 else s.off + 8 * (s.count - 1) + 1) else none
  | n + 1, i, rest =>
    let o := s.off + 8 * i
    match firstFail [reserved b o 1, require ((stageNext (u8At b (o + 1)) rest).isSome) (o + 1), reserved b (o + 2) 6] with
    | some x => some x
    | none => stagesFail b s n (i + 1) ((stageNext (u8At b (o + 1)) rest).getD [])

/-! ## Check 10: MICRO_OPS -/

/-- Use of an operand field by an opcode: unused, or a tile of one of these tiers. -/
inductive Use
  | unused
  | tiers (l : List Nat)
  deriving DecidableEq, Repr

/-- One row of R38. -/
structure UopRow where
  op : Nat
  kinds : List Nat
  a : Use
  b : Use
  d : Use
  deriving DecidableEq, Repr

/-- The opcodes of R38. -/
def uopTable : List UopRow := [
  ⟨0x01, [1, 2, 3], .tiers [0, 1, 2, 3], .unused, .tiers [0, 1, 2, 3]⟩,
  ⟨0x02, [1, 2, 3], .tiers [0, 1, 2, 3], .unused, .tiers [0, 1, 2, 3]⟩,
  ⟨0x03, [1, 2, 3], .tiers [0], .tiers [0], .tiers [0]⟩,
  ⟨0x04, [1, 3], .tiers [0], .tiers [0], .tiers [0]⟩,
  ⟨0x05, [1], .tiers [0], .tiers [0], .tiers [0]⟩,
  ⟨0x06, [1], .tiers [2], .tiers [0], .tiers [0]⟩,
  ⟨0x07, [1], .tiers [1], .tiers [0], .tiers [0]⟩,
  ⟨0x08, [1, 2, 3], .tiers [0], .unused, .tiers [0]⟩,
  ⟨0x09, [2], .tiers [0], .unused, .tiers [0]⟩,
  ⟨0x0A, [2], .tiers [2], .tiers [0], .tiers [0]⟩,
  ⟨0x0B, [2, 3], .tiers [0], .unused, .tiers [1]⟩,
  ⟨0x0C, [2], .tiers [0], .tiers [0], .tiers [0]⟩,
  ⟨0x0D, [1, 2], .tiers [0, 1], .unused, .unused⟩,
  ⟨0x0E, [1, 2], .unused, .unused, .tiers [0, 1]⟩,
  ⟨0x0F, [1, 2, 3], .unused, .unused, .unused⟩]

/-- A micro-operation (02 R37). -/
structure Uop where
  at_ : Nat
  op : Nat
  stage : Nat
  acc : Bool
  ta : Bool
  tb : Bool
  a : Nat
  b : Nat
  d : Nat
  deriving DecidableEq, Repr

/-- The micro-operation at an offset. -/
def uopAt (b : Bytes) (o : Nat) : Uop where
  at_ := o
  op := u8At b o
  stage := u8At b (o + 1)
  acc := bit (u8At b (o + 2)) 0
  ta := bit (u8At b (o + 2)) 1
  tb := bit (u8At b (o + 2)) 2
  a := u32At b (o + 4)
  b := u32At b (o + 8)
  d := u32At b (o + 12)

/-- The micro-operations of a plan. -/
def uopsOf (b : Bytes) : List Uop :=
  let s := sectionOf b 3
  (List.range s.count).map fun i => uopAt b (s.off + 16 * i)

/-- What the stream has done so far. -/
structure Stream where
  written : List (Nat × Nat × Bool)    -- tiles written, the opcode that wrote each last, and whether it read a tile in HBM
  reads : List (Nat × Nat × Nat)       -- tile, stage and offset of the field that reads it
  stage : Nat                          -- STAGE of the last micro-operation
  deriving DecidableEq, Repr

/-- An entry tile (08 R168, 10 R227). -/
def entryTile (t : TileDesc) : Bool := t.format == 17 && t.c == 16

/-- Rows and columns of a source as it enters (02 R37). -/
def effShape (t : TileDesc) (transposed : Bool) : Nat × Nat := if transposed then (t.c, t.r) else (t.r, t.c)

/-- Offsets of the fields that give those rows and columns. -/
def effAt (t : TileDesc) (transposed : Bool) : Nat × Nat := if transposed then (t.cAt, t.rAt) else (t.rAt, t.cAt)

/-- Formats that a MATMUL takes (04 R71). -/
def operandFormat (f : Nat) : Bool := [1, 2, 3, 4, 5, 6, 10, 11].contains f

/-- Where INT64 may stand (05 R100): a tile of the shared store that is the destination of REDUCE_SHARED, the source of STORE_TILE or the
destination of LOAD_TILE. -/
def int64Allowed (op field tier : Nat) : Bool :=
  tier == 1 && ((op == 0x0B && field == 12) || (op == 0x02 && field == 4) || (op == 0x01 && field == 12))

/-- One operand field at offset `f` of the item: its tile exists, lies in a tier of R38 and, as a source in cluster memory or
the shared store, was written before; the SRC_A of TREE_WALK is resident data (R38). -/
def operandFail (tiles : List TileDesc) (st : Stream) (u : Uop) (use : Use) (v f : Nat) : Option Nat :=
  let o := u.at_ + f
  match use with
  | .unused => require (v == 0xFFFFFFFF) o
  | .tiers l =>
    match tiles.find? (·.id == v) with
    | none => some o
    | some t => firstFail [
        requireAt (l.contains t.tier) [o, t.at_ + 8],
        requireAt (f == 12 || 2 ≤ t.tier || (u.op == 0x07 && f == 4) || st.written.any (·.1 == v)) [o, t.at_ + 8],
        requireAt (t.format != 18 || int64Allowed u.op f t.tier) [o, t.at_ + 8, t.at_ + 11]]

/-- The shape rules of MATMUL at SRC_A, SRC_B and DST (04 R71, 05 R89 R91 R93, 10 R227): the products of one shape, of an entry form, whose
row `r` goes to tile DST_TILE + r, and of a pair form. -/
def matmulFail (tiles : List TileDesc) (st : Stream) (u : Uop) (a b d : TileDesc) : Option Nat :=
  let pair := entryTile a && entryTile b
  let (ar, ac) := effShape a u.ta
  let (br, bc) := effShape b u.tb
  let (arAt, acAt) := effAt a u.ta
  let (brAt, bcAt) := effAt b u.tb
  firstFail [
    requireAt (operandFormat a.format || a.format == 17) [u.at_ + 4, a.at_ + 11],
    requireAt (operandFormat a.format || entryTile a) [u.at_ + 4, a.at_ + 11, a.cAt],
    requireAt (if a.format == 17 then b.format == 17 else operandFormat b.format) [u.at_ + 8, a.at_ + 11, b.at_ + 11],
    requireAt (a.format != 17 || pair) [u.at_ + 8, a.cAt, b.at_ + 11, b.cAt],
    requireAt (pair || ac == br) [u.at_ + 8, acAt, brAt],
    requireAt (!u.acc || d.format == 1 || d.format == 9) [u.at_ + 12, d.at_ + 11],
    requireAt (d.format != 9 || (a.format == 6 && b.format == 6 && a.scaleTile == 0xFFFFFFFF && b.scaleTile == 0xFFFFFFFF))
      [u.at_ + 12, a.at_ + 28, b.at_ + 28, d.at_ + 11],
    (if pair then requireAt (entryTile d && d.r == a.r * b.r && d.r ≤ 4096) [u.at_ + 12, d.at_ + 11, d.cAt, d.rAt, a.rAt, b.rAt]
     else if entryTile d then firstFail [
       require (st.written.any fun w => w.1 == u.b && w.2.1 == 0x01 && w.2.2) (u.at_ + 8),
       firstFail ((List.range ar).map fun r => match tiles.find? (·.id == u.d + r) with
         | none => requireAt false [u.at_ + 12, arAt]
         | some t => requireAt (entryTile t && t.r == bc) [u.at_ + 12, arAt, bcAt, t.at_ + 11, t.rAt, t.cAt])]
     else requireAt (d.r == ar && d.c == bc) [u.at_ + 12, arAt, bcAt, d.rAt, d.cAt])]

/-- The forms that 10 R227 gives the MATMUL and ROWSTAT of a forward stage, named by its STAGE_CODE. DEDUCED (log entry 69). -/
def stageFormFail (code : Nat) (st : Stream) (u : Uop) (a b d : Option TileDesc) : Option Nat :=
  match u.op, code, a, b, d with
  | 0x03, 0x21, some a, some b, some d =>
    requireAt (entryTile d && !(entryTile a && entryTile b)) [u.at_ + 12, a.cAt, b.cAt, d.at_ + 11, d.cAt]
  | 0x03, 0x23, some a, some b, _ => requireAt (entryTile a && entryTile b) [u.at_ + 8, a.at_ + 11, a.cAt, b.at_ + 11, b.cAt]
  | 0x03, 0x24, _, _, some d => firstFail [
      require (st.written.any fun w => w.1 == u.b && w.2.1 == 0x0A) (u.at_ + 8),
      requireAt (d.format == 1) [u.at_ + 12, d.at_ + 11]]
  | 0x09, 0x23, some a, _, _ => requireAt (entryTile a) [u.at_ + 4, a.at_ + 11, a.cAt]
  | _, _, _, _, _ => none

/-- The shape rule of one micro-operation whose operands exist. LOAD_TILE and STORE_TILE have none but the order of the tiers.
DESIGN CHOICE (log entry 69). -/
def shapeFail (tiles : List TileDesc) (st : Stream) (u : Uop) : Option Nat :=
  let find := fun v => tiles.find? (·.id == v)
  match u.op with
  | 0x01 => match find u.a, find u.d with
    | some a, some d => requireAt (d.tier < a.tier) [u.at_ + 12, a.at_ + 8, d.at_ + 8]
    | _, _ => none
  | 0x02 => match find u.a, find u.d with
    | some a, some d => requireAt (a.tier < d.tier) [u.at_ + 12, a.at_ + 8, d.at_ + 8]
    | _, _ => none
  | 0x03 => match find u.a, find u.b, find u.d with
    | some a, some b, some d => matmulFail tiles st u a b d
    | _, _, _ => none
  | 0x08 => match find u.a, find u.d with
    | some a, some d => firstFail [
        requireAt (entryTile a) [u.at_ + 4, a.at_ + 11, a.cAt],
        requireAt (entryTile d) [u.at_ + 12, d.at_ + 11, d.cAt]]
    | _, _ => none
  | 0x09 => match find u.a, find u.d with
    | some a, some d => firstFail [
        requireAt (a.format == 1 || entryTile a) [u.at_ + 4, a.at_ + 11, a.cAt],
        requireAt (d.format == 1 && (if a.format == 1 then d.r == a.r && d.c == a.c + 2 else d.r == 1 && d.c == a.r + 2))
          [u.at_ + 12, a.rAt, a.cAt, d.at_ + 11, d.rAt, d.cAt]]
    | _, _ => none
  | 0x0A => match find u.a, find u.b, find u.d with
    | some a, some b, some d => firstFail [
        requireAt (entryTile b) [u.at_ + 8, b.at_ + 11, b.cAt],
        requireAt (d.r == b.r && d.c == a.c && d.format == a.format)
          [u.at_ + 12, a.at_ + 11, a.cAt, b.rAt, d.at_ + 11, d.rAt, d.cAt]]
    | _, _, _ => none
  | 0x0B => match find u.a, find u.d with
    | some a, some d => firstFail [
        requireAt ((d.format == 1 && [1, 2, 4, 5].contains a.format) || (d.format == 18 && a.format == 9)) [u.at_ + 12, a.at_ + 11, d.at_ + 11],
        requireAt (d.r == a.r && d.c == a.c) [u.at_ + 12, a.rAt, a.cAt, d.rAt, d.cAt]]
    | _, _ => none
  | _ => none

/-- The failure of one micro-operation (R37, R38, 08 R168). -/
def uopFail (b : Bytes) (kind stages : Nat) (tiles : List TileDesc) (st : Stream) (u : Uop) : Option Nat :=
  match uopTable.find? (·.op == u.op) with
  | none => some u.at_
  | some row => firstFail [
      require (row.kinds.contains kind) u.at_,
      require (st.stage ≤ u.stage && u.stage < stages) (u.at_ + 1),
      require (!(u.op == 0x08 && (u.ta || u.tb))) (u.at_ + 2),
      require (u8At b (u.at_ + 2) < 8) (u.at_ + 2),
      reserved b (u.at_ + 3) 1,
      operandFail tiles st u row.a u.a 4,
      operandFail tiles st u row.b u.b 8,
      operandFail tiles st u row.d u.d 12,
      shapeFail tiles st u,
      (if kind = 2 then
        stageFormFail ((stagesOf b).getD u.stage 0) st u (tiles.find? (·.id == u.a)) (tiles.find? (·.id == u.b)) (tiles.find? (·.id == u.d))
       else none)]

/-- The stream after a micro-operation. An entry-form MATMUL writes one tile for each of its rows (10 R227). -/
def streamAfter (tiles : List TileDesc) (st : Stream) (u : Uop) : Stream :=
  let find := fun v => tiles.find? (·.id == v)
  let reads := (if u.a = 0xFFFFFFFF then [] else [(u.a, u.stage, u.at_ + 4)]) ++ (if u.b = 0xFFFFFFFF then [] else [(u.b, u.stage, u.at_ + 8)]) ++
    (if u.acc && u.d ≠ 0xFFFFFFFF then [(u.d, u.stage, u.at_ + 12)] else [])
  let dst := match find u.a, find u.b, find u.d with
    | some a, some b, some d => if u.op = 0x03 ∧ entryTile d ∧ ¬(entryTile a ∧ entryTile b) then (List.range (effShape a u.ta).1).map (u.d + ·) else [u.d]
    | _, _, some _ => [u.d]
    | _, _, none => []
  let fromHbm := match find u.a with | some a => a.tier == 2 | none => false
  { written := dst.map (fun v => (v, u.op, fromHbm)) ++ st.written.filter (fun w => !dst.contains w.1)
    reads := st.reads ++ reads
    stage := u.stage }

/-- The micro-operations in ascending offset: the first failure, or the stream at the end. -/
def uopsFail (b : Bytes) (kind stages : Nat) (tiles : List TileDesc) (st : Stream) : List Uop → Option Nat × Stream
  | [] => (none, st)
  | u :: rest =>
    match uopFail b kind stages tiles st u with
    | some x => (some x, st)
    | none => uopsFail b kind stages tiles (streamAfter tiles st u) rest

/-! ### MOVEMENT_SCHEDULE (13 R307-R309) -/

/-- Kinds of plan, tier of SRC, tier of DST, and whether the item names rows (13 R308). -/
def moveRule (kind : Nat) : Option (List Nat × Nat × Nat × Bool) :=
  match kind with
  | 1 => some ([1, 2, 3], 3, 2, false)
  | 2 => some ([1, 2, 3], 2, 3, false)
  | 3 => some ([2], 3, 2, true)
  | 4 => some ([2], 2, 3, true)
  | _ => none

/-- The failure of the movement item at an offset (13 R309); `last` is the ISSUE_STAGE before it. -/
def moveFail (b : Bytes) (kind stages : Nat) (tiles : List TileDesc) (st : Stream) (last o : Nat) : Option Nat :=
  let find := fun v => tiles.find? (·.id == v)
  let issue := u8At b (o + 2)
  let release := u8At b (o + 3)
  match moveRule (u8At b o) with
  | none => some o
  | some (kinds, srcTier, dstTier, rows) =>
    match firstFail [
      require (kinds.contains kind) o,
      reserved b (o + 1) 1,
      require (last ≤ issue && issue < stages) (o + 2),
      require (release == 0xFF || (issue ≤ release && release < stages)) (o + 3)] with
    | some x => some x
    | none =>
      match find (u32At b (o + 4)) with
      | none => some (o + 4)
      | some s =>
        match find (u32At b (o + 8)) with
        | none => firstFail [requireAt (s.tier == srcTier) [o + 4, s.at_ + 8], some (o + 8)]
        | some d => firstFail [
            requireAt (s.tier == srcTier) [o + 4, s.at_ + 8],
            requireAt (d.tier == dstTier) [o + 8, d.at_ + 8],
            requireAt (rows || (d.format == s.format && d.rows == s.rows && d.cols == s.cols)) [o + 8, s.at_ + 14, d.at_ + 14],
            ((st.reads.find? fun r => r.1 == d.id && (r.2.1 < issue || (release != 0xFF && release < r.2.1))).map fun r => max (o + 8) r.2.2),
            require (if rows then (find (u32At b (o + 12))).isSome else u32At b (o + 12) == 0xFFFFFFFF) (o + 12)]

/-- The movement items from number `i` on. -/
def movesFail (b : Bytes) (kind stages : Nat) (tiles : List TileDesc) (st : Stream) (off : Nat) : Nat → Nat → Nat → Option Nat
  | 0, _, _ => none
  | n + 1, i, last =>
    match moveFail b kind stages tiles st last (off + 16 * i) with
    | some x => some x
    | none => movesFail b kind stages tiles st off n (i + 1) (u8At b (off + 16 * i + 2))

/-! ### CONSTANTS (02 R34) -/

/-- The constant records from `pos` to `stop`: the first failure, or each record's tile and data. -/
def constantsGo (b : Bytes) (tiles : List TileDesc) (stop : Nat) : Nat → Option Nat → Nat → Option Nat × List (Nat × Bytes)
  | 0, _, _ => (none, [])
  | n + 1, prev, pos =>
    if stop ≤ pos then (none, [])
    else
      let id := u32At b pos
      let len := u32At b (pos + 4)
      let size := 16 + roundUp 16 len
      match firstFail [
        require (pos + 16 ≤ stop && pos + size ≤ stop) pos,
        (match tiles.find? (·.id == id) with
          | none => some pos
          | some t => firstFail [
              require (match prev with | none => true | some p => p < id) pos,
              requireAt (t.tier == 2 && !t.compressed) [pos, t.at_ + 8],
              requireAt (len == t.bytes) [pos + 4, t.at_ + 24]]),
        reserved b (pos + 8) 8,
        padding b (pos + 16 + len) (size - 16 - len)] with
      | some x => (some x, [])
      | none =>
        let r := constantsGo b tiles stop n (some id) (pos + size)
        (r.1, (id, slice b (pos + 16) len) :: r.2)

/-- The constant records of a plan. -/
def constantsOf (b : Bytes) : Option Nat × List (Nat × Bytes) :=
  let s := sectionOf b 5
  constantsGo b (tilesOf b) (s.off + s.len) (s.len / 16 + 1) none s.off

/-- The condition that a plan with STASH_WRITE has region 255 in HBM (11 R240). -/
def stashRegionFail (b : Bytes) (regions : List Region) : Option Nat :=
  match (stagesOf b).idxOf? 0x26 with
  | none => none
  | some i => require (regions.any fun r => r.id == 255 && r.tier == 2) ((sectionOf b 4).off + 8 * i + 1)

/-- Check 10 of R39. -/
def check10Fail (b : Bytes) (regions : List Region) (tiles : List TileDesc) : Option Nat :=
  let stages := (sectionOf b 4).count
  match stashRegionFail b regions with
  | some x => some x
  | none =>
    match uopsFail b (planKind b) stages tiles { written := [], reads := [], stage := 0 } (uopsOf b) with
    | (some x, _) => some x
    | (none, st) =>
      let m := sectionOf b 6
      match movesFail b (planKind b) stages tiles st m.off m.count 0 0 with
      | some x => some x
      | none => (constantsOf b).1

/-! ## Check 11: TOTALS, and the whole of checks 1 to 11 -/

/-- The SIZE field at which the running total of a tier first exceeds its limit. -/
def totalsFail (limit : Nat → Option Nat) : List Region → (Nat → Nat) → Option Nat
  | [], _ => none
  | r :: rest, total =>
    let t := total r.tier + r.size
    match limit r.tier with
    | some l => if l < t then some (r.at_ + 8) else totalsFail limit rest (fun k => if k = r.tier then t else total k)
    | none => totalsFail limit rest total

/-- The limits of check 11. -/
def tierLimit (b : Bytes) (tier : Nat) : Option Nat :=
  match tier with
  | 0 => some (12 * 1024 * 1024)
  | 1 => some (u16At b 20 * 8 * 1024 * 1024)
  | 2 => some (planWorkingMib b * 1024 * 1024)
  | _ => none

/-- Checks 1 to 11 of R39: the offset of the first failure. DEDUCED (log entry 20); DESIGN CHOICE (log entry 63). -/
def planFailAt (b : Bytes) : Option Nat :=
  match planHeaderFail b with
  | some x => some x
  | none =>
    match sectionsFail b with
    | some x => some x
    | none =>
      let regions := regionsOf b
      let tiles := tilesOf b
      let st := sectionOf b 4
      firstFail [
        regionsFail b none regions,
        tilesFail b regions (tiles.map (·.id)) [] tiles,
        stagesFail b st st.count 0 (stageTemplate (planKind b)),
        check10Fail b regions tiles,
        totalsFail (tierLimit b) regions (fun _ => 0)]

/-! ## Check 12: BINDING -/

/-- Check 12 of R39 (with 10 R226): `digest` is the target's, `banks` the scratchpad banks of each die, `free` the free HBM in
MiB and `dModel` the D_MODEL of a head. `named` says that the committed descriptor holds the module group that the plan names: a plan names it
through its target alone, at TARGET_DIGEST, and no field of the plan format names a shard. DEDUCED (log entry 20). -/
def bindingFail (b : Bytes) (digest banks free : Nat) (named : Bool) (dModel : Option Nat) : Option Nat :=
  firstFail [
    require (u16At b 20 ≤ banks) 20,
    require (planTargetDigest b == digest && named) 24,
    require (planWorkingMib b + planStashMib b ≤ free) 32,
    (match dModel with
      | none => none
      | some d => require ((stagesOf b).contains 0x20 == (d != 0)) (sectionOf b 4).off)]

end Sys2Proof.Machine
end

