-- ==== Sys2Proof/Machine/Quant.lean ====
section
/-! DEFINITION. Scale codes, scale tiles and their check, dequantisation, activation scales, constant channels, the
asymmetric-distance table and the scaled output (04 R64-R84). A scale tile and its side tensor are byte strings. -/

namespace Sys2Proof.Machine

/-- scale8_value of R64. -/
def scale8Value (s : Nat) : Num := .fin false (8 + s % 8) ((s / 8 : Nat) - 19)

/-- A positive, normal and finite FP32 code. -/
def posNormal32 (c : Nat) : Bool := 0x00800000 ≤ c && c < 0x7F800000
/-- A zero or positive finite FP32 code. -/
def nonNegFinite32 (c : Nat) : Bool := c < 0x7F800000

/-- The fields of a scale tile's header (R66). -/
def stKind (t : Bytes) : Nat := u8At t 5
/-- CODE_FORMAT. -/
def stFormat (t : Bytes) : Nat := u8At t 6
/-- WINDOW. -/
def stWindow (t : Bytes) : Nat := u8At t 7
/-- HISTORY_HEAD. -/
def stHead (t : Bytes) : Nat := u8At t 8
/-- HISTORY_FILL. -/
def stFill (t : Bytes) : Nat := u8At t 9
/-- PRIV_COUNT. -/
def stPriv (t : Bytes) : Nat := u16At t 10
/-- CHANNELS. -/
def stChannels (t : Bytes) : Nat := u32At t 12
/-- CONST_COUNT. -/
def stConst (t : Bytes) : Nat := u32At t 16
/-- PRIV_TILE_ID. -/
def stPrivTile (t : Bytes) : Nat := u32At t 20
/-- TENSOR_SCALE. -/
def stScale (t : Bytes) : Nat := u32At t 24
/-- INIT_AMAX. -/
def stInit (t : Bytes) : Nat := u32At t 28

/-- The channel entry word of channel `c` (R68). -/
def chanEntry (t : Bytes) (c : Nat) : Nat := u32At t (32 + 4 * c)
/-- CONSTANT flag of channel `c`. -/
def chanConst (t : Bytes) (c : Nat) : Bool := bit (chanEntry t c) 8
/-- PRIVILEGED flag of channel `c`. -/
def chanPriv (t : Bytes) (c : Nat) : Bool := bit (chanEntry t c) 9
/-- ZERO_POINT of channel `c`. -/
def chanZero (t : Bytes) (c : Nat) : Int := signedOf 8 (chanEntry t c >>> 24)

/-- Constant channels below `c`: the place of channel `c` in the constant list (R67). -/
def constIndex (t : Bytes) (c : Nat) : Nat := ((List.range c).filter (chanConst t)).length
/-- The BF16 constant of constant channel `c`, widened (R80). -/
def chanConstVal (t : Bytes) (c : Nat) : Num :=
  Fmt.bf16.value (u16At t (32 + 4 * stChannels t + 2 * constIndex t c))
/-- Where the codebook of a CHANNEL tile starts (R67). -/
def codebookOff (t : Bytes) : Nat := 32 + 4 * stChannels t + roundUp 4 (2 * stConst t)
/-- Codebook entry `k` of a CHANNEL tile. -/
def stCodebook (t : Bytes) (k : Nat) : Num := Fmt.bf16.value (u16At t (codebookOff t + 2 * k))

/-- The side-tensor scale of a privileged channel (R69). -/
def sideScale (side : Bytes) (n c : Nat) : Num :=
  match (List.range n).find? fun i => u32At side (8 * i) == c with
  | some i => val32 (u32At side (8 * i + 4))
  | none => .fin false 1 0

/-- The effective scale of channel `c` (R65). -/
def effScale (t side : Bytes) (c : Nat) : Num :=
  if chanPriv t c then sideScale side (stPriv t) c
  else r32 (Num.mul (val32 (stScale t)) (scale8Value (chanEntry t c % 256)))

/-- What a head's own tile must agree with (R70). -/
structure TileWant where
  kind : Nat
  format : Nat
  channels : Nat
  window : Option Nat
  privCode : Option Nat      -- the TENSOR code that PRIV_TILE_ID names when PRIV_COUNT is above 0
  sideWritten : Bool
  deriving DecidableEq, Repr

/-- The first offset of a list of (fails, offset) conditions in order. -/
def firstBad : List (Bool × Nat) → Option Nat
  | [] => none
  | (b, o) :: r => if b then some o else firstBad r

/-- Check of the header of a scale tile (R66, R70): the offset of the first failing field. -/
def scaleHeaderFail (t : Bytes) (w : Option TileWant) : Option Nat :=
  let k := stKind t
  let f := stFormat t
  let p := stPriv t
  let ch := stChannels t
  let differs (g : TileWant → Bool) : Bool := match w with | none => false | some x => g x
  firstBad [
    (u32At t 0 ≠ 0x43534C41, 0),
    (!(1 ≤ k && k ≤ 3) || differs (fun x => x.kind ≠ k), 5),
    (u8At t 4 ≠ 0, 4),
    (!((k == 1 && [2, 4, 5, 6, 10, 11].contains f) || (k == 2 && [4, 5, 6].contains f) || (k == 3 && f == 4))
      || differs (fun x => x.format ≠ f), 6),
    ((if k == 2 then !(4 ≤ stWindow t && stWindow t ≤ 32) else stWindow t ≠ 0)
      || differs (fun x => match x.window with | some v => v ≠ stWindow t | none => false), 7),
    ((if k == 2 then 31 < stHead t else stHead t ≠ 0), 8),
    ((if k == 2 then 32 < stFill t else stFill t ≠ 0), 9),
    ((if k == 1 then 256 < p else p ≠ 0), 10),
    (ch == 0 || ch < p || (k == 1 && 1048576 < ch) || (k == 2 && 16384 < ch) || (k == 3 && 4096 < ch)
      || differs (fun x => x.channels ≠ ch), 12),
    ((if k == 1 then ch < stConst t else stConst t ≠ 0), 16),
    ((if p == 0 then stPrivTile t ≠ 0xFFFFFFFF
      else match w with
        | some x => x.privCode ≠ some (stPrivTile t) || !x.sideWritten
        | none => stPrivTile t == 0xFFFFFFFF), 20),
    ((if k == 1 then !posNormal32 (stScale t)
      else if k == 2 then !(stScale t == 0 || posNormal32 (stScale t)) else stScale t ≠ 0), 24),
    ((if k == 2 then !nonNegFinite32 (stInit t) else stInit t ≠ 0), 28)]

/-- Check of one channel entry (R68): the offset of its first failing field. `opt` tells that the plan updates the
tensor, so that a CONSTANT flag fails. -/
def chanFail (t : Bytes) (opt : Bool) (c : Nat) : Option Nat :=
  let w := chanEntry t c
  let o := 32 + 4 * c
  let special := bit w 8 || bit w 9
  firstBad [
    ((special && w % 256 ≠ 0) || (opt && bit w 8) || bits w 23 10 ≠ 0, o + 1),
    (bits w 31 24 ≠ 0 && (special || stFormat t ≠ 6), o + 3)]

/-- Check of the body of a CHANNEL tile (R67, R70): entries, counts, constants, codebook, padding. -/
def channelBodyFail (t : Bytes) (opt : Bool) : Option Nat :=
  let n := stChannels t
  let cb := if stFormat t == 10 then 16 else if stFormat t == 11 then 256 else 0
  let consts := 32 + 4 * n
  let endc := codebookOff t
  ((List.range n).findSome? (chanFail t opt)).or
  (firstBad [
    (((List.range n).filter (chanConst t)).length ≠ stConst t
      || ((List.range n).filter (chanPriv t)).length ≠ stPriv t, 32 + 4 * (n - 1) + 1)]
  |>.or ((List.range (stConst t)).findSome? fun i =>
      if Fmt.bf16.nonFinite (u16At t (consts + 2 * i)) then some (consts + 2 * i) else none)
  |>.or (firstNonZero t (consts + 2 * stConst t) (endc - (consts + 2 * stConst t)))
  |>.or ((List.range cb).findSome? fun i =>
      if Fmt.bf16.nonFinite (u16At t (endc + 2 * i)) then some (endc + 2 * i) else none)
  |>.or (firstNonZero t (endc + 2 * cb) (t.length - (endc + 2 * cb))))

/-- Check of the side tensor (R69): the offset of the first failing field. -/
def sideFail (t side : Bytes) : Option Nat :=
  let n := stPriv t
  ((List.range n).findSome? fun i =>
    let c := u32At side (8 * i)
    firstBad [
      (!(c < stChannels t) || !chanPriv t c || chanConst t c || (0 < i && c ≤ u32At side (8 * (i - 1))), 8 * i),
      (!posNormal32 (u32At side (8 * i + 4)), 8 * i + 4)])
  |>.or (firstNonZero side (8 * n) (side.length - 8 * n))

/-- Bytes that a tile's counts fix: its header and body (R67). -/
def scaleTileLen (t : Bytes) : Nat :=
  if stKind t = 1 then codebookOff t + (if stFormat t = 10 then 32 else if stFormat t = 11 then 512 else 0)
  else if stKind t = 2 then 160 + 4 * stChannels t
  else 32 + 2 * stChannels t

/-- Check of the body of a RUNNING or ROW tile, of which the host writes only the padding after it. -/
def ownBodyFail (t : Bytes) : Option Nat := firstNonZero t (scaleTileLen t) (t.length - scaleTileLen t)

/-- The check of R70: `none` where the tile passes, else whether the failing field lies in the side tensor, and its offset. A tile that is
shorter than its counts fix fails at the last of them, CONST_COUNT of a CHANNEL tile and CHANNELS of another. The side tensor is read where
PRIV_COUNT is not 0; `none` stands for one whose bytes the plan does not hold. DESIGN CHOICE (log entry 36). -/
def scaleTileFail (t : Bytes) (side : Option Bytes) (w : Option TileWant) (opt : Bool) : Option (Bool × Nat) :=
  match scaleHeaderFail t w with
  | some o => some (false, o)
  | none =>
    if t.length < scaleTileLen t then some (false, if stKind t == 1 then 16 else 12)
    else match (if stKind t == 1 then channelBodyFail t opt else ownBodyFail t) with
      | some o => some (false, o)
      | none => if stPriv t = 0 then none else (side.bind (sideFail t)).map fun o => (true, o)

/-- The real value of element code `code` of channel `c` of a CHANNEL-scaled tensor of format `f` (R73, R80); an empty
tile is an unscaled tensor. -/
def dequant (f : Fmt) (t side : Bytes) (c code : Nat) : Num :=
  if t.isEmpty then f.value code
  else if chanConst t c then chanConstVal t c
  else
    let v := match f with
      | .cb4 | .cb8 => stCodebook t code
      | .int8 => Num.ofInt (signedOf 8 code - chanZero t c)
      | _ => f.value code
    Num.mul (effScale t side c) v

/-- The multiplier operand on a reduction-index path: the dequantised value narrowed to BF16 (R71), a constant channel
entering as its constant. -/
def dequantBf16 (f : Fmt) (t side : Bytes) (c code : Nat) : Num := narrowVal .bf16 (dequant f t side c code)

/-- The code as it enters the multiplier on an output-channel path (R71). DEDUCED (log entry 19). -/
def outOperand (f : Fmt) (t : Bytes) (code : Nat) : Num :=
  match f with
  | .cb4 | .cb8 => stCodebook t code
  | _ => f.value code

/-- scaled_output of R74 before the destination is narrowed: `acc` the raw accumulator, `ones` the product with a column
of ones, `corr` the zero-point correction, `sb` the column's scale or constant, `sa` the row's scale. DEDUCED (log entry 19). -/
def scaledOutput (acc ones : Num) (isConst : Bool) (corr : Num) (sb sa : Num) : Num :=
  let a := if isConst then ones else Num.sub acc corr
  r32 (Num.mul (r32 (Num.mul (r32 a) sb)) sa)

/-- qmax of R76. -/
def qmax (f : Fmt) : Nat := match f with | .e4m3 => 448 | .e5m2 => 57344 | _ => 127

/-- Ring slot `i` of a RUNNING tile (R67). -/
def stRing (t : Bytes) (i : Nat) : Nat := u32At t (32 + 4 * i)

/-- act_scale of R77, as an FP32 code. DEDUCED (log entry 19). -/
def actScale (t : Bytes) : Nat :=
  let f := (Fmt.ofCode (stFormat t)).getD .e4m3
  let n := min (stFill t) (stWindow t)
  let a := if stFill t == 0 then stInit t
    else maxOf ((List.range n).map fun i => stRing t ((stHead t + 32 - (i + 1)) % 32))
  if a == 0 then 0x00800000
  else code32 (Num.div (Num.mul (val32 a) (.fin false 9 0)) (.fin false (8 * qmax f) 0))

/-- Replacing `n` bytes at offset `off`. -/
def putBytes (b : Bytes) (off : Nat) (v : Bytes) : Bytes := b.take off ++ v ++ b.drop (off + v.length)

/-- The tile when a step closes with the step's maxima per channel as FP32 codes; a step to which no command contributed
leaves it unchanged (R78). -/
def closeRunning (t : Bytes) (chanMax : List Nat) : Bytes :=
  if chanMax.isEmpty then t
  else
    let t1 := putBytes t (32 + 4 * stHead t) (toLE 4 (maxOf chanMax))
    let t2 := putBytes t1 160 ((chanMax.map (toLE 4)).flatten)
    putBytes (putBytes t2 8 (toLE 1 ((stHead t + 1) % 32))) 9 (toLE 1 (min (stFill t + 1) 32))

/-- The magnitude that an element contributes to a maximum, as an FP32 code (R78, R79). -/
def amaxOf (x : Num) : Nat := if x.isFin then code32 x.abs else 0x7F7FFFFF

/-- row_scale of R79, as a BF16 code. -/
def rowScale (row : List Num) : Nat :=
  let a := maxOf (row.map amaxOf)
  if a == 0 then 0x0080 else narrowCode .bf16 (Num.div (val32 a) (.fin false 448 0))

/-- Quantising a row with a scale (R76): the codes and the flag SATURATED. -/
def quantRow (f : Fmt) (s : Num) (row : List Num) : List Nat × Bool :=
  let q := row.map fun x => narrow f (Num.div x s)
  (q.map (·.1), q.any (·.2))

/-- Distance that a CB4 or CB8 code of the nearest codebook entry has; ties to the lower index (R81). -/
def nearestCode (t : Bytes) (n : Nat) (x : Num) : Nat :=
  (List.range n).foldl (fun best k =>
    if Num.lt (Num.sub (stCodebook t k) x).abs (Num.sub (stCodebook t best) x).abs then k else best) 0

/-- Narrowing one master element of column `c` into the table's format (R81): the code and whether it saturated. -/
def storeElem (f : Fmt) (t side : Bytes) (c : Nat) (x : Num) : Nat × Bool :=
  let v := if t.isEmpty then x else Num.div x (effScale t side c)
  match f with
  | .cb4 => (nearestCode t 16 v, false)
  | .cb8 => (nearestCode t 256 v, false)
  | .int8 => narrow .int8 (Num.add (.ofInt (chanZero t c)) (.ofInt (signedOf 8 (narrowCode .int8 v))))
  | _ => narrow f v

/-- adc_offset of R82. -/
def adcOffset (lo : List Num) : Num := chunkedTree add32 add32 lo

/-- The asymmetric-distance table of R82 from the distances `d[j][c]`: entries, delta and offset. -/
def adcTable (d : List (List Num)) : List (List Nat) × Num × Num :=
  let lo := d.map fun r => foldFirst Num.min r
  let span := List.zipWith (fun r l => r32 (Num.sub (foldFirst Num.max r) l)) d lo
  let big := foldFirst Num.max span
  let total := span.foldl Num.add .zero
  -- 255 * 65 024 is the common denominator of the two quotients
  let delta0 := r32 (Num.div (Num.max (Num.mul big (.fin false 65024 0)) (Num.mul total (.fin false 255 0))) (.fin false (255 * 65024) 0))
  let delta := if delta0.isZero then .fin false 1 (-126) else delta0
  (List.zipWith (fun r l => r.map fun x => narrowCode .uint8 (Num.div (Num.sub x l) delta)) d lo, delta, adcOffset lo)

/-- adc_score of R82, as a value. -/
def adcScore (s : Nat) (delta offset : Num) : Num := r32 (Num.add offset (r32 (Num.mul delta (.fin false s 0))))

end Sys2Proof.Machine
end

