-- ==== Sys2Proof/Machine/Schema.lean ====
section
/-! DEFINITION. Collection schemas, attribute records, full vectors and insert records (03 R46-R54, 15 R359). -/

namespace Sys2Proof.Machine

namespace Sch

/-- DISTANCE: 1 HAMMING, 2 INNER_PRODUCT, 3 SQUARED_L2 (R51). -/
def distance (b : Bytes) : Nat := u8At b 27
/-- FULL_FORMAT code, 0 for none. -/
def fullFormat (b : Bytes) : Nat := u8At b 28
/-- PIN_FULL_IN_HBM. -/
def pinFull (b : Bytes) : Bool := bit (u8At b 25) 0
/-- PQ_BITS. -/
def pqBits (b : Bytes) : Nat := u8At b 29
/-- ATTR_COUNT. -/
def attrCount (b : Bytes) : Nat := u8At b 30
/-- DEPTH. -/
def depth (b : Bytes) : Nat := u8At b 31
/-- FANOUT. -/
def fanout (b : Bytes) : Nat := u16At b 32
/-- CODE_WIDTH. -/
def codeWidth (b : Bytes) : Nat := u16At b 34
/-- PQ_M. -/
def pqM (b : Bytes) : Nat := u16At b 36
/-- DIMENSION. -/
def dim (b : Bytes) : Nat := u16At b 38
/-- FULL_TENSOR_SCALE, as an FP32 code. -/
def scale (b : Bytes) : Nat := u32At b 48
/-- LEAF_MIN. -/
def leafMin (b : Bytes) : Nat := u32At b 52
/-- LEAF_MAX. -/
def leafMax (b : Bytes) : Nat := u32At b 56
/-- FIELD_TYPE of attribute field `i` (R52). -/
def fieldType (b : Bytes) (i : Nat) : Nat := u8At b (65 + 16 * i)
/-- The element format of the full vectors. -/
def format (b : Bytes) : Fmt := (Fmt.ofCode (fullFormat b)).getD .fp32
/-- Entries of the schema's codebook (R51). -/
def codebookCount (b : Bytes) : Nat := if fullFormat b = 0x0A then 16 else if fullFormat b = 0x0B then 256 else 0
/-- Where the schema's codebook starts. -/
def codebookAt (b : Bytes) : Nat := 64 + 16 * attrCount b
/-- Entry `k` of the schema's codebook. -/
def codebook (b : Bytes) (k : Nat) : Num := Fmt.bf16.value (u16At b (codebookAt b + 2 * k))
/-- The length that ATTR_COUNT and FULL_FORMAT fix (R51). -/
def fixedLength (b : Bytes) : Nat := 64 + 16 * attrCount b + 2 * codebookCount b
/-- K of the PQ codes: 16 or 256. -/
def pqK (b : Bytes) : Nat := if pqBits b = 4 then 16 else 256
/-- Bytes of a PQ code (R47). -/
def pqBytes (b : Bytes) : Nat := if pqBits b = 0 then 0 else pqCodeBytes (pqBits b) (pqM b)
/-- Elements of a subspace, or bits for HAMMING (R47). -/
def subSize (b : Bytes) : Nat := if distance b = 1 then codeWidth b / pqM b else dim b / pqM b
/-- Bytes of the PQ codebook (R48). -/
def pqBookBytes (b : Bytes) : Nat := if pqBits b = 0 then 0 else if distance b = 1 then pqM b * pqK b * subSize b / 8 else 2 * pqM b * pqK b * subSize b
/-- Bytes of a centroid (06 R107). -/
def centroidBytes (b : Bytes) : Nat := if distance b = 1 then codeWidth b / 8 else 2 * dim b
/-- Bytes of a binary code. -/
def codeBytes (b : Bytes) : Nat := codeWidth b / 8

end Sch

/-- Size of an attribute field (R50). -/
def fieldSize (type : Nat) : Nat := match type with | 1 => 1 | 2 => 2 | 3 => 4 | 4 => 8 | 5 => 4 | 6 => 8 | 7 => 4 | 8 => 8 | _ => 1

/-- Offsets of the attribute fields, from `pos` on, and the end of the last (R50). -/
def fieldOffsetsGo (b : Bytes) : Nat → Nat → Nat → List Nat × Nat
  | 0, _, pos => ([], pos)
  | n + 1, i, pos =>
    let size := fieldSize (Sch.fieldType b i)
    let o := roundUp size pos
    let r := fieldOffsetsGo b n (i + 1) (o + size)
    (o :: r.1, r.2)

/-- Offsets of the attribute fields in their record. -/
def fieldOffsets (b : Bytes) : List Nat := (fieldOffsetsGo b (Sch.attrCount b) 0 0).1

/-- Bytes of an attribute record (R50). -/
def attrBytes (b : Bytes) : Nat := roundUp 8 (fieldOffsetsGo b (Sch.attrCount b) 0 0).2

/-- Bytes of a full-vector record (R49); 0 without full vectors. -/
def fullBytes (b : Bytes) : Nat :=
  if Sch.fullFormat b = 0 then 0 else roundUp 16 (elemBytes (Sch.format b) (Sch.dim b) + (if Sch.fullFormat b = 6 then 1 else 0))

/-- Bytes of an insert record (15 R359). -/
def recordSize (b : Bytes) : Nat := roundUp 16 (8 + Sch.codeBytes b + attrBytes b + fullBytes b)

/-! ## The check of a schema (R53) -/

/-- The PQ limits of R47 that end at PQ_M. -/
def pqShape (b : Bytes) : Bool :=
  let m := Sch.pqM b
  if Sch.pqBits b = 0 then m == 0
  else if Sch.distance b = 1 then m != 0 && Sch.codeWidth b % m == 0 && [8, 16, 32, 64, 128].contains (Sch.codeWidth b / m)
  else if Sch.pqBits b = 4 then 8 ≤ m && m ≤ 512 && m % 8 == 0 else 4 ≤ m && m ≤ 512 && m % 4 == 0

/-- The failure of field descriptor `i` (R52). -/
def descriptorFieldFail (b : Bytes) (i : Nat) : Option Nat :=
  let o := 64 + 16 * i
  firstFail [
    require (u8At b o == i) o,
    require (1 ≤ u8At b (o + 1) && u8At b (o + 1) ≤ 8) (o + 1),
    reserved b (o + 2) 2,
    reserved b (o + 8) 8]

/-- The first entry of the schema's codebook that is not finite (R43). -/
def schemaBookFail (b : Bytes) : Option Nat :=
  ((List.range (Sch.codebookCount b)).find? fun k => Fmt.bf16.nonFinite (u16At b (Sch.codebookAt b + 2 * k))).map (Sch.codebookAt b + 2 * ·)

/-- The check of a schema: its failure as a status and an offset (R53). -/
def schemaFail (b : Bytes) : Option (Nat × Nat) :=
  if u32At b 0 ≠ 0x53434C41 then some (Status.invalidField, 0)
  else if u32At b 4 ≠ b.length then some (Status.lengthMismatch, 0)
  else if u32At b 60 ≠ crc32c (slice b 0 60) then some (Status.invalidField, 60)
  else
    let f := Sch.fullFormat b
    (firstFail [
      reserved b 8 17,
      require (leAt b 25 2 < 2) 25,
      require (1 ≤ Sch.distance b && Sch.distance b ≤ 3) 27,
      require ([0, 1, 2, 3, 4, 5, 6, 0x0A, 0x0B].contains f && (Sch.distance b == 1 || f != 0) && (!Sch.pinFull b || f != 0)) 28,
      require ([0, 4, 8].contains (Sch.pqBits b)) 29,
      require (Sch.attrCount b ≤ 16 && Sch.fixedLength b == b.length) 30,
      require (1 ≤ Sch.depth b && Sch.depth b ≤ 6) 31,
      require (2 ≤ Sch.fanout b && Sch.fanout b ≤ 256) 32,
      require (64 ≤ Sch.codeWidth b && Sch.codeWidth b ≤ 4096 && Sch.codeWidth b % 64 == 0) 34,
      require (pqShape b) 36,
      require (if f = 0 then Sch.dim b == 0 else 8 ≤ Sch.dim b && Sch.dim b ≤ 8192 && Sch.dim b % 8 == 0 &&
        (Sch.pqBits b == 0 || Sch.distance b == 1 || Sch.dim b % Sch.pqM b == 0)) 38,
      reserved b 40 8,
      require (if f = 6 then posNormal32 (Sch.scale b) else Sch.scale b == 0) 48,
      require (1024 ≤ Sch.leafMin b && Sch.leafMin b ≤ 65536) 52,
      require (Sch.leafMin b ≤ Sch.leafMax b && Sch.leafMax b ≤ 65536) 56,
      firstFail ((List.range (Sch.attrCount b)).map (descriptorFieldFail b)),
      schemaBookFail b]).map fun o => (Status.invalidField, o)

/-! ## Values of a stored vector -/

/-- The FP32 values of the elements of a record of `n` elements in format `f` (R49, R73, R97). -/
def vectorValues (sch : Bytes) (f : Fmt) (n : Nat) (r : Bytes) : List Num :=
  let codes := (List.range n).map (elemAt f r)
  match f with
  | .int8 =>
    let sc := r32 (Num.mul (val32 (Sch.scale sch)) (scale8Value (u8At r n)))
    codes.map fun c => r32 (Num.mul sc (Fmt.int8.value c))
  | .cb4 => codes.map (Sch.codebook sch)
  | .cb8 => codes.map (Sch.codebook sch)
  | g => codes.map fun c => r32 (g.value c)

/-- The FP32 values of a full vector. -/
def fullValues (sch full : Bytes) : List Num := vectorValues sch (Sch.format sch) (Sch.dim sch) full

/-- The first element of `n` in format `f` that is NaN or infinite, at its offset (R43). -/
def nonFiniteAt (b : Bytes) (f : Fmt) (off n : Nat) : Option Nat :=
  let v := b.drop off
  match f with
  | .int8 | .cb4 | .cb8 => none
  | g => ((List.range n).find? fun i => g.nonFinite (elemAt g v i)).map fun i => off + elemOff g i

/-! ## Insert records (15 R359, 06 R118) -/

/-- The gaps between the fields of an attribute record are zero, and its F32 fields are finite (R50): the failing offset. -/
def attrFail (sch b : Bytes) (off : Nat) : Option Nat :=
  let offs := fieldOffsets sch
  let ends := 0 :: ((List.range offs.length).zip offs).map fun p => p.2 + fieldSize (Sch.fieldType sch p.1)
  let fields := (List.range offs.length).map fun i =>
    let o := offs.getD i 0
    firstFail [padding b (off + ends.getD i 0) (o - ends.getD i 0),
      require (!(Sch.fieldType sch i == 7 && Fmt.fp32.nonFinite (u32At b (off + o)))) (off + o)]
  firstFail (fields ++ [padding b (off + ends.getLastD 0) (attrBytes sch - ends.getLastD 0)])

/-- Where the full vector starts in a record. -/
def fullAt (sch : Bytes) : Nat := 8 + Sch.codeBytes sch + attrBytes sch

/-- The failure of an insert record at `off` beside its identifier: an element that is not finite (R43), or a byte that is not 0 where it must
be. -/
def recordShapeFail (sch b : Bytes) (off : Nat) : Option Nat :=
  let v := off + fullAt sch
  let used := elemBytes (Sch.format sch) (Sch.dim sch) + (if Sch.fullFormat sch = 6 then 1 else 0)
  firstFail [
    attrFail sch b (off + 8 + Sch.codeBytes sch),
    (if Sch.fullFormat sch = 0 then none else firstFail [nonFiniteAt b (Sch.format sch) v (Sch.dim sch), padding b (v + used) (fullBytes sch - used)]),
    padding b (v + fullBytes sch) (recordSize sch - fullAt sch - fullBytes sch)]

/-- Some of `n` records is malformed in itself. -/
def recordsMalformed (sch b : Bytes) (n : Nat) : Bool := (List.range n).any fun i => (recordShapeFail sch b (recordSize sch * i)).isSome

/-- The failure of one insert record at `off`, with the identifiers before it. -/
def recordFail (sch b : Bytes) (seen : List Nat) (off : Nat) : Option Nat :=
  let id := u64At b off
  firstFail [require (id != fillId && !seen.contains id) off, recordShapeFail sch b off]

/-- The failure of `n` records from `off` on. -/
def recordsFail (sch b : Bytes) : Nat → List Nat → Nat → Option Nat
  | 0, _, _ => none
  | n + 1, seen, off =>
    match recordFail sch b seen off with
    | some x => some x
    | none => recordsFail sch b n (u64At b off :: seen) (off + recordSize sch)

/-- The vector of the record at `off`; it has no epoch and no PQ code yet. -/
def recordRow (sch b : Bytes) (off : Nat) : Row where
  id := u64At b off
  code := slice b (off + 8) (Sch.codeBytes sch)
  attr := slice b (off + 8 + Sch.codeBytes sch) (attrBytes sch)
  full := slice b (off + fullAt sch) (fullBytes sch)
  pq := []
  epoch := 0

/-- The vectors of `n` records. -/
def recordRows (sch b : Bytes) (n : Nat) : List Row := (List.range n).map fun i => recordRow sch b (recordSize sch * i)

/-- An insert record, as a forwarded sub-batch or a bucket copy carries it (09 R188). -/
def rowRecord (_sch : Bytes) (r : Row) : Bytes := padTo 16 (toLE 8 r.id ++ r.code ++ r.attr ++ r.full)

end Sys2Proof.Machine
end

