-- ==== Sys2Proof/Machine/PageRuns.lean ====
section
/-! DEFINITION. How cold-tier tiles lie in logical pages (13 R296, R299-R301): whole tiles, page runs with the entry that the module keeps of each,
fixed row slots, and the pages that they take. -/

namespace Sys2Proof.Machine

/-! ## Page runs (R299, R300, R301) -/

/-- Bytes of a run of elements, packed under 03 R60 where the format allows. -/
def packedBytes (code : Nat) (f : Fmt) (elems : List Nat) : Nat :=
  match f.em with
  | none => ceilDiv (elems.length * f.width) 8
  | some _ => sumOf ((chunksOf 256 elems).map fun b => (packBlock code f b).length)

/-- Every run of `n` rows, from row 0 on, packs into a page. -/
def runsFit (code : Nat) (f : Fmt) (rows : List (List Nat)) (n : Nat) : Bool := (chunksOf n rows).all fun run => packedBytes code f run.flatten ≤ 4096

/-- ROWS_PER_PAGE of rows of `raw` bytes each (R299). -/
def rowsPerPageOf (raw code : Nat) (f : Fmt) (rows : List (List Nat)) : Nat :=
  if 4096 < raw then 0
  else
    let lo := 4096 / max 1 raw
    (((List.range (min rows.length 4096 + 1)).reverse.filter (lo ≤ ·)).find? (runsFit code f rows)).getD lo

/-- Written pages of a page-run layout: of each run, or of the packed bytes of each row slot. -/
def runPages (perPage code : Nat) (f : Fmt) (rows : List (List Nat)) : Nat :=
  if perPage ≠ 0 then ceilDiv rows.length perPage else sumOf (rows.map fun r => ceilDiv (packedBytes code f r) 4096)

/-- The entry of a partition stripe or a value-row block (R300). -/
structure RunEntry where
  copyBase : Nat
  runBase : Nat
  rowsPerPage : Nat
  rows : Nat
  pages : Nat
  deriving DecidableEq, Repr

/-- Its sixteen bytes. -/
def RunEntry.bytes (e : RunEntry) : Bytes := toLE 2 e.pages ++ toLE 2 e.rows ++ toLE 2 e.rowsPerPage ++ toLE 5 e.runBase ++ toLE 5 e.copyBase

/-- row_pages of R301: first page, pages, and the row in its run. -/
def rowPages (e : RunEntry) (r raw : Nat) : Nat × Nat × Nat :=
  if e.rowsPerPage ≠ 0 then (e.runBase + r / e.rowsPerPage, 1, r % e.rowsPerPage)
  else (e.runBase + r * ceilDiv raw 4096, ceilDiv raw 4096, 0)

/-- The pages of a row. -/
def pagesOf (x : Nat × Nat × Nat) : List Nat := (List.range x.2.1).map (x.1 + ·)

/-- An area of an object's logical pages (R296): where it begins is the module's to choose. DESIGN CHOICE (log entry 40). -/
def areaLpn (kind owner area : Nat) : Nat := Config.lpnBase kind owner area % (1 <<< 40)

/-! ## A head's pages (10 R210, R211) -/

/-- ROWS_PER_PAGE of a block of value rows. -/
def blockRows (v : Head) (block : Nat) : List (List Nat) :=
  (List.range (min 4096 (Hd.slots v.desc - 4096 * block))).map fun r => rowCodes v 4 (4096 * block + r)

/-- The entry of a value-row block of a streamed head. -/
def blockEntry (v : Head) (block : Nat) : RunEntry :=
  let rows := blockRows v block
  let n := rowsPerPageOf (Hd.rowBytes v.desc 4) (Hd.valueFormat v.desc) (Hd.fmt v.desc 4) rows
  { copyBase := 0, runBase := areaLpn 2 v.id block, rowsPerPage := n, rows := rows.length,
    pages := runPages n (Hd.valueFormat v.desc) (Hd.fmt v.desc 4) rows }

/-- The local row of a slot in its owner's share, in a group of `m` members (10 R211). -/
def localRow (slot m : Nat) : Nat := slot / 4096 / max 1 m * 4096 + slot % 4096

/-- Pages of a fixed slot of `bytes` bytes (R301). -/
def slotPages (base row bytes : Nat) : List Nat := (List.range (ceilDiv bytes 4096)).map fun i => base + row * ceilDiv bytes 4096 + i

/-- Bytes of the slot of a master row, and of the optimiser state of a row. -/
def masterBytes (d : Bytes) : Nat := 4 * Hd.dv d
/-- Bytes of the slot of a row's optimiser state. -/
def stateBytes (d : Bytes) : Nat := 4 * Hd.dv d + 4

/-- The logical pages of a slot's master row, and of its optimiser state: MASTER_BASE and STATE_BASE are two areas of the head. -/
def masterLpns (v : Head) (slot : Nat) : List Nat := slotPages (areaLpn 2 v.id (1 <<< 32)) (localRow slot v.members.length) (masterBytes v.desc)
/-- The logical pages of a slot's optimiser state. -/
def stateLpns (v : Head) (slot : Nat) : List Nat := slotPages (areaLpn 2 v.id (1 <<< 32 + 1)) (localRow slot v.members.length) (stateBytes v.desc)

/-- Written pages of a head (R296, R301): the copies of its replicated tensors and of its tiles, which are whole tiles; the page runs of a streamed
share; and the slots of the master rows that have been written, with their state, packed one row at a time. DEDUCED (log entry 27). -/
def headPages (h : Head) : Nat :=
  let tensor := fun t : Nat => (dedup ((h.rows.filter (·.1 == t)).map fun x => x.2.1 * Hd.rowBytes h.desc t / 4096)).length
  let blocks := dedup ((h.rows.filter (·.1 == 4)).map fun x => x.2.1 / 4096)
  let packed := fun l : List Nat => ceilDiv (packedBytes 1 .fp32 l) 4096
  ceilDiv h.desc.length 4096 + tensor 1 + tensor 2 + tensor 3 + sumOf (h.tiles.map fun t => ceilDiv t.2.length 4096) +
    (if Hd.streamed h.desc then sumOf (blocks.map fun b => (blockEntry h b).pages) else 0) +
    sumOf (h.masters.map fun m => packed m.x + packed (m.m ++ [m.v]))

/-! ## A collection's pages (06 R109, R128) -/

/-- A full vector as the elements of its tile's format. -/
def fullElems (sch full : Bytes) : List Nat :=
  if Sch.fullFormat sch = 6 then full.map (·.toNat) else (List.range (Sch.dim sch)).map (elemAt (Sch.format sch) full)

/-- The format of a tile of full vectors: RAW8 for INT8 records (06 R109). -/
def fullFmt (sch : Bytes) : Fmt := if Sch.fullFormat sch = 6 then .raw8 else Sch.format sch

/-- The entry of a stripe of a partition (R300). -/
def stripeEntry (coll : Nat) (sch : Bytes) (area : Nat) (rows : List Row) : RunEntry :=
  let vs := rows.map fun r => fullElems sch r.full
  let n := if Sch.fullFormat sch = 0 then 0 else rowsPerPageOf (fullBytes sch) (Sch.fullFormat sch) (fullFmt sch) vs
  { copyBase := areaLpn 1 coll (2 * area), runBase := areaLpn 1 coll (2 * area + 1), rowsPerPage := n, rows := rows.length,
    pages := if Sch.fullFormat sch = 0 then 0 else runPages n (Sch.fullFormat sch) (fullFmt sch) vs }

/-- The area of stripe `i` of a partition: by the first vector that it holds, whose identifier and stamp no other stripe of its tree has. DESIGN CHOICE (log entry
40). -/
def stripeArea (rows : List Row) : Nat := match rows.head? with | some r => r.id + r.epoch <<< 64 | none => 0

/-- The stripes of a partition (06 R109). -/
def stripesOf (rows : List Row) : List (List Row) := chunksOf 4096 rows

/-- The logical pages of the full vector of a row of a partition; none where the partition lacks it. -/
def vectorLpns (coll : Nat) (sch : Bytes) (part : List Row) (id : Nat) : List Nat :=
  match part.findIdx? (·.id == id) with
  | none => []
  | some i =>
    let stripe := (part.drop (i / 4096 * 4096)).take 4096
    pagesOf (rowPages (stripeEntry coll sch (stripeArea stripe) stripe) (i % 4096) (fullBytes sch))

/-- The logical pages of every full vector of a partition. -/
def partLpns (coll : Nat) (sch : Bytes) (part : List Row) : List Nat :=
  (stripesOf part).flatMap fun x => let e := stripeEntry coll sch (stripeArea x) x; (List.range e.pages).map (e.runBase + ·)

/-- Written pages of a stripe: its copy tiles, each from a page on, and its page runs. -/
def stripePages (sch : Bytes) (rows : List Row) : Nat :=
  let tile := fun n : Nat => ceilDiv (rows.length * n) 4096
  tile (Sch.codeBytes sch) + tile 8 + tile (Sch.pqBytes sch) + tile (attrBytes sch) + (stripeEntry 0 sch 0 rows).pages

/-- Written pages of some partitions. -/
def partsPages (sch : Bytes) (parts : List (List Row)) : Nat := sumOf ((parts.flatMap stripesOf).map (stripePages sch))

end Sys2Proof.Machine
end

