-- ==== Sys2Proof/Machine/Tensors.lean ====
section
/-! DEFINITION. The share of a head's value table that a member owns, and the space that a head takes (10 R210, R211; 06 R128). -/

namespace Sys2Proof.Machine

/-- Blocks of 4 096 slots of a value table. -/
def blockCount (d : Bytes) : Nat := ceilDiv (Hd.slots d) 4096

/-- Blocks that position `p` of `m` members owns. -/
def ownBlocks (d : Bytes) (p m : Nat) : Nat := (blockCount d + m - 1 - p) / m

/-- Value rows that position `p` of `m` members owns; only the table's last block is partial. -/
def ownRows (d : Bytes) (p m : Nat) : Nat :=
  4096 * ownBlocks d p m - (if blockCount d != 0 && (blockCount d - 1) % m == p then 4096 * blockCount d - Hd.slots d else 0)

/-- Bytes of the replicated tensors (06 R128, 10 R210). -/
def replicatedBytes (d : Bytes) : Nat := sumOf ([1, 2, 3].map fun t => if Hd.holds d t then Hd.rows d t * Hd.rowBytes d t else 0)

/-- HBM that a head takes: its replicated tensors, its tiles, and its own share of the value table, or the entries of a streamed share
(13 R300); notes/assumptions/27.md. DEDUCED (log entry 27). -/
def headHbm (s : State) (h : Head) : Nat :=
  let members := headMembers s h
  let own := match ownPosition s members with
    | none => 0
    | some p => if Hd.streamed h.desc then 16 * ownBlocks h.desc p members.length else ownRows h.desc p members.length * Hd.rowBytes h.desc 4
  replicatedBytes h.desc + sumOf (h.tiles.map (·.2.length)) + (if Hd.tied h.desc then 0 else own)

end Sys2Proof.Machine
end

