-- ==== Sys2Proof/Machine/Trees.lean ====
section
/-! DEFINITION. Partition trees: scores against centroids, k-means, the build, PQ codebooks and codes, walks, and index images
(06 R106-R116; 03 R48). -/

namespace Sys2Proof.Machine

/-! ## Scores (R107, 03 R45, 05 R95 R97) -/

/-- The elements of a BF16 vector of `n` elements. -/
def bf16Values (b : Bytes) (n : Nat) : List Num := (List.range n).map fun i => Fmt.bf16.value (u16At b (2 * i))

/-- The canonical score of a vector against a centroid, given its binary code and its FP32 values. -/
def centroidScore (sch code : Bytes) (values : List Num) (centroid : Bytes) : Nat :=
  if Sch.distance sch = 1 then canonScore (.fin false (hamming code centroid) 0)
  else canonScore (exactScore (Sch.distance sch) .fp32 .bf16 values (bf16Values centroid (Sch.dim sch)))

/-- How k-means sees the vectors: their score against a centroid as a rising key, the centroid of a set, and the centroid that starts
from one vector (R113). -/
structure Space where
  dist : Row → Bytes → Nat
  center : List Row → Bytes
  start : Row → Bytes

/-- FP32 values rounded to BF16, packed. -/
def packBf16 (v : List Num) : Bytes := (v.map fun x => toLE 2 (narrowCode .bf16 x)).flatten

/-- Bit `b` is 1 when more than half of the codes have it set (R113). -/
def majorityBits (width : Nat) (codes : List Bytes) : Bytes :=
  packElems .bin1 ((List.range width).map fun b => b2n (decide (codes.length < 2 * (codes.filter fun c => bitOf c b).length)))

/-- The mean of vectors in ascending identifier, element by element (R113). -/
def meanVector (n : Nat) (vs : List (List Num)) : Bytes :=
  packBf16 ((List.range n).map fun k => Num.div (tree add32 (vs.map fun v => v.getD k .zero)) (.fin false vs.length 0))

/-- The space of the whole vectors. -/
def treeSpace (sch : Bytes) : Space where
  dist r c := scoreKey (centroidScore sch r.code (if Sch.distance sch = 1 then [] else fullValues sch r.full) c)
  center rows :=
    let u := sortOn (·.id) rows
    if Sch.distance sch = 1 then majorityBits (Sch.codeWidth sch) (u.map (·.code)) else meanVector (Sch.dim sch) (u.map fun r => fullValues sch r.full)
  start r := if Sch.distance sch = 1 then r.code else packBf16 (fullValues sch r.full)

/-- The sub-block of a vector in subspace `j`: code bits (R47). -/
def subBits (sch : Bytes) (j : Nat) (r : Row) : Bytes := slice r.code (j * (Sch.subSize sch / 8)) (Sch.subSize sch / 8)

/-- The sub-vector of a vector in subspace `j`. -/
def subValues (sch : Bytes) (j : Nat) (r : Row) : List Num := ((fullValues sch r.full).drop (j * Sch.subSize sch)).take (Sch.subSize sch)

/-- The space of one PQ subspace (R114). -/
def pqSpace (sch : Bytes) (j : Nat) : Space where
  dist r c :=
    if Sch.distance sch = 1 then hamming (subBits sch j r) c
    else scoreKey (canonScore (exactScore (Sch.distance sch) .fp32 .bf16 (subValues sch j r) (bf16Values c (Sch.subSize sch))))
  center rows :=
    let u := sortOn (·.id) rows
    if Sch.distance sch = 1 then majorityBits (Sch.subSize sch) (u.map (subBits sch j)) else meanVector (Sch.subSize sch) (u.map (subValues sch j))
  start r := if Sch.distance sch = 1 then subBits sch j r else packBf16 (subValues sch j r)

/-! ## k-means (R113) -/

/-- Lowest index of the nearest of some centroids among those that `ok` allows, with its key. -/
def nearestOf (d : Bytes → Nat) (ok : Nat → Bool) (cens : List Bytes) : Option (Nat × Nat) :=
  ((List.range cens.length).zip cens).foldl (fun best p =>
    if ok p.1 then
      let k := d p.2
      match best with
      | none => some (k, p.1)
      | some b => if k < b.1 then some (k, p.1) else some b
    else best) none

/-- Lowest index of the nearest centroid. -/
def nearest (sp : Space) (r : Row) (cens : List Bytes) : Nat := ((nearestOf (sp.dist r) (fun _ => true) cens).map (·.2)).getD 0

/-- The values that a build takes at admission (R113). -/
structure BuildCfg where
  iterations : Nat
  perCentroid : Nat
  seed : Nat
  deriving DecidableEq, Repr

/-- sample(s, c): the vectors with the smallest hash of identifier and seed, in that order. -/
def sampleOf (n seed : Nat) (s : List Row) : List Row :=
  (sortBy (fun a b : Nat × Row => a.1 < b.1 || (a.1 == b.1 && a.2.id ≤ b.2.id)) (s.map fun r => (hash64 (r.id ^^^ seed), r))).map (·.2) |>.take n

/-- One iteration: each vector to its nearest centroid, and each centroid that has vectors moved to theirs. -/
def kmeansStep (sp : Space) (t : List Row) (cens : List Bytes) : List Bytes :=
  let assigned := t.map fun r => (nearest sp r cens, r)
  ((List.range cens.length).zip cens).map fun p =>
    let mine := (assigned.filter (·.1 == p.1)).map (·.2)
    if mine.isEmpty then p.2 else sp.center mine

/-- kmeans(t, c). -/
def kmeans (sp : Space) (iterations : Nat) (t : List Row) (c : Nat) : List Bytes :=
  let start := (List.range c).map fun i => ((t[i % t.length]?).map sp.start).getD []
  (List.range iterations).foldl (fun cens _ => kmeansStep sp t cens) start

/-! ## The build (R112) -/

/-- The smallest c from `c` on, at most `fanout`, with c^d ≥ l. -/
def childCount (l d fanout : Nat) : Nat → Nat → Nat
  | 0, c => c
  | n + 1, c => if fanout ≤ c then fanout else if l ≤ c ^ d then c else childCount l d fanout n (c + 1)

/-- Quota of leaves of each of `c` children. -/
def quotas (l c : Nat) : List Nat := (List.range c).map fun i => l / c + (if i < l % c then 1 else 0)

/-- The vectors of a node given out to its children: in ascending (distance to the nearest, identifier), each to the nearest child with room. -/
def assignChildren (sp : Space) (s : List Row) (cens : List Bytes) (rooms : List Nat) : List (List Row) :=
  let keyed := s.map fun r => (((nearestOf (sp.dist r) (fun _ => true) cens).map (·.1)).getD 0, r)
  let order := (sortBy (fun a b : Nat × Row => a.1 < b.1 || (a.1 == b.1 && a.2.id ≤ b.2.id)) keyed).map (·.2)
  order.foldl (fun kids r =>
    match nearestOf (sp.dist r) (fun i => (kids.getD i []).length < rooms.getD i 0) cens with
    | none => kids
    | some b => modAt (· ++ [r]) b.2 kids) (cens.map fun _ => [])

/-- Lists of levels joined level by level. -/
def joinLevels {α : Type} (a b : List (List α)) : List (List α) :=
  (List.range (max a.length b.length)).map fun i => a.getD i [] ++ b.getD i []

/-- A node of a build: its centroid, its vectors, and the number of its children. -/
structure BuiltNode where
  centroid : Bytes
  vectors : Nat
  children : Nat
  deriving DecidableEq, Repr

/-- build_node: the levels below a node, and its leaves' vectors in order. -/
def buildNode (sp : Space) (cfg : BuildCfg) (fanout : Nat) : Nat → List Row → Nat → Bytes → List (List BuiltNode) × List (List Row)
  | 0, s, _, _ => ([], [sortOn (·.id) s])
  | d + 1, s, l, own =>
    let c := childCount l (d + 1) fanout 256 1
    let q := quotas l c
    let cens := if s.isEmpty then List.replicate c own else kmeans sp cfg.iterations (sampleOf (min s.length (c * cfg.perCentroid)) cfg.seed s) c
    let cap := ceilDiv s.length l
    let kids := assignChildren sp s cens (q.map (· * cap))
    let final := (cens.zip kids).map fun p => if p.2.isEmpty then p.1 else sp.center p.2
    let subs := ((final.zip kids).zip q).map fun p => buildNode sp cfg fanout d p.1.2 p.2 p.1.1
    let nodes := ((final.zip kids).zip subs).map fun p =>
      { centroid := p.1.1, vectors := p.1.2.length, children := ((p.2.1.head?).map List.length).getD 0 }
    (nodes :: subs.foldl (fun acc x => joinLevels acc x.1) [], (subs.map (·.2)).flatten)

/-- The node entries of a level, with FIRST_CHILD counted up over it. -/
def levelNodes (leaf : Bool) : Nat → List BuiltNode → List Node
  | _, [] => []
  | next, n :: r =>
    { first := next, count := if leaf then 0 else n.children, vectors := n.vectors, centroid := n.centroid } ::
      levelNodes leaf (next + (if leaf then 1 else n.children)) r

/-- The tree that a build gives; its epoch and its PQ codes are set when it commits. -/
def builtTree (depth : Nat) (b : List (List BuiltNode) × List (List Row)) (book : Bytes) : Tree where
  epoch := 0
  rootChildren := ((b.1.head?).map List.length).getD 0
  levels := ((List.range b.1.length).zip b.1).map fun p => levelNodes (p.1 + 1 == depth) 0 p.2
  parts := b.2
  codebook := book

/-- Partition count of a build over `n` vectors. -/
def partitionCount (sch : Bytes) (n : Nat) : Nat := max 1 (ceilDiv n (Sch.leafMax sch))

/-- Partition limit of a collection shard (R103). -/
def partitionLimit (sch : Bytes) : Nat := min (Sch.fanout sch ^ Sch.depth sch) 16777216

/-! ## PQ codebooks and codes (R114) -/

/-- The codebook trained on a set. -/
def trainCodebook (sch : Bytes) (cfg : BuildCfg) (rows : List Row) : Bytes :=
  ((List.range (Sch.pqM sch)).map fun j =>
    (kmeans (pqSpace sch j) cfg.iterations (sampleOf (min rows.length (Sch.pqK sch * cfg.perCentroid)) cfg.seed rows) (Sch.pqK sch)).flatten).flatten

/-- Bytes of one code word. -/
def wordBytes (sch : Bytes) : Nat := if Sch.distance sch = 1 then Sch.subSize sch / 8 else 2 * Sch.subSize sch

/-- The code words of subspace `j` (03 R48). -/
def codeWords (sch book : Bytes) (j : Nat) : List Bytes :=
  (List.range (Sch.pqK sch)).map fun c => slice book ((j * Sch.pqK sch + c) * wordBytes sch) (wordBytes sch)

/-- The PQ code of a vector. -/
def pqEncode (sch book : Bytes) (r : Row) : Bytes :=
  if Sch.pqBits sch = 0 then []
  else
    let idx := (List.range (Sch.pqM sch)).map fun j => nearest (pqSpace sch j) r (codeWords sch book j)
    if Sch.pqBits sch = 8 then idx.map (BitVec.ofNat 8 ·) else packElems .cb4 idx

/-- The vectors of a partition with their PQ codes. -/
def encodePart (sch book : Bytes) (rows : List Row) : List Row := rows.map fun r => { r with pq := pqEncode sch book r }

/-! ## Walks (R123, 07 R139) -/

/-- Nodes of a level in a range, each with its score, in ascending (score, node number). -/
def rankNodes (sch code : Bytes) (values : List Num) (level : List Node) (lo n : Nat) : List (Nat × Node) :=
  let scored := (((List.range n).map (· + lo)).zip ((level.drop lo).take n)).map fun p => (scoreKey (centroidScore sch code values p.2.centroid), p)
  (sortBy (fun a b : Nat × (Nat × Node) => a.1 < b.1 || (a.1 == b.1 && a.2.1 ≤ b.2.1)) scored).map (·.2)

/-- beam_walk of 07 R139 from a level on: the children of each node of the beam, ranked, and cut. -/
def beamWalk (sch code : Bytes) (values : List Num) (width budget : Nat) : List (List Node) → List (Nat × Nat) → List Nat
  | [], _ => []
  | level :: rest, ranges =>
    let cand := ranges.flatMap fun r => ((List.range r.2).map (· + r.1)).zip ((level.drop r.1).take r.2)
    let scored := cand.map fun p => (scoreKey (centroidScore sch code values p.2.centroid), p)
    let ranked := (sortBy (fun a b : Nat × (Nat × Node) => a.1 < b.1 || (a.1 == b.1 && a.2.1 ≤ b.2.1)) scored).map (·.2)
    if rest.isEmpty then (ranked.take budget).map (·.1)
    else beamWalk sch code values width budget rest ((ranked.take width).map fun p => (p.2.first, p.2.count))

/-- The probe list of a query on a tree. -/
def probeListOf (sch : Bytes) (t : Tree) (code : Bytes) (values : List Num) (width budget : Nat) : List Nat :=
  beamWalk sch code values width budget t.levels [(0, t.rootChildren)]

/-- The children range that a walk of beam width 1 ends at: the leaves of the last node on its way. -/
def walkToLeaves (sch code : Bytes) (values : List Num) : List (List Node) → Nat × Nat → Nat × Nat
  | [], r => r
  | [_], r => r
  | level :: rest, r =>
    match rankNodes sch code values level r.1 r.2 with
    | [] => r
    | p :: _ => walkToLeaves sch code values rest (p.2.first, p.2.count)

/-- The leaf that a MERGE gives an entry (R123): the nearest child of the last node with room, then the nearest leaf with room. -/
def leafFor (sch : Bytes) (t : Tree) (sizes : List Nat) (r : Row) : Option Nat :=
  let values := if Sch.distance sch = 1 then [] else fullValues sch r.full
  let leaves := t.levels.getLastD []
  let range := walkToLeaves sch r.code values t.levels (0, t.rootChildren)
  let room := fun p : Nat × Node => decide (sizes.getD p.1 0 < 65536)
  ((rankNodes sch r.code values leaves range.1 range.2 ++ rankNodes sch r.code values leaves 0 leaves.length).find? room).map (·.1)

/-! ## Index images (R115, R116) -/

/-- Bytes of one node with its centroid. -/
def nodeBytes (sch : Bytes) : Nat := 16 + Sch.centroidBytes sch

/-- The unpadded size that the header fields and the schema fix. -/
def imageSize (sch b : Bytes) : Nat :=
  64 + u32At b 40 * nodeBytes sch + 4 * u32At b 44 + 8 * u64At b 48 + (if bit (u8At b 12) 0 then Sch.pqBookBytes sch else 0)

/-- The fields of node `i` of a level of `n` nodes at `off`. -/
def imageNode (sch b : Bytes) (off n i : Nat) : Node where
  first := u32At b (off + 16 * i + 4)
  count := u16At b (off + 16 * i + 2)
  vectors := u32At b (off + 16 * i + 12)
  centroid := slice b (off + 16 * n + Sch.centroidBytes sch * i) (Sch.centroidBytes sch)

/-- The levels of an image: each with its offset and its node count; `n` nodes in the first. -/
def imageLevels (sch b : Bytes) : Nat → Nat → Nat → List (Nat × Nat)
  | 0, _, _ => []
  | d + 1, off, n =>
    let next := if d = 0 then 0 else sumOf ((List.range n).map fun i => u16At b (off + 16 * i + 2))
    (off, n) :: imageLevels sch b d (off + n * nodeBytes sch) next

/-- Running tallies while the nodes of a level are read. -/
structure Tally where
  nodes : Nat                   -- nodes of every level whose number is known
  leaves : Nat                  -- nodes of level DEPTH known
  child : Nat                   -- children of this level so far
  deriving DecidableEq, Repr

/-- The failure of one node entry (R106, R108), with the VECTOR_COUNT that its place as a last child completes: `parents` gives, for the
level above, the last child of each node and the sum that its VECTOR_COUNT must be. -/
def nodeFail (sch b : Bytes) (level off n i : Nat) (t : Tally) (parents : List (Nat × Nat × Nat)) : Option Nat :=
  let o := off + 16 * i
  let leaf := level == Sch.depth sch
  let count := u16At b (o + 2)
  let nodes := t.nodes + count
  let leaves := t.leaves + (if level + 1 = Sch.depth sch then count else 0)
  let vec := fun k => u32At b (off + 16 * k + 12)
  firstFail [
    reserved b o 1,
    require (u8At b (o + 1) == level) (o + 1),
    require (if leaf then count == 0 else 1 ≤ count && count ≤ Sch.fanout sch && nodes ≤ u32At b 40 && leaves ≤ u32At b 44 &&
      (level + 1 != Sch.depth sch || i + 1 != n || (nodes == u32At b 40 && leaves == u32At b 44))) (o + 2),
    require (u32At b (o + 4) == (if leaf then i else t.child)) (o + 4),
    reserved b (o + 8) 4,
    firstFail (parents.map fun p => require (p.1 + p.2.1 != i + 1 || sumOf ((List.range p.2.1).map fun k => vec (p.1 + k)) == p.2.2) (o + 12))]

/-- The failure of the node entries of a level from `i` on, or the tally after them. -/
def levelFail (sch b : Bytes) (level off n : Nat) (parents : List (Nat × Nat × Nat)) : Nat → Nat → Tally → Option Nat × Tally
  | 0, _, t => (none, t)
  | k + 1, i, t =>
    match nodeFail sch b level off n i t parents with
    | some x => (some x, t)
    | none =>
      let count := u16At b (off + 16 * i + 2)
      levelFail sch b level off n parents k (i + 1)
        { nodes := t.nodes + count, leaves := t.leaves + (if level + 1 = Sch.depth sch then count else 0), child := t.child + count }

/-- The failure of the centroids of a level (R43). -/
def centroidsFail (sch b : Bytes) (off n : Nat) : Option Nat :=
  if Sch.distance sch = 1 then none else nonFiniteAt b .bf16 (off + 16 * n) (n * Sch.dim sch)

/-- The failure of the levels, in order. -/
def levelsFail (sch b : Bytes) : Nat → List (Nat × Nat × Nat) → Tally → List (Nat × Nat) → Option Nat
  | _, _, _, [] => none
  | level, parents, t, (off, n) :: rest =>
    match levelFail sch b level off n parents n 0 { t with child := 0 } with
    | (some x, _) => some x
    | (none, t2) =>
      match centroidsFail sch b off n with
      | some x => some x
      | none =>
        let mine := (List.range n).map fun i => (u32At b (off + 16 * i + 4), u16At b (off + 16 * i + 2), u32At b (off + 16 * i + 12))
        levelsFail sch b (level + 1) mine t2 rest

/-- Where the partition sizes start. -/
def sizesAt (sch b : Bytes) : Nat := 64 + u32At b 40 * nodeBytes sch

/-- Partition size `i`. -/
def imagePart (sch b : Bytes) (i : Nat) : Nat := u32At b (sizesAt sch b + 4 * i)

/-- Where the identifiers start. -/
def idsAt (sch b : Bytes) : Nat := sizesAt sch b + 4 * u32At b 44

/-- The failure of partition sizes: each within the limit and equal to its leaf's VECTOR_COUNT; the sum at the last. -/
def sizesFail (sch b : Bytes) (leafOff : Nat) : Option Nat :=
  let n := u32At b 44
  firstFail ((List.range n).map fun i => require
    (1 ≤ imagePart sch b i && imagePart sch b i ≤ min (Sch.leafMax sch) 65536 && imagePart sch b i == u32At b (leafOff + 16 * i + 12) &&
      (i + 1 != n || sumOf ((List.range n).map (imagePart sch b)) == u64At b 48)) (sizesAt sch b + 4 * i))

/-- The identifiers of each partition, as sizes cut the list. -/
def cutIds : List Nat → List Nat → List (List Nat)
  | [], _ => []
  | n :: r, ids => ids.take n :: cutIds r (ids.drop n)

/-- The failure of the listed identifiers from number `i` on; `prev` is the one before in the same partition. -/
def idsFail (b : Bytes) (live : List Nat) (base : Nat) : List Nat → Nat → List Nat → List Nat → Option Nat
  | _, _, _, [] => none
  | starts, i, seen, id :: rest =>
    let o := base + 8 * i
    let sorted := starts.contains i || (match seen with | [] => true | p :: _ => decide (p < id))
    if live.contains id && !seen.contains id && sorted then idsFail b live base starts (i + 1) (id :: seen) rest else some o

/-- Numbers of the first identifiers of the partitions. -/
def partStarts : Nat → List Nat → List Nat
  | _, [] => []
  | at_, n :: r => at_ :: partStarts (at_ + n) r

/-- The check of an index image against its collection: `live` are the identifiers live at the admission epoch, `held` tells that the
collection holds a codebook (R116). -/
def imageFail (sch b : Bytes) (live : List Nat) (held : Bool) : Option (Nat × Nat) :=
  if u32At b 0 ≠ 0x58494C41 then some (Status.invalidField, 0)
  else if u64At b 4 ≠ b.length then some (Status.lengthMismatch, 0)
  else if u32At b 60 ≠ crc32c (slice b 0 60) then some (Status.invalidField, 60)
  else
    let bookSet := bit (u8At b 12) 0
    let root := u32At b 56
    let head := firstFail [
      require (if Sch.pqBits sch = 0 then !bookSet else held || bookSet) 12,
      require (bits (leAt b 12 20) 159 1 == 0) 12,
      require (u64At b 32 == sm3Low64 sch) 32,
      require (1 ≤ u32At b 44 && u32At b 44 ≤ partitionLimit sch) 44,
      require (roundUp 64 (imageSize sch b) == b.length && u64At b 48 == live.length) 48,
      require (1 ≤ root && root ≤ Sch.fanout sch && root ≤ u32At b 40 &&
        (Sch.depth sch != 1 || (root == u32At b 40 && root == u32At b 44))) 56]
    match head with
    | some x => some (Status.invalidField, x)
    | none =>
      let levels := imageLevels sch b (Sch.depth sch) 64 root
      let leafOff := (levels.getLastD (64, 0)).1
      let count := u64At b 48
      let ids := (List.range count).map fun i => u64At b (idsAt sch b + 8 * i)
      let sizes := (List.range (u32At b 44)).map (imagePart sch b)
      let bookAt := idsAt sch b + 8 * count
      (match levelsFail sch b 1 [] { nodes := root, leaves := if Sch.depth sch = 1 then root else 0, child := 0 } levels with
      | some x => some x
      | none =>
        match sizesFail sch b leafOff with
        | some x => some x
        | none =>
          firstFail [
            idsFail b live (idsAt sch b) (partStarts 0 sizes) 0 [] ids,
            (if bookSet && Sch.distance sch != 1 then nonFiniteAt b .bf16 bookAt (Sch.pqBookBytes sch / 2) else none),
            padding b (imageSize sch b) (b.length - imageSize sch b)]).map fun x => (Status.invalidField, x)

/-- The tree that a checked image describes, over the vectors live at the admission epoch; `held` is the collection's codebook. -/
def imageTree (sch b : Bytes) (rows : List Row) (held : Bytes) : Tree :=
  let levels := imageLevels sch b (Sch.depth sch) 64 (u32At b 56)
  let ids := (List.range (u64At b 48)).map fun i => u64At b (idsAt sch b + 8 * i)
  let sizes := (List.range (u32At b 44)).map (imagePart sch b)
  let bookAt := idsAt sch b + 8 * u64At b 48
  let book := if bit (u8At b 12) 0 then slice b bookAt (Sch.pqBookBytes sch) else held
  { epoch := 0
    rootChildren := u32At b 56
    levels := levels.map fun l => (List.range l.2).map (imageNode sch b l.1 l.2)
    parts := (cutIds sizes ids).map fun p => encodePart sch book (p.filterMap fun id => rows.find? (·.id == id))
    codebook := book }

end Sys2Proof.Machine
end

