-- ==== Sys2Proof/Machine/Units.lean ====
section
/-! DEFINITION. What a collection holds and shows at an epoch, the visibility floor, what it is charged, and what a unit does when it is
stamped (06 R117-R125, R128; 09 R191). -/

namespace Sys2Proof.Machine

/-! ## What an epoch shows (R119, R122) -/

/-- The tree version that a query at `e` reads. -/
def treeAt (c : Coll) (e : Nat) : Option Tree := c.trees.find? (·.epoch ≤ e)

/-- A row stored at or below `e` that no tombstone at or below `e` has taken off: a tombstone kills the rows of its identifier that were
stamped before it. -/
def rowLive (c : Coll) (e : Nat) (r : Row) : Bool :=
  r.epoch ≤ e && !(c.tombs.any fun t => t.id == r.id && r.epoch < t.epoch && t.epoch ≤ e)

/-- Append-list entries that a query at `e` scans, dead ones among them. -/
def appendAt (c : Coll) (e : Nat) : List Row :=
  (c.append.filter fun a => a.row.epoch ≤ e && (match a.foldedAt with | none => true | some f => e < f)).map (·.row)

/-- The rows of the partitions that a query at `e` reads. -/
def treeRows (c : Coll) (e : Nat) : List Row := ((treeAt c e).map fun t => t.parts.flatten).getD []

/-- The vectors live at `e`. -/
def liveRows (c : Coll) (e : Nat) : List Row := (treeRows c e ++ appendAt c e).filter (rowLive c e)

/-- Append-list entries that no tree version holds. -/
def unfolded (c : Coll) : List AEntry := c.append.filter (·.foldedAt.isNone)

/-- Tombstones of a collection that are still recent. -/
def recentTombs (c : Coll) : Nat := (c.tombs.filter (·.recent)).length

/-- Recent tombstones of the module. -/
def recentTotal (s : State) : Nat := sumOf (s.search.colls.map recentTombs)

/-! ## The floor (R122, R125; 09 R191) -/

/-- Epochs of a collection that something still needs. -/
def neededEpochs (s : State) (c : Coll) : List Nat :=
  c.epoch :: c.snapshots ++
    (s.search.queries.filter fun q => q.coll == c.id).map (·.epoch) ++
    (s.ahp.cmds.filter fun d => d.entry.target == c.id && [0x2A, 0x2B].contains d.entry.opcode && d.phase == .admitted).flatMap (fun d => d.epoch :: d.held) ++
    (c.shard.map fun x => min x.holdFrom c.epoch).toList

/-- The visibility floor. -/
def floorOf (s : State) (c : Coll) : Nat := (neededEpochs s c).foldl min c.epoch

/-- What the collection holds no longer once the floor stands at `f`. -/
def releaseBelow (f : Nat) (c : Coll) : Coll :=
  let keep := fun x : Option Nat => match x with | none => true | some e => decide (f < e)
  let newest := ((c.trees.find? (·.epoch ≤ f)).map (·.epoch)).getD 0
  { c with
    trees := c.trees.filter fun t => newest ≤ t.epoch
    append := c.append.filter fun a => keep a.foldedAt
    tombs := (c.tombs.filter fun t => keep t.foldedAt).map fun t => if t.epoch ≤ f then { t with recent := false } else t }

/-- The floor of a collection may have risen. -/
def settle (id : Nat) (s : State) : State :=
  match findColl s id with
  | none => s
  | some c => updColl id (releaseBelow (floorOf s c)) s

/-! ## Charges (R111, R128) -/

/-- Bytes of a level with its centroids. -/
def levelBytes (sch : Bytes) (level : List Node) : Nat := level.length * nodeBytes sch

/-- Levels that fit a share from level 1 down, with what is left of it. DEDUCED (log entry 28). -/
def pinFrom (sch : Bytes) : List (List Node) → Nat → Nat × Nat
  | [], share => (0, share)
  | l :: r, share =>
    if levelBytes sch l ≤ share then
      let p := pinFrom sch r (share - levelBytes sch l)
      (p.1 + 1, p.2)
    else (0, share)

/-- Pinned levels of each collection, in order of creation, as they take their share of the tree banks of 8 MiB. DEDUCED (log entry 28). -/
def pinsGo : List Coll → Nat → List (Nat × Nat)
  | [], _ => []
  | c :: r, share =>
    match c.trees.head? with
    | none => (c.id, 0) :: pinsGo r share
    | some t =>
      let p := pinFrom c.schema t.levels share
      (c.id, p.1) :: pinsGo r p.2

/-- PINNED_LEVELS of a collection (notes/assumptions/28.md). DEDUCED (log entry 28). -/
def pinnedLevels (s : State) (id : Nat) : Nat :=
  (((pinsGo s.search.colls (settingNat s Key.treePinBanks * 8388608)).find? (·.1 == id)).map (·.2)).getD 0

/-- HBM per vector, in bits, since the deletion bitmap takes one. -/
def vectorBits (sch : Bytes) : Nat :=
  8 * (Sch.codeBytes sch + 8 + Sch.pqBytes sch + attrBytes sch + 20 + (if Sch.pinFull sch then fullBytes sch else 0)) + 1

/-- HBM of `n` vectors. -/
def vectorsHbm (sch : Bytes) (n : Nat) : Nat := ceilDiv (n * vectorBits sch) 8

/-- HBM beside the vectors of partitions of the given sizes: at most five tiles of padding and one cold-tier entry for each stripe. -/
def stripesHbm (sizes : List Nat) : Nat := sumOf (sizes.map fun n => ceilDiv n 4096) * (5 * 255 + 16)

/-- Bytes of an append-list entry (R119). -/
def appendEntryBytes (sch : Bytes) : Nat :=
  roundUp 16 (16 + Sch.codeBytes sch + attrBytes sch + (if Sch.distance sch = 1 then 0 else fullBytes sch))

/-- Tree versions of a collection that are being written (R128: affected partitions during a MERGE, the new version during a build). -/
def comingTrees (s : State) (coll : Nat) : List Tree :=
  s.search.units.filterMap fun u => if u.coll == coll then (match u.body with | .version t _ _ => some t | _ => none) else none

/-- HBM that a collection is charged (R128): its live vectors; the stripes of its present partitions; the partitions that only versions kept for
the floor or being written hold; the append list's reserve, the codebook and the unpinned nodes (notes/assumptions/27.md). DEDUCED (log entry 27). -/
def collHbm (s : State) (c : Coll) : Nat :=
  let now := ((c.trees.head?).map (·.parts)).getD []
  let others := c.trees.drop 1 ++ comingTrees s c.id
  let extra := (dedup (others.flatMap (·.parts))).filter fun p => !now.contains p
  let nodes := (c.trees.head?.map fun t => sumOf ((t.levels.drop (pinnedLevels s c.id)).map (levelBytes c.schema))).getD 0
  vectorsHbm c.schema ((liveRows c c.epoch).length + sumOf (extra.map List.length)) + stripesHbm ((now ++ extra).map List.length) +
    c.reserved * appendEntryBytes c.schema + ((c.trees.head?).map (·.codebook.length)).getD 0 + nodes +
    sumOf (others.map fun t => sumOf (t.levels.map (levelBytes c.schema)))

/-- Cold-tier space that a collection holds. DEDUCED (log entry 27). -/
def collCold (c : Coll) : Nat :=
  (liveRows c c.epoch).length * (fullBytes c.schema + (vectorBits c.schema - 1) / 8) + (unfolded c).length * appendEntryBytes c.schema

/-- Written cold-tier pages of a collection (13 R296): its schema, the stripes of every version held, nodes and codebooks, and the log records
that are not folded with their full vectors. DEDUCED (log entry 27). -/
def collPages (c : Coll) : Nat :=
  ceilDiv c.schema.length 4096 + partsPages c.schema (dedup (c.trees.flatMap (·.parts))) +
    sumOf (c.trees.map fun t => ceilDiv (sumOf (t.levels.map (levelBytes c.schema)) + t.codebook.length) 4096) +
    ceilDiv ((unfolded c).length * (appendEntryBytes c.schema + fullBytes c.schema)) 4096

/-- Logical pages of owners that are written. -/
def coldPages (s : State) : Nat := sumOf (s.search.colls.map collPages) + sumOf (s.mem.heads.map headPages)

/-- The cold tier takes no write of `pages` further pages: it is read-only (13 R303), or its user capacity of 61.44 TB would not hold them (13
R293). DEDUCED (log entry 41). -/
def coldRefuses (s : State) (pages : Nat) : Bool := s.cold.readOnly || 15000000000 < coldPages s + pages

/-- Pages that a new tree version writes. -/
def versionPages (sch : Bytes) (t : Tree) : Nat :=
  partsPages sch t.parts + ceilDiv (sumOf (t.levels.map (levelBytes sch)) + t.codebook.length) 4096

/-- HBM of a loaded plan: its working and its stash regions (02 R32). DEDUCED (log entry 27). -/
def planHbm (p : Plan) : Nat := (planWorkingMib p.bytes + planStashMib p.bytes) * 1048576

/-- HBM that the collections, the heads and the loaded plans hold. DEDUCED (log entry 27). -/
def heldHbm (s : State) : Nat :=
  sumOf (s.search.colls.map (collHbm s)) + sumOf (s.mem.heads.map (headHbm s)) + sumOf (s.ahp.plans.map planHbm)

/-- HBM that nothing holds. DEDUCED (log entry 27). -/
def freeHbm (s : State) : Nat := 1024 * hbmCapacityKib s - heldHbm s

/-- HBM that a new tree version takes beside what is held. DEDUCED (log entry 25). -/
def versionHbm (sch : Bytes) (t : Tree) : Nat :=
  vectorsHbm sch (sumOf (t.parts.map List.length)) + stripesHbm (t.parts.map List.length) + sumOf (t.levels.map (levelBytes sch)) + t.codebook.length

/-! ## Stamping a unit (R117, R119, R120) -/

/-- Tombstones of the identifiers that are live just before `e`; an identifier that a batch repeats is taken once. DESIGN CHOICE (log entry 26). -/
def tombsFor (c : Coll) (ids : List Nat) (e : Nat) : List Tomb :=
  let live := (liveRows c (e - 1)).map (·.id)
  ((dedup ids).filter live.contains).map fun i => { id := i, epoch := e, recent := true, foldedAt := none }

/-- A batch of inserts at `e`: it replaces the live vectors of its identifiers. -/
def stampInsert (rows : List Row) (e : Nat) (c : Coll) : Coll :=
  { c with
    tombs := c.tombs ++ tombsFor c (rows.map (·.id)) e
    append := c.append ++ rows.map fun r => { row := { r with epoch := e }, foldedAt := none } }

/-- A batch of deletes at `e`. DEDUCED (log entry 26). -/
def stampDelete (ids : List Nat) (e : Nat) (c : Coll) : Coll := { c with tombs := c.tombs ++ tombsFor c ids e }

/-- The first `n` unfolded entries stamped at or below `cut` leave the append list at `e`. -/
def foldEntries (cut e : Nat) : Nat → List AEntry → List AEntry
  | _, [] => []
  | 0, l => l
  | n + 1, a :: r =>
    if a.foldedAt.isNone && a.row.epoch ≤ cut then { a with foldedAt := some e } :: foldEntries cut e n r else a :: foldEntries cut e (n + 1) r

/-- The parts of a list that a new tree version leaves as they were, by their new numbers: partitions and their full vectors, and the append list. -/
def keptParts (old : Option Tree) (new : Tree) (ps : List Nat) : List Nat :=
  sortOn id (ps.filterMap fun p =>
    if p = 0xFFFFFFFF then some p
    else ((old.bind (·.parts[p % fullMark]?)).bind fun rows => new.parts.idxOf? rows).map (p - p % fullMark + ·))

/-- A tree version at `e` (R117, R123): it replaces the old one, takes the folded entries off the append list, and clears the tombstones
that nothing below them needs any more. DEDUCED (log entry 24). -/
def stampVersion (tree : Tree) (cut folded e : Nat) (build : Bool) (c : Coll) : Coll :=
  let append := foldEntries cut e folded c.append
  let left := tree.parts.flatten ++ (append.filter (·.foldedAt.isNone)).map (·.row)
  let applied := fun t : Tomb => t.foldedAt.isNone && t.epoch ≤ cut && !(left.any fun r => r.id == t.id && r.epoch < t.epoch)
  let tree' := { tree with epoch := e }
  { c with
    trees := tree' :: c.trees
    append := append
    tombs := c.tombs.map fun t => if applied t then { t with foldedAt := some e } else t
    unrestored := keptParts c.trees.head? tree' c.unrestored
    damaged := keptParts c.trees.head? tree' c.damaged
    autoOff := if build then false else c.autoOff }

/-- Rows of a bucket that are live just before `e`. -/
def bucketRows (c : Coll) (bucket e : Nat) : List Row := (liveRows c (e - 1)).filter fun r => bucketOf r.id == bucket

/-- What the unit does to its collection. -/
def stampBody (b : UnitBody) (e : Nat) (c : Coll) : Coll :=
  match b with
  | .insert rows => stampInsert rows e c
  | .delete ids => stampDelete ids e c
  | .version tree cut folded => stampVersion tree cut folded e ((c.job.map (·.kind)).getD 1 != 1) c
  | .handOver bucket => stampDelete ((bucketRows c bucket e).map (·.id)) e c
  | .takeOver _ _ rows => stampInsert rows e c

/-- Rows of an insert, or identifiers found live by a delete. -/
def unitCount (b : UnitBody) (e : Nat) (c : Coll) : Nat :=
  match b with
  | .insert rows => rows.length
  | .takeOver _ _ rows => rows.length
  | .delete ids => (tombsFor c ids e).length
  | _ => 0

/-- A unit's kind as its log record takes it. -/
def unitKind : UnitBody → Nat
  | .insert _ => 1
  | .delete _ => 2
  | .version _ _ _ => 3
  | .handOver _ => 4
  | .takeOver _ _ _ => 5

/-- What a unit writes to the cold tier beside its log record's own fields. -/
def unitContent (sch : Bytes) (b : UnitBody) : Bytes :=
  match b with
  | .insert rows => (rows.map (rowRecord sch)).flatten
  | .takeOver bucket _ rows => toLE 2 bucket ++ (rows.map (rowRecord sch)).flatten
  | .delete ids => (ids.map (toLE 8 ·)).flatten
  | .version tree cut folded =>
    toLE 8 cut ++ toLE 4 folded ++ (tree.levels.flatten.map fun n => toLE 4 n.first ++ toLE 2 n.count ++ toLE 4 n.vectors ++ n.centroid).flatten ++
      (tree.parts.map fun p => toLE 4 p.length ++ (p.map (rowRecord sch)).flatten).flatten ++ tree.codebook
  | .handOver bucket => toLE 2 bucket

/-- A shard remembers at which epoch a unit was stamped, while that epoch may still turn out void (09 R192). -/
def noteStamp (tag e : Nat) (c : Coll) : Coll := { c with shard := c.shard.map fun x => { x with stamped := x.stamped ++ [(tag, e)] } }

/-- What a unit stamped at `e` left on its collection is discarded: its epoch is void (09 R192). -/
def unstamp (e : Nat) (c : Coll) : Coll :=
  let open_ := fun f : Option Nat => if f = some e then none else f
  { c with
    trees := c.trees.filter (·.epoch ≠ e)
    append := (c.append.filter (·.row.epoch ≠ e)).map fun a => { a with foldedAt := open_ a.foldedAt }
    tombs := (c.tombs.filter (·.epoch ≠ e)).map fun t => { t with foldedAt := open_ t.foldedAt }
    shard := c.shard.map fun x => { x with stamped := x.stamped.filter (·.2 ≠ e) } }

/-- A unit is stamped with `e` (R120): its collection takes it, and the state chain its log record (17 R414). -/
def stampUnit (u : CUnit) (e : Nat) (s : State) : State :=
  match findColl s u.coll with
  | none => s
  | some c =>
    let content := unitContent c.schema u.body
    let gone := match u.body with
      | .version tree _ _ => (((c.trees.head?).map fun t : Tree => t.parts).getD []).filter fun p => !tree.parts.contains p
      | _ => []
    clearLost 1 c.id (gone.flatMap (partLpns c.id c.schema)) <| bypassWrite (objColl · == some c.id) <| chainExtend 1 c.id (Config.logRecord (unitKind u.body) content)
      (updColl c.id (fun x => noteStamp u.tag e (stampBody u.body e x)) (coldWrite content.length s))

/-! ## Units -/

/-- The unit with this tag. -/
def findUnit (s : State) (tag : Nat) : Option CUnit := s.search.units.find? (·.tag == tag)

/-- A unit changed by `f`. -/
def updUnit (tag : Nat) (f : CUnit → CUnit) (s : State) : State :=
  { s with search := { s.search with units := mapIf (fun u => u.tag == tag) f s.search.units } }

/-- A unit goes. -/
def dropUnit (tag : Nat) (s : State) : State := { s with search := { s.search with units := s.search.units.filter (·.tag ≠ tag) } }

/-- The next UNIT_TAG (09 R200): the module index and a sequence number. -/
def unitTag (s : State) : Nat := moduleIndex s <<< 48 + s.search.nextTag % (1 <<< 48)

/-- APPEND_LIST_LIMIT and AUTO_MERGE_APPEND as they stand. -/
def liveLimits (s : State) : Nat × Nat := (settingNat s Key.appendListLimit, settingNat s Key.autoMergeAppend)

/-- A new unit, with the APPEND_LIST_LIMIT and AUTO_MERGE_APPEND that it is held to (R127). -/
def newUnit (s : State) (coll : Nat) (body : UnitBody) (origin : UnitFrom) (phase : UnitPhase) (limits : Nat × Nat) : CUnit where
  tag := unitTag s
  coll := coll
  body := body
  origin := origin
  phase := phase
  limit := limits.1
  auto := limits.2

/-- A unit is added. -/
def addUnit (coll : Nat) (body : UnitBody) (origin : UnitFrom) (phase : UnitPhase) (limits : Nat × Nat) (s : State) : State :=
  { s with search := { s.search with
      units := s.search.units ++ [newUnit s coll body origin phase limits]
      nextTag := s.search.nextTag + 1 } }

/-! ## Room (R121) -/

/-- A MERGE runs or is queued on a collection; one that can fold nothing does not count (R123, R124). DEDUCED (log entry 21). -/
def mergeAhead (s : State) (c : Coll) : Bool :=
  !c.trees.isEmpty && !c.autoOff && (c.job.any (·.kind == 1) ||
    s.ahp.cmds.any (fun d => d.entry.opcode == 0x27 && d.entry.target == c.id && (d.phase == .dispatched || d.phase == .admitted)))

/-- Whether a batch finds room, must wait, or fails. -/
inductive Room
  | yes | wait | full | beyond
  deriving DecidableEq, Repr

/-- Units of a collection that are on their way: they have their room and have not been stamped. -/
def unitsAhead (s : State) (coll : Nat) : List CUnit := s.search.units.filter fun u => u.coll == coll && u.phase != .waits

/-- Rows that a unit adds to the append list. -/
def addedRows : UnitBody → List Row
  | .insert rows => rows
  | .takeOver _ _ rows => rows
  | _ => []

/-- Identifiers that a unit may write tombstones of. -/
def touchedIds (b : UnitBody) : List Nat := (addedRows b).map (·.id) ++ (match b with | .delete ids => ids | _ => [])

/-- Identifiers that are live, or will be once the units on their way have committed. -/
def liveAhead (s : State) (c : Coll) : List Nat :=
  dedup ((liveRows c c.epoch).map (·.id) ++ (unitsAhead s c.id).flatMap fun u => (addedRows u.body).map (·.id))

/-- Tombstones that a unit may write. -/
def tombsAhead (s : State) (c : Coll) (b : UnitBody) : Nat := ((dedup (touchedIds b)).filter (liveAhead s c).contains).length

/-- Recent tombstones of the module with those of the units on their way. -/
def tombsTaken (s : State) : Nat :=
  recentTotal s + sumOf (s.search.colls.map fun c => sumOf ((unitsAhead s c.id).map fun u => tombsAhead s c u.body))

/-- Room for a batch (R103, R121; notes/assumptions/21.md): what is on its way counts as committed. A cold tier that is read-only or full takes none
(13 R293, R303). DEDUCED (log entry 21). -/
def roomFor (s : State) (c : Coll) (limit auto : Nat) (b : UnitBody) : Room :=
  let held := (unfolded c).length + sumOf ((unitsAhead s c.id).map fun u => (addedRows u.body).length)
  let live := liveAhead s c
  let fits := tombsTaken s + tombsAhead s c b ≤ 524288
  if coldRefuses s (ceilDiv (unitContent c.schema b).length 4096) then .beyond else match b with
  | .insert rows =>
    let fresh := ((dedup (rows.map (·.id))).filter fun i => !live.contains i).length
    if 68719476736 < live.length + fresh then .beyond
    else if limit < held + rows.length then
      (if c.deleting || (auto == 0 && !mergeAhead s c) then .full else .wait)
    else if fits then .yes else .wait
  | .delete _ => if held < limit then (if fits then .yes else .wait) else if c.deleting then .full else .wait
  | _ => .yes

end Sys2Proof.Machine
end

