-- ==== Sys2Proof/Machine/Relocate.lean ====
section
/-! DEFINITION. The tiles that HBM holds, the patrol, and relocation (07 R141; 12 R277, R282, R284, R287). -/

namespace Sys2Proof.Machine

/-! ## What is laid out -/

/-- Rows of a stripe's row group (07 R141). -/
def groupRows (sch : Bytes) : Nat := max 1 (256 / Sch.codeBytes sch)

/-- Units of a row group: its codes, its identifiers, its attribute records and its deletion bits each begin a unit. DESIGN CHOICE (log entry 71). -/
def groupUnitCount (sch : Bytes) : Nat :=
  let n := groupRows sch
  ceilDiv (n * Sch.codeBytes sch) 256 + ceilDiv (8 * n) 256 + ceilDiv (n * attrBytes sch) 256 + ceilDiv n 2048

/-- A tile that is to lie in HBM. -/
structure TileNeed where
  obj : MediaObj
  piece : Nat
  placement : Nat
  depth : Nat
  groups : Nat
  deriving DecidableEq, Repr

/-- A tile of some bytes over all channels, where it holds any. -/
def wholeTile (obj : MediaObj) (piece bytes : Nat) : List TileNeed :=
  if bytes = 0 then [] else [{ obj := obj, piece := piece, placement := 2, depth := 1, groups := ceilDiv bytes 256 }]

/-- The tiles of partition `part` of a collection with `n` rows: for each stripe its row groups and its PQ codes, and its full vectors where they are
pinned. -/
def partTiles (c : Coll) (part n : Nat) : List TileNeed :=
  (List.range (ceilDiv n 4096)).flatMap fun i =>
    let rows := min 4096 (n - 4096 * i)
    { obj := .partition c.id part, piece := 2 * i, placement := 2, depth := groupUnitCount c.schema, groups := ceilDiv rows (groupRows c.schema) } ::
      wholeTile (.partition c.id part) (2 * i + 1) (rows * Sch.pqBytes c.schema) ++
      (if Sch.pinFull c.schema then wholeTile (.fullVec c.id part) i (rows * fullBytes c.schema) else [])

/-- Rows of a partition in the largest tree version that is held. -/
def partSize (c : Coll) (part : Nat) : Nat := maxOf (c.trees.map fun t => ((t.parts[part]?).map List.length).getD 0)

/-- The tiles of a collection. -/
def collTiles (s : State) (c : Coll) : List TileNeed :=
  let nodes := (c.trees.head?.map fun t => sumOf ((t.levels.drop (pinnedLevels s c.id)).map (levelBytes c.schema))).getD 0
  let book := ((c.trees.head?).map (·.codebook.length)).getD 0
  (List.range (maxOf (c.trees.map (·.parts.length)))).flatMap (fun p => partTiles c p (partSize c p)) ++
    wholeTile (.append c.id) 0 (c.reserved * appendEntryBytes c.schema) ++
    wholeTile (.tree c.id) 0 (nodes + book + 20 * (liveRows c c.epoch).length)

/-- Bytes of a head's step accumulators, which lie in the order tensor 1, 2, 3. -/
def accumBytes (d : Bytes) : Nat := 4 * sumOf ([1, 2, 3].map fun t => if Hd.holds d t then Hd.rows d t * Hd.cols d t else 0)

/-- The tiles of a head: its replicated tensors and scale tiles, its own value-row blocks, its stash entries, and what its backwards have left. -/
def headTiles (s : State) (h : Head) : List TileNeed :=
  let m := h.members.length
  let blocks := match ownPosition s h.members with
    | none => []
    | some p => if Hd.streamed h.desc || Hd.tied h.desc then [] else (List.range (ownBlocks h.desc p m)).map fun i => i * m + p
  ([1, 2, 3].flatMap fun t => if Hd.holds h.desc t then wholeTile (.replicated h.id t) 0 (Hd.rows h.desc t * Hd.rowBytes h.desc t) else []) ++
    (h.tiles.flatMap fun t => wholeTile (.replicated h.id t.1) 0 t.2.length) ++
    (blocks.flatMap fun b => wholeTile (.valueBlock h.id b) 0 (min 4096 (Hd.slots h.desc - 4096 * b) * Hd.rowBytes h.desc 4)) ++
    (h.stash.flatMap fun x => wholeTile (.stash h.id x.step x.mb) 0 (x.stashBytes + x.inputBytes)) ++
    (if h.steps.isEmpty then [] else wholeTile (.training h.id) 0 (accumBytes h.desc))

/-- The tiles of a loaded plan: its stored image, and those of its HBM regions with their placement. -/
def planTiles (p : Plan) : List TileNeed :=
  wholeTile (.plan p.kind p.target p.planId) 0 p.bytes.length ++
    ((tilesOf p.bytes).filter (·.tier == 2)).map fun t =>
      { obj := .planTile p.kind p.target p.planId, piece := t.id, placement := t.placement, depth := 1, groups := ceilDiv t.bytes 256 }

/-- Every tile that is to lie in HBM. -/
def neededTiles (s : State) : List TileNeed :=
  s.search.colls.flatMap (collTiles s) ++ s.mem.heads.flatMap (headTiles s) ++ s.ahp.plans.flatMap planTiles

/-- A tile is the one that is needed. -/
def fitsNeed (t : HbmTile) (n : TileNeed) : Bool :=
  t.obj == n.obj && t.piece == n.piece && t.placement == n.placement && t.depth == n.depth && t.groups == n.groups

/-- A needed tile gets its place, where it has none and there is room. Units on a fenced channel are uncorrectable from the start (R287). -/
def placeTile (s : State) (n : TileNeed) : State :=
  if s.hbm.tiles.any (fitsNeed · n) then s
  else match allocate s n.placement n.depth n.groups with
    | none => s
    | some runs =>
      let t : HbmTile := { id := s.hbm.nextTile, obj := n.obj, piece := n.piece, placement := n.placement, depth := n.depth, groups := n.groups, runs := runs, old := [] }
      let s1 := { s with hbm := { s.hbm with tiles := s.hbm.tiles ++ [t], nextTile := s.hbm.nextTile + 1 } }
      s.hbm.fenced.foldl (fun u c => hurtTile c u t) s1

/-- The tiles as they lie: those that nothing needs any more are freed, and those without a place get one. The allocator does so when a pass, a burst
with errors, a relocation or the caches first ask. DESIGN CHOICE (log entry 71). -/
def placeTiles (s : State) : State :=
  let needs := neededTiles s
  let kept := s.hbm.tiles.filter fun t => needs.any (fitsNeed t)
  needs.foldl placeTile { s with hbm := { s.hbm with tiles := kept, relocs := s.hbm.relocs.filter fun r => kept.any (·.id == r.tile) } }

/-- The tile of an object. -/
def tileOfObj (s : State) (obj : MediaObj) (piece : Nat) : Option HbmTile := s.hbm.tiles.find? fun t => t.obj == obj && t.piece == piece

/-- The channel on which a row group of a stripe lies, which is its Sloe engine (07 R141, 02 R23). -/
def engineOf (s : State) (coll part stripe group : Nat) : Option Nat :=
  (tileOfObj s (.partition coll part) (2 * stripe)).bind fun t => (groupPlace s t.placement t.depth t.runs group).map (·.1)

/-- Some bytes of the object's first tile are used through the caches of their home dies (R271, R272). -/
def touchBytes (dirty : Bool) (obj : MediaObj) (at_ n : Nat) (s : State) : State :=
  match tileOfObj s obj 0 with
  | none => s
  | some t => (groupUnits s t ((List.range (ceilDiv (at_ % 256 + n) 256)).map (at_ / 256 + ·))).foldl (useLine dirty) s

/-- Value rows are read by slot, which is no transfer of whole tiles: they pass through the caches (R271). -/
def touchRows (v : Head) (slots : List Nat) (s : State) : State :=
  let w := Hd.rowBytes v.desc 4
  (dedup slots).foldl (fun u x => touchBytes false (.valueBlock v.id (x / 4096)) (x % 4096 * w) w u) (placeTiles s)

/-! ## The patrol (R282) -/

/-- SCRUB_PASS (R282): the patrol reads a slot of a channel in service. Scrub is suspended in P2 and P3 (18 R420). DEDUCED (log entry 45). -/
def execScrubPass (scrub : Scrub) (t : Nat) (s : State) : Res :=
  let s0 := tick t s
  .next (if s0.power.state ≠ .p0 ∨ (slotAt s0 scrub.channel scrub.bank scrub.row scrub.burst).isNone then s0
    else readBurst true scrub (placeTiles s0))

/-! ## Relocation (R284) -/

/-- A tile has a unit in a page, or in a bank where `row` is none. -/
def tileIn (s : State) (t : HbmTile) (channel bank : Nat) (row : Option Nat) : Bool :=
  let span := match row with
    | some r => ((slotPage s channel (bankPages * bank + r)).map fun p => (pageSlots * p, pageSlots)).getD (0, 0)
    | none => bankSlots s channel bank
  t.runs.any fun r => r.slot < span.1 + span.2 && span.1 < r.slot + r.count && runHolds s t.placement channel r.slot r

/-- A tile of a head is being relocated: a later writer waits for the switch. -/
def headMoves (s : State) (head : Nat) : Bool := s.hbm.relocs.any fun r => s.hbm.tiles.any fun t => t.id == r.tile && objHead t.obj == some head

/-- The same of a collection. -/
def collMoves (s : State) (coll : Nat) : Bool := s.hbm.relocs.any fun r => s.hbm.tiles.any fun t => t.id == r.tile && objColl t.obj == some coll

/-- A writer of an object is at work: it completes before the tile moves. -/
def writerAtWork (s : State) (obj : MediaObj) : Bool :=
  match objHead obj with
  | none => false
  | some h => s.mem.upds.any (fun u => u.head == h || (findHead s u.head).any fun x => Hd.source x.desc == h) || s.mem.bwds.any (·.head == h)

/-- The retired memory of a bank: the whole bank, or one page of it. -/
def retiredPart (whole : Bool) (row : Nat) : Option Nat := if whole then none else some row

/-- TILE_RELOCATION (R284): a tile with a unit in retired memory starts to move to a new allocation, or stays where it is for want of room. DEDUCED (log entry 45). -/
def execTileRelocation (tile channel bank : Nat) (whole : Bool) (row : Nat) (s : State) : Res :=
  let s0 := placeTiles s
  let part := retiredPart whole row
  match s0.hbm.tiles.find? (·.id == tile) with
  | none => .next s0
  | some t =>
    if isRetired s0 channel bank part = false ∨ tileIn s0 t channel bank part = false ∨ s0.hbm.relocs.any (·.tile == tile) ∨ writerAtWork s0 t.obj then .next s0
    else match allocate s0 t.placement t.depth t.groups with
      | some runs => .next { s0 with hbm := { s0.hbm with relocs := s0.hbm.relocs ++ [{ tile := tile, channel := channel, bank := bank, runs := runs }] } }
      | none =>
        let m : StuckMem := { channel := channel, bank := bank, row := part }
        .next (if s0.hbm.stuck.contains m then s0 else { s0 with hbm := { s0.hbm with stuck := s0.hbm.stuck ++ [m] } })

/-- RELOCATION_SWITCH (R284): the copy is complete and its uncorrectable units are recovered. Commands admitted from now on read the new copy, and the old one is
freed when its last reader completes. The tile's dirty cache lines have been copied too. DEDUCED (log entry 45). -/
def execRelocationSwitch (tile : Nat) (s : State) : Res :=
  match s.hbm.relocs.find? (·.tile == tile), s.hbm.tiles.find? (·.id == tile) with
  | some r, some t =>
    let mine := s.hbm.hurt.filter fun h => t.runs.any (runHolds s t.placement h.channel h.slot)
    if mine.any fun h => !h.recovered then .next s
    else
      let s1 := bypassWrite (· == t.obj) s
      let moved := { t with runs := r.runs, old := t.old.filter (fun o => readerBefore s o.order) ++ [{ runs := t.runs, order := s.ahp.nextOrder }] }
      let s2 := { s1 with hbm := { s1.hbm with
        relocs := s1.hbm.relocs.filter (·.tile ≠ tile)
        tiles := mapIf (fun x => x.id == tile) (fun _ => moved) s1.hbm.tiles
        hurt := s1.hbm.hurt.filter fun h => !mine.contains h } }
      .next (idleFrom (bump Key.tilesRelocated ((dedup (mine.map (·.obj))).foldl (fun u o => healObject o u) s2)))
  | _, _ => .next s

end Sys2Proof.Machine
end

