-- ==== Sys2Proof/Machine/Guard.lean ====
section
/-! DEFINITION. The start of a reset, bursts and words beyond correction that a command meets, and check codes that differ (18 R430; 12 R275
R285; 19 R437). -/

namespace Sys2Proof.Machine

/-- A reset of cause 2, 3, 4 or 6 starts (R430): admission closes, and write units may still become durable until START_UP. DEDUCED (log entry 57). -/
def beginReset (cause : Nat) (s : State) : State :=
  if s.power.resetting.isSome ∨ s.power.state = .p4 ∨ s.power.state = .idFault then s
  else
    let s1 := logEvent Ev.resetStarted Ev.info 0 (toLE 1 cause) s
    { s1 with ahp := { s1.ahp with admissionOpen := false }, power := { s1.power with resetting := some (cause, s1.now) } }

/-! ## Reads and words beyond correction (12 R275, R285) -/

/-- The collection whose pinned levels hold a word of a tree bank: the levels of the collections lie one after another, in order of creation, in banks 1
to T. DESIGN CHOICE (log entry 64). -/
def levelOwner (s : State) (bank word : Nat) : Option Nat :=
  let held := fun c : Coll => (c.trees.head?.map fun t => sumOf ((t.levels.take (pinnedLevels s c.id)).map (levelBytes c.schema))).getD 0
  let rec go : List Coll → Nat → Option Nat
    | [], _ => none
    | c :: r, at_ => if at_ < held c then some c.id else go r (at_ - held c)
  go s.search.colls ((bank - 1) * 8388608 + 8 * word)

/-- A word of the shared store's own banks has no copy left on either die: its source restores it, and MEDIA_RECOVERY ends that (R275). DESIGN CHOICE (log entry
64). -/
def lostStore (unit : Nat) (obj : MediaObj) (s : State) : State :=
  let h : Hurt := { channel := 0xFFFF, slot := unit, obj := obj, recovered := false }
  { s with hbm := { s.hbm with hurt := s.hbm.hurt.filter (fun x => !(x.channel == h.channel && x.slot == h.slot)) ++ [h] } }

/-- The unit of a dirty line is uncorrectable; the line is invalid either way (R275). -/
def lostLine (l : CacheLine) (s : State) : State :=
  let s1 := dropLine l.channel l.slot s
  if l.dirty then hurtSlot l.channel l.slot (bump Key.hbmUncorrectableBursts s1) else s1

/-- The line of a cache bank in which a word lies: the ways of a set follow one another. DESIGN CHOICE (log entry 72). -/
def lineAt (s : State) (die bank word : Nat) : Option CacheLine :=
  s.hbm.cache.find? fun l => l.die == die && l.bank == bank && l.set * 16 + l.way == word / 32

/-- A word that the code cannot correct: it is counted and recorded, and handled by the role of its bank. What a command owns is lost to it
(`lostMedia`); bank 0 and the tree banks have a copy on the other die (R275). DEDUCED (log entry 64). -/
def sramWord (s : State) (x : SramWord) : State :=
  let s1 := logEvent Ev.sramUncorrectable Ev.error x.unit (toLE 4 x.word) (bump Key.sramUncorrectable s)
  if x.unit < 32 then s1
  else
    let bank := (x.unit - 32) % 40
    match bankRole s bank with
    | .tombstones => if x.copyLost then lostStore x.unit .tombTable s1 else s1
    | .tree => match levelOwner s bank x.word with
      | some coll => if x.copyLost then lostStore x.unit (.level coll) s1 else s1
      | none => s1
    | .scratch => s1
    | .cache => match lineAt s ((x.unit - 32) / 40) bank x.word with
      | some l => lostLine l s1
      | none => s1

/-- A first mismatch of a check code is counted, and the descriptor or chunk is formed or fetched again (19 R437). DEDUCED (log entry 64). -/
def retried (x : CodeChecks) (s : State) : State := if x.retries = 0 then s else bumpBy Key.checkCodeRetries x.retries s

/-- The bursts with errors that a command reads. -/
def readBursts (l : List Scrub) (s : State) : State := if l.isEmpty then s else l.foldl (fun u x => readBurst false x u) (placeTiles s)

/-- What the codes count, record and hurt while a command runs. DEDUCED (log entry 64). -/
def guarded (x : Upsets) (s : State) : State :=
  let s1 := readBursts x.bursts s
  retried x.codes (x.words.foldl sramWord (if x.corrected = 0 then s1 else bumpBy Key.sramCorrected x.corrected s1))

/-- The affected-media entries of the words of cluster memory and of scratchpad banks that the command owns. DEDUCED (log entry 64). -/
def lostMedia (s : State) (x : Upsets) : List Nat :=
  sortOn id (dedup (x.words.flatMap fun w => if w.unit < 32 || bankRole s ((w.unit - 32) % 40) == .scratch then w.media else []))

/-! ## Check codes (19 R437) -/

/-- A second mismatch on a command or a chunk: a record, and a reset of cause SUPERVISOR. DEDUCED (log entry 64). -/
def codeFails (c : Cmd) (m : CodeMismatch) (s : State) : State :=
  let plan := if m.unit = 0xFFFF then 0 else (c.plan.map (·.planId)).getD 0
  beginReset 6 (logEvent Ev.checkCodeMismatch Ev.error m.unit (toLE 8 plan ++ toLE 4 c.entry.cmdId ++ toLE 4 m.chunk) s)

end Sys2Proof.Machine
end

