-- ==== Sys2Proof/Machine/Select.lean ====
section
/-! DEFINITION. Selection, deduplication and merging of entries, and the layouts that hold them (03 R56, 08 R165-R174, 09 R195). -/

namespace Sys2Proof.Machine

/-! ## Order and selection (R165, R166) -/

/-- Entries in key order: ascending (score, identifier). -/
def candLe (a b : Cand) : Bool := scoreKey a.score < scoreKey b.score || (scoreKey a.score == scoreKey b.score && a.id ≤ b.id)

/-- A list of entries with its boundary ties and the count that it was selected for: a partial list (R170). -/
structure PList where
  list : List Cand
  ties : Nat
  k : Nat
  deriving DecidableEq, Repr

/-- Entries that follow the last kept one with the same score, where the list is full. -/
def tiesOf (k : Nat) (kept rest : List Cand) : Nat :=
  match kept.getLast? with
  | some l => if kept.length = k then (rest.filter (·.score == l.score)).length else 0
  | none => 0

/-- select of R166. A row that holds the fill identifier is no entry. -/
def selectK (k : Nat) (s : List Cand) : PList :=
  let sorted := sortBy candLe (s.filter (·.id ≠ fillId))
  { list := sorted.take k, ties := tiesOf k (sorted.take k) (sorted.drop k), k := k }

/-- Passes of a selection (R167). -/
def selectPasses (k : Nat) : Nat := ceilDiv k 1024

/-- SELECTION_PASSES for one selection. -/
def countPasses (k : Nat) (s : State) : State := bumpBy Key.selectionPasses (selectPasses k) s

/-! ## Deduplication and merging (R172, R173) -/

/-- better_copy. -/
def betterCopy (x y : Cand) : Bool :=
  if x.stage ≠ y.stage then y.stage < x.stage
  else if x.score ≠ y.score then scoreKey x.score < scoreKey y.score
  else x.shard < y.shard

/-- One entry joins the union; the number tells the copies dropped so far. -/
def addCopy (u : List Cand × Nat) (x : Cand) : List Cand × Nat :=
  match u.1.find? (·.id == x.id) with
  | none => (u.1 ++ [x], u.2)
  | some y => (if betterCopy x y then mapIf (fun c => c.id == x.id) (fun _ => x) u.1 else u.1, u.2 + 1)

/-- The carry of a list: its ties, when it is full and ends at the score at which the merged list ends. -/
def carryOf (merged l : PList) : Nat :=
  match merged.list.getLast?, l.list.getLast? with
  | some a, some b => if merged.list.length = merged.k ∧ l.list.length = l.k ∧ a.score = b.score then l.ties else 0
  | _, _ => 0

/-- merge of R173 with the number of copies that it drops. -/
def mergeLists (ls : List PList) (k : Nat) : PList × Nat :=
  let u := (ls.flatMap (·.list)).foldl addCopy ([], 0)
  let m := selectK k u.1
  ({ m with ties := m.ties + sumOf (ls.map (carryOf m)) }, u.2)

/-- One level of coordinator_merge. -/
def mergeLevel (g k : Nat) (ls : List PList) : List PList × Nat :=
  let runs := (chunksOf g ls).map fun r => mergeLists r k
  (runs.map (·.1), sumOf (runs.map (·.2)))

/-- coordinator_merge of R195; `fuel` bounds its levels, of which no merge has more than three. -/
def coordinatorGo (k : Nat) : Nat → List PList → Nat → PList × Nat
  | 0, ls, dropped => let m := mergeLists ls k; (m.1, dropped + m.2)
  | n + 1, ls, dropped =>
    if 2097152 < ls.length * k then
      let l := mergeLevel (2097152 / k) k ls
      coordinatorGo k n l.1 (dropped + l.2)
    else
      let m := mergeLists ls k
      (m.1, dropped + m.2)

/-- The merge of shard lists, in ascending shard, with the number of copies dropped. -/
def coordinatorMerge (ls : List PList) (k : Nat) : PList × Nat := coordinatorGo k 4 ls 0

/-! ## Layouts (03 R56, R170, R171) -/

/-- A result record. -/
def candBytes (c : Cand) : Bytes := toLE 2 c.shard ++ zeros 1 ++ toLE 1 c.stage ++ toLE 4 c.score ++ toLE 8 c.id

/-- A fill record. -/
def fillRecord : Bytes := zeros 4 ++ toLE 4 0x7F800000 ++ toLE 8 fillId

/-- K result records. -/
def recordsBytes (l : List Cand) (k : Nat) : Bytes := (l.map candBytes).flatten ++ (List.replicate (k - l.length) fillRecord).flatten

/-- Where a partial list comes from (R170). -/
inductive Source
  | cluster (index : Nat)
  | append
  | shard
  deriving DecidableEq, Repr

/-- SOURCE_INDEX and SOURCE_KIND. -/
def Source.bytes : Source → Bytes
  | .cluster i => toLE 1 i ++ toLE 1 1
  | .append => toLE 1 0 ++ toLE 1 2
  | .shard => toLE 1 0 ++ toLE 1 3

/-- A partial list (R170). -/
def plistBytes (src : Source) (shard : Nat) (l : PList) : Bytes :=
  toLE 4 0x54504C41 ++ toLE 2 shard ++ src.bytes ++ toLE 4 l.k ++ toLE 4 l.list.length ++ toLE 4 l.ties ++ zeros 12 ++
    (l.list.map candBytes).flatten

/-- The entry at an offset. -/
def candAt (b : Bytes) (off : Nat) : Cand where
  score := u32At b (off + 4)
  id := u64At b (off + 8)
  stage := u8At b (off + 3)
  shard := u16At b off
  part := 0

/-- Each entry precedes the next in key order. -/
def keyAscending : List Cand → Bool
  | a :: b :: r => candLe a b && !candLe b a && keyAscending (b :: r)
  | _ => true

/-- A canonical score (R45): no NaN and no −0. -/
def canonical (c : Nat) : Bool := canonScore (val32 c) == c

/-- The partial list in `b`, where it comes from `src` and is well formed for a merge of `k` (R171). -/
def parsePlist (src : Source) (b : Bytes) (k shard : Nat) : Option PList :=
  let n := u32At b 12
  let l := (List.range n).map fun i => candAt b (32 + 16 * i)
  if 32 ≤ b.length && b.length == 32 + 16 * n && u32At b 0 == 0x54504C41 && u16At b 4 == shard && slice b 6 2 == src.bytes && u32At b 8 == k &&
      n ≤ k && (n == k || u32At b 16 == 0) && leAt b 20 12 == 0 && keyAscending l &&
      l.all (fun c => canonical c.score && c.id != fillId && 1 ≤ c.stage && c.stage ≤ 3) &&
      (List.range n).all (fun i => u8At b (34 + 16 * i) == 0)
  then some { list := l, ties := u32At b 16, k := k } else none

end Sys2Proof.Machine
end

