-- ==== Sys2Proof/Machine/Layers.lean ====
section
/-! DEFINITION. The arithmetic of a forward, token by token (10 R215-R223), over a head `h` and the head `v` whose value table it
reads. -/

namespace Sys2Proof.Machine

/-! ## Products on output channels (04 R71, R74, R80) -/

/-- The operand path of two formats. -/
def pathOf (a b : Fmt) : Path :=
  if (a == .e4m3 || a == .e5m2) && (b == .e4m3 || b == .e5m2) then .fp8 else if a == .int8 && b == .int8 then .int else .bf16

/-- A code of a weight as it enters the multiplier: an INT8 code less its zero point, which is exact on both of its paths. -/
def weightOperand (f : Fmt) (t : Bytes) (c code : Nat) : Num :=
  match f with
  | .int8 => Num.ofInt (signedOf 8 code - chanZero t c)
  | _ => outOperand f t code

/-- Output channel `c` of a MATMUL: the row `a` with scale `sa` against the codes of the channel, in FP32. -/
def channelOut (path : Path) (a : List Num) (sa : Num) (f : Fmt) (t side : Bytes) (c : Nat) (codes : List Nat) : Num :=
  if chanConst t c then scaledOutput .zero (dot path f f a (a.map fun _ => Num.ofInt 1)) true .zero (chanConstVal t c) sa
  else scaledOutput (dot path f f a (codes.map (weightOperand f t c))) .zero false .zero (effScale t side c) sa

/-! ## The scales and the tiles that a plan names (04 R65, R75, R83; 05 R91) -/

/-- A scale tile with its side tensor; both empty for an unscaled tensor. -/
structure ScalePair where
  tile : Bytes
  side : Bytes
  deriving DecidableEq, Repr

/-- The scale tile of tensor `t` (1 to 4) of a head. -/
def ownScale (h : Head) (t : Nat) : ScalePair := ⟨headTile h (t + 4), headTile h (t + 8)⟩

/-- The tiles that the MATMULs of a stage read as SRC_B in a format. -/
def weightTiles (b : Bytes) (code format : Nat) : List TileDesc :=
  let stages := stagesOf b
  let tiles := tilesOf b
  (uopsOf b).filterMap fun u =>
    if stages.getD u.stage 0 = code ∧ u.op = 0x03 then tiles.find? (fun t => t.id == u.b && t.format == format) else none

/-- The scales that the descriptor of a weight tile names (04 R75): none, a tile that the plan's constants fill, or the tensor's own, which
is resident data to the plan. A codebook lies in the tensor's own tile (04 R67). DEDUCED (log entry 31). -/
def namedScale (p : Plan) (own : ScalePair) (t : Option TileDesc) : ScalePair :=
  match t with
  | none => own
  | some d =>
    if d.scaleTile = 0xFFFFFFFF then (if d.format = 10 ∨ d.format = 11 then own else ⟨[], []⟩)
    else match tableGet p.tiles d.scaleTile with
      | none => own
      | some x => ⟨x, (tableGet p.tiles (stPrivTile x)).getD []⟩

/-- The scales of a head's tensors as some stages of a plan name them: projection, two sub-key tables, value table. -/
structure Scales where
  proj : ScalePair
  key1 : ScalePair
  key2 : ScalePair
  value : ScalePair

/-- The scales that the stages of STAGE_CODE `proj`, `keys` and `value` of a plan name, for a head and the head whose value table it reads. The
first MATMUL of the stage of the sub-keys reads table 1, and the last table 2. DEDUCED (log entry 31). -/
def scalesOf (p : Plan) (h v : Head) (proj keys value : Nat) : Scales where
  proj := namedScale p (ownScale h 3) (weightTiles p.bytes proj (Hd.formatCode h.desc 3)).head?
  key1 := namedScale p (ownScale h 1) (weightTiles p.bytes keys (Hd.formatCode h.desc 1)).head?
  key2 := namedScale p (ownScale h 2) (weightTiles p.bytes keys (Hd.formatCode h.desc 2)).getLast?
  value := namedScale p (ownScale v 4) (weightTiles p.bytes value (Hd.formatCode v.desc 4)).head?

/-! ## The check of a plan's scale tiles (04 R70) -/

/-- Tiles of a plan that the stages of some STAGE_CODEs read as scale tiles. -/
def scaleTilesOf (b : Bytes) (codes : List Nat) : List Nat :=
  let stages := stagesOf b
  let tiles := tilesOf b
  let used := (uopsOf b).flatMap fun u => if codes.contains (stages.getD u.stage 0) then [u.a, u.b, u.d] else []
  sortOn id (dedup ((used.filterMap fun i => tiles.find? (·.id == i)).filterMap fun t => if t.scaleTile = 0xFFFFFFFF then none else some t.scaleTile))

/-- The plan updates value rows with OPT_UPDATE (R70). -/
def planUpdates (p : Plan) : Bool := (uopsOf p.bytes).any (·.op == 0x0C)

/-- A scale tile of the plan belongs to a tile that an OPT_UPDATE of the plan names (R70). -/
def scalesUpdated (p : Plan) (i : Nat) : Bool :=
  (uopsOf p.bytes).any fun u => u.op == 0x0C && (tilesOf p.bytes).any fun t => t.scaleTile == i && [u.a, u.b, u.d].contains t.id

/-- The first failure of a plan's constant-filled scale tiles: the TILE_ID of INFO, and the offset. DEDUCED (log entry 36). -/
def planTilesFail (p : Plan) (ids : List Nat) : Option (Nat × Nat) :=
  firstFail ((ids.filter fun i => p.tiles.any (·.1 == i)).map fun i =>
    let t := (tableGet p.tiles i).getD []
    (scaleTileFail t (tableGet p.tiles (stPrivTile t)) none (scalesUpdated p i)).map fun x => (if x.1 then stPrivTile t else i, x.2))

/-- The first failure of the scale tiles that every stage of a plan reads. -/
def allTilesFail (p : Plan) : Option (Nat × Nat) := planTilesFail p (scaleTilesOf p.bytes (stagesOf p.bytes))

/-- A tile fails its check. -/
def failTile (seq : Nat) (x : Nat × Nat) (s : State) : State :=
  bump Key.scaleTileRejects (finish seq { status := Status.invalidField, info := x.1, source := .tile, offset := x.2 } [] s)

/-! ## Activation tiles (04 R83) -/

/-- An activation tile of a plan (04 R83): its token rows, the columns of each MATMUL that reads a cut of it, and how many MATMULs read a
cut. -/
structure ActScope where
  rows : Nat
  cols : List Nat
  readers : Nat
  deriving DecidableEq, Repr

/-- A group of MATMULs that add into one destination, by the tiles that they read as SRC_A. -/
structure ActGroup where
  dst : Nat
  srcs : List Nat
  rows : Nat
  cols : List Nat
  deriving DecidableEq, Repr

/-- A cut goes on in the newest group of its destination. -/
def addCut (dst src cols : Nat) : List ActGroup → List ActGroup
  | [] => []
  | g :: r => if g.dst = dst then { g with srcs := g.srcs ++ [src], cols := g.cols ++ [cols] } :: r else g :: addCut dst src cols r

/-- The groups, newest first, with one more MATMUL of the stage (05 R91): one that accumulates goes on with its destination's cut. -/
def addToGroups (tiles : List TileDesc) (act : Nat) (l : List ActGroup) (u : Uop) : List ActGroup :=
  match tiles.find? (fun t => t.id == u.a && t.tier == 0 && t.format == act) with
  | none => l
  | some t =>
    let (r, c) := effShape t u.ta
    if u.acc && l.any (·.dst == u.d) then addCut u.d u.a c l else { dst := u.d, srcs := [u.a], rows := r, cols := [c] } :: l

/-- Groups that read the same tiles counted once, in the order of the stream. -/
def distinctGroups (l : List ActGroup) : List ActGroup := l.foldl (fun k g => if k.any (·.srcs == g.srcs) then k else k ++ [g]) []

/-- The activation tiles of a stage whose cuts cover `width` columns, each once, with the MATMULs that read them; where the plan holds none,
64 token rows (R234) cut at 8 192 columns. DEDUCED (log entry 31). -/
def actScopes (b : Bytes) (code act width : Nat) : List ActScope :=
  let stages := stagesOf b
  let ops := (uopsOf b).filter fun u => stages.getD u.stage 0 == code && u.op == 0x03
  let groups := distinctGroups ((ops.foldl (addToGroups (tilesOf b) act) []).reverse.filter fun g => sumOf g.cols == width)
  let one := fun g : ActGroup => ({ rows := max 1 g.rows, cols := g.cols, readers := (ops.filter fun u => some u.a == g.srcs.head?).length } : ActScope)
  if groups.isEmpty then
    [{ rows := 64, cols := List.replicate (width / 8192) 8192 ++ (if width % 8192 = 0 then [] else [width % 8192]), readers := 1 }]
  else groups.map one

/-- Rows given to activation tiles in their order, which starts again once all are used. -/
def giveRows {α : Type} : List ActScope → List α → List (ActScope × List α)
  | [], _ => []
  | s :: r, l => if l.isEmpty then [] else (s, l.take s.rows) :: giveRows r (l.drop s.rows)

/-- Rows over the activation tiles of a stage. -/
def overScopes {α : Type} (scopes : List ActScope) (l : List α) : List (ActScope × List α) := giveRows ((List.replicate l.length scopes).flatten) l

/-- Where each cut begins, with its width. -/
def cutsFrom : Nat → List Nat → List (Nat × Nat)
  | _, [] => []
  | lo, c :: r => (lo, c) :: cutsFrom (lo + c) r

/-- Rows of the tile that the first micro-operation of an opcode moves in a stage; 64 where the stage holds none. DEDUCED (log entry 31). -/
def movedRows (b : Bytes) (code op : Nat) : Nat :=
  let stages := stagesOf b
  (((uopsOf b).findSome? fun u => if stages.getD u.stage 0 = code ∧ u.op = op then (tilesOf b).find? (·.id == u.a) else none).map fun t => max 1 t.r).getD 64

/-- Micro-operations that raise a flag, where each covers `rows` rows (04 R84). -/
def raisedBy (rows : Nat) (flags : List Bool) : Nat := ((chunksOf rows flags).filter fun c => c.any id).length

/-! ## PROJECT (R218; 04 R76, R79, R83) -/

/-- What PROJECT needs of a step: the head, its projection-input scale, the projection's scales and the plan's activation tiles. -/
structure Projection where
  head : Head
  scale : Num                   -- sa of the step
  weights : ScalePair
  scopes : List ActScope

/-- The part of output channel `o` from the columns of the input row at `lo`. -/
def projectPart (p : Projection) (wide : Bool) (lo : Nat) (a : List Num) (o : Nat) : Num :=
  let d := p.head.desc
  let w := Hd.fmt d 3
  let codes := (List.range a.length).map fun k => elemAt w (headRow p.head 3 o) (lo + k)
  channelOut (if wide then .bf16 else pathOf (Hd.actFmt d) w) a (if wide then .ofInt 1 else p.scale) w p.weights.tile p.weights.side o codes

/-- One cut of an activation tile: some columns of some token rows. -/
structure ActTile where
  codes : List (List Nat)       -- its codes, which the stash may retain
  wides : List (List Nat)       -- BF16 codes of its source where it saturated, so that its consumers ran on the wide path
  sat : Bool                    -- the wide path's narrowing saturated
  parts : List (List Num)       -- for each token its part of every output channel

/-- One cut of an activation tile and the products that read it, re-run on the wide path where it saturates. -/
def actTile (p : Projection) (lo : Nat) (rows : List (List Num)) : ActTile :=
  let f := Hd.actFmt p.head.desc
  let q := rows.map (quantRow f p.scale)
  let wide := q.any (·.2)
  let narrowed := rows.map fun r => r.map (narrow .bf16)
  let operands := if wide then narrowed.map (fun r => r.map fun x => Fmt.bf16.value x.1) else q.map fun r => r.1.map f.value
  { codes := q.map (·.1), wides := if wide then narrowed.map (fun r => r.map (·.1)) else [], sat := wide && narrowed.any (fun r => r.any (·.2)),
    parts := operands.map fun a => (List.range (2 * Hd.halfDim p.head.desc)).map (projectPart p wide lo a) }

/-- What PROJECT gives: the query rows, the retained codes, for each row the cuts that ran wide with their BF16 codes, the tiles that ran wide,
and the micro-operations that raised a flag. -/
structure Projected where
  queries : List (List Num)
  codes : List (List Nat)
  wides : List (List (Nat × List Nat))
  reruns : Nat
  raised : Nat

/-- The sum of the parts of a cut (05 R91). -/
def addParts (a b : List Num) : List Num := if a.isEmpty then b else List.zipWith add32 a b

/-- PROJECT of the rows of one activation tile, cut by cut. DEDUCED (log entry 31). -/
def projectRows (p : Projection) (x : ActScope × List (List Num)) : Projected :=
  let cuts := cutsFrom 0 x.1.cols
  let rows := x.2
  let tiles := cuts.map fun c => actTile p c.1 (rows.map fun r => (r.drop c.1).take c.2)
  { queries := (List.range rows.length).map fun i => tiles.foldl (fun acc t => addParts acc (t.parts.getD i [])) []
    codes := (List.range rows.length).map fun i => tiles.flatMap fun t => t.codes.getD i []
    wides := (List.range rows.length).map fun i => (cuts.zip tiles).filterMap fun y => (y.2.wides[i]?).map fun w => (y.1.1, w)
    reruns := (tiles.filter fun t => !t.wides.isEmpty).length
    raised := x.1.readers * (tiles.filter (·.sat)).length }

/-- PROJECT of a micro-batch. -/
def project (p : Projection) (rows : List (List Num)) : Projected :=
  if Hd.dModel p.head.desc = 0 then { queries := rows, codes := [], wides := rows.map fun _ => [], reruns := 0, raised := 0 }
  else
    let r := (overScopes p.scopes rows).map (projectRows p)
    { queries := r.flatMap (·.queries), codes := r.flatMap (·.codes), wides := r.flatMap (·.wides), reruns := sumOf (r.map (·.reruns)),
      raised := sumOf (r.map (·.raised)) }

/-- PROJECT of one token again, from its retained codes (11 R242); the cuts that ran wide come from their BF16 codes. -/
def projectAgain (p : Projection) (scope : ActScope) (codes : List Nat) (wides : List (Nat × List Nat)) : List Num :=
  let f := Hd.actFmt p.head.desc
  (cutsFrom 0 scope.cols).foldl (fun acc c =>
    let part := match wides.find? (·.1 == c.1) with
      | some w => (List.range (2 * Hd.halfDim p.head.desc)).map (projectPart p true c.1 (w.2.map Fmt.bf16.value))
      | none => (List.range (2 * Hd.halfDim p.head.desc)).map (projectPart p false c.1 (((codes.drop c.1).take c.2).map f.value))
    addParts acc part) []

/-! ## SCORE, HALF_SELECT and COMBINE (R219-R221) -/

/-- A scored sub-key or slot. -/
structure Scored where
  id : Nat
  score : Num

/-- Key order: the largest score first, equal scores in ascending identifier (05 R45, R166). -/
def scoredLe (a b : Scored) : Bool :=
  let x := scoreKey (canonScore a.score.neg)
  let y := scoreKey (canonScore b.score.neg)
  x < y || (x == y && a.id ≤ b.id)

/-- The first `k` in key order. -/
def bestScored (k : Nat) (l : List Scored) : List Scored := (sortBy scoredLe l).take k

/-- The score of sub-key `i` of table `t` (1 or 2) for half a query with its row scale. -/
def subkeyScore (h : Head) (w : ScalePair) (t : Nat) (half : List Num) (sa : Num) (i : Nat) : Num :=
  channelOut (pathOf .e4m3 (Hd.fmt h.desc t)) half sa (Hd.fmt h.desc t) w.tile w.side i (rowCodes h t i)

/-- HALF_SELECT of one half. -/
def halfSelect (h : Head) (w : ScalePair) (t : Nat) (half : List Num) (sa : Num) : List Scored :=
  bestScored (Hd.khalf h.desc) ((List.range (Hd.rows h.desc t)).map fun i => { id := i, score := subkeyScore h w t half sa i })

/-- COMBINE: the kept slots in rank order. -/
def combine (h : Head) (a b : List Scored) : List Scored :=
  bestScored (Hd.ksel h.desc) (a.flatMap fun x => b.map fun y => { id := x.id * Hd.subkeys2 h.desc + y.id, score := add32 x.score y.score })

/-- The softmax weights of the kept slots as BF16 codes; its inputs are the negated canonical scores. -/
def slotWeights (kept : List Scored) : List Nat :=
  (rowstat (kept.map fun x => (val32 (canonScore x.score.neg)).neg)).1.map (narrowCode .bf16)

/-- What a token has selected. -/
structure Selected where
  slots : List Nat
  weights : List Nat
  rowScale : Nat
  codes : List Nat
  half1 : List Nat
  half2 : List Nat
  sat : Bool

/-- SCORE to COMBINE of one query row. -/
def selectToken (h : Head) (w : Scales) (q : List Num) : Selected :=
  let rs := rowScale q
  let sa := Fmt.bf16.value rs
  let c := quantRow .e4m3 sa q
  let row := c.1.map Fmt.e4m3.value
  let a := halfSelect h w.key1 1 (row.take (Hd.halfDim h.desc)) sa
  let b := halfSelect h w.key2 2 (row.drop (Hd.halfDim h.desc)) sa
  let kept := combine h a b
  { slots := kept.map (·.id), weights := slotWeights kept, rowScale := rs, codes := c.1, half1 := a.map (·.id), half2 := b.map (·.id), sat := c.2 }

/-- RECOMPUTE of one query row for the slots that its entry holds, in rank order (11 R242): the weights, the row scale and the codes. -/
def selectAgain (h : Head) (w : Scales) (slots : List Nat) (q : List Num) : List Nat × Nat × List Nat :=
  let rs := rowScale q
  let sa := Fmt.bf16.value rs
  let codes := (quantRow .e4m3 sa q).1
  let row := codes.map Fmt.e4m3.value
  let score := fun s : Nat => add32 (subkeyScore h w.key1 1 (row.take (Hd.halfDim h.desc)) sa (s / Hd.subkeys2 h.desc))
    (subkeyScore h w.key2 2 (row.drop (Hd.halfDim h.desc)) sa (s % Hd.subkeys2 h.desc))
  (slotWeights (slots.map fun s => { id := s, score := score s }), rs, codes)

/-! ## GATHER and GROUP_SUM (R222, R223) -/

/-- Ranks whose slot the member at position `p` of `m` owns. -/
def ownedRanks (slots : List Nat) (p m : Nat) : List Nat := (List.range slots.length).filter fun n => slotOwner (slots.getD n 0) m == p

/-- The member's partial row in FP32 codes; none where it owns no rank. -/
def gatherRow (v : Head) (w : ScalePair) (slots weights : List Nat) (p m : Nat) : Option (List Nat) :=
  let own := ownedRanks slots p m
  if own.isEmpty then none
  else
    let d := v.desc
    let f := Hd.fmt d 4
    let u := (List.range slots.length).map fun n => if own.contains n then Fmt.bf16.value (weights.getD n 0) else Num.zero
    let rows := (List.range slots.length).map fun n => if own.contains n then rowCodes v 4 (slots.getD n 0) else List.replicate (Hd.dv d) 0
    some ((List.range (Hd.dv d)).map fun c => code32 (channelOut .bf16 u (.ofInt 1) f w.tile w.side c (rows.map fun r => r.getD c 0)))

/-- group_sum of R223: the partial rows in ascending position, an absent one as +0; the codes and whether narrowing saturated. -/
def groupSum (f : Fmt) (n : Nat) (parts : List (Option (List Nat))) : List Nat × Bool :=
  let y := parts.map fun p => (p.getD (List.replicate n 0)).map val32
  let r := (y.tail.foldl (List.zipWith add32) (y.headD [])).map (narrow f)
  (r.map (·.1), r.any (·.2))

end Sys2Proof.Machine
end

