-- ==== Sys2Proof/Machine/MicroOps.lean ====
section
/-! DEFINITION. The micro-operations of a plan over the tiles that its plan format binds (02 R34, R37, R38; 04 R63, R71-R75, R84; 05 R87-R101;
08 R168; 12 R268): a tile holds what a constant record fills it with and what the stream forms from such tiles, in the formats that the tile
descriptors declare. Which tile takes a command's data, or holds a tensor of a class, is in no descriptor (04 R63): such a tile's contents are not
determined here, and its command computes them by the rules of its own chapter. DESIGN CHOICE (log entry 73). -/

namespace Sys2Proof.Machine

/-- The plan as it is loaded now, whose tiles may have changed since a command's admission. -/
def livePlan (s : State) (p : Plan) : Plan := (s.ahp.plans.find? fun q => q.kind == p.kind && q.target == p.target && q.planId == p.planId).getD p

/-! ## Tiles while a command's stages run -/

/-- A tile while the stages of a command run (12 R268), with its two flags (05 R94). -/
structure WorkTile where
  desc : TileDesc
  codes : Option (List Nat)     -- element codes row by row; none where they are not determined
  sat : Bool                    -- SATURATED
  accSat : Bool                 -- ACC_SATURATED
  valid : Nat                   -- VALID_COUNT of the SELECT that wrote it (08 R168)
  ties : Nat                    -- BOUNDARY_TIES of that SELECT
  deriving DecidableEq, Repr

/-- The tiles of a plan and what its micro-operations have counted (04 R85, 05 R101). -/
structure Work where
  tiles : List WorkTile
  wide : Nat                    -- micro-operations that raised SATURATED by narrowing (04 R84)
  intSat : Nat                  -- micro-operations that saturated an INT32 element (05 R93)
  nanRows : Nat                 -- rows of a ROWSTAT that hold a NaN (05 R98)
  deriving DecidableEq, Repr

/-- Elements of a tile. -/
def TileDesc.count (t : TileDesc) : Nat := t.rows * t.cols

/-- The format of a tile; a reserved code stands in no loaded plan (02 R36). -/
def TileDesc.fmt (t : TileDesc) : Fmt := (Fmt.ofCode t.format).getD .raw8

/-- A tile at the start of a command: what its constant record holds, or nothing that is defined (02 R34). -/
def startTile (p : Plan) (t : TileDesc) : WorkTile where
  desc := t
  codes := (tableGet p.tiles t.id).map fun b => (List.range t.count).map (elemAt t.fmt b)
  sat := false
  accSat := false
  valid := 0
  ties := 0

/-- The tiles of a plan at the start of a command. -/
def startTiles (p : Plan) : Work := { tiles := (tilesOf p.bytes).map (startTile p), wide := 0, intSat := 0, nanRows := 0 }

/-- A tile by its TILE_ID. -/
def Work.find (w : Work) (id : Nat) : Option WorkTile := w.tiles.find? (·.desc.id == id)

/-- What a micro-operation gives: codes, the flags that it raises, and a SELECT's counts. -/
structure Written where
  codes : Option (List Nat)
  sat : Bool := false
  accSat : Bool := false
  valid : Nat := 0
  ties : Nat := 0

/-- A micro-operation writes a tile: one that does not accumulate clears its flags first (05 R94). -/
def Work.write (u : Uop) (id : Nat) (x : Written) (w : Work) : Work :=
  { w with tiles := mapIf (fun t => t.desc.id == id) (fun t =>
      { t with codes := x.codes, sat := (u.acc && t.sat) || x.sat, accSat := (u.acc && t.accSat) || x.accSat, valid := x.valid, ties := x.ties }) w.tiles }

/-- The codes of a tile row by row, turned where it enters transposed (02 R37). -/
def rowsOf (rows cols : Nat) (turned : Bool) (codes : List Nat) : List (List Nat) :=
  if turned then (List.range cols).map fun c => (List.range rows).map fun r => codes.getD (r * cols + c) 0
  else (List.range rows).map fun r => (codes.drop (r * cols)).take cols

/-! ## MATMUL (04 R71-R74; 05 R87-R94) -/

/-- The operand path of two formats (05 R87): SPLIT where an element has pieces. -/
def tilePath (a b : Fmt) : Path := if [a, b].any (fun f => f == .fp16 || f == .fp32) then .split else pathOf a b

/-- The scale of each output row or column that a source carries (04 R74), where its channels are known: 1 for an unscaled one, the scale of a
RUNNING tile for all, those of a ROW tile where its rows are output rows. Along which axis the channels of a CHANNEL tile run is a property of
the tensor class, which no descriptor records (04 R63); and a codebook lies in such a tile. DESIGN CHOICE (log entry 73). -/
def outScales (w : Work) (d : TileDesc) (byRow : Bool) (n : Nat) : Option (List Num) :=
  if d.format = 10 ∨ d.format = 11 then none
  else if d.scaleTile = 0xFFFFFFFF then some (List.replicate n (.ofInt 1))
  else match (w.find d.scaleTile).bind fun t => t.codes.map (packElems t.desc.fmt) with
    | none => none
    | some b =>
      if stKind b = 2 then some (List.replicate n (val32 (stScale b)))
      else if stKind b = 3 ∧ byRow then some ((List.range n).map fun i => Fmt.bf16.value (u16At b (32 + 2 * i)))
      else none

/-- A source as it enters a product: a row for each output row or column, with its scale. -/
structure ProdSource where
  fmt : Fmt
  rows : List (List Num)
  scales : List Num

/-- SRC_A or SRC_B of a product, by output rows or columns; `turned` tells that those lie along the columns of the tile. -/
def sourceOf (w : Work) (id : Nat) (turned : Bool) : Option ProdSource :=
  match w.find id with
  | none => none
  | some t =>
    match t.codes, outScales w t.desc (!turned) (if turned then t.desc.c else t.desc.r) with
    | some codes, some sc => some { fmt := t.desc.fmt, rows := (rowsOf t.desc.r t.desc.c turned codes).map (·.map t.desc.fmt.value), scales := sc }
    | _, _ => none

/-- The accumulators of a product, row by row (05 R89). -/
def accumulators (a b : ProdSource) : List (List Num) := a.rows.map fun x => b.rows.map fun y => dot (tilePath a.fmt b.fmt) a.fmt b.fmt x y

/-- The outputs of a product in FP32 (04 R74). -/
def scaledOutputs (a b : ProdSource) : List Num :=
  ((accumulators a b).zip a.scales).flatMap fun r => (r.1.zip b.scales).map fun x => scaledOutput x.1 .zero false .zero x.2 r.2

/-- The whole number of an accumulator of the INT path. -/
def wholeOf : Num → Int
  | .fin s m e => Num.signed s (Num.scaleTo m e 0)
  | _ => 0

/-- An INT32 destination (05 R91, R93): the outputs, or their saturating sums with what it held. -/
def intOutputs (old : Option (List Nat)) (y : List Int) : List Nat × Bool :=
  let r := match old with
    | none => y.map fun v => (v, false)
    | some o => (o.zip y).map fun x : Nat × Int => sat32 (signedOf 32 x.1 + x.2)
  (r.map fun x => unsignedOf 32 x.1, r.any (·.2))

/-- A floating-point or byte destination (04 R74; 05 R91): the outputs narrowed, or for an accumulating FP32 one added to what it held. -/
def narrowOutputs (f : Fmt) (old : Option (List Nat)) (y : List Num) : List Nat × Bool :=
  let r := y.map (narrow f)
  match old with
  | none => (r.map (·.1), r.any (·.2))
  | some o => ((o.zip r).map fun x => code32 (add32 (val32 x.1) (val32 x.2.1)), r.any (·.2))

/-- A plain MATMUL into tile `d`. -/
def matmulTile (u : Uop) (d : WorkTile) (w : Work) : Work :=
  match sourceOf w u.a u.ta, sourceOf w u.b (!u.tb) with
  | some a, some b =>
    if d.desc.scaleTile ≠ 0xFFFFFFFF ∨ (u.acc ∧ d.codes.isNone) then w.write u u.d { codes := none }
    else
      let old := if u.acc then d.codes else none
      if d.desc.format = 9 then
        let x := intOutputs old ((accumulators a b).flatMap (·.map wholeOf))
        let w1 := w.write u u.d { codes := some x.1, accSat := x.2 }
        { w1 with intSat := w1.intSat + b2n x.2 }
      else if operandFormat d.desc.format then
        let x := narrowOutputs d.desc.fmt old (scaledOutputs a b)
        let w1 := w.write u u.d { codes := some x.1, sat := x.2 }
        { w1 with wide := w1.wide + b2n x.2 }
      else w.write u u.d { codes := none }
  | _, _ => w.write u u.d { codes := none }

/-- MATMUL: the entry form leaves each of its tiles, and the pair form its one, to the rules of SCORE and COMBINE (10 R227). -/
def runMatmul (u : Uop) (w : Work) : Work :=
  match w.find u.a, w.find u.d with
  | some a, some d =>
    if entryTile a.desc then w.write u u.d { codes := none }
    else if entryTile d.desc then (List.range (effShape a.desc u.ta).1).foldl (fun v r => v.write u (u.d + r) { codes := none }) w
    else matmulTile u d w
  | _, _ => w

/-! ## SELECT, ROWSTAT, REDUCE_SHARED, LOAD_TILE and STORE_TILE -/

/-- The entries of an entry tile, each score canonical (08 R168). -/
def entriesOf (codes : List Nat) : List Cand :=
  let b := packElems .raw8 codes
  (List.range (codes.length / 16)).map fun i => let x := candAt b (16 * i); { x with score := canonScore (val32 x.score) }

/-- SELECT (08 R168): the kept entries in key order, fill rows, and the counts that are recorded with the tile. -/
def runSelect (u : Uop) (w : Work) : Work :=
  match w.find u.a, w.find u.d with
  | some a, some d =>
    match a.codes, (if u.acc then d.codes else some []) with
    | some src, some old =>
      let x := selectK d.desc.r (entriesOf src ++ entriesOf old)
      w.write u u.d { codes := some ((recordsBytes x.list d.desc.r).map (·.toNat)), valid := x.list.length, ties := x.ties }
    | _, _ => w.write u u.d { codes := none }
  | _, _ => w

/-- The rows of a ROWSTAT (05 R98): those of an FP32 tile, or the negated scores of an entry tile. -/
def statRows (a : WorkTile) (codes : List Nat) : List (List Num) :=
  if entryTile a.desc then [(entriesOf codes).map fun x => (val32 x.score).neg] else (rowsOf a.desc.r a.desc.c false codes).map (·.map val32)

/-- ROWSTAT, alone or fused with the micro-operation that writes its source (05 R98, R99). A row with a NaN raises SATURATED and counts. -/
def runRowstat (u : Uop) (w : Work) : Work :=
  match w.find u.a with
  | none => w
  | some a =>
    match a.codes with
    | none => w.write u u.d { codes := none }
    | some codes =>
      let r := (statRows a codes).map rowstat
      let out := r.flatMap fun x => (x.1 ++ [x.2.1, x.2.2.1]).map code32
      let nan := (r.filter (·.2.2.2)).length
      let w1 := w.write u u.d { codes := some out, sat := 0 < nan }
      { w1 with nanRows := w1.nanRows + nan }

/-- REDUCE_SHARED (05 R100). -/
def runReduce (u : Uop) (w : Work) : Work :=
  match w.find u.a, w.find u.d with
  | some a, some d =>
    match a.codes, d.codes with
    | some src, some old =>
      let add := fun x : Nat × Nat =>
        if d.desc.format = 18 then unsignedOf 64 (reduceInt64 (signedOf 64 x.1) (signedOf 32 x.2))
        else code32 (add32 (val32 x.1) (a.desc.fmt.value x.2))
      w.write u u.d { codes := some ((old.zip src).map add) }
    | _, _ => w.write u u.d { codes := none }
  | _, _ => w

/-- LOAD_TILE and STORE_TILE move the elements of a tile of the same format and shape; a tile that a stream mover turns on its way takes them
by columns (02 R36, 03 R59). Of other shapes and formats the specification does not say what moves. DESIGN CHOICE (log entry 73). -/
def runMove (u : Uop) (w : Work) : Work :=
  match w.find u.a, w.find u.d with
  | some a, some d =>
    if a.desc.format = d.desc.format ∧ a.desc.r = d.desc.rows ∧ a.desc.c = d.desc.cols then
      w.write u u.d { codes := a.codes.map fun l => if d.desc.turned then (rowsOf a.desc.r a.desc.c true l).flatten else l }
    else w.write u u.d { codes := none }
  | _, _ => w

/-- One micro-operation. The scans, the tree walk, GATHER_ROWS, OPT_UPDATE and PEER_RECV bring what the command's own chapter computes. -/
def runUop (w : Work) (u : Uop) : Work :=
  match u.op with
  | 0x01 | 0x02 => runMove u w
  | 0x03 => runMatmul u w
  | 0x08 => runSelect u w
  | 0x09 => runRowstat u w
  | 0x0B => runReduce u w
  | 0x0D | 0x0F => w
  | _ => w.write u u.d { codes := none }

/-! ## Movement items (13 R307-R310) -/

/-- A movement item (R307). -/
structure TierMove where
  kind : Nat
  issue : Nat
  release : Nat
  src : Nat
  dst : Nat
  deriving DecidableEq, Repr

/-- The movement items of a plan, in ascending offset. -/
def movesOf (b : Bytes) : List TierMove :=
  let m := sectionOf b 6
  ((List.range m.count).map fun i => m.off + 16 * i).map fun o =>
    { kind := u8At b o, issue := u8At b (o + 2), release := u8At b (o + 3), src := u32At b (o + 4), dst := u32At b (o + 8) }

/-- PROMOTE and WRITE_BACK take a tile's elements to their destination (R308). -/
def runItem (w : Work) (m : TierMove) : Work :=
  if m.kind = 1 ∨ m.kind = 2 then runMove { at_ := 0, op := m.kind, stage := m.issue, acc := false, ta := false, tb := false, a := m.src, b := 0, d := m.dst } w
  else w

/-- A window tile's part of the pages that a command needs: the model's number of its region, and how many pages that holds. -/
structure Promotion where
  region : Nat
  capacity : Nat
  pinned : Bool
  pages : List Nat

/-- The model's number of a plan. DESIGN CHOICE (log entry 40). -/
def planNumber (p : Plan) : Nat := ((p.target <<< 64) + p.planId) * 4 + p.kind

/-- The pages of a cold-tier tile of a plan, by the model's numbers of them. DESIGN CHOICE (log entry 40). -/
def tilePages (p : Plan) (t : TileDesc) : List Nat := (List.range (ceilDiv t.bytes 4096)).map fun i => (planNumber p + 1) <<< 80 + t.id <<< 40 + i

/-- The promotions that a plan issues in some STAGE_CODEs, in ascending offset (R310): the pages of the SRC tile of a PROMOTE, and for the `i`-th
PROMOTE_ROWS those of `rows i`. DESIGN CHOICE (log entry 40). -/
def promotionsOf (p : Plan) (codes : List Nat) (rows : Nat → List Nat) : List Promotion :=
  let stages := stagesOf p.bytes
  let tiles := tilesOf p.bytes
  let mine := (movesOf p.bytes).filter fun m => (m.kind == 1 || m.kind == 3) && codes.contains (stages.getD m.issue 0)
  let numbered := (List.range mine.length).zip mine
  numbered.filterMap fun x => (tiles.find? (·.id == x.2.dst)).bind fun d => ((regionsOf p.bytes).find? (·.id == d.region)).map fun r =>
    { region := planNumber p <<< 8 + r.id, capacity := r.size / 4096, pinned := d.pinned
      pages := if x.2.kind = 1 then ((tiles.find? (·.id == x.2.src)).map (tilePages p)).getD []
        else rows ((mine.take x.1).filter (·.kind == 3)).length }

/-- A command asks for the pages of its promotions (R311, R312). -/
def askPages (seq : Nat) (l : List Promotion) (s : State) : State :=
  l.foldl (fun u x => requestPages seq x.region x.capacity x.pinned (sortOn id (dedup x.pages)) u) s

/-- A plan goes: the copies of its window may be evicted (02 R36). -/
def unpin (p : Plan) (s : State) : State :=
  { s with cold := { s.cold with copies := mapIf (fun c => c.region >>> 8 == planNumber p) (fun c => { c with pinned := false }) s.cold.copies } }

/-! ## The stream of a command -/

/-- The stages of a plan that a command runs: those of its opcode for a memory layer (10 R225), and every one otherwise. DEDUCED (log entry 73). -/
def runsStage (opcode code : Nat) : Bool :=
  if opcode = 0x33 then 0x20 ≤ code && code ≤ 0x26
  else if opcode = 0x34 then (0x30 ≤ code && code ≤ 0x32) || code == 0x36
  else if opcode = 0x35 then 0x33 ≤ code && code ≤ 0x35
  else true

/-- One stage of a plan: its movement items at its first micro-operation (13 R310), then its micro-operations in the order of the stream (02 R37). -/
def runStage (p : Plan) (w : Work) (stage : Nat) : Work :=
  match (uopsOf p.bytes).filter (·.stage == stage) with
  | [] => w
  | l => l.foldl runUop (((movesOf p.bytes).filter (·.issue == stage)).foldl runItem w)

/-- The stages of a plan that a command runs, in their order. -/
def runUops (opcode : Nat) (p : Plan) : Work :=
  let stages := stagesOf p.bytes
  ((List.range stages.length).filter fun i => runsStage opcode (stages.getD i 0)).foldl (runStage p) (startTiles p)

/-- The constant-filled tiles after a stream: a region that holds one keeps its contents (02 R34). -/
def keptTiles (w : Work) (tiles : List (Nat × Bytes)) : List (Nat × Bytes) :=
  tiles.map fun x => match (w.find x.1).bind fun t => t.codes.map (packElems t.desc.fmt) with
    | some b => (x.1, b ++ x.2.drop b.length)
    | none => x

/-- The flags that the tiles carry at the end (05 R94). -/
def tileFlags (w : Work) : Nat := flagIf (w.tiles.any (·.sat)) Cflag.saturated + flagIf (w.tiles.any (·.accSat)) Cflag.accSaturated

/-- The stream of a command's plan runs over the tiles that the plan format binds: its counters rise, its constant-filled tiles keep what it
leaves, and its completion will report the flags. -/
def runStream (seq : Nat) (s : State) : State :=
  match findCmd s seq with
  | none => s
  | some c =>
    match c.plan with
    | none => s
    | some p0 =>
      let p := livePlan s p0
      if p.tiles.isEmpty then s
      else
        let w := runUops c.entry.opcode p
        let s1 := updCmd seq (fun d => { d with tileFlags := tileFlags w }) s
        let same := fun q : Plan => q.kind == p.kind && q.target == p.target && q.planId == p.planId
        bumpBy Key.widePathSaturations w.wide (bumpBy Key.intAccSaturations w.intSat (bumpBy Key.rowstatNanRows w.nanRows
          { s1 with ahp := { s1.ahp with plans := mapIf same (fun q => { q with tiles := keptTiles w q.tiles }) s1.ahp.plans } }))

/-- The promotions of a plan that is not a memory layer's; those of one are asked for with the rows that they name. -/
def askTiles (seq : Nat) (s : State) : State :=
  match (findCmd s seq).bind (·.plan) with
  | none => s
  | some p => if p.kind = 2 then s else askPages seq (promotionsOf p (stagesOf p.bytes) fun _ => []) s

/-- The command's input has passed its checks: its plan's micro-operations are dispatched. -/
def startStream (seq : Nat) (s : State) : State := askTiles seq (runStream seq (startWork seq s))

end Sys2Proof.Machine
end

