-- ==== Sys2Proof/Machine/PlanCmds.lean ====
section
/-! DEFINITION. LOAD_PLAN and UNLOAD_PLAN, and the check that binds a plan (02 R39, R40; 15 R358). -/

namespace Sys2Proof.Machine

/-- Check 12 of R39 against what the module holds now: the failing offset. A target that is gone fails at TARGET_DIGEST. DEDUCED (log entry 20). -/
def checkBinding (s : State) (kind target : Nat) (b : Bytes) (free : Nat) : Option Nat :=
  let banks := settingNat s Key.scratchBankCount
  if kind = 2 then
    match findHead s target with
    | none => some 24
    | some h => bindingFail b (sm3Low64 h.desc) banks free (Hd.group h.desc < descGroups (liveDesc s)) (some (Hd.dModel h.desc))
  else
    match findColl s target with
    | none => some 24
    | some c => bindingFail b (sm3Low64 c.schema) banks free true none

/-- Two plans have one name: their target and PLAN_ID agree (R358). DEDUCED (log entry 20). -/
def samePlan (kind target planId : Nat) (p : Plan) : Bool := (p.kind == 2) == (kind == 2) && p.target == target && p.planId == planId

/-- A plan is loaded: its constant records are in their tiles, and it replaces the plan of its name. -/
def putPlan (target : Nat) (b : Bytes) (s : State) : State :=
  let p : Plan := { kind := planKind b, target := target, planId := planIdOf b, bytes := b, bound := true, tiles := (constantsOf b).2 }
  unpin p { s with ahp := { s.ahp with plans := s.ahp.plans.filter (fun q => !samePlan p.kind target p.planId q) ++ [p] } }

/-- INVALID_PLAN at an offset of the plan. -/
def failPlan (seq off : Nat) (s : State) : State := finish seq { status := Status.invalidPlan, source := .payload, offset := off } [] s

/-- The plan of a LOAD_PLAN is checked and bound (R39, R358). -/
def loadPlan (seq : Nat) (c : Cmd) (input : Bytes) (s : State) : State :=
  match planFailAt input with
  | some o => failPlan seq o s
  | none =>
    let kind := planKind input
    let target := c.entry.target
    if targetVisible s c (kind == 2, target) = false then fail seq (if kind = 2 then Status.headNotFound else Status.collectionNotFound) s
    else match checkBinding s kind target input (freeHbm s / 1048576) with
      | some o => failPlan seq o s
      | none =>
        if settingNat s Key.maxPlans ≤ s.ahp.plans.length ∧ s.ahp.plans.all (fun p => !samePlan kind target (planIdOf input) p) then
          fail seq Status.capacityExceeded s
        else succeed seq (planIdOf input) [] (putPlan target input s)

/-- LOAD_PLAN (R39, R358). A descriptor that fails its check code twice is not acted on (19 R437). DEDUCED (log entries 20, 64). -/
def execLoadPlan (seq : Nat) (input : Bytes) (codes : CodeChecks) (s : State) : Res :=
  match admittedCmd s seq 0x10 with
  | none => .next s
  | some c =>
    let s1 := retried codes s
    if wrongTransfer c input then .next (fail seq Status.lengthMismatch s)
    else match codes.second with
    | some m => .next (codeFails c m s1)
    | none => .next (loadPlan seq c input s1)

/-- UNLOAD_PLAN takes effect (R358): the plan goes, and with its stash regions the stash entries that they hold. -/
def beginUnload (c : Cmd) (s : State) : State :=
  let kind := if bit c.entry.arg2 0 then 2 else 1
  let mine := samePlan kind c.entry.target c.entry.arg0
  let s1 := (s.ahp.plans.filter mine).foldl (fun u p => unpin p u) { s with ahp := { s.ahp with plans := s.ahp.plans.filter fun p => !mine p } }
  if kind = 2 then dropStash c.entry.target (fun x => x.plan == c.entry.arg0) s1 else s1

/-- The target holds the plan that UNLOAD_PLAN names, bound or not. -/
def unloads (s : State) (c : Cmd) : Bool := s.ahp.plans.any (samePlan (if bit c.entry.arg2 0 then 2 else 1) c.entry.target c.entry.arg0)

/-- UNLOAD_PLAN (R358): it has taken effect at its dispatch, or there was no such plan. -/
def execUnloadPlan (seq : Nat) (s : State) : Res :=
  match admittedCmd s seq 0x11 with
  | none => .next s
  | some c => .next (if c.report = [] then fail seq Status.planNotBound s else succeed seq 0 [] s)

end Sys2Proof.Machine
end

