-- ==== Sys2Proof/Machine/Objects.lean ====
section
/-! DEFINITION. Deleting collections and heads, and destroying their data keys (06 R105, 15 R362, 17 R406, R407). -/

namespace Sys2Proof.Machine

/-- A command names the object (1 a collection, 2 a head). -/
def namesObject (kind id : Nat) (c : Cmd) : Bool := (targetsOf c.entry).contains (kind == 2, id)

/-- A structural command on a collection that has been admitted and has not completed. -/
def structural (coll : Nat) (c : Cmd) : Bool :=
  [0x27, 0x28, 0x29].contains c.entry.opcode && c.entry.target == coll && (c.phase == .admitted || c.phase == .working)

/-- The structural command that runs on a deleted collection is abandoned without a commit (R105). DEDUCED (log entry 23). -/
def abandonJob (c : Coll) (s : State) : State :=
  (s.ahp.cmds.filter (structural c.id)).foldl (fun u d => fail d.seq Status.collectionNotFound (stopJob d.seq u)) s

/-- A deletion of a collection takes effect (R105); `seq` is its command. DEDUCED (log entry 23). -/
def beginDeleteColl (id : Nat) (seq : Option Nat) (s : State) : State :=
  match findColl s id with
  | none => s
  | some c => updColl id (fun x => { x with deleting := true, deleteSeq := seq }) (abandonJob c s)

/-- A deletion of a head takes effect (15 R362). -/
def beginDeleteHead (id : Nat) (seq : Option Nat) (s : State) : State := updHead id (fun x => { x with deleting := true, deleteSeq := seq }) s

/-- DELETE_COLLECTION (R105): it has taken effect at its admission instant, and works on until the data key is destroyed. -/
def execDeleteCollection (seq : Nat) (s : State) : Res :=
  match admittedCmd s seq 0x21 with
  | none => .next s
  | some _ => .next (startWork seq s)

/-- Another held head reads the value table of this one (15 R362). DEDUCED (log entry 23). -/
def headIsSource (s : State) (id : Nat) : Bool := s.mem.heads.any fun h => h.id != id && Hd.source h.desc == id

/-- DELETE_MEMORY_HEAD (15 R362): it has taken effect at its dispatch, and works on until the data key is destroyed; or another head read the value table. -/
def execDeleteMemoryHead (seq : Nat) (s : State) : Res :=
  match admittedCmd s seq 0x31 with
  | none => .next s
  | some c => .next (if c.report = [] then failEntry seq 8 s else startWork seq s)

/-- A command admitted before the deletion still works on the object (R105, R407). DEDUCED (log entry 23). -/
def objectInUse (s : State) (kind id : Nat) (deleteSeq : Option Nat) : Bool :=
  (s.ahp.cmds.any fun c => namesObject kind id c && (c.phase == .admitted || c.phase == .working) && some c.seq != deleteSeq) ||
    (kind == 1 && s.search.queries.any (fun q => q.coll == id))

/-- A new object has its data key (R406), a fresh draw each time. DESIGN CHOICE (log entries 6, 8). -/
def createKey (kind id : Nat) (s : State) : State :=
  useFree { s with sec := { s.sec with keys := s.sec.keys.filter (fun k => !(k.kind == kind && k.id == id)) ++
    [{ kind := kind, id := id, wrapped := Config.wrapKey s.free kind id }] } }

/-- A data key is destroyed (R407). A tied head has no key of its own (R406). -/
def destroyKey (kind id : Nat) (s : State) : State :=
  if s.sec.keys.any (fun k => k.kind == kind && k.id == id) then
    bump Key.keysDestroyed { s with sec := { s.sec with keys := s.sec.keys.filter fun k => !(k.kind == kind && k.id == id) } }
  else s

/-- The regions, pages, plans and chain of an object are released. -/
def releaseObject (kind id : Nat) (s : State) : State :=
  { s with
    sec := { s.sec with chains := s.sec.chains.filter fun c => !(c.kind == kind && c.id == id) }
    ahp := { s.ahp with plans := s.ahp.plans.filter fun p => !(p.target == id && (p.kind == 2) == (kind == 2)) }
    cold := { s.cold with lost := s.cold.lost.filter fun p => !(p.kind == kind && p.owner == id) }
    search := { s.search with
      colls := if kind = 1 then s.search.colls.filter (·.id ≠ id) else s.search.colls
      units := if kind = 1 then s.search.units.filter (·.coll ≠ id) else s.search.units }
    mem := { s.mem with heads := if kind = 2 then s.mem.heads.filter (·.id ≠ id) else s.mem.heads } }

/-- A deleted object goes: its key first, then what it held (R105, R362). -/
def removeObject (kind id : Nat) (s : State) : State := releaseObject kind id (destroyKey kind id s)

/-- DATA_KEY_DESTROY (R407): the last admitted command on a deleted owner has completed; the deletion completes. DEDUCED (log entry 23). -/
def execDataKeyDestroy (kind id : Nat) (s : State) : Res :=
  let del : Option (Bool × Option Nat) :=
    if kind = 1 then (findColl s id).map fun c => (c.deleting, c.deleteSeq)
    else if kind = 2 then (findHead s id).map fun h => (h.deleting, h.deleteSeq)
    else none
  match del with
  | some (true, seq) =>
    if objectInUse s kind id seq then .next s
    else
      let s1 := removeObject kind id s
      .next (match seq with
        | none => s1
        | some n => succeed n 0 [] s1)
  | _ => .next s

end Sys2Proof.Machine
end

