-- ==== Sys2Proof/Machine/Heads.lean ====
section
/-! DEFINITION. Creating heads, writing their tensors, and the check of their tiles (10 R206-R212; 04 R70, R81; 15 R361). -/

namespace Sys2Proof.Machine

/-! ## CREATE_MEMORY_HEAD (R206-R208) -/

/-- A VALUE_SOURCE_HEAD other than HEAD_ID names a held head that reads its own table, of the same group, S, D_V and VALUE_FORMAT. DEDUCED (log entry 36). -/
def sourceFits (s : State) (b : Bytes) : Bool :=
  !Hd.tied b || (match findHead s (Hd.source b) with
    | none => false
    | some h => !h.deleting && !Hd.tied h.desc && Hd.group h.desc == Hd.group b && Hd.slots h.desc == Hd.slots b && Hd.dv h.desc == Hd.dv b &&
        Hd.valueFormat h.desc == Hd.valueFormat b)

/-- D_MODEL, with the fields that are 0 if and only if it is 0. -/
def dModelFits (b : Bytes) : Bool :=
  if Hd.dModel b = 0 then Hd.projFormat b == 0 && Hd.actFormat b == 0 && Hd.calibWindow b == 0
  else 8 ≤ Hd.dModel b && Hd.dModel b ≤ 16384 && Hd.dModel b % 8 == 0 && Hd.projFormat b != 0 && Hd.actFormat b != 0 && Hd.calibWindow b != 0

/-- A number of sub-keys is in range. -/
def subkeysFit (b : Bytes) (n : Nat) : Bool := Hd.khalf b ≤ n && n ≤ 1048576

/-- The checks of a head descriptor after MAGIC, HEAD_LENGTH and HEAD_CRC, in ascending byte offset; `target` is TARGET_ID. DEDUCED (log entry 36). -/
def headFieldFail (s : State) (target : Nat) (b : Bytes) : Option Nat := firstFail [
  require (u32At b 4 == 64) 4,
  require (Hd.id b == target && Hd.id b != 0xFFFFFFFF) 8,
  reserved b 12 12,
  require (leAt b 24 6 / 4 == 0) 24,
  require (Hd.calibWindow b == 0 || (4 ≤ Hd.calibWindow b && Hd.calibWindow b ≤ 32)) 30,
  require (u8At b 31 == 1 || u8At b 31 == 2) 31,
  require ([1, 2].contains (Hd.outputFormat b)) 32,
  require ([1, 2].contains (Hd.inputFormat b)) 33,
  require ([0, 4, 5, 6].contains (Hd.actFormat b)) 34,
  require ([0, 2, 4, 6].contains (Hd.projFormat b)) 35,
  require ([2, 4].contains (Hd.subkeyFormat b)) 36,
  require ([2, 4, 5, 10, 11].contains (Hd.valueFormat b)) 37,
  require (1 ≤ Hd.khalf b && Hd.khalf b ≤ 64) 38,
  require (1 ≤ Hd.ksel b && Hd.ksel b ≤ min 64 (Hd.khalf b * Hd.khalf b)) 39,
  require ((groupMembers (liveDesc s) (Hd.group b)).contains (moduleIndex s)) 40,
  require (8 ≤ Hd.halfDim b && Hd.halfDim b ≤ 512 && Hd.halfDim b % 8 == 0) 42,
  require (16 ≤ Hd.dv b && Hd.dv b ≤ 8192 && Hd.dv b % 16 == 0) 44,
  require (dModelFits b) 46,
  require (subkeysFit b (Hd.subkeys1 b)) 48,
  require (subkeysFit b (Hd.subkeys2 b)) 52,
  require (sourceFits s b) 56]

/-- The check of R208: the status and the offset of the first failure. -/
def headFail (s : State) (target : Nat) (b : Bytes) : Option (Nat × Nat) :=
  if u32At b 0 ≠ 0x484D4C41 then some (Status.invalidField, 0)
  else if u32At b 4 ≠ b.length then some (Status.lengthMismatch, 0)
  else if u32At b 60 ≠ crc32c (slice b 0 60) then some (Status.invalidField, 60)
  else (headFieldFail s target b).map fun o => (Status.invalidField, o)

/-- INVALID_FIELD of the input at an offset, or another status. -/
def failInput (seq : Nat) (x : Nat × Nat) (s : State) : State := if x.1 = Status.invalidField then failPayload seq x.2 s else fail seq x.1 s

/-- A new head: every tensor and tile region holds zero bytes (R210). -/
def newHead (s : State) (id owner : Nat) (desc : Bytes) : Head where
  id := id
  owner := owner
  desc := desc
  rows := []
  tiles := []
  masters := []
  trained := none
  openStep := none
  seenSteps := []
  closedSteps := []
  stepMax := []
  stepScale := 0
  calib := []
  gradStep := none
  gradPlan := 0
  gradScale := 0
  gradMax := []
  stash := []
  steps := []
  deleting := false
  deleteSeq := none
  damagedRows := []
  damagedTile := false
  damagedAccum := false
  healed := []
  restoring := false
  members := groupMembers (liveDesc s) (Hd.group desc)

/-- The key, chain and record of a new head. A tied head has no data key of its own (17 R406). -/
def addHead (h : Head) (s : State) : State :=
  let s1 := { s with mem := { s.mem with heads := insertBy (fun a b => a.id ≤ b.id) h s.mem.heads } }
  coldWrite h.desc.length (chainStart 2 h.id h.desc (if Hd.tied h.desc then s1 else createKey 2 h.id s1))

/-- CREATE_MEMORY_HEAD. -/
def execCreateMemoryHead (seq : Nat) (input : Bytes) (s : State) : Res :=
  match admittedCmd s seq 0x30 with
  | none => .next s
  | some c =>
    let id := c.entry.target
    if wrongTransfer c input then .next (fail seq Status.lengthMismatch s)
    else if (findHead s id).isSome then .next (fail seq Status.headExists s)
    else if 1024 ≤ s.mem.heads.length then .next (fail seq Status.capacityExceeded s)
    else match headFail s id input with
      | some x => .next (failInput seq x s)
      | none =>
        if coldRefuses s (ceilDiv input.length 4096) then .next (fail seq Status.capacityExceeded s)
        else .next (succeed seq 0 [] (addHead (newHead s id (roleOf s c) input) s))

/-! ## Tied heads, and commands that touch the same tensors (R209, R216, R237) -/

/-- The head whose value table a head reads. -/
def sourceHead (s : State) (h : Head) : Head := (findHead s (Hd.source h.desc)).getD h

/-- The heads that read the same value table as a head, itself among them. -/
def tableHeads (s : State) (h : Head) : List Head := s.mem.heads.filter fun x => Hd.source x.desc == Hd.source h.desc

/-- A command is admitted and has not completed. -/
def running (d : Cmd) : Bool := d.phase == .admitted || d.phase == .working

/-- A forward that has read every tensor that it reads. -/
def hasRead (s : State) (d : Cmd) : Bool := s.mem.fwds.any fun f => f.seq == d.seq && f.phase == .exchange

/-- A forward or backward of the heads `ids` that was admitted before `c` still reads tensors. DEDUCED (log entry 33). -/
def readersAhead (s : State) (c : Cmd) (ids : List Nat) : Bool :=
  s.ahp.cmds.any fun d => (d.entry.opcode == 0x33 || d.entry.opcode == 0x34) && ids.contains d.entry.target && running d && d.order < c.order &&
    !hasRead s d

/-- A write or update of the heads `ids` that was admitted before `c` has not completed. DEDUCED (log entry 33). -/
def writersAhead (s : State) (c : Cmd) (ids : List Nat) : Bool :=
  s.ahp.cmds.any fun d => (d.entry.opcode == 0x32 || d.entry.opcode == 0x35) && ids.contains d.entry.target && running d && d.order < c.order

/-! ## The check of tiles (04 R70) -/

/-- What the tile of a tensor code must agree with. -/
def tileWant (h : Head) (t : Nat) : TileWant where
  kind := if t = 13 then 2 else 1
  format := if t = 13 then Hd.actFormat h.desc else Hd.formatCode h.desc (Hd.tileOf t)
  channels := if t = 13 then Hd.dModel h.desc else if t = 8 then Hd.dv h.desc else Hd.rows h.desc (Hd.tileOf t)
  window := if t = 13 then some (Hd.calibWindow h.desc) else none
  privCode := some (t + 4)
  sideWritten := h.tiles.any (·.1 == t + 4)

/-- The side tensor of a tile. -/
def headSide (h : Head) (t : Nat) : Bytes := if t = 13 then [] else headTile h (t + 4)

/-- The failure of one tile of a head: the code that INFO names, and the offset. `opt` tells that the plan updates its tensor. DEDUCED (log entry 36). -/
def oneTileFail (h : Head) (t : Nat) (opt : Bool) : Option (Nat × Nat) :=
  (scaleTileFail (headTile h t) (some (headSide h t)) (some (tileWant h t)) opt).map fun x =>
    (0x100000000 + (if x.1 then t + 4 else t), x.2)

/-- The first failure of a head's tiles, in ascending TENSOR code; a tied head reads the value tile of its source. DEDUCED (log entry 36). -/
def headTilesFail (s : State) (h : Head) (opt : Bool) : Option (Nat × Nat) :=
  firstFail ([5, 6, 7, 8, 13].map fun t =>
    if t = 8 then oneTileFail (sourceHead s h) 8 opt else if Hd.holds h.desc t then oneTileFail h t false else none)

/-! ## HEAD_TENSOR_WRITE (15 R361) -/

/-- The entry's failures, in ascending offset. -/
def tensorEntryFail (h : Head) (t row len : Nat) : Option Nat := firstFail [
  require (1 ≤ t && t ≤ 13 && Hd.holds h.desc t) 2,
  require (if t ≤ 4 then row < Hd.rows h.desc t else row == 0) 12,
  require (!(t ≤ 4) || (len % Hd.rowBytes h.desc t == 0 && row + len / Hd.rowBytes h.desc t ≤ Hd.rows h.desc t)) 40]

/-- The offset of the first element of the rows that is NaN or infinite (03 R43). -/
def elementFail (f : Fmt) (n : Nat) (b : Bytes) (base : Nat) : Option Nat :=
  ((List.range n).find? fun i => f.nonFinite (elemAt f b i)).map fun i => base + elemOff f i

/-- This module's share holds the slot. -/
def ownsSlot (s : State) (h : Head) (slot : Nat) : Bool :=
  ownPosition s h.members == some (slotOwner slot (max 1 h.members.length))

/-- The value scale tile as it stands passes its check. DESIGN CHOICE (log entry 30). -/
def valueTileGood (h : Head) : Bool := (oneTileFail h 8 false).isNone

/-- A new master row of a slot from its codes; `draw` is the first free value that it takes where the scale tile is not valid, so that the
spec states no dequantised value (notes/assumptions/30.md). DESIGN CHOICE (log entries 8, 30). -/
def newMaster (h : Head) (draw slot : Nat) (codes : List Nat) : Master where
  slot := slot
  x := if valueTileGood h then
      ((List.range codes.length).zip codes).map fun p => code32 (dequant (Hd.fmt h.desc 4) (headTile h 8) (headTile h 12) p.1 p.2)
    else (List.range codes.length).map fun i => Config.freeValue (draw + i) % (1 <<< 32)
  m := List.replicate (Hd.dv h.desc) 0
  v := 0

/-- A master row set. -/
def setMaster (m : Master) (h : Head) : Head := { h with masters := insertBy (fun a b => a.slot ≤ b.slot) m (h.masters.filter (·.slot ≠ m.slot)) }

/-- A value row narrowed from its master row (R81), and whether an element saturated. -/
def narrowRow (h : Head) (m : Master) : Bytes × Bool :=
  let f := Hd.fmt h.desc 4
  let e := ((List.range m.x.length).zip m.x).map fun p => storeElem f (headTile h 8) (headTile h 12) p.1 (val32 p.2)
  (packElems f (e.map (·.1)), e.any (·.2))

/-- One value row is narrowed again from its master row; a row that saturates is counted. -/
def renarrow (id : Nat) (m : Master) (s : State) : State :=
  match findHead s id with
  | none => s
  | some h =>
    let r := narrowRow h m
    let s1 := updHead id (setRow 4 m.slot r.1) s
    if r.2 then bump Key.valueRowClamps s1 else s1

/-- Every owned value row is narrowed again, where the new tile is valid. DESIGN CHOICE (log entry 30). -/
def renarrowAll (id : Nat) (s : State) : State :=
  match findHead s id with
  | none => s
  | some h => if valueTileGood h then h.masters.foldl (fun u m => renarrow id m u) s else s

/-- One row of the input is stored. DESIGN CHOICE (log entry 30). -/
def storeRow (id t row : Nat) (b : Bytes) (s : State) : State :=
  match findHead s id with
  | none => s
  | some h =>
    if t ≠ 4 then updHead id (setRow t row b) s
    else
      let codes := (List.range (Hd.dv h.desc)).map (elemAt (Hd.fmt h.desc 4) b)
      let s1 := updHead id (fun x => setMaster (newMaster h s.free row codes) (setRow 4 row b x)) s
      if valueTileGood h then s1 else { s1 with free := s1.free + Hd.dv h.desc }

/-- A tile or side tensor of the input is stored. DESIGN CHOICE (log entry 30). -/
def storeTile (id t : Nat) (b : Bytes) (s : State) : State :=
  let s1 := updHead id (fun h => if t = 13 then { setTile t b h with calib := b } else setTile t b h) s
  if t = 8 ∨ t = 12 then renarrowAll id s1 else s1

/-- The rows of a write that this module stores, by their numbers. -/
def rowsStored (s : State) (h : Head) (t first n : Nat) : List Nat :=
  (List.range n).filter fun i => t != 4 || ownsSlot s h (first + i)

/-- Stash entries of the heads `ids` that a forward admitted before `order` wrote are discarded: a tensor has changed (11 R237). DEDUCED (log
entry 34). -/
def discardStash (ids : List Nat) (order : Nat) (s : State) : State := ids.foldl (fun u i => dropStash i (fun e => e.order < order) u) s

/-- Bytes of a write unit of tensor `t` (15 R363): whole rows, or 64 KiB of a tile. -/
def unitBytes (h : Head) (t : Nat) : Nat :=
  if 5 ≤ t then 65536 else Hd.rowBytes h.desc t * max 1 (65536 / max 1 (Hd.rowBytes h.desc t))

/-- The state chain of a head takes each write unit of a write (17 R414). DESIGN CHOICE (log entry 54). -/
def chainUnits (h : Head) (t : Nat) (b : Bytes) (s : State) : State := (chunksOf (unitBytes h t) b).foldl (fun u x => chainExtend 2 h.id x u) s

/-- Part of a head's tensors, not what its backwards have left. -/
def tensorOf (head : Nat) (o : MediaObj) : Bool := objHead o == some head && o != .training head

/-- A write of `n` bytes of the input has been stored: its cold-tier copy, its chain, and the stash that it discards. Cached copies are invalid (12 R271). -/
def tensorWritten (h : Head) (t n order : Nat) (b : Bytes) (s : State) : State :=
  discardStash ((tableHeads s h).map (·.id)) order (chainUnits h t b (coldWrite n (bypassWrite (tensorOf h.id) s)))

/-- The heads whose tensors a write of tensor `t` changes. -/
def changedHeads (s : State) (h : Head) (t : Nat) : List Nat := if Hd.tileOf t = 4 ∧ t ≠ 13 then (tableHeads s h).map (·.id) else [h.id]

/-- A unit of a tile: what is durable so far stands before what the tile held; the last unit completes it. -/
def landTile (h : Head) (t order : Nat) (landed unit : Bytes) (last : Bool) (s : State) : State :=
  let now := landed ++ unit
  let s1 := if last then storeTile h.id t now s else updHead h.id (fun x => setTile t (now ++ (headTile x t).drop now.length) x) s
  tensorWritten h t unit.length order unit s1

/-- A unit of whole rows from row `first` on, of which this module stores `mine`. -/
def landRows (h : Head) (t first order : Nat) (mine : List Nat) (unit : Bytes) (s : State) : State :=
  let k := Hd.rowBytes h.desc t
  let s1 := mine.foldl (fun u i => storeRow h.id t (first + i) (slice unit (k * i) k) u) s
  let s2 := if t = 4 then clearLost 2 h.id (mine.flatMap fun i => masterLpns h (first + i) ++ stateLpns h (first + i)) s1 else s1
  tensorWritten h t (k * mine.length) order unit s2

/-- A write lands its next unit (15 R363); with the last one it completes. -/
def landUnit (h : Head) (w : HeadWrite) (s : State) : State :=
  let order := ((findCmd s w.seq).map (·.order)).getD 0
  let keep := fun (x : HeadWrite) (u : State) => { u with mem := { u.mem with writes := mapIf (·.tag == w.tag) (fun _ => x) u.mem.writes } }
  let drop := fun u : State => { u with mem := { u.mem with writes := u.mem.writes.filter (·.tag ≠ w.tag) } }
  match w.units with
  | [] => s
  | unit :: rest =>
    if 5 ≤ w.tensor then
      let s1 := landTile h w.tensor order w.landed unit rest.isEmpty s
      let x := { w with landed := w.landed ++ unit, units := rest }
      if rest.isEmpty then succeed w.seq x.landed.length [] (drop s1) else keep x s1
    else
      let n := unit.length / Hd.rowBytes h.desc w.tensor
      let mine := rowsStored s h w.tensor w.first n
      let s1 := landRows h w.tensor w.first order mine unit s
      let x := { w with first := w.first + n, stored := w.stored + mine.length, units := rest }
      if rest.isEmpty then succeed w.seq x.stored [] (drop s1) else keep x s1

/-- A write of more than one unit begins: UNIT_COMMIT makes each durable in its order (15 R363). -/
def beginWrite (c : Cmd) (h : Head) (units : List Bytes) (s : State) : State :=
  let w : HeadWrite := { tag := unitTag s, seq := c.seq, head := h.id, tensor := c.entry.arg2, first := c.entry.arg0, landed := [], stored := 0, units := units }
  let s1 := startWork c.seq s
  { s1 with mem := { s1.mem with writes := s1.mem.writes ++ [w] }, search := { s1.search with nextTag := s1.search.nextTag + 1 } }

/-- HEAD_TENSOR_WRITE (R361, R363). It waits until every forward admitted before it has read what it changes (R216), and while a tile of it moves
(12 R284). A write of one unit is durable with this row; of a longer one each unit becomes durable by a UNIT_COMMIT. DEDUCED (log entry 36). -/
def execHeadTensorWrite (seq : Nat) (input : Bytes) (s : State) : Res :=
  match admittedCmd s seq 0x32 with
  | none => .next s
  | some c =>
    match findHead s c.entry.target with
    | none => .next (fail seq Status.headNotFound s)
    | some h =>
      let t := c.entry.arg2
      let first := c.entry.arg0
      let ids := changedHeads s h t
      let n := input.length / Hd.rowBytes h.desc t
      if readersAhead s c ids || writersAhead s c ids || ids.any (headMoves s) then .next s
      else match tensorEntryFail h t first c.entry.inLen with
        | some o => .next (failEntry seq o s)
        | none =>
          if c.entry.inLen = 0 then .next (succeed seq 0 [] s)
          else if wrongTransfer c input then .next (fail seq Status.lengthMismatch s)
          else if coldRefuses s (ceilDiv input.length 4096) then .next (fail seq Status.capacityExceeded s)
          else match if 5 ≤ t then none else elementFail (Hd.fmt h.desc t) (n * Hd.cols h.desc t) input 0 with
            | some o => .next (failPayload seq o s)
            | none =>
              if unitBytes h t < input.length then .next (beginWrite c h (chunksOf (unitBytes h t) input) s)
              else if 5 ≤ t then .next (succeed seq input.length [] (landTile h t c.order [] input true s))
              else
                let mine := rowsStored s h t first n
                .next (succeed seq mine.length [] (landRows h t first c.order mine input s))

end Sys2Proof.Machine
end

