-- ==== Sys2Proof/Machine/Net.lean ====
section
/-! DEFINITION. The Ethernet attachment: frames, connections, keys, versions, credit, flow control, congestion, links, cages and
time (14 R317-R340, 18 R423, 20 R456). -/

namespace Sys2Proof.Machine

/-- The hub die's ports and transport run in P0 to P2 (02 R28). DEDUCED (log entries 55, 68). -/
def netUp (s : State) : Bool := s.power.state == .p0 || s.power.state == .p2

/-- Sub-ports of a PORTn_MODE (R317). -/
def subPorts (mode : Nat) : Nat := if mode = 1 then 1 else if mode = 2 then 2 else 4

/-- PORTn_MODE of a port. -/
def portMode (s : State) (port : Nat) : Nat := settingNat s (Key.portMode + port)

/-- Rate of a sub-port, Mb/s (R317). -/
def subRate (s : State) (port : Nat) : Nat := 800000 / subPorts (portMode s port)

/-- A sub-port. -/
def findSub (s : State) (port sub : Nat) : Option SubPort := s.net.subs.find? fun x => x.port == port && x.sub == sub

/-- A sub-port changed by `f`. -/
def updSub (port sub : Nat) (f : SubPort → SubPort) (s : State) : State :=
  { s with net := { s.net with subs := mapIf (fun x => x.port == port && x.sub == sub) f s.net.subs } }

/-- The link of a sub-port is up. -/
def linkUp (s : State) (port sub : Nat) : Bool := (findSub s port sub).any (·.up)

/-- The acknowledgement timeout, ns (R324). -/
def ackTimeout (s : State) : Nat := 4096 * 2 ^ settingNat s Key.ackTimeoutExp

/-! ## Peers -/

/-- The module index whose identity a public key is, in the live descriptor. -/
def moduleOfKey (s : State) (key : Bytes) : Option Nat :=
  if moduleCount s = 0 then none else (List.range (moduleCount s)).find? fun i => moduleDigest (liveDesc s) i == sm3Low64 key

/-- The ports on which two modules may connect (R325). -/
def commonPorts (s : State) (a b : Nat) : List Nat :=
  (List.range 4).filter fun p => bit (modulePorts (liveDesc s) a) p && bit (modulePorts (liveDesc s) b) p

/-- The port on which this module and a peer connect (R325). -/
def peerPort (s : State) (peer : Nat) : Option Nat :=
  let ports := commonPorts s (moduleIndex s) peer
  if ports.isEmpty then none else ports[(moduleIndex s + peer) % ports.length]?

/-! ## Connections -/

/-- A new connection (R323, R331). DEDUCED (log entry 47). -/
def newConn (s : State) (port sub remote mtu peer : Nat) (initiator : Bool) : Conn where
  qpn := s.net.nextQpn
  remote := remote
  mtu := mtu
  port := port
  sub := sub
  proto := 0
  major := 0
  minor := 0
  phase := if initiator then .keying else .established
  peer := peer
  key := []
  role := 0
  initiator := initiator
  keyStep := 0
  txPackets := 0
  unacked := 0
  sentAt := 0
  txPhase := false
  rxPhase := false
  rxNew := 0
  rxOld := false
  authRun := 0
  psn := 0
  txSeq := 0
  rxSeq := 0
  creditMsgs := 0
  creditBytes := 0
  owedMsgs := 0
  owedBytes := 0
  heldMsgs := 0
  heldBytes := 0
  startMsgs := 0
  startBytes := 0
  grantMsgs := 0
  grantBytes := 0
  rnr := []
  rc := subRate s port
  rt := subRate s port
  alpha := 1
  periods := 0
  rpAt := s.now
  cnpAt := none
  retries := 0
  lastTraffic := s.now
  suspendedAt := 0

/-- A connection is added. DEDUCED (log entry 47). -/
def addConn (c : Conn) (s : State) : State :=
  { s with net := { s.net with conns := s.net.conns ++ [c], nextQpn := s.net.nextQpn + 1, requests := s.net.requests.filter (·.peer ≠ c.peer) } }

/-- Connections of a port. -/
def portConns (s : State) (port : Nat) : Nat := (s.net.conns.filter (·.port == port)).length

/-- A further connection fits the limits of R324. -/
def connRoom (s : State) (port : Nat) : Bool := portConns s port < 4096 && s.net.conns.length < 16384

/-- The module has a connection with a peer. -/
def peerConn (s : State) (peer : Nat) : Bool := s.net.conns.any fun c => c.peer == peer

/-- The module carries SPP on a sub-port: sub-port 0 of a port whose PORT_MASK bit is set (R320). -/
def carriesSpp (s : State) (port sub : Nat) : Bool := sub == 0 && bit (modulePorts (liveDesc s) (moduleIndex s)) port

/-- A peer's request has come on another port than that of R325: it is the copy for port 0 that wakes a module (18 R423), and is dropped. DEDUCED (log
entry 47). -/
def strayRequest (s : State) (port sub peer : Nat) : Bool := peer != 0xFFFF && installMode s == 2 && !(sub == 0 && peerPort s peer == some port)

/-- An SPP connection is idle: nothing waits for its peer and nothing is owed. -/
def sppIdle (s : State) (c : Conn) : Bool := c.proto == 2 && c.owedMsgs == 0 && !(s.net.waits.any (·.peer == c.peer))

/-- At the connection limit the SPP connection that has been idle longest closes (R325). DEDUCED (log entry 47). -/
def makeConnRoom (port : Nat) (s : State) : State :=
  if connRoom s port then s
  else match sortOn (·.lastTraffic) (s.net.conns.filter fun c => sppIdle s c && c.port == port) with
    | [] => s
    | c :: _ => disconnect c.qpn s

/-- CONNECTION_REQUEST (R323, R325): a connection-management request, or the reply to the module's own. DEDUCED (log entry 47). -/
def execConnectionRequest (port sub remote mtu peer : Nat) (reply : Bool) (t : Nat) (s : State) : Res :=
  let s0 := tick t s
  if netUp s0 = false ∨ linkUp s0 port sub = false then .next s0
  else if reply then
    if s0.net.requests.any (·.peer == peer) then
      let c := newConn s0 port sub remote mtu peer true
      .next (emit (.keyA c.qpn) (addConn c s0))
    else .next s0
  else if strayRequest s0 port sub peer then .next s0
  else
    let ours := s0.net.requests.any (·.peer == peer)
    let s1 := makeConnRoom port s0
    let ok := connRoom s1 port && [1024, 2048, 4096].contains mtu &&
      (peer == 0xFFFF || (!peerConn s0 peer && !(ours && moduleIndex s0 < peer)))
    if ok then
      let c := newConn s1 port sub remote mtu peer false
      .next (emit (.cmReply c.qpn) (addConn c s1))
    else .next (emit (.cmReject remote) s0)

/-- SPP_CONNECTION_OPEN (R325): the module first needs a connection to a peer. DEDUCED (log entry 47). -/
def execSppConnectionOpen (peer t : Nat) (s : State) : Res :=
  let s0 := tick t s
  if netUp s0 = false ∨ installMode s0 ≠ 2 ∨ peer = moduleIndex s0 ∨ moduleCount s0 ≤ peer ∨ peerConn s0 peer ∨
      s0.net.requests.any (·.peer == peer) then .next s0
  else match peerPort s0 peer with
    | none => .next s0
    | some port =>
      let s1 := makeConnRoom port s0
      if connRoom s1 port then
        .next (emit (.cmRequest peer false) { s1 with net := { s1.net with requests := s1.net.requests ++ [{ peer := peer, since := s1.now, repeated := false }] } })
      else .next s1

/-- CONNECTION_REQUEST_REPEAT (18 R423): a request unanswered for 2 ms goes to the peer's port 0 address as well. -/
def execConnectionRequestRepeat (peer t : Nat) (s : State) : Res :=
  let s0 := tick t s
  if s0.net.requests.any (fun r => r.peer == peer && !r.repeated && r.since + 2000000 ≤ s0.now) then
    .next (emit (.cmRequest peer true) { s0 with net := { s0.net with
      requests := mapIf (fun r => r.peer == peer) (fun r => { r with repeated := true }) s0.net.requests } })
  else .next s0

/-- SPP_IDLE_CLOSE (R325). -/
def execSppIdleClose (qpn t : Nat) (s : State) : Res :=
  let s0 := tick t s
  match findConn s0 qpn with
  | none => .next s0
  | some c =>
    .next (if c.proto = 2 ∧ c.lastTraffic + settingNat s0 Key.sppIdleCloseS * 1000000000 ≤ s0.now ∧ ¬ s0.net.waits.any (·.peer == c.peer)
      then disconnect qpn s0 else s0)

/-- A message out of connection state closes the connection (R330, R331, R336). DEDUCED (log entry 47). -/
def outOfState (qpn : Nat) (s : State) : State := bump Key.connectionsRefused (closeConn qpn s)

/-! ## Keys (R328, R408) -/

/-- The certificate's key gives the connection its party: a module of the live descriptor, or a role with an AHP kind. DEDUCED (log entry 47). -/
def keyParty (s : State) (c : Conn) (key : Bytes) : Option Conn :=
  match moduleOfKey s key with
  | some m => if c.peer = 0xFFFF ∨ c.peer = m then some { c with key := key, peer := m } else none
  | none =>
    match s.sec.roles.find? (fun r => r.key == key) with
    | some r => if r.ahp ≠ 0 ∧ c.peer = 0xFFFF then some { c with key := key, role := r.id } else none
    | none => none

/-- A HELLO or HELLO_REPLY (R331). -/
def helloBytes (magic proto low high result sender msgs byts : Nat) : Bytes :=
  withCrc (toLE 4 magic ++ toLE 1 proto ++ toLE 1 1 ++ toLE 1 low ++ toLE 1 high ++ toLE 1 result ++ zeros 43 ++ toLE 2 sender ++
    toLE 2 msgs ++ toLE 4 byts)

/-- The key exchange is complete: NEGOTIATING begins. The higher-indexed of two modules sends the HELLO (R331). DEDUCED (log entry 47). -/
def keysInstalled (qpn : Nat) (s : State) : State :=
  match findConn s qpn with
  | none => s
  | some c =>
    let s1 := updConn qpn (fun x => { x with phase := .negotiating }) s
    if c.peer ≠ 0xFFFF ∧ c.peer < moduleIndex s then
      let hello := helloBytes 0x4C484C41 2 0 2 0 (moduleIndex s) (settingNat s Key.sppCreditMessages) (settingNat s Key.sppCreditBytes)
      emit (.hello qpn hello) (updConn qpn (fun x => { x with grantMsgs := settingNat s Key.sppCreditMessages, grantBytes := settingNat s Key.sppCreditBytes }) s1)
    else s1

/-- The certificate of a LINK_KEY message follows the 64-byte point. -/
def keyCert (payload : Bytes) : Bytes := payload.drop 64

/-- LINK_KEY_A (R328): the responder takes the initiator's point and certificate. DESIGN CHOICE (log entry 7). -/
def execLinkKeyA (qpn : Nat) (payload : Bytes) (t : Nat) (s : State) : Res :=
  let s0 := tick t s
  match findConn s0 qpn with
  | none => .next s0
  | some c =>
    if (c.phase = .established ∨ c.phase = .keying) ∧ c.initiator = false ∧ c.keyStep = 0 then
      match (Config.certKey (keyCert payload)).bind (keyParty s0 c) with
      | some d => .next (emit (.keyB qpn) (updConn qpn (fun _ => { d with phase := .keying, keyStep := 1, lastTraffic := s0.now }) s0))
      | none => .next (closeConn qpn s0)
    else .next (outOfState qpn s0)

/-- LINK_KEY_B (R328): the initiator verifies the responder and confirms; its certificate ends 32 B before the message does. DESIGN CHOICE (log entry 7). -/
def execLinkKeyB (qpn : Nat) (payload : Bytes) (t : Nat) (s : State) : Res :=
  let s0 := tick t s
  match findConn s0 qpn with
  | none => .next s0
  | some c =>
    if c.phase = .keying ∧ c.initiator ∧ c.keyStep = 0 then
      match (Config.certKey ((keyCert payload).take (payload.length - 96))).bind (fun k => (keyParty s0 c k).map fun d => (k, d)) with
      | some (k, d) =>
        if Config.confirms k payload then
          .next (keysInstalled qpn (emit (.keyC qpn) (updConn qpn (fun _ => { d with keyStep := 2, lastTraffic := s0.now }) s0)))
        else .next (closeConn qpn s0)
      | none => .next (closeConn qpn s0)
    else .next (outOfState qpn s0)

/-- LINK_KEY_C (R328): the responder verifies the confirmation; the keys are installed. DESIGN CHOICE (log entry 7). -/
def execLinkKeyC (qpn : Nat) (payload : Bytes) (t : Nat) (s : State) : Res :=
  let s0 := tick t s
  match findConn s0 qpn with
  | none => .next s0
  | some c =>
    if c.phase = .keying ∧ c.initiator = false ∧ c.keyStep = 1 then
      if Config.confirms c.key payload then .next (keysInstalled qpn (updConn qpn (fun x => { x with keyStep := 2, lastTraffic := s0.now }) s0))
      else .next (closeConn qpn s0)
    else .next (outOfState qpn s0)

/-- LINK_REKEY (R330): after LINK_REKEY_PACKETS packets the next key is used and KEY_PHASE toggles. DESIGN CHOICE (log entry 7). -/
def execLinkRekey (qpn : Nat) (s : State) : Res :=
  match findConn s qpn with
  | none => .next s
  | some c =>
    .next (if settingNat s Key.linkRekeyPackets ≤ c.txPackets then updConn qpn (fun x => { x with txPackets := 0, txPhase := !x.txPhase }) s else s)

/-! ## Versions (R331, R332) -/

/-- A HELLO or reply is well formed. -/
def helloFormed (magic : Nat) (reply : Bool) (b : Bytes) : Bool :=
  b.length == 64 && u32At b 0 == magic && u32At b 60 == crc32c (slice b 0 60) && (u8At b 4 == 1 || u8At b 4 == 2) &&
    (if reply then u8At b 8 ≤ 4 else u8At b 8 == 0) && leAt b 9 43 == 0 &&
    (u8At b 4 == 2 || (u16At b 52 == 0xFFFF && u16At b 54 == 0 && u32At b 56 == 0))

/-- Highest minor version that the module offers (R332). -/
def ownMinor (proto : Nat) : Nat := if proto = 1 then 4 else 2

/-- RESULT of a HELLO on a connection (R332, 01 R14, 19 R448); 0 accepts it. DEDUCED (log entry 47). -/
def helloResult (s : State) (c : Conn) (b : Bytes) : Nat :=
  let proto := u8At b 4
  if helloFormed 0x4C484C41 false b = false then 3
  else if proto = 1 ∧ c.role = 0 then 3
  else if proto = 2 ∧ (installMode s = 1 ∨ s.box.diag = 2) then 3
  else if proto = 2 ∧ installMode s = 2 ∧ carriesSpp s c.port c.sub = false then 3
  else if proto = 2 ∧ (c.peer = 0xFFFF ∨ u16At b 52 ≠ c.peer ∨ moduleOfKey s c.key ≠ some c.peer) then 4
  else if u8At b 5 ≠ 1 then 1
  else if min (ownMinor proto) (u8At b 7) < u8At b 6 then 2
  else 0

/-- The connection opens at its version, with the credit of both ends (R331, R335). -/
def openConn (qpn proto minor msgs byts gmsgs gbyts : Nat) (s : State) : State :=
  updConn qpn (fun x => { x with
    phase := .open_
    proto := proto
    major := 1
    minor := minor
    creditMsgs := msgs
    creditBytes := byts
    startMsgs := msgs
    startBytes := byts
    heldMsgs := gmsgs
    heldBytes := gbyts
    grantMsgs := gmsgs
    grantBytes := gbyts
    lastTraffic := s.now }) s

/-- HELLO (R332): the responder chooses the version and answers, or refuses and closes. DEDUCED (log entry 47). -/
def execHello (qpn : Nat) (payload : Bytes) (t : Nat) (s : State) : Res :=
  let s0 := tick t s
  match findConn s0 qpn with
  | none => .next s0
  | some c =>
    let waitsReply := c.peer ≠ 0xFFFF ∧ c.peer < moduleIndex s0
    if c.phase ≠ .negotiating ∨ waitsReply then .next (outOfState qpn s0)
    else
      let result := helloResult s0 c payload
      let proto := u8At payload 4
      let minor := min (ownMinor proto) (u8At payload 7)
      let msgs := if proto = 2 then settingNat s0 Key.sppCreditMessages else 0
      let byts := if proto = 2 then settingNat s0 Key.sppCreditBytes else 0
      let sender := if proto = 2 then moduleIndex s0 else 0xFFFF
      let chosen := if result = 0 then minor else ownMinor proto
      let s1 := emit (.helloReply qpn (helloBytes 0x52484C41 proto chosen chosen result sender msgs byts)) s0
      if result ≠ 0 then .next (outOfState qpn s1)
      else
        let s2 := openConn qpn proto minor (u16At payload 54) (u32At payload 56) msgs byts s1
        .next (if proto = 2 then flushPeer c.peer s2 else s2)

/-- A HELLO_REPLY accepts: SPP, major 1, one chosen minor that the module offers, from the module asked (R331, R332). -/
def replyAccepts (c : Conn) (b : Bytes) : Bool :=
  u8At b 4 == 2 && u8At b 5 == 1 && u8At b 8 == 0 && u8At b 6 == u8At b 7 && u8At b 7 ≤ 2 && u16At b 52 == c.peer

/-- HELLO_REPLY (R331): the connection opens at the chosen version; a refusal closes it. DEDUCED (log entry 47). -/
def execHelloReply (qpn : Nat) (payload : Bytes) (t : Nat) (s : State) : Res :=
  let s0 := tick t s
  match findConn s0 qpn with
  | none => .next s0
  | some c =>
    if c.phase ≠ .negotiating ∨ ¬(c.peer ≠ 0xFFFF ∧ c.peer < moduleIndex s0) then .next (outOfState qpn s0)
    else if helloFormed 0x52484C41 true payload = false ∨ replyAccepts c payload = false then .next (closeConn qpn s0)
    else .next (flushPeer c.peer (openConn qpn 2 (u8At payload 7) (u16At payload 54) (u32At payload 56) c.grantMsgs c.grantBytes s0))

/-! ## SPP frames (R334-R336) -/

/-- The frame passes its structural checks and has the next SEQUENCE. DEDUCED (log entry 48). -/
def sppFormed (c : Conn) (b : Bytes) : Bool :=
  32 ≤ b.length && u32At b 0 == 0x46534C41 && u32At b 28 == crc32c (slice b 0 28) && u16At b 4 == 0 && u64At b 16 == c.rxSeq &&
    u32At b 24 + 32 == b.length && u32At b 24 % 8 == 0 && u32At b 24 ≤ 2097152

/-- The TYPEs of SPP 1.0 to 1.2 (R334, 09 R198, 10 R228, 11 R260). -/
def sppType (n : Nat) : Bool := n == 1 || (0x0101 ≤ n && n ≤ 0x010B) || (0x0201 ≤ n && n ≤ 0x0210)

/-- A receiver-not-ready NAK; enough of them within 1 ms suspend the connection (R336, R337). DEDUCED (log entry 48). -/
def notReady (qpn : Nat) (s : State) : State :=
  let s1 := bump Key.rnrNaks (emit (.nak qpn 4) s)
  match findConn s1 qpn with
  | none => s1
  | some c =>
    let recent := (c.rnr.filter fun x => s1.now < x + 1000000) ++ [s1.now]
    if recent.length < settingNat s1 Key.floodSuspendCount then updConn qpn (fun x => { x with rnr := recent }) s1
    else
      let s2 := updConn qpn (fun x => { x with rnr := [], phase := .suspended, suspendedAt := s1.now }) s1
      let s3 := { s2 with ahp := { s2.ahp with queues := mapIf (fun q => q.conn == qpn) (fun q => { q with suspended := true }) s2.ahp.queues } }
      logEvent Ev.connectionSuspended Ev.warning c.port (toLE 1 c.sub ++ toLE 1 c.proto ++ zeros 2 ++ toLE 4 qpn) (bump Key.queueSuspensions s3)

/-- The credit that a frame returns is taken back, and what waited goes out (R335). DEDUCED (log entry 48). -/
def takeCredit (c : Conn) (b : Bytes) (s : State) : State :=
  flushPeer c.peer (updConn c.qpn (fun x => { x with
    creditMsgs := x.creditMsgs + u16At b 10
    creditBytes := x.creditBytes + u32At b 12 }) s)

/-- An SPP frame arrives on an OPEN connection (R334-R336). DEDUCED (log entry 48). -/
def sppFrame (c : Conn) (b : Bytes) (s : State) : State :=
  if sppFormed c b = false then bump Key.sppMalformedDrops (updConn c.qpn (fun x => { x with rxSeq := x.rxSeq + 1 }) s)
  else if u8At b 8 ≠ c.major ∨ u8At b 9 ≠ c.minor ∨ sppType (u16At b 6) = false then
    bump Key.sppVersionDrops (updConn c.qpn (fun x => { x with rxSeq := x.rxSeq + 1 }) s)
  else if u16At b 6 = 1 then takeCredit c b (updConn c.qpn (fun x => { x with rxSeq := x.rxSeq + 1, lastTraffic := s.now }) s)
  else if c.heldMsgs = 0 ∨ c.heldBytes < b.length then notReady c.qpn s
  else takeCredit c b (updConn c.qpn (fun x => { x with
    rxSeq := x.rxSeq + 1
    heldMsgs := x.heldMsgs - 1
    heldBytes := x.heldBytes - b.length
    owedMsgs := x.owedMsgs + 1
    owedBytes := x.owedBytes + b.length
    lastTraffic := s.now }) s)

/-- CREDIT (R335): a CREDIT frame. DEDUCED (log entry 48). -/
def execCredit (qpn : Nat) (payload : Bytes) (t : Nat) (s : State) : Res :=
  let s0 := tick t s
  match findConn s0 qpn with
  | none => .next s0
  | some c => .next (if c.phase = .open_ ∧ c.proto = 2 ∧ u16At payload 6 = 1 then sppFrame c payload s0 else s0)

/-- CREDIT_RETURN_TIMEOUT (R335): nothing has carried the owed credit for 2 µs. DEDUCED (log entry 48). -/
def execCreditReturnTimeout (qpn t : Nat) (s : State) : Res :=
  let s0 := tick t s
  match findConn s0 qpn with
  | none => .next s0
  | some c =>
    if c.phase = .open_ ∧ c.proto = 2 ∧ c.owedMsgs ≠ 0 then
      .next (emit (.credit qpn) (updConn qpn (fun x => { x with
        txSeq := x.txSeq + 1
        heldMsgs := x.heldMsgs + x.owedMsgs
        heldBytes := x.heldBytes + x.owedBytes
        owedMsgs := 0
        owedBytes := 0 }) s0))
    else .next s0

/-- SPP_SUSPEND_EXPIRY (R337): the connection resumes with its initial credits. DEDUCED (log entry 48). -/
def execSppSuspendExpiry (qpn t : Nat) (s : State) : Res :=
  let s0 := tick t s
  match findConn s0 qpn with
  | none => .next s0
  | some c =>
    if c.phase = .suspended ∧ c.proto = 2 ∧ c.suspendedAt + settingNat s0 Key.sppSuspendMs * 1000000 ≤ s0.now then
      .next (flushPeer c.peer (updConn qpn (fun x => { x with
        phase := .open_
        creditMsgs := x.startMsgs
        creditBytes := x.startBytes
        heldMsgs := x.grantMsgs
        heldBytes := x.grantBytes
        owedMsgs := 0
        owedBytes := 0
        rnr := [] }) s0))
    else .next s0

/-- What is not acknowledged goes again (R324), and counts as packets sent (R329). -/
def sendAgain (now : Nat) (c : Conn) : Conn :=
  { c with
    txPackets := if c.phase = .established ∨ c.phase = .keying then c.txPackets else c.txPackets + c.unacked
    sentAt := now }

/-- ACK_TIMEOUT (R324): unacknowledged packets go again, until RETRY_COUNT is exhausted. DEDUCED (log entry 51). -/
def execAckTimeout (qpn t : Nat) (s : State) : Res :=
  let s0 := tick t s
  match findConn s0 qpn with
  | none => .next s0
  | some c =>
    if c.unacked = 0 ∨ s0.now < c.sentAt + ackTimeout s0 then .next s0
    else if settingNat s0 Key.retryCount ≤ c.retries then .next (closeConn qpn s0)
    else .next (emit (.resend qpn) (updConn qpn (fun x => { sendAgain s0.now x with retries := x.retries + 1 }) s0))

/-! ## Frames (R322, R336) -/

/-- A packet marked CE draws a CNP, at most one in CNP_INTERVAL_US (R327). -/
def congestion (c : Conn) (s : State) : State :=
  let due := match c.cnpAt with
    | none => true
    | some x => x + settingUs s Key.cnpIntervalUs ≤ s.now
  if due then emit (.cnp c.qpn) (updConn c.qpn (fun x => { x with cnpAt := some s.now }) s) else s

/-- KEY_PHASE of authenticated packets: a new phase keeps the old key until 1 024 packets of it have come (R330). DEDUCED (log entry 47). -/
def rekeyed (p : Packet) (c : Conn) : Conn :=
  if p.keyPhase = c.rxPhase then
    { c with authRun := 0, rxNew := if c.rxOld then c.rxNew + p.packets else 0, rxOld := c.rxOld && c.rxNew + p.packets < 1024 }
  else if c.rxOld then { c with authRun := 0 }
  else { c with authRun := 0, rxPhase := p.keyPhase, rxOld := p.packets < 1024, rxNew := p.packets }

/-- A SEND is delivered. -/
def deliver (c : Conn) (b : Bytes) (t : Nat) (s : State) : State :=
  match c.phase with
  | .established | .keying => outOfState c.qpn s
  | .negotiating => if u32At b 0 = 0x4C484C41 ∨ u32At b 0 = 0x52484C41 then s else outOfState c.qpn s
  | .suspended => s
  | .open_ =>
    if c.proto = 2 then sppFrame c b s
    else receiveEntry c b t s

/-- A SEND finds a posted receive buffer: AHP posts DEPTH less what is outstanding, and none while suspended (15 R343, 14 R337). DEDUCED (log entry 48). -/
def bufferPosted (s : State) (c : Conn) : Bool :=
  if c.proto = 1 then c.phase != .suspended && (match queueOfConn s c.qpn with | none => true | some q => outstanding s q.qid < q.depth)
  else true

/-- Operations that the module never accepts (R323, R336): the NAK that answers them. -/
def badOp : PacketOp → Option Nat
  | .atomic | .invalidate => some 2
  | .readRequest | .writeRequest => some 3
  | _ => none

/-- A RoCEv2 message on a connection. An acknowledgement covers all that has been sent; a NAK for missing packets or for want of a buffer has them go
again (R336, 15 R343). DEDUCED (log entries 47, 51). -/
def roceMessage (c : Conn) (p : Packet) (t : Nat) (s : State) : State :=
  let keyed := c.phase != .established && c.phase != .keying
  if p.authentic = false ∧ keyed then
    let s1 := bump Key.authFailures s
    if 16 ≤ c.authRun + 1 then closeConn c.qpn s1 else updConn c.qpn (fun x => { x with authRun := x.authRun + 1 }) s1
  else
    match badOp p.op with
    | some k => bump Key.unsupportedOpcodeNaks (closeConn c.qpn (emit (.nak c.qpn k) s))
    | none =>
      let s1 := updConn c.qpn (rekeyed p) s
      if p.op = .ack then updConn c.qpn (fun x => { x with retries := 0, unacked := 0, lastTraffic := s.now }) s1
      else if p.op = .nakAccess then closeConn c.qpn s1
      else if p.op = .nakSequence ∨ p.op = .nakNotReady then
        emit (.resend c.qpn) (updConn c.qpn (fun x => { sendAgain s.now x with lastTraffic := s.now }) s1)
      else if p.op = .readResponse then updConn c.qpn (fun x => { x with lastTraffic := s.now }) s1
      else
        let ahead := (p.psn + 16777216 - c.psn) % 16777216
        if ahead = 0 then
          if bufferPosted s c then
            deliver (rekeyed p c) p.payload t (emit (.ack c.qpn) (updConn c.qpn (fun x => { x with psn := (x.psn + p.packets) % 16777216, lastTraffic := s.now }) s1))
          else notReady c.qpn s1
        else if ahead < 8388608 then bump Key.sequenceNaks (emit (.nak c.qpn 1) s1)
        else emit (.ack c.qpn) s1

/-- A frame came over a link: all but a fault of the module's own memory (R321). -/
def onLink : Frame → Bool
  | .memoryWord _ => false
  | _ => true

/-- FRAME_RECEIVE (R321, R322): a frame on a data port, by its kind, or an uncorrectable word of the memory that frames pass through: the connection whose
state or packets it held closes, and a page of the map cache is read again. The meaning of a SPP message, a HELLO, a DAP frame, a PTP or a PFC frame
is its own command's. DESIGN CHOICE (log entry 7). -/
def execFrameReceive (port sub : Nat) (frame : Frame) (t : Nat) (s : State) : Res :=
  let s0 := tick t s
  if netUp s0 = false then .next s0
  else if onLink frame ∧ linkUp s0 port sub = false then .next s0
  else match frame with
    | .memoryWord none => .next s0
    | .memoryWord (some q) => .next (closeConn q s0)
    | .badFcs => .next (bump Key.icrcDrops s0)
    | .ipv4Options => .next (bump Key.ipv4OptionDrops s0)
    | .unaccepted => .next (bump Key.unacceptedFrames s0)
    | .ptp | .dap | .address | .pfc => .next s0
    | .roce p =>
      match findConn s0 p.qpn with
      | none => .next s0
      | some c => .next (roceMessage c p s0.now (if p.ce then congestion c s0 else s0))

/-! ## Flow control (R326) -/

/-- The pause record of a priority. -/
def pauseOf (x : SubPort) (priority : Nat) : Option Pause := x.pauses.find? (·.prio == priority)

/-- A PFC frame on a sub-port. -/
def pauseFrame (priority : Nat) (paused : Bool) (now : Nat) (x : SubPort) : SubPort :=
  match pauseOf x priority with
  | none => if paused then { x with pauses := x.pauses ++ [{ prio := priority, since := now, last := now, storm := false }] } else x
  | some p =>
    if paused then { x with pauses := mapIf (fun q => q.prio == priority) (fun q => { q with last := now }) x.pauses }
    else if p.storm then x
    else { x with pauses := x.pauses.filter (·.prio ≠ priority) }

/-- PFC_PAUSE (R326): a pause, or its end, on a priority of PFC_ENABLE_MASK. DEDUCED (log entry 51). -/
def execPfcPause (port sub priority : Nat) (paused : Bool) (t : Nat) (s : State) : Res :=
  let s0 := tick t s
  if netUp s0 && bit (settingNat s0 Key.pfcEnableMask) priority then .next (updSub port sub (pauseFrame priority paused s0.now) s0) else .next s0

/-- PFC_STORM (R326): a priority has stayed paused for PFC_STORM_MS. DEDUCED (log entry 51). -/
def execPfcStorm (port sub priority t : Nat) (s : State) : Res :=
  let s0 := tick t s
  match (findSub s0 port sub).bind (pauseOf · priority) with
  | none => .next s0
  | some p =>
    if p.storm = false ∧ p.since + settingNat s0 Key.pfcStormMs * 1000000 ≤ s0.now then
      let s1 := updSub port sub (fun x => { x with pauses := mapIf (fun q => q.prio == priority) (fun q => { q with storm := true }) x.pauses }) s0
      .next (logEvent Ev.pfcStorm Ev.warning port (toLE 1 sub ++ toLE 1 priority) (bump Key.pfcStorms s1))
    else .next s0

/-- PFC_STORM_END (R326): no pause has arrived for 100 ms. DEDUCED (log entry 51). -/
def execPfcStormEnd (port sub priority t : Nat) (s : State) : Res :=
  let s0 := tick t s
  match (findSub s0 port sub).bind (pauseOf · priority) with
  | none => .next s0
  | some p =>
    if p.storm ∧ p.last + 100000000 ≤ s0.now then .next (updSub port sub (fun x => { x with pauses := x.pauses.filter (·.prio ≠ priority) }) s0)
    else .next s0

/-! ## Congestion (R327) -/

/-- g of R327. DESIGN CHOICE (log entry 49). -/
def rpGain (s : State) : Rat := (settingNat s Key.rpG : Rat) / 256

/-- A rate within its bounds. DESIGN CHOICE (log entry 49). -/
def clampRate (s : State) (port : Nat) (r : Rat) : Rat := max 100 (min (subRate s port) r)

/-- CNP_RECEIVE (R327). DESIGN CHOICE (log entry 49). -/
def execCnpReceive (qpn t : Nat) (s : State) : Res :=
  let s0 := tick t s
  .next (updConn qpn (fun c => { c with
    rt := c.rc
    rc := clampRate s0 c.port (c.rc * (1 - c.alpha / 2))
    alpha := (1 - rpGain s0) * c.alpha + rpGain s0
    periods := 0
    rpAt := s0.now }) s0)

/-- One recovery period of a connection. DESIGN CHOICE (log entry 49). -/
def recoverRate (s : State) (c : Conn) : Conn :=
  { c with
    alpha := (1 - rpGain s) * c.alpha
    rc := clampRate s c.port ((c.rc + c.rt) / 2)
    rt := if 5 ≤ c.periods then c.rt + settingNat s Key.rpAiMbps else c.rt
    periods := c.periods + 1
    rpAt := c.rpAt + settingUs s Key.rpRecoveryUs }

/-- RP_RECOVERY (R327): RP_RECOVERY_US without a CNP. DESIGN CHOICE (log entry 49). -/
def execRpRecovery (qpn t : Nat) (s : State) : Res :=
  let s0 := tick t s
  .next (updConn qpn (fun c => if c.rpAt + settingUs s0 Key.rpRecoveryUs ≤ s0.now then recoverRate s0 c else c) s0)

/-! ## Links and cages (R318, R338; 20 R456) -/

/-- CAGE_MEDIUM of a port. -/
def cageMedium (s : State) (port : Nat) : Nat := s.net.cages.getD port 0

/-- LINK_TRAINING (R318): a link trains where its cage holds a usable medium. DEDUCED (log entry 51). -/
def execLinkTraining (port sub : Nat) (trained : Bool) (t : Nat) (s : State) : Res :=
  let s0 := tick t s
  let usable := cageMedium s0 port = 1 ∨ cageMedium s0 port = 2
  if netUp s0 ∧ usable ∧ trained ∧ linkUp s0 port sub = false then .next (updSub port sub (fun x => { x with up := true, pauses := [] }) s0)
  else .next s0

/-- The links of a port drop. -/
def dropLinks (port : Nat) (s : State) : State :=
  { s with net := { s.net with subs := mapIf (fun x => x.port == port && x.up) (fun x => { x with up := false, downSince := s.now, pauses := [] }) s.net.subs } }

/-- LINK_DOWN (R338): the link goes down; connections close once it has stayed down through their retries. DEDUCED (log entry 51). -/
def execLinkDown (port sub : Nat) (management : Bool) (t : Nat) (s : State) : Res :=
  let s0 := tick t s
  if management then .next { s0 with net := { s0.net with mgmtUp := false } }
  else match findSub s0 port sub with
    | none => .next s0
    | some x =>
      if x.up then .next (updSub port sub (fun y => { y with up := false, downSince := s0.now, pauses := [] }) s0)
      else if x.downSince + (settingNat s0 Key.retryCount + 1) * ackTimeout s0 ≤ s0.now then
        .next (closeConns ((s0.net.conns.filter fun c => c.port == port && c.sub == sub).map (·.qpn)) s0)
      else .next s0

/-- CAGE_MEDIUM of a plug-in (20 R456). DEDUCED (log entry 51). -/
def mediumOf : PlugIn → Nat
  | .none => 0
  | .copper => 1
  | .krHost => 2
  | .other => 3
  | .overPower => 3

/-- A plug-in is classified; a refused one counts. DEDUCED (log entry 51). -/
def setCage (port medium : Nat) (s : State) : State :=
  let s1 := { s with net := { s.net with cages := modAt (fun _ => medium) port s.net.cages } }
  if medium = 3 then bump Key.cageModulesRefused s1 else s1

/-- CAGE_INSERT (20 R456). DEDUCED (log entry 51). -/
def execCageInsert (port : Nat) (plug : PlugIn) (t : Nat) (s : State) : Res :=
  let s0 := tick t s
  .next (if netUp s0 then setCage port (mediumOf plug) (dropLinks port s0) else s0)

/-- PLUG_IN_REMOVED (20 R456). -/
def execPlugInRemoved (port t : Nat) (s : State) : Res := .next (setCage port 0 (dropLinks port (tick t s)))

/-- PLUG_IN_HIGH_ALARM (20 R456). DEDUCED (log entry 51). -/
def execPlugInHighAlarm (port t : Nat) (s : State) : Res :=
  let s0 := tick t s
  .next (if cageMedium s0 port = 1 ∨ cageMedium s0 port = 2 then setCage port 3 (dropLinks port s0) else s0)

/-! ## Time (R339, R340) -/

/-- An instant in flight moved by the step; 0 stands for none. -/
def shiftAt (d x : Nat) : Nat := if x = 0 then 0 else x + d

/-- A shard's waits moved by the step. -/
def shiftShard (d : Nat) (x : Shard) : Shard :=
  { x with
    learned := x.learned.map fun p => (p.1, p.2 + d)
    grants := x.grants.map fun g => { g with at_ := g.at_ + d, due := g.due + d }
    stableAt := x.stableAt + d }

/-- The waits of power control moved by the step. -/
def shiftPower (d : Nat) (p : Power) : Power :=
  { p with
    entry := p.entry.map fun e => (e.1, e.2 + d)
    p2Since := p.p2Since + d
    idleSince := p.idleSince + d
    hbmStacks := p.hbmStacks.map fun x => { x with coolSince := x.coolSince.map (· + d) }
    dies := p.dies.map fun x => { x with coolSince := x.coolSince.map (· + d) }
    capSince := p.capSince.map (· + d)
    suspended := p.suspended + d
    trips := p.trips.map (· + (d : Int))
    resetting := p.resetting.map fun r => (r.1, r.2 + d)
    tripAt := p.tripAt.map (· + d) }

/-- The waits of the attachment moved by the step. -/
def shiftNet (d : Nat) (n : Net) : Net :=
  { n with
    subs := n.subs.map fun x => { x with
      downSince := x.downSince + d
      pauses := x.pauses.map fun p => { p with since := p.since + d, last := p.last + d } }
    conns := n.conns.map fun c => { c with
      lastTraffic := c.lastTraffic + d
      suspendedAt := c.suspendedAt + d
      sentAt := c.sentAt + d
      rpAt := c.rpAt + d
      rnr := c.rnr.map (· + d)
      cnpAt := c.cnpAt.map (· + d) }
    requests := n.requests.map fun r => { r with since := r.since + d } }

/-- The instants of the black box moved by the step: of events that are not yet written, of those that still coalesce repeats, and of restarts. -/
def shiftBox (d : Nat) (b : BlackBox) : BlackBox :=
  { b with
    queue := b.queue.map fun e => { e with time := e.time + d }
    recent := b.recent.map fun r => { r with event := { r.event with time := r.event.time + d } }
    restarts := b.restarts.map fun r => (r.1, r.2 + d) }

/-- The step of the first lock moves every deadline and cut instant in flight, and the start of every wait, by its size (R340). DEDUCED (log entry 50). -/
def shiftTimes (d : Nat) (s : State) : State :=
  { s with
    ahp := { s.ahp with
      cmds := s.ahp.cmds.map fun c => { c with
        arrived := c.arrived + d
        deadline := shiftAt d c.deadline
        stalledAt := c.stalledAt.map (· + d) } }
    search := { s.search with
      colls := s.search.colls.map fun c => { c with shard := c.shard.map (shiftShard d) }
      queries := s.search.queries.map fun q => { q with
        deadline := shiftAt d q.deadline
        tsc := shiftAt d q.tsc
        tls := shiftAt d q.tls
        tsh := shiftAt d q.tsh
        shardSince := q.shardSince + d }
      ingests := s.search.ingests.map fun g => { g with since := g.since + d } }
    mem := { s.mem with
      fwds := s.mem.fwds.map fun f => { f with since := f.since + d }
      bwds := s.mem.bwds.map fun f => { f with since := f.since + d }
      upds := s.mem.upds.map fun u => { u with since := u.since + d } }
    net := shiftNet d s.net
    power := shiftPower d s.power
    dap := { s.dap with
      applies := s.dap.applies.map fun a => { a with received := a.received + d }
      diagRequest := s.dap.diagRequest.map fun w => { w with since := w.since + d }
      sessions := s.dap.sessions.map fun x => { x with lastFrame := x.lastFrame + d } }
    box := shiftBox d s.box }

/-- PTP_MESSAGE (R339, R340): the first lock steps the time base forward; later the offset decides the state. A master behind the time
base is not followed before a lock. DEDUCED (log entry 50). -/
def execPtpMessage (sync : PtpSync) (t : Nat) (s : State) : Res :=
  let s0 := tick t s
  if netUp s0 = false then .next s0
  else if s0.net.locked = false then
    if sync.masterTime < s0.now then .next s0
    else
      let d := sync.masterTime - s0.now
      let s1 := shiftTimes d s0
      .next { s1 with now := sync.masterTime, net := { s1.net with locked := true, timeState := 1, offset := sync.offset, lastSync := sync.masterTime } }
  else if s0.net.timeState ≠ 1 ∧ sync.masterTime < s0.now ∧ 1000 < sync.offset.natAbs then .next s0
  else .next { s0 with net := { s0.net with
    timeState := if sync.offset.natAbs ≤ 1000 then 1 else 2
    offset := sync.offset
    lastSync := s0.now } }

/-- PTP_SYNC_LOSS (R339): 3 s without sync. DEDUCED (log entry 50). -/
def execPtpSyncLoss (t : Nat) (s : State) : Res :=
  let s0 := tick t s
  if s0.net.lastSync + 3000000000 ≤ s0.now then
    .next { s0 with net := { s0.net with timeState := if s0.net.locked then 2 else 0 } }
  else .next s0

/-! ## Management records -/

/-- State codes of R333. -/
def phaseCode : ConnPhase → Nat
  | .established => 0
  | .keying => 1
  | .negotiating => 2
  | .open_ => 3
  | .suspended => 4

/-- CONNECTION_TABLE (R333). -/
def connectionTable (s : State) : Bytes :=
  ((sortOn (·.qpn) s.net.conns).map fun c => toLE 4 c.qpn ++ toLE 4 c.remote ++ toLE 1 c.port ++ toLE 1 c.sub ++ toLE 1 c.proto ++ toLE 1 c.major ++
    toLE 1 c.minor ++ toLE 1 (phaseCode c.phase) ++ toLE 2 c.peer ++ toLE 8 (if c.key.isEmpty then 0 else sm3Low64 c.key) ++ zeros 8).flatten

end Sys2Proof.Machine
end

