-- ==== Sys2Proof/Machine/Ingest.lean ====
section
/-! DEFINITION. Inserts and deletes: their checks, their batches and sub-batches, what becomes of a unit's outcome, and the room that a
batch waits for (06 R118-R121; 09 R188, R200; 15 R359). -/

namespace Sys2Proof.Machine

/-! ## Who owns a bucket (09 R187, R203) -/

/-- The live owner of a bucket: the map's, or the module that still holds it. -/
def liveOwnerOf (c : Coll) (m : ShardMap) (bucket : Nat) : Nat :=
  match (c.shard.map (·.liveOwner)).bind fun l => l.find? (·.1 == bucket) with
  | some o => o.2
  | none => m.owners.getD (m.buckets.getD bucket 0) 0xFFFF

/-- Shard of an identifier and the module that a sub-batch with it goes to. -/
def routeOf (c : Coll) (m : ShardMap) (id : Nat) : Nat × Nat := (m.buckets.getD (bucketOf id) 0, liveOwnerOf c m (bucketOf id))

/-! ## Ingest records -/

/-- The INSERT or DELETE of a command. -/
def findIngest (s : State) (seq : Nat) : Option Ingest := s.search.ingests.find? (·.seq == seq)

/-- An INSERT or DELETE changed by `f`. -/
def updIngest (seq : Nat) (f : Ingest → Ingest) (s : State) : State :=
  { s with search := { s.search with ingests := mapIf (fun g => g.seq == seq) f s.search.ingests } }

/-- The commit report of R359. -/
def commitReport (c : Cmd) (last count : Nat) : Bytes := if 16 ≤ c.entry.outLen then toLE 8 last ++ toLE 8 count else []

/-- A queue's commands have committed up to an epoch (09 R190). -/
def noteReach (coll queue epoch : Nat) (s : State) : State :=
  updColl coll (fun c => { c with shard := c.shard.map fun x => { x with
    reach := x.reach.filter (·.1 ≠ queue) ++ [(queue, max epoch (((x.reach.find? (·.1 == queue)).map (·.2)).getD 0))] } }) s

/-- An INSERT or DELETE ends with a status. Units of it that are being written go on by themselves; those that wait do not. DEDUCED (log entry 26). -/
def endIngest (g : Ingest) (status : Nat) (s : State) : State :=
  match findCmd s g.seq with
  | none => s
  | some c =>
    let reports := [Status.success, Status.appendListFull, Status.shardUnavailable].contains status
    let out := if reports then commitReport c g.lastEpoch g.committed else []
    let info := if reports then (if g.insert then g.committed else g.live) else 0
    let gone := fun u : CUnit => unitOf g.seq u && (u.phase == .waits || status == Status.shardUnavailable)
    let units := (s.search.units.filter fun u => !gone u).map fun u => if unitOf g.seq u then { u with origin := .local_ } else u
    let s1 := { s with search := { s.search with ingests := s.search.ingests.filter (·.seq ≠ g.seq), units := units } }
    finish g.seq { status := status, info := info, outBytes := out.length } out (noteReach g.coll c.queue g.lastEpoch s1)

/-! ## Batches -/

/-- A ROW_FORWARD (09 R200). -/
def rowForwardPayload (s : State) (coll : Nat) (insert : Bool) (f : Fwd) : Bytes :=
  toLE 4 coll ++ toLE 1 (if insert then 1 else 2) ++ zeros 3 ++ toLE 8 f.tag ++ toLE 4 f.count ++ toLE 4 f.body.length ++ toLE 2 f.shard ++
    toLE 2 (moduleIndex s) ++ zeros 4 ++ f.body

/-- The body of a sub-batch. -/
def subBody (sch : Bytes) (rows : List Row) (ids : List Nat) : Bytes := (rows.map (rowRecord sch)).flatten ++ (ids.map (toLE 8 ·)).flatten

/-- A sub-batch goes to another owner. -/
def forwardPart (g : Ingest) (sch : Bytes) (rows : List Row) (ids : List Nat) (s : State) (dest : Nat × Nat) : State :=
  let f : Fwd := { tag := unitTag s, shard := dest.1, owner := dest.2, count := rows.length + ids.length, body := subBody sch rows ids }
  let s1 := updIngest g.seq (fun x => { x with fwds := x.fwds ++ [f] }) { s with search := { s.search with nextTag := s.search.nextTag + 1 } }
  sendSpp dest.2 Spp.rowForward (rowForwardPayload s g.coll g.insert f) s1

/-- The module's own unit of a batch (R121): it is written, waits for room, or ends the command. DEDUCED (log entry 21). -/
def ownPart (g : Ingest) (c : Coll) (body : UnitBody) (s : State) : State :=
  let add := fun p => updIngest g.seq (fun x => { x with pending := x.pending ++ [unitTag s] }) (addUnit g.coll body (.command g.seq) p (g.limit, g.auto) s)
  match roomFor s c g.limit g.auto body with
  | .yes => add .writing
  | .wait => add .waits
  | .full => endIngest g Status.appendListFull s
  | .beyond => endIngest g Status.capacityExceeded s

/-- A batch starts (06 R118; 09 R188): as one unit here, or as one sub-batch for each shard and owner. -/
def runBatch (g : Ingest) (rows : List Row) (ids : List Nat) (s : State) : State :=
  match findColl s g.coll with
  | none => s
  | some c =>
    let body := fun (r : List Row) (i : List Nat) => if g.insert then UnitBody.insert r else UnitBody.delete i
    match shardMapOf s g.coll with
    | none => ownPart g c (body rows ids) s
    | some m =>
      let self := moduleIndex s
      let routes := sortBy (fun a b : Nat × Nat => a.1 < b.1 || (a.1 == b.1 && a.2 ≤ b.2))
        (dedup ((rows.map fun r => routeOf c m r.id) ++ ids.map (routeOf c m)))
      let ownRows := rows.filter fun r => (routeOf c m r.id).2 == self
      let ownIds := ids.filter fun i => (routeOf c m i).2 == self
      let s1 := (routes.filter (·.2 ≠ self)).foldl (fun u dest => forwardPart g c.schema
        (rows.filter fun r => routeOf c m r.id == dest) (ids.filter fun i => routeOf c m i == dest) u dest) s
      if ownRows.isEmpty && ownIds.isEmpty then s1 else ownPart g c (body ownRows ownIds) s1

/-- The next batch of a command, or its end. -/
def nextBatch (seq : Nat) (s : State) : State :=
  match findIngest s seq with
  | none => s
  | some g =>
    match g.rows, g.ids with
    | b :: r, _ =>
      let g1 := { g with rows := r, batch := b.length, since := s.now }
      runBatch g1 b [] (updIngest seq (fun _ => g1) s)
    | [], b :: r =>
      let g1 := { g with ids := r, batch := b.length, since := s.now }
      runBatch g1 [] b (updIngest seq (fun _ => g1) s)
    | [], [] => endIngest g Status.success s

/-- A part of the running batch has committed at `e` with a count; the batch is committed when no part is left. -/
def partDone (seq : Nat) (mine : Ingest → Ingest) (e count : Nat) (s : State) : State :=
  match findIngest s seq with
  | none => s
  | some g =>
    let g1 := mine { g with lastEpoch := max g.lastEpoch e, live := if g.insert then g.live else g.live + count }
    if g1.pending.isEmpty && g1.fwds.isEmpty then
      nextBatch seq (updIngest seq (fun _ => { g1 with committed := g1.committed + g1.batch, batch := 0 }) s)
    else updIngest seq (fun _ => g1) s

/-! ## Outcomes of units -/

/-- A ROW_RESULT (09 R200). -/
def rowResultPayload (tag epoch count status newOwner offset : Nat) : Bytes :=
  toLE 8 tag ++ toLE 8 epoch ++ toLE 4 count ++ toLE 2 status ++ toLE 2 newOwner ++ toLE 4 offset ++ zeros 4

/-- The answer to a unit that another module sent. -/
def answerRows (sender tag epoch count status newOwner offset : Nat) (s : State) : State :=
  sendSpp sender Spp.rowResult (rowResultPayload tag epoch count status newOwner offset) s

/-- A structural command has committed (06 R117, R123); its queue has reached the epoch (09 R190). -/
def jobDone (coll seq epoch : Nat) (s : State) : State :=
  let s1 := match findCmd s seq with | none => s | some c => noteReach coll c.queue epoch s
  succeed seq epoch [] { s1 with search := { s1.search with
    colls := mapIf (fun c : Coll => c.job.any (·.seq == seq)) (fun c => { c with job := none }) s1.search.colls } }

/-- Where the outcome of a committed unit goes. -/
def unitDone (u : CUnit) (e count : Nat) (s : State) : State :=
  match u.origin with
  | .local_ => s
  | .peer sender tag => answerRows sender tag e count Status.success 0xFFFF 0 s
  | .command seq =>
    match u.body with
    | .version _ _ _ => jobDone u.coll seq e s
    | _ => partDone seq (fun g => { g with pending := g.pending.filter (· ≠ u.tag) }) e count s

/-- A unit that never commits: its command or its sender gets `status`. -/
def unitFails (u : CUnit) (status : Nat) (s : State) : State :=
  let s1 := dropUnit u.tag s
  match u.origin with
  | .local_ => s1
  | .peer sender tag => answerRows sender tag 0 0 status 0xFFFF 0 s1
  | .command seq =>
    match findIngest s1 seq with
    | some g => endIngest g status s1
    | none => fail seq status (stopJob seq s1)

/-- Rows of a moving bucket that its source took in, and identifiers that it took off, are sent on (09 R203). -/
def noteMove (b : UnitBody) (e : Nat) (c : Coll) : Coll :=
  { c with shard := c.shard.map fun x => { x with move := x.move.map fun m =>
      match b with
      | .insert rows =>
        let mine := rows.filter fun r => bucketOf r.id == m.bucket
        { m with unsent := (m.unsent.filter fun r => !(mine.any fun q => q.id == r.id)) ++ mine.map fun r => { r with epoch := e } }
      | .delete ids =>
        let mine := ids.filter fun i => bucketOf i == m.bucket
        { m with unsent := m.unsent.filter (fun r => !mine.contains r.id), unsentDel := m.unsentDel ++ mine }
      | _ => m } }

/-- A bucket handed over is no longer one that was taken over before (09 R203). -/
def noteHandOver (b : UnitBody) (c : Coll) : Coll :=
  match b with
  | .handOver bucket => { c with shard := c.shard.map fun x => { x with taken := x.taken.filter (·.1 ≠ bucket) } }
  | _ => c

/-- A unit is stamped, leaves the list of units, and its outcome goes where it belongs. -/
def commitAt (u : CUnit) (e : Nat) (s : State) : State :=
  match findColl s u.coll with
  | none => dropUnit u.tag s
  | some c => unitDone u e (unitCount u.body e c) (settle u.coll (updColl u.coll (fun x => noteHandOver u.body (noteMove u.body e x)) (stampUnit u e (dropUnit u.tag s))))

/-! ## INSERT and DELETE (R118, R119, R359) -/

/-- The work of an INSERT or DELETE starts with its batches. -/
def startIngest (c : Cmd) (insert : Bool) (rows : List (List Row)) (ids : List (List Nat)) (s : State) : State :=
  let g : Ingest := {
    seq := c.seq
    coll := c.entry.target
    insert := insert
    rows := rows
    ids := ids
    pending := []
    fwds := []
    batch := 0
    committed := 0
    live := 0
    lastEpoch := c.dispatchEpoch
    limit := cmdSetting c Key.appendListLimit
    auto := cmdSetting c Key.autoMergeAppend
    since := s.now }
  nextBatch c.seq (startWork c.seq { s with search := { s.search with ingests := s.search.ingests ++ [g] } })

/-- INSERT (R118, R359). DEDUCED (log entry 26). -/
def execInsert (seq : Nat) (input : Bytes) (s : State) : Res :=
  match admittedCmd s seq 0x25 with
  | none => .next s
  | some c =>
    if wrongTransfer c input then .next (fail seq Status.lengthMismatch s)
    else match findColl s c.entry.target with
    | none => .next (fail seq Status.collectionNotFound s)
    | some k =>
      let n := c.entry.arg1 % 4294967296
      if input.length ≠ n * recordSize k.schema then .next (fail seq Status.lengthMismatch s)
      else if n = 0 then .next (succeed seq 0 [] s)
      else match recordsFail k.schema input n [] 0 with
        | some off => .next (failPayload seq off s)
        | none =>
          let size := min 256 (65536 / recordSize k.schema)
          .next (startIngest c true (chunksOf size (recordRows k.schema input n)) [] s)

/-- DELETE (R119, R359). DEDUCED (log entry 26). -/
def execDelete (seq : Nat) (input : Bytes) (s : State) : Res :=
  match admittedCmd s seq 0x26 with
  | none => .next s
  | some c =>
    let n := c.entry.arg1 % 4294967296
    if wrongTransfer c input then .next (fail seq Status.lengthMismatch s)
    else if input.length ≠ 8 * n then .next (fail seq Status.lengthMismatch s)
    else if n = 0 then .next (succeed seq 0 [] s)
    else .next (startIngest c false [] (chunksOf 8192 ((List.range n).map fun i => u64At input (8 * i))) s)

/-- A waiting unit is looked at again. DEDUCED (log entry 21). -/
def retryUnit (s : State) (u : CUnit) : State :=
  match findColl s u.coll with
  | none => s
  | some c =>
    match roomFor s c u.limit u.auto u.body with
    | .yes => updUnit u.tag (fun x => { x with phase := .writing }) s
    | .wait => s
    | .full => unitFails u Status.appendListFull s
    | .beyond => unitFails u Status.capacityExceeded s

/-- APPEND_ROOM_RESUME (R121): the oldest batch that waits on a collection is looked at again. -/
def execAppendRoomResume (coll : Nat) (s : State) : Res :=
  match s.search.units.find? fun u => u.coll == coll && u.phase == .waits with
  | none => .next s
  | some u => .next (retryUnit s u)

/-- The rows of a forwarded sub-batch. -/
def fwdRows (g : Ingest) (sch : Bytes) (f : Fwd) : List Row := if g.insert then recordRows sch f.body f.count else []

/-- Its identifiers to delete. -/
def fwdIds (g : Ingest) (f : Fwd) : List Nat := if g.insert then [] else (List.range f.count).map fun i => u64At f.body (8 * i)

/-- Buckets learned to have a live owner. -/
def learnOwner (buckets : List Nat) (owner : Nat) (c : Coll) : Coll :=
  { c with shard := c.shard.map fun x => { x with
      liveOwner := (x.liveOwner.filter fun o => !buckets.contains o.1) ++ (dedup buckets).map fun b => (b, owner) } }

/-- ROW_RESULT for a forwarded sub-batch (09 R188, R200): committed, or forwarded again to the owner that it names, or the end of the command.
Where it names this module, the sub-batch commits here. DEDUCED (log entry 29). -/
def forwardResult (g : Ingest) (f : Fwd) (payload : Bytes) (s : State) : State :=
  let status := u16At payload 20
  let drop := fun x : Ingest => { x with fwds := x.fwds.filter (·.tag ≠ f.tag) }
  if status = Status.success then partDone g.seq drop (u64At payload 8) (u32At payload 16) s
  else if status = Status.notOwner then
    match findColl s g.coll with
    | none => s
    | some c =>
      let dest := u16At payload 22
      let rows := fwdRows g c.schema f
      let ids := fwdIds g f
      let s1 := updColl g.coll (learnOwner ((rows.map (·.id) ++ ids).map bucketOf) dest) s
      if dest = moduleIndex s then ownPart (drop g) c (if g.insert then .insert rows else .delete ids) (updIngest g.seq drop s1)
      else
        let again := { f with owner := dest }
        sendSpp dest Spp.rowForward (rowForwardPayload s g.coll g.insert again)
          (updIngest g.seq (fun x => { x with fwds := mapIf (fun y => y.tag == f.tag) (fun _ => again) x.fwds }) s1)
  else endIngest g status s

end Sys2Proof.Machine
end

