-- ==== Sys2Proof/Machine/Epochs.lean ====
section
/-! DEFINITION. Epochs: the commit of a unit, the epoch keeper's grants and its stable epoch, forwarded sub-batches, and the moving of
buckets (06 R120; 09 R188-R192, R200, R203). -/

namespace Sys2Proof.Machine

/-- A structurally malformed SPP payload is dropped (14 R336). DESIGN CHOICE (log entry 13). -/
def malformed (s : State) : State := bump Key.sppMalformedDrops s

/-- Sharding state changed by `f`. -/
def updShard (coll : Nat) (f : Shard → Shard) (s : State) : State := updColl coll (fun c => { c with shard := c.shard.map f }) s

/-- This module keeps the epochs of a map. -/
def isKeeper (s : State) (m : ShardMap) : Bool := m.keeper == moduleIndex s

/-! ## The relay tree (R190) -/

/-- The keeper first, then every other owner in ascending shard index. -/
def relayList (m : ShardMap) : List Nat := m.keeper :: m.owners.filter (· ≠ m.keeper)

/-- The modules that position `p` forwards to. -/
def relayNext (m : ShardMap) (p : Nat) : List Nat := ((relayList m).drop (16 * p + 1)).take 16

/-- An EPOCH_STABLE goes to the next positions of the tree. -/
def relayStable (m : ShardMap) (coll stable : Nat) (s : State) : State :=
  match (relayList m).idxOf? (moduleIndex s) with
  | none => s
  | some p => sendAll (relayNext m p) Spp.epochStable (toLE 4 coll ++ toLE 2 m.keeper ++ zeros 2 ++ toLE 8 stable) s

/-- Buckets taken over at or below a stable epoch have this module as their live owner from then on (R203). -/
def ownTaken (stable : Nat) (x : Shard) : List (Nat × Nat) :=
  x.liveOwner.filter fun o => !(x.taken.any fun k => k.1 == o.1 && k.2.1 ≤ stable)

/-- A stable epoch has been learned (R190, R191). -/
def learnStable (coll stable : Nat) (s : State) : State :=
  settle coll (updColl coll (fun c => { c with epoch := stable, shard := c.shard.map fun x => { x with
    learned := x.learned ++ [(stable, s.now)]
    liveOwner := ownTaken stable x } }) s)

/-! ## The keeper (R189, R192) -/

/-- The keeper sends its stable epoch down the tree. -/
def sendStable (m : ShardMap) (coll stable : Nat) (s : State) : State :=
  relayStable m coll stable (updShard coll (fun x => { x with stableSent := stable, stableAt := s.now }) s)

/-- The stable epoch over the grants above `base`, in ascending epoch. -/
def stableOf (base : Nat) (gs : List Grant) : Nat := ((gs.takeWhile (·.state ≠ .granted)).getLast?.map (·.epoch)).getD base

/-- The keeper looks at its grants: a stable epoch that has risen is sent on, at most once in STABLE_INTERVAL_US. Void grants are kept, for the
owners that ask again (R192). -/
def raiseStable (m : ShardMap) (coll : Nat) (s : State) : State :=
  match findColl s coll with
  | none => s
  | some c =>
    match c.shard with
    | none => s
    | some x =>
      let stable := stableOf c.epoch x.grants
      if stable ≤ c.epoch then s
      else
        let s1 := learnStable coll stable (updShard coll (fun y => { y with grants := y.grants.filter fun g => decide (stable < g.epoch) || g.state == .void }) s)
        if x.stableSent ≠ 0 ∧ s.now < x.stableAt + settingUs s Key.stableIntervalUs then s1 else sendStable m coll stable s1

/-- The grant of a unit. -/
def grantOf (x : Shard) (tag : Nat) : Option Grant := x.grants.find? (·.tag == tag)

/-- A new grant in a state; its epoch is the next of the sequence. -/
def newGrant (coll owner tag : Nat) (st : GrantState) (s : State) : State :=
  updShard coll (fun x => { x with
    nextEpoch := x.nextEpoch + 1
    grants := x.grants ++ [{ epoch := x.nextEpoch, tag := tag, owner := owner, state := st, at_ := s.now, due := s.now + settingUs s Key.shardTimeoutUs }] }) s

/-- A grant is stamped. -/
def stampGrant (coll tag epoch : Nat) (s : State) : State :=
  updShard coll (fun x => { x with grants := mapIf (fun g => g.tag == tag && g.epoch == epoch && g.state == .granted) (fun g => { g with state := .stamped }) x.grants }) s

/-- The answer to a unit. -/
def grantPayload (coll result tag epoch : Nat) : Bytes := toLE 4 coll ++ toLE 1 result ++ zeros 3 ++ toLE 8 tag ++ toLE 8 epoch

/-! ## Moving a bucket: the source (R203) -/

/-- A unit concerns a bucket. -/
def touches (bucket : Nat) (u : CUnit) : Bool :=
  match u.body with
  | .insert rows => rows.any fun r => bucketOf r.id == bucket
  | .delete ids => ids.any fun i => bucketOf i == bucket
  | .handOver b => b == bucket
  | _ => false

/-- The header of BUCKET_COPY and BUCKET_CUTOVER. -/
def bucketHeader (coll bucket kind tag count len source target : Nat) : Bytes :=
  toLE 4 coll ++ toLE 2 bucket ++ toLE 1 kind ++ zeros 1 ++ toLE 8 tag ++ toLE 4 count ++ toLE 4 len ++ toLE 2 source ++ toLE 2 target ++ zeros 4

/-- The move of a collection changed by `f`. -/
def updMove (coll : Nat) (f : Move → Move) (s : State) : State := updShard coll (fun x => { x with move := x.move.map f }) s

/-- A unit of rows or identifiers goes to the target. -/
def sendCopy (c : Coll) (shard : Nat) (m : Move) (rows : List Row) (ids : List Nat) (s : State) : State :=
  let tag := unitTag s
  let body := subBody c.schema rows ids
  let head := bucketHeader c.id m.bucket (if ids.isEmpty then 1 else 2) tag (rows.length + ids.length) body.length shard m.targetShard
  let s1 := updMove c.id (fun x => { x with
    sent := some (tag, rows, ids)
    unsent := x.unsent.drop rows.length
    unsentDel := x.unsentDel.drop ids.length }) { s with search := { s.search with nextTag := s.search.nextTag + 1 } }
  sendSpp m.target Spp.bucketCopy (head ++ body) s1

/-- The final rows go to the target with the keeper's epoch. DEDUCED (log entry 29). -/
def sendCutover (u : CUnit) (epoch : Nat) (s : State) : State :=
  match findColl s u.coll, shardMapOf s u.coll with
  | some c, some map =>
    match c.shard.bind (·.move), ownShard s map with
    | some m, some shard =>
      let body := subBody c.schema m.unsent []
      let head := bucketHeader c.id m.bucket 1 u.tag m.unsent.length body.length shard m.targetShard
      sendSpp m.target Spp.bucketCutover (head ++ toLE 8 epoch ++ body)
        (updMove c.id (fun x => { x with cutover := some (u.tag, epoch), sent := some (u.tag, x.unsent, []), unsent := [] }) s)
    | _, _ => s
  | _, _ => s

/-- A moved unit that failed is unsent again: its identifiers to delete, and those of its rows that have not been deleted or replaced
meanwhile. -/
def unsend (m : Move) : Move :=
  match m.sent with
  | none => m
  | some r =>
    let stale := fun q : Row => m.unsentDel.contains q.id || m.unsent.any (·.id == q.id)
    { m with sent := none, unsent := (r.2.1.filter fun q => !stale q) ++ m.unsent, unsentDel := r.2.2 ++ m.unsentDel }

/-- A cutover fails: the source keeps the bucket, and its rows are unsent again. DEDUCED (log entry 29). -/
def cutoverFails (u : CUnit) (s : State) : State :=
  let self := moduleIndex s
  updShard u.coll (fun x => { x with
    liveOwner := match x.move with
      | none => x.liveOwner
      | some m => x.liveOwner.filter (·.1 ≠ m.bucket) ++ [(m.bucket, self)]
    move := x.move.map fun m => { unsend m with cutover := none } }) (dropUnit u.tag s)

/-! ## Epochs for units (R120, R189) -/

/-- A unit has its epoch: a cutover goes to its target; another unit is stamped. -/
def useEpoch (u : CUnit) (e : Nat) (s : State) : State :=
  match u.body with
  | .handOver _ => sendCutover u e s
  | _ => commitAt u e s

/-- A unit whose log record is durable asks for its epoch. The keeper's own unit takes it at once. DEDUCED (log entry 29). -/
def askEpoch (u : CUnit) (m : ShardMap) (s : State) : State :=
  if isKeeper s m then
    match (findColl s u.coll).bind (·.shard) with
    | none => s
    | some x =>
      match u.body with
      | .handOver _ => useEpoch u x.nextEpoch (newGrant u.coll (moduleIndex s) u.tag .granted s)
      | _ => raiseStable m u.coll (useEpoch u x.nextEpoch (newGrant u.coll (moduleIndex s) u.tag .stamped s))
  else
    sendSpp m.keeper Spp.epochAlloc (toLE 4 u.coll ++ toLE 2 ((ownShard s m).getD 0) ++ zeros 2 ++ toLE 8 u.tag) s

/-- The move goes on: deletions first, then copies, then the cutover once fewer than 256 rows are unsent and no unit of the bucket waits to
be stamped. DEDUCED (log entry 29). -/
def pumpMove (coll : Nat) (s : State) : State :=
  match findColl s coll, shardMapOf s coll with
  | some c, some map =>
    match c.shard.bind (·.move), ownShard s map with
    | some m, some shard =>
      let size := recordSize c.schema
      if m.sent.isSome || (s.search.units.any fun u => u.coll == coll && (match u.body with | .handOver _ => true | _ => false)) then s
      else if m.unsentDel ≠ [] then sendCopy c shard m [] (m.unsentDel.take 256) s
      else if 256 ≤ m.unsent.length ∨ 65536 < m.unsent.length * size then sendCopy c shard m (m.unsent.take (min 256 (65536 / size))) [] s
      else if s.search.units.any (fun u => u.coll == coll && touches m.bucket u) then s
      else
        let u : CUnit := { tag := unitTag s, coll := coll, body := .handOver m.bucket, origin := .local_, phase := .logged, limit := 0, auto := 0 }
        askEpoch u map (updShard coll (fun x => { x with liveOwner := x.liveOwner.filter (·.1 ≠ m.bucket) })
          (addUnit coll u.body u.origin u.phase (0, 0) s))
    | _, _ => s
  | _, _ => s

/-- BUCKET_MOVE_START (R203): the source starts its next changed bucket, or goes on with the present one. -/
def execBucketMoveStart (coll : Nat) (s : State) : Res :=
  match findColl s coll, shardMapOf s coll with
  | some c, some map =>
    match c.shard with
    | none => .next s
    | some x =>
      match x.move, x.toMove with
      | some _, _ => .next (pumpMove coll s)
      | none, [] => .next s
      | none, b :: r =>
        let shard := map.buckets.getD b 0
        let m : Move := {
          bucket := b
          target := map.owners.getD shard 0xFFFF
          targetShard := shard
          unsent := (liveRows c (c.epoch + x.grants.length + x.nextEpoch)).filter fun q => bucketOf q.id == b
          unsentDel := []
          sent := none
          cutover := none }
        .next (pumpMove coll (updShard coll (fun y => { y with move := some m, toMove := r }) s))
  | _, _ => .next s

/-- The module that sent a unit. -/
def senderOf (u : CUnit) : Nat := match u.origin with | .peer m _ => m | _ => 0xFFFF

/-- A commit waits: a tile of the collection is being relocated (12 R284), or the recent-tombstone table that it uses is being rebuilt (12 R275). -/
def commitWaits (s : State) (c : Coll) : Bool :=
  collMoves s c.id || (s.hbm.hurt.any (·.obj == .tombTable) && recentTombs c != 0)

/-- The next unit of a tensor write is durable (15 R363). -/
def landNext (tag : Nat) (s : State) : State :=
  match s.mem.writes.find? (·.tag == tag) with
  | none => s
  | some w => match findHead s w.head with
    | none => s
    | some h => if headMoves s w.head then s else landUnit h w s

/-- UNIT_COMMIT (06 R120): the log record of a unit is durable. An unsharded collection's epoch rises by 1; an owner of a shard asks the
keeper; the target of a cutover takes the cutover's epoch. -/
def execUnitCommit (tag t : Nat) (s : State) : Res :=
  let s0 := tick t s
  match findUnit s0 tag with
  | none => .next (landNext tag s0)
  | some u =>
    if u.phase ≠ .writing then .next s0
    else
      match findColl s0 u.coll with
      | none => .next (dropUnit tag s0)
      | some c =>
        if commitWaits s0 c then .next s0 else
        match u.body with
        | .takeOver bucket e _ => .next (updShard u.coll (fun x => { x with taken := x.taken ++ [(bucket, e, senderOf u)] }) (commitAt u e s0))
        | _ =>
          match shardMapOf s0 u.coll with
          | none => .next (commitAt u (c.epoch + 1) (updColl u.coll (fun x => { x with epoch := x.epoch + 1 }) s0))
          | some m => .next (pumpMove u.coll (askEpoch { u with phase := .logged } m (updUnit tag (fun x => { x with phase := .logged }) s0)))

/-! ## Messages of the epoch keeper -/

/-- EPOCH_ALLOC (R189): the keeper grants the next epoch; a unit asked about again gets the answer that it has. -/
def execEpochAlloc (peer : Nat) (payload : Bytes) (t : Nat) (s : State) : Res :=
  let s0 := tick t s
  let coll := u32At payload 0
  let tag := u64At payload 8
  if payload.length ≠ 16 ∨ u16At payload 6 ≠ 0 then .next (malformed s0)
  else match shardMapOf s0 coll, (findColl s0 coll).bind (·.shard) with
    | some m, some x =>
      if isKeeper s0 m = false then .next s0
      else match grantOf x tag with
        | some g => .next (sendSpp peer Spp.epochGrant (grantPayload coll (b2n (g.state == .void)) tag (if g.state = .void then 0 else g.epoch)) s0)
        | none => .next (sendSpp peer Spp.epochGrant (grantPayload coll 0 tag x.nextEpoch) (newGrant coll peer tag .granted s0))
    | _, _ => .next s0

/-- A unit whose epoch is void is discarded (R192). -/
def voidUnit (u : CUnit) (s : State) : State :=
  match u.body with
  | .handOver _ => cutoverFails u s
  | _ => unitFails u Status.shardUnavailable s

/-- The epoch at which this module stamped its unit with this tag. -/
def stampOf (s : State) (coll tag : Nat) : Option Nat :=
  (((findColl s coll).bind (·.shard)).bind fun x => x.stamped.find? (·.1 == tag)).map (·.2)

/-- The unit with this tag is void (R192): one that waits for its epoch fails, and one that is stamped already is taken off again. -/
def voidTag (coll tag : Nat) (s : State) : State :=
  match findUnit s tag with
  | some u => if u.coll = coll ∧ u.phase = .logged then voidUnit u s else s
  | none =>
    match stampOf s coll tag with
    | none => s
    | some e =>
      let s1 := updColl coll (unstamp e) s
      match s1.search.ingests.find? fun g => g.coll == coll && g.lastEpoch == e with
      | some g => endIngest g Status.shardUnavailable s1
      | none => s1

/-- EPOCH_GRANT (R189, R192): the unit is stamped and the keeper is told, or it is discarded. A keeper that has been replaced may only
void what it granted. DEDUCED (log entry 29). -/
def execEpochGrant (peer : Nat) (payload : Bytes) (t : Nat) (s : State) : Res :=
  let s0 := tick t s
  let coll := u32At payload 0
  let tag := u64At payload 8
  let e := u64At payload 16
  if payload.length ≠ 24 ∨ leAt payload 5 3 ≠ 0 ∨ 1 < u8At payload 4 then .next (malformed s0)
  else match shardMapOf s0 coll with
    | none => .next s0
    | some m =>
      if u8At payload 4 = 1 then
        .next (if m.keeper = peer ∨ (findUnit s0 tag).isSome then pumpMove coll (voidTag coll tag s0) else s0)
      else match findUnit s0 tag with
        | none => .next s0
        | some u =>
          if u.coll ≠ coll ∨ u.phase ≠ .logged ∨ m.keeper ≠ peer then .next s0
          else
            match u.body with
            | .handOver _ => .next (useEpoch u e s0)
            | _ => .next (pumpMove coll (sendSpp peer Spp.epochStamped (toLE 4 coll ++ zeros 4 ++ toLE 8 tag ++ toLE 8 e) (useEpoch u e s0)))

/-- EPOCH_STAMPED (R189): the keeper's stable epoch may rise. -/
def execEpochStamped (_peer : Nat) (payload : Bytes) (t : Nat) (s : State) : Res :=
  let s0 := tick t s
  let coll := u32At payload 0
  if payload.length ≠ 24 ∨ u32At payload 4 ≠ 0 then .next (malformed s0)
  else match shardMapOf s0 coll with
    | none => .next s0
    | some m => .next (if isKeeper s0 m then raiseStable m coll (stampGrant coll (u64At payload 8) (u64At payload 16) s0) else s0)

/-- EPOCH_STABLE (R190): an owner takes the keeper's stable epoch and passes it on. -/
def execEpochStable (_peer : Nat) (payload : Bytes) (t : Nat) (s : State) : Res :=
  let s0 := tick t s
  let coll := u32At payload 0
  let stable := u64At payload 8
  if payload.length ≠ 16 ∨ u16At payload 6 ≠ 0 then .next (malformed s0)
  else match shardMapOf s0 coll, findColl s0 coll with
    | some m, some c =>
      if u16At payload 4 ≠ m.keeper ∨ isKeeper s0 m then .next s0
      else
        let s1 := if c.epoch < stable then learnStable coll stable s0 else s0
        .next (relayStable m coll stable s1)
    | _, _ => .next s0

/-- EPOCH_VOID (R192): a grant that has not been stamped in time. -/
def execEpochVoid (coll epoch t : Nat) (s : State) : Res :=
  let s0 := tick t s
  match shardMapOf s0 coll, (findColl s0 coll).bind (·.shard) with
  | some m, some x =>
    match x.grants.find? fun g => g.epoch == epoch && g.state == .granted with
    | none => .next s0
    | some g =>
      if isKeeper s0 m = false ∨ s0.now < g.due then .next s0
      else
        let s1 := bump Key.epochsVoided (updShard coll (fun y => { y with
          grants := mapIf (fun h : Grant => h.epoch == epoch) (fun h => { h with state := .void }) y.grants }) s0)
        let s2 := if g.owner = moduleIndex s0 then voidTag coll g.tag s1
          else sendSpp g.owner Spp.epochGrant (grantPayload coll 1 g.tag 0) s1
        .next (raiseStable m coll s2)
  | _, _ => .next s0

/-- STABLE_INTERVAL_EXPIRY (R190). -/
def execStableIntervalExpiry (coll t : Nat) (s : State) : Res :=
  let s0 := tick t s
  match shardMapOf s0 coll, findColl s0 coll with
  | some m, some c =>
    match c.shard with
    | none => .next s0
    | some x => .next (if isKeeper s0 m && x.stableSent < c.epoch && x.stableAt + settingUs s0 Key.stableIntervalUs ≤ s0.now
        then sendStable m coll c.epoch s0 else s0)
  | _, _ => .next s0

/-- Epochs that were learned stable EPOCH_HOLD_US ago are held no longer; the current epoch is, under R122. -/
def dropHeld (now hold : Nat) (c : Coll) : Coll :=
  let old := fun p : Nat × Nat => decide (p.2 + hold ≤ now)
  { c with shard := c.shard.map fun x =>
      let from_ := max x.holdFrom (min c.epoch (maxOf ((x.learned.filter old).map fun p => p.1 + 1)))
      { x with
        learned := x.learned.filter fun p => !old p
        holdFrom := from_
        stamped := x.stamped.filter fun k => from_ ≤ k.2
        taken := x.taken.filter fun k => from_ ≤ k.2.1 } }

/-- EPOCH_HOLD_EXPIRY (R191). -/
def execEpochHoldExpiry (coll t : Nat) (s : State) : Res :=
  let s0 := tick t s
  .next (settle coll (updColl coll (dropHeld s0.now (settingUs s0 Key.epochHoldUs)) s0))

/-- KEEPER_UNREACHABLE_TIMEOUT (R192): an INSERT or DELETE has waited too long. -/
def execKeeperUnreachableTimeout (seq t : Nat) (s : State) : Res :=
  let s0 := tick t s
  match findIngest s0 seq with
  | none => .next s0
  | some g =>
    let asked := (s0.search.units.any fun u => unitOf seq u && u.phase == .logged) || !g.fwds.isEmpty
    .next (if asked && g.since + settingUs s0 Key.shardTimeoutUs ≤ s0.now then endIngest g Status.shardUnavailable s0 else s0)

/-! ## Sub-batches and bucket rows from other owners (R188, R203) -/

/-- A sub-batch that passed its checks becomes a unit of the sender, waits for room, or fails. DEDUCED (log entry 21). -/
def peerUnit (c : Coll) (peer tag : Nat) (body : UnitBody) (s : State) : State :=
  match roomFor s c (liveLimits s).1 (liveLimits s).2 body with
  | .yes => addUnit c.id body (.peer peer tag) .writing (liveLimits s) s
  | .wait => addUnit c.id body (.peer peer tag) .waits (liveLimits s) s
  | .full => answerRows peer tag 0 0 Status.appendListFull 0xFFFF 0 s
  | .beyond => answerRows peer tag 0 0 Status.capacityExceeded 0xFFFF 0 s

/-- The identifiers of a body, with their offsets. -/
def bodyIds (size count : Nat) (body : Bytes) : List (Nat × Nat) := (List.range count).map fun i => (size * i, u64At body (size * i))

/-- A unit with this sender's tag is already here. -/
def unitKnown (s : State) (peer tag : Nat) : Bool := s.search.units.any fun u => u.origin == .peer peer tag

/-- The body of a unit, as its KIND reads it. -/
def bodyOf (sch : Bytes) (kind count : Nat) (body : Bytes) : UnitBody :=
  if kind = 1 then .insert (recordRows sch body count) else .delete ((bodyIds 8 count body).map (·.2))

/-- ROW_FORWARD (R188, R200). Rows that are malformed in themselves end as a malformed message (03 R43, 14 R336). -/
def execRowForward (peer : Nat) (payload : Bytes) (t : Nat) (s : State) : Res :=
  let s0 := tick t s
  let coll := u32At payload 0
  let kind := u8At payload 4
  let tag := u64At payload 8
  let count := u32At payload 16
  let body := payload.drop 32
  if payload.length < 32 ∨ leAt payload 5 3 ≠ 0 ∨ u32At payload 28 ≠ 0 ∨ (kind ≠ 1 ∧ kind ≠ 2) ∨ u32At payload 20 ≠ body.length ∨
      65536 < body.length ∨ count = 0 ∨ (if kind = 1 then 256 else 8192) < count then .next (malformed s0)
  else match findColl s0 coll, shardMapOf s0 coll with
    | some c, some m =>
      let size := if kind = 1 then recordSize c.schema else 8
      let ids := bodyIds size count body
      if body.length ≠ size * count ∨ (kind = 1 ∧ recordsMalformed c.schema body count) then .next (malformed s0)
      else if unitKnown s0 peer tag then .next s0
      else match if kind = 1 then recordsFail c.schema body count [] 0 else none with
        | some off => .next (answerRows peer tag 0 0 Status.invalidField 0xFFFF off s0)
        | none =>
          match ids.find? fun p => m.buckets.getD (bucketOf p.2) 0 != u16At payload 24 with
          | some p => .next (answerRows peer tag 0 0 Status.invalidField 0xFFFF p.1 s0)
          | none =>
            match ids.find? fun p => liveOwnerOf c m (bucketOf p.2) != moduleIndex s0 with
            | some p => .next (answerRows peer tag 0 0 Status.notOwner (liveOwnerOf c m (bucketOf p.2)) 0 s0)
            | none => .next (peerUnit c peer tag (bodyOf c.schema kind count body) s0)
    | _, _ => .next (answerRows peer tag 0 0 Status.shardUnavailable 0xFFFF 0 s0)

/-- The header fields that BUCKET_COPY and BUCKET_CUTOVER share are well formed; `head` is the header's length. -/
def bucketFormed (b : Bytes) (head : Nat) : Bool :=
  head ≤ b.length && u16At b 4 < 4096 && u8At b 7 == 0 && u32At b 28 == 0 && (u8At b 6 == 1 || (u8At b 6 == 2 && head == 32)) &&
    u32At b 20 + head == b.length && u32At b 20 ≤ 65536 && u32At b 16 ≤ 256

/-- A source that still sends rows of a bucket whose cutover committed here shows that the cutover's epoch is void (R192, R203): what committed at
it is discarded, and the source is the live owner again. DEDUCED (log entry 29). -/
def dropTaken (coll bucket source : Nat) (s : State) : State :=
  match ((findColl s coll).bind (·.shard)).bind fun x => x.taken.find? fun k => k.1 == bucket && k.2.2 == source with
  | none => s
  | some k => updColl coll (fun c => unstamp k.2.1 { c with shard := c.shard.map fun x => { x with
      taken := x.taken.filter (·.1 ≠ bucket)
      liveOwner := x.liveOwner.filter (·.1 ≠ bucket) ++ [(bucket, source)] } }) s

/-- BUCKET_COPY (R203): the target commits the rows as an insert, or the identifiers as a delete. -/
def execBucketCopy (peer : Nat) (payload : Bytes) (t : Nat) (s : State) : Res :=
  let s0 := tick t s
  let tag := u64At payload 8
  let count := u32At payload 16
  let kind := u8At payload 6
  let body := payload.drop 32
  if bucketFormed payload 32 = false then .next (malformed s0)
  else match findColl s0 (u32At payload 0) with
    | none => .next (answerRows peer tag 0 0 Status.shardUnavailable 0xFFFF 0 s0)
    | some c =>
      if body.length ≠ (if kind = 1 then recordSize c.schema else 8) * count ∨ (kind = 1 ∧ recordsMalformed c.schema body count) then .next (malformed s0)
      else if unitKnown s0 peer tag then .next s0
      else
        let s1 := dropTaken c.id (u16At payload 4) peer s0
        if count = 0 then .next (answerRows peer tag 0 0 Status.success 0xFFFF 0 s1)
        else match if kind = 1 then recordsFail c.schema body count [] 0 else none with
          | some off => .next (answerRows peer tag 0 0 Status.invalidField 0xFFFF off s1)
          | none => .next (peerUnit c peer tag (bodyOf c.schema kind count body) s1)

/-- BUCKET_CUTOVER (R203): the target takes the final rows; they commit at the epoch that the message carries. -/
def execBucketCutover (peer : Nat) (payload : Bytes) (t : Nat) (s : State) : Res :=
  let s0 := tick t s
  let tag := u64At payload 8
  let count := u32At payload 16
  let body := payload.drop 40
  if bucketFormed payload 40 = false then .next (malformed s0)
  else match findColl s0 (u32At payload 0) with
    | none => .next (answerRows peer tag 0 0 Status.shardUnavailable 0xFFFF 0 s0)
    | some c =>
      if body.length ≠ recordSize c.schema * count ∨ recordsMalformed c.schema body count then .next (malformed s0)
      else if unitKnown s0 peer tag then .next s0
      else
        let s1 := dropTaken c.id (u16At payload 4) peer s0
        match recordsFail c.schema body count [] 0 with
        | some off => .next (answerRows peer tag 0 0 Status.invalidField 0xFFFF off s1)
        | none => .next (peerUnit c peer tag (.takeOver (u16At payload 4) (u64At payload 32) (recordRows c.schema body count)) s1)

/-- The source's side of a cutover commits at the cutover's epoch, and the keeper is told that both are stamped (R203). DEDUCED (log entry 29). -/
def cutoverDone (coll tag epoch : Nat) (s : State) : State :=
  match findUnit s tag, shardMapOf s coll with
  | some u, some m =>
    let s1 := bump Key.bucketsMoved (updShard coll (fun x => { x with move := none }) (commitAt u epoch s))
    if isKeeper s1 m then raiseStable m coll (stampGrant coll tag epoch s1)
    else sendSpp m.keeper Spp.epochStamped (toLE 4 coll ++ zeros 4 ++ toLE 8 tag ++ toLE 8 epoch) s1
  | _, _ => s

/-- The answer to a unit of a bucket move. -/
def moveResult (c : Coll) (m : Move) (tag status : Nat) (s : State) : State :=
  match m.cutover with
  | some (n, epoch) =>
    if n ≠ tag then s
    else if status = Status.success then cutoverDone c.id tag epoch s
    else (match findUnit s tag with | some u => cutoverFails u s | none => s)
  | none => if status = Status.success then pumpMove c.id (updMove c.id (fun x => { x with sent := none }) s) else updMove c.id unsend s

/-- A ROW_RESULT is well formed (R200): one of the six statuses, and a module index where it names an owner. -/
def rowResultFormed (b : Bytes) : Bool :=
  let status := u16At b 20
  b.length == 32 && u32At b 28 == 0 &&
    [Status.success, Status.notOwner, Status.shardUnavailable, Status.invalidField, Status.capacityExceeded, Status.appendListFull].contains status &&
    (status != Status.notOwner || u16At b 22 < 4096)

/-- ROW_RESULT (R200): the outcome of a sub-batch or of a moved unit. -/
def execRowResult (_peer : Nat) (payload : Bytes) (t : Nat) (s : State) : Res :=
  let s0 := tick t s
  let tag := u64At payload 0
  if rowResultFormed payload = false then .next (malformed s0)
  else match s0.search.ingests.find? fun g => g.fwds.any (·.tag == tag) with
    | some g => (match g.fwds.find? (·.tag == tag) with
      | some f => .next (forwardResult g f payload s0)
      | none => .next s0)
    | none =>
      match s0.search.colls.find? fun c => ((c.shard.bind (·.move)).bind (·.sent)).any (·.1 == tag) with
      | some c => (match c.shard.bind (·.move) with
        | some m => .next (moveResult c m tag (u16At payload 20) s0)
        | none => .next s0)
      | none => .next s0

end Sys2Proof.Machine
end

