-- ==== Sys2Proof/Machine/Structure.lean ====
section
/-! DEFINITION. Creating collections, reporting on them, snapshots, and the structural commands MERGE, BUILD_INDEX and LOAD_INDEX
(06 R103, R104, R111-R117, R122-R126). -/

namespace Sys2Proof.Machine

/-- INVALID_FIELD of the input at an offset, or LENGTH_MISMATCH. -/
def failCheck (seq : Nat) (x : Nat × Nat) (s : State) : State := if x.1 = Status.invalidField then failPayload seq x.2 s else fail seq x.1 s

/-! ## CREATE_COLLECTION (R102-R104, 09 R187) -/

/-- The sharding state of a collection that a map names, at epoch `e`. -/
def newShard (s : State) (e : Nat) : Shard where
  learned := [(e, s.now)]
  holdFrom := e
  grants := []
  stamped := []
  taken := []
  nextEpoch := e + 1
  stableSent := 0
  stableAt := 0
  reach := []
  liveOwner := []
  toMove := []
  move := none

/-- A new collection: epoch 0, no tree, empty append list; `limit` is APPEND_LIST_LIMIT as its command took it (R127). -/
def newColl (s : State) (id owner limit : Nat) (schema : Bytes) : Coll where
  id := id
  owner := owner
  schema := schema
  epoch := 0
  trees := []
  append := []
  tombs := []
  snapshots := []
  reserved := limit
  job := none
  autoOff := false
  deleting := false
  deleteSeq := none
  unrestored := []
  healed := []
  damaged := []
  shard := (shardMapOf s id).map fun _ => newShard s 0

/-- A module without a shard of a mapped collection (09 R187). -/
def notOwner (s : State) (id : Nat) : Bool := (shardMapOf s id).any fun m => (ownShard s m).isNone

/-- CREATE_COLLECTION (R104). One whose append reserve (R128) does not fit free HBM completes with CAPACITY_EXCEEDED: the rule names no such
case. DESIGN CHOICE (log entry 27). -/
def execCreateCollection (seq : Nat) (input : Bytes) (s : State) : Res :=
  match admittedCmd s seq 0x20 with
  | none => .next s
  | some c =>
    let id := c.entry.target
    if wrongTransfer c input then .next (fail seq Status.lengthMismatch s)
    else if notOwner s id then .next (fail seq Status.collectionNotFound s)
    else if (findColl s id).isSome then .next (fail seq Status.collectionExists s)
    else if 4096 ≤ s.search.colls.length then .next (fail seq Status.capacityExceeded s)
    else match schemaFail input with
      | some x => .next (failCheck seq x s)
      | none =>
        let k := newColl s id (roleOf s c) (cmdSetting c Key.appendListLimit) input
        if coldRefuses s (ceilDiv input.length 4096) ∨ freeHbm s < k.reserved * appendEntryBytes input then .next (fail seq Status.capacityExceeded s)
        else
          let s1 := { s with search := { s.search with colls := s.search.colls ++ [k] } }
          .next (succeed seq 0 [] (coldWrite input.length (chainStart 1 id input (createKey 1 id s1))))

/-! ## COLLECTION_INFO (R126) -/

/-- STATE. -/
def collState (c : Coll) : Nat :=
  if c.deleting then 4
  else match c.job with
    | some j => if j.kind = 1 then 3 else 2
    | none => if c.trees.isEmpty then 0 else 1

/-- The 64-byte status record. DEDUCED (log entries 24, 27, 65). -/
def collInfo (s : State) (c : Coll) : Bytes :=
  let sizes := ((treeAt c c.epoch).map fun t => t.parts.map List.length).getD []
  let drift := (sizes.filter fun n => n < Sch.leafMin c.schema || Sch.leafMax c.schema < n).length
  toLE 4 c.id ++ zeros 9 ++ toLE 1 (collState c) ++ toLE 1 c.snapshots.length ++ toLE 1 (pinnedLevels s c.id) ++
    toLE 8 (((treeAt c c.epoch).map (·.epoch)).getD 0) ++ toLE 4 (ceilDiv (collCold c) 1000000000) ++ toLE 4 (ceilDiv (collHbm s c) 1048576) ++
    toLE 4 drift ++ toLE 4 sizes.length ++ toLE 4 (c.tombs.filter (·.foldedAt.isNone)).length ++ toLE 4 (unfolded c).length ++
    toLE 8 (liveRows c c.epoch).length ++ toLE 8 c.epoch

/-- COLLECTION_INFO: the state at the end of its hold (R462). -/
def execCollectionInfo (seq : Nat) (s : State) : Res :=
  match admittedCmd s seq 0x22 with
  | none => .next s
  | some c => .next (succeed seq c.epoch c.report s)

/-! ## Snapshots (R125, 09 R191) -/

/-- SNAPSHOT_COLLECTION: the epoch was held at the end of its hold (R462), or there was no place for it. A sharded collection's must be held
by every other owner too; where one refuses, the hold is dropped. DEDUCED (log entries 22, 65). -/
def execSnapshotCollection (seq : Nat) (others : Bool) (t : Nat) (s : State) : Res :=
  let s0 := tick t s
  match admittedCmd s0 seq 0x23 with
  | none => .next s0
  | some c =>
    match findColl s0 c.entry.target with
    | none => .next (fail seq Status.collectionNotFound s0)
    | some k =>
      if c.report = [] then .next (fail seq Status.capacityExceeded s0)
      else if k.shard.isSome ∧ others = false then
        .next (settle k.id (fail seq Status.shardUnavailable (updColl k.id (fun x => { x with snapshots := x.snapshots.erase c.epoch }) s0)))
      else .next (succeed seq c.epoch [] s0)

/-- RELEASE_SNAPSHOT: one hold of the epoch in ARG_0 was dropped at the end of its hold (R462); an epoch that was not held is an invalid ARG_0
(notes/assumptions/22.md). DEDUCED (log entry 22). -/
def execReleaseSnapshot (seq : Nat) (s : State) : Res :=
  match admittedCmd s seq 0x24 with
  | none => .next s
  | some c => .next (if c.report = [] then failEntry seq 12 s else succeed seq 0 [] s)

/-! ## Trees after a MERGE (R106, R123) -/

/-- VECTOR_COUNTs of every level from those of the partitions. -/
def recount (parts : List (List Row)) : List (List Node) → List (List Node)
  | [] => []
  | [leaf] => [((leaf.zip parts).map fun p => { p.1 with vectors := p.2.length })]
  | level :: rest =>
    let below := recount parts rest
    let kids := below.headD []
    (level.map fun n => { n with vectors := sumOf (((kids.drop n.first).take n.count).map (·.vectors)) }) :: below

/-- Children of the parent of leaf `p`, and the parents after a split of that leaf. -/
def splitParents (p : Nat) (level : List Node) : List Node :=
  level.map fun n => if n.first ≤ p && p < n.first + n.count then { n with count := n.count + 1 } else if p < n.first then { n with first := n.first + 1 } else n

/-- A leaf level with leaf `p` replaced by two. -/
def splitLeaves (p : Nat) (a b : Bytes) (level : List Node) : List Node :=
  let node := fun c : Bytes => ({ first := 0, count := 0, vectors := 0, centroid := c } : Node)
  let l := level.take p ++ [node a, node b] ++ level.drop (p + 1)
  ((List.range l.length).zip l).map fun x => { x.2 with first := x.1 }

/-- A partition above LEAF_MAX is split in two where its halves and its parent allow it. DEDUCED (log entry 24). -/
def splitPart (sch : Bytes) (cfg : BuildCfg) (t : Tree) (p : Nat) : Tree :=
  let rows := t.parts.getD p []
  let leaves := t.levels.getLastD []
  let upper := t.levels.dropLast
  let siblings := if upper.isEmpty then t.rootChildren else (((upper.getLastD []).find? fun n => n.first ≤ p && p < n.first + n.count).map (·.count)).getD 0
  if rows.length ≤ Sch.leafMax sch ∨ Sch.fanout sch ≤ siblings ∨ partitionLimit sch ≤ t.parts.length then t
  else
    let own := ((leaves[p]?).map (·.centroid)).getD []
    let b := buildNode (treeSpace sch) cfg (Sch.fanout sch) 1 rows 2 own
    match b.1.headD [], b.2 with
    | [n, m], [r, q] =>
      if r.length < Sch.leafMin sch ∨ q.length < Sch.leafMin sch then t
      else { t with
        rootChildren := if upper.isEmpty then t.rootChildren + 1 else t.rootChildren
        levels := upper.dropLast ++ (upper.getLast?.map (splitParents p)).toList ++ [splitLeaves p n.centroid m.centroid leaves]
        parts := t.parts.take p ++ [r, q] ++ t.parts.drop (p + 1) }
    | _, _ => t

/-! ## MERGE (R123, R124) -/

/-- The row is taken off at or below the cut. -/
def goneAt (c : Coll) (cut : Nat) (r : Row) : Bool := c.tombs.any fun t => t.id == r.id && r.epoch < t.epoch && t.epoch ≤ cut

/-- Leaves of the live entries, in append-list order, with the sizes of the partitions as they grow; none where no leaf has room. -/
def assignLeaves (sch : Bytes) (t : Tree) : List Nat → List Row → Option (List Nat)
  | _, [] => some []
  | sizes, r :: rest =>
    match leafFor sch t sizes r with
    | none => none
    | some p => (assignLeaves sch t (modAt (· + 1) p sizes) rest).map (p :: ·)

/-- A fold: the entries in order, each with its leaf where it is live. -/
abbrev Fold := List (Row × Option Nat)

/-- Partitions that a fold rewrites beside those with deletions. -/
def foldParts (f : Fold) : List Nat := sortOn id (dedup (f.filterMap (·.2)))

/-- A partition afresh: what is left of it and what joins it, in ascending identifier. -/
def freshPart (c : Coll) (t : Tree) (cut : Nat) (f : Fold) (p : Nat) : List Row :=
  sortOn (·.id) ((t.parts.getD p []).filter (fun r => !goneAt c cut r) ++ (f.filter (·.2 == some p)).map (·.1))

/-- HBM of the affected partitions. -/
def freshHbm (c : Coll) (t : Tree) (cut : Nat) (f : Fold) (ps : List Nat) : Nat :=
  let sizes := ps.map fun p => (freshPart c t cut f p).length
  vectorsHbm c.schema (sumOf sizes) + stripesHbm sizes

/-- The longest prefix, of at most `n` entries, whose affected partitions fit. DEDUCED (log entry 24). -/
def longestFit (c : Coll) (t : Tree) (cut room : Nat) (f : Fold) : Nat → Nat
  | 0 => 0
  | n + 1 =>
    let g := f.take (n + 1)
    if freshHbm c t cut g (foldParts g) ≤ room then n + 1 else longestFit c t cut room f n

/-- The new version: the affected partitions rewritten, then split, the highest index first. DEDUCED (log entry 24). -/
def mergedTree (c : Coll) (t : Tree) (cfg : BuildCfg) (cut : Nat) (f : Fold) (ps : List Nat) : Tree :=
  let fresh := ((List.range t.parts.length).zip t.parts).map fun x =>
    if ps.contains x.1 then encodePart c.schema t.codebook (freshPart c t cut f x.1) else x.2
  let split := ps.reverse.foldl (splitPart c.schema cfg) { t with parts := fresh }
  { split with levels := recount split.parts split.levels }

/-- What a MERGE finds. -/
inductive MergePlan
  | nothing
  | full
  | version (tree : Tree) (folded : Nat)
  deriving DecidableEq, Repr

/-- The fold of a MERGE cut at `cut`. DEDUCED (log entry 24). -/
def planMerge (c : Coll) (cfg : BuildCfg) (cut room : Nat) : MergePlan :=
  match c.trees.head? with
  | none => .nothing
  | some t =>
    let entries := ((unfolded c).filter (·.row.epoch ≤ cut)).map (·.row)
    let dead := (List.range t.parts.length).filter fun p => (t.parts.getD p []).any (goneAt c cut)
    if entries.isEmpty && dead.isEmpty then .nothing
    else
      let sizes := t.parts.map fun p => (p.filter fun r => !goneAt c cut r).length
      match assignLeaves c.schema t sizes (entries.filter fun r => !goneAt c cut r) with
      | none => .full
      | some leaves =>
        let step := fun (acc : Fold × List Nat) (r : Row) =>
          if goneAt c cut r then (acc.1 ++ [(r, none)], acc.2) else (acc.1 ++ [(r, acc.2.head?)], acc.2.tail)
        let f : Fold := (entries.foldl step ([], leaves)).1
        let all := sortOn id (dedup (foldParts f ++ dead))
        if freshHbm c t cut f all ≤ room then .version (mergedTree c t cfg cut f all) f.length
        else
          let n := longestFit c t cut room f f.length
          if n = 0 then .nothing else .version (mergedTree c t cfg cut (f.take n) (foldParts (f.take n))) n

/-- The build entries as a command took them. -/
def buildCfg (c : Cmd) : BuildCfg where
  iterations := cmdSetting c Key.buildIterations
  perCentroid := cmdSetting c Key.buildSamplePerCentroid
  seed := cmdSetting c Key.buildSeed

/-- A structural command builds its version; the unit commits when it is durable. DEDUCED (log entry 25). -/
def startVersion (seq coll kind : Nat) (tree : Tree) (cut folded : Nat) (s : State) : State :=
  addUnit coll (.version tree cut folded) (.command seq) .writing (liveLimits s)
    (updColl coll (fun x => { x with job := some { seq := seq, kind := kind } }) (startStream seq s))

/-- MERGE (R123, R124). -/
def execMerge (seq : Nat) (s : State) : Res :=
  match admittedCmd s seq 0x27 with
  | none => .next s
  | some c =>
    match findColl s c.entry.target with
    | none => .next (fail seq Status.collectionNotFound s)
    | some k =>
      match planMerge k (buildCfg c) c.epoch (freeHbm s) with
      | .nothing => .next (succeed seq k.epoch [] s)
      | .full => .next (fail seq Status.capacityExceeded (if c.internal then updColl k.id (fun x => { x with autoOff := true }) s else s))
      | .version tree folded =>
        if coldRefuses s (versionPages k.schema tree) then .next (fail seq Status.capacityExceeded s) else .next (startVersion seq k.id 1 tree c.epoch folded s)

/-! ## BUILD_INDEX and LOAD_INDEX (R112-R117) -/

/-- Unfolded entries that are input to a build at `cut`. DEDUCED (log entry 25). -/
def inputEntries (c : Coll) (cut : Nat) : Nat := ((unfolded c).filter (·.row.epoch ≤ cut)).length

/-- The codebook of a collection. -/
def heldBook (c : Coll) : Bytes := ((c.trees.head?).map (·.codebook)).getD []

/-- A build meets uncorrectable data: in a word that it owns (12 R275), or in what it reads of its collection, which no chapter completes. DESIGN CHOICE (log entry
64). -/
def buildHurt (s : State) (x : Upsets) (c : Cmd) : Bool :=
  !(lostMedia s x).isEmpty || (findColl s c.entry.target).any fun k => !k.damaged.isEmpty

/-- The version that a build makes of the vectors live at its epoch (R112-R114): the codebook is trained where there is none or ARG_2 asks for it, and the tree is the
hierarchical k-means of the vectors in ascending identifier. DEDUCED (log entry 25). -/
def builtVersion (c : Cmd) (k : Coll) : Tree :=
  let sch := k.schema
  let rows := sortOn (·.id) (liveRows k c.epoch)
  let cfg := buildCfg c
  let book := if Sch.pqBits sch = 0 then [] else if heldBook k = [] ∨ bit c.entry.arg2 0 then trainCodebook sch cfg rows else heldBook k
  let b := builtTree (Sch.depth sch) (buildNode (treeSpace sch) cfg (Sch.fanout sch) (Sch.depth sch) rows (partitionCount sch rows.length) []) book
  { b with parts := b.parts.map (encodePart sch book) }

/-- BUILD_INDEX (R112-R114, R117), with what the codes find meanwhile (12 R275, R285). DEDUCED (log entries 25, 64). -/
def execBuildIndex (run : CmdRun) (s : State) : Res :=
  match admittedCmd s run.seq 0x28 with
  | none => .next s
  | some c =>
    let s := takeBanks c s
    if awaitsBanks s run.seq then .next s
    else
    let s := guarded run.upsets s
    if run.upsets.codes.second.isSome then .next ((run.upsets.codes.second.map fun m => codeFails c m s).getD s)
    else if buildHurt s run.upsets c then .next (fail run.seq Status.incompleteMedia s)
    else match findColl s c.entry.target, c.plan.bind fun p => allTilesFail (livePlan s p) with
      | none, _ => .next (fail run.seq Status.collectionNotFound s)
      | some _, some x => .next (failTile run.seq x s)
      | some k, none =>
        let live := liveRows k c.epoch
        if live.isEmpty then .next (succeed run.seq k.epoch [] s)
        else if partitionLimit k.schema < partitionCount k.schema live.length then .next (fail run.seq Status.capacityExceeded s)
        else
          let tree := builtVersion c k
          if coldRefuses s (versionPages k.schema tree) ∨ freeHbm s < versionHbm k.schema tree then .next (fail run.seq Status.capacityExceeded s)
          else .next (startVersion run.seq k.id 2 tree c.epoch (inputEntries k c.epoch) s)

/-- LOAD_INDEX (R115-R117). DEDUCED (log entry 25). -/
def execLoadIndex (seq : Nat) (input : Bytes) (s : State) : Res :=
  match admittedCmd s seq 0x29 with
  | none => .next s
  | some c =>
    if wrongTransfer c input then .next (fail seq Status.lengthMismatch s)
    else match findColl s c.entry.target with
    | none => .next (fail seq Status.collectionNotFound s)
    | some k =>
      let rows := liveRows k c.epoch
      match imageFail k.schema input (rows.map (·.id)) (heldBook k != []) with
      | some x => .next (failCheck seq x s)
      | none =>
        let tree := imageTree k.schema input rows (heldBook k)
        if coldRefuses s (versionPages k.schema tree) ∨ freeHbm s < versionHbm k.schema tree then .next (fail seq Status.capacityExceeded s)
        else .next (startVersion seq k.id 3 tree c.epoch (inputEntries k c.epoch) s)

end Sys2Proof.Machine
end

