-- ==== Sys2Proof/Machine/Admit.lean ====
section
/-! DEFINITION. Dispatch and admission: what a command does at the end of its hold, and the automatic MERGE (15 R346, R350, R352, R353; 06
R105, R124, R125, R126, R462). -/

namespace Sys2Proof.Machine

/-! ## The end of a hold (06 R462) -/

/-- What a command on a collection does at the end of its hold: DELETE_COLLECTION takes effect, COLLECTION_INFO takes its report, and the
snapshot commands hold or release. -/
def collAtAdmission (c : Cmd) (k : Coll) (s : State) : State :=
  let note := fun b : Bytes => updCmd c.seq fun d => { d with report := b }
  if c.entry.opcode = 0x21 then beginDeleteColl k.id (some c.seq) s
  else if c.entry.opcode = 0x22 then note (collInfo s k) s
  else if c.entry.opcode = 0x23 then
    if 16 ≤ k.snapshots.length then s else note [1] (updColl k.id (fun x => { x with snapshots := x.snapshots ++ [k.epoch] }) s)
  else if c.entry.opcode = 0x24 then
    if k.snapshots.contains c.entry.arg0 then note [1] (settle k.id (updColl k.id (fun x => { x with snapshots := x.snapshots.erase c.entry.arg0 }) s)) else s
  else s

/-- What an admitted command does at once, where its effect belongs to its dispatch or to the end of its hold (R354, R358, R362, 19 R445, 06
R462): QUEUE_RESET marks the commands that it ends, LOG_READ reads the black box, UNLOAD_PLAN and DELETE_MEMORY_HEAD take effect. DEDUCED (log entry 67). -/
def atAdmission (c : Cmd) (s : State) : State :=
  let note := fun b : Bytes => updCmd c.seq fun d => { d with report := b }
  if c.entry.opcode = 0x02 then note (toLE 8 s.ahp.nextSeq) s
  else if c.entry.opcode = 0x04 then note (logReport s c) s
  else if c.entry.opcode = 0x11 then (if unloads s c then note [1] (beginUnload c s) else s)
  else if c.entry.opcode = 0x31 then (if headIsSource s c.entry.target then s else note [1] (beginDeleteHead c.entry.target (some c.seq) s))
  else match findColl s c.entry.target with
    | none => s
    | some k => collAtAdmission c k s

/-- A command is admitted, or completes with what its target or its plan gives. -/
def endHold (c : Cmd) (s : State) : State :=
  let s1 := admitNow c s
  match admittedCmd s1 c.seq c.entry.opcode with
  | some d => atAdmission d s1
  | none => s1

/-- COMMAND_ADMIT (06 R462): the hold of a dispatched command ends. -/
def execCommandAdmit (seq : Nat) (s : State) : Res :=
  match findCmd s seq with
  | none => .next s
  | some c => .next (if c.phase = .dispatched ∧ holdEnded s c ∧ s.ahp.admissionOpen then endHold c s else s)

/-! ## Dispatch (R352, R353) -/

/-- What follows the choice of a command at its dispatch (R346, R350): its target and its plan are resolved, unless an earlier
creation or deletion of the target is pending; XRDY is sent; and the command is admitted at once where nothing holds it. DESIGN CHOICE (log entry 11). -/
def dispatchCmd (c : Cmd) (t : Nat) (s : State) : State :=
  let late := targetPending s c
  let s1 := updCmd c.seq (fun d => { d with phase := .dispatched, dispatchedAt := t, dispatchEpoch := epochOf s c, late := late }) s
  match if late then none else targetFail s c with
  | some st => fail c.seq st s1
  | none =>
    match if late then none else planFail s c with
    | some st => fail c.seq st s1
    | none =>
      let s2 := if c.entry.inLen = 0 then s1 else emit (.xrdy (connOf s c) (xrdyBytes c t)) s1
      if holdEnded s2 { c with phase := .dispatched } then endHold c s2 else s2

/-- COMMAND_DISPATCH (R352, R353): one dispatch slot. -/
def execCommandDispatch (t : Nat) (s : State) : Res :=
  let s0 := tick t s
  if frontOpen s0 = false then .next s0
  else match nextDispatch s0 with
    | (none, used) => .next { s0 with ahp := { s0.ahp with used := used } }
    | (some (cls, q, c), used) =>
      .next (dispatchCmd c s0.now { s0 with ahp := { s0.ahp with used := used, last := modAt (fun _ => some q.qid) cls s0.ahp.last } })

/-! ## The automatic MERGE (06 R124) -/

/-- The command that the module starts itself (R124). -/
def autoMergeCmd (s : State) (coll : Nat) : Cmd where
  seq := s.ahp.nextSeq
  queue := 0xFFFFFFFF
  entry := { opcode := 0x27, fence := false, arg2 := 0, cmdId := 0, target := coll, arg0 := 0, arg1 := 0, inAddr := 0, inKey := 0, inLen := 0,
             outAddr := 0, outKey := 0, outLen := 0 }
  arrived := s.now
  phase := .dispatched
  dispatchedAt := s.now
  dispatchEpoch := 0
  epoch := 0
  held := []
  deadline := 0
  config := []
  late := false
  internal := true
  order := 0
  plan := none
  report := []
  replica := 0
  stalledAt := none
  waitsFor := []
  tileFlags := 0
  comp := none

/-- The thresholds of an automatic MERGE are reached (R124). DEDUCED (log entry 24). -/
def mergeDue (s : State) (c : Coll) : Bool :=
  let a := settingNat s Key.autoMergeAppend
  let b := settingNat s Key.autoMergeTombstones
  (a != 0 && a ≤ (unfolded c).length) || (b != 0 && b ≤ recentTombs c)

/-- AUTO_MERGE_START (R124): not without a tree, not while one is under way, and not after one that found no room (R123). DEDUCED (log entry 24). -/
def execAutoMergeStart (coll : Nat) (s : State) : Res :=
  match findColl s coll with
  | none => .next s
  | some c =>
    if c.trees.isEmpty || c.autoOff || c.deleting || !mergeDue s c || (s.ahp.cmds.any fun d => d.internal && d.entry.target == coll) then .next s
    else
      let d := autoMergeCmd s coll
      let s1 := { s with ahp := { s.ahp with cmds := s.ahp.cmds ++ [d], nextSeq := s.ahp.nextSeq + 1 } }
      .next (if holdEnded s1 d then endHold d s1 else s1)

end Sys2Proof.Machine
end

