-- ==== Sys2Proof/Machine/Exchange.lean ====
section
/-! DEFINITION. What the exchanges of forwards and backwards share: messages and their parts, messages that come early, repeats,
the end of a command, and a member that is declared failed (10 R228-R231; 11 R245, R264). -/

namespace Sys2Proof.Machine

/-! ## The header of R229 -/

namespace Part

/-- HEAD_ID. -/
def head (b : Bytes) : Nat := u32At b 16
/-- SENDER_POSITION. -/
def pos (b : Bytes) : Nat := u16At b 20
/-- MICRO_BATCH. -/
def mb (b : Bytes) : Nat := u16At b 22
/-- REPLICA_DIGEST. -/
def replica (b : Bytes) : Nat := u64At b 24
/-- REQUEST_DIGEST. -/
def digest (b : Bytes) : Nat := u64At b 32
/-- STEP. -/
def step (b : Bytes) : Nat := u64At b 40
/-- INCOMPLETE. -/
def incomplete (b : Bytes) : Bool := bit (u8At b 48) 1
/-- LAST_PART. -/
def last (b : Bytes) : Bool := bit (u8At b 48) 2
/-- TOKEN_SPAN. -/
def span (b : Bytes) : Nat := u32At b 52
/-- TOKEN_FIRST. -/
def first (b : Bytes) : Nat := u32At b 56

/-- The header is well formed. -/
def formed (magic : Nat) (b : Bytes) : Bool :=
  64 ≤ b.length && u32At b 0 == magic && u32At b 4 == b.length && u32At b 60 == crc32c (slice b 0 60) &&
    u64At b 8 == 0 && leAt b 48 3 % 2 == 0 && leAt b 48 3 < 8 && u8At b 51 ≤ 3

end Part

/-- What a member says of a micro-batch in every message of its part. -/
structure PartKey where
  magic : Nat
  head : Nat
  pos : Nat
  mb : Nat
  step : Nat
  replica : Nat
  digest : Nat
  attempt : Nat
  incomplete : Bool

/-- The header of a message with `span` tokens from `first`, and `n` bytes after it. -/
def partHeader (k : PartKey) (last : Bool) (first span n : Nat) : Bytes :=
  withCrc (toLE 4 k.magic ++ toLE 4 (64 + n) ++ zeros 8 ++ toLE 4 k.head ++ toLE 2 k.pos ++ toLE 2 k.mb ++ toLE 8 k.replica ++ toLE 8 k.digest ++
    toLE 8 k.step ++ toLE 1 (2 * b2n k.incomplete + 4 * b2n last) ++ zeros 2 ++ toLE 1 k.attempt ++ toLE 4 span ++ toLE 4 first)

/-- Tokens of output position `o` among `m` members. -/
def tokensOf (o m tokens : Nat) : List Nat := (List.range tokens).filter fun t => t % max 1 m == o

/-- Tokens cut into messages of at most 1 MiB; `len` gives the bytes of a message of some tokens. -/
def cutSpans (len : List Nat → Nat) : List Nat → List Nat → List (List Nat)
  | acc, [] => [acc]
  | acc, t :: r => if !acc.isEmpty && 1048576 < len (acc ++ [t]) then acc :: cutSpans len [t] r else cutSpans len (acc ++ [t]) r

/-- The messages of one part: `body` gives the bytes that follow the header for some tokens. -/
def partMessages (k : PartKey) (body : List Nat → Bytes) (o : Nat) (tokens : List Nat) : List Bytes :=
  let spans := cutSpans (fun l => 64 + (body l).length) [] tokens
  ((List.range spans.length).zip spans).map fun x =>
    partHeader k (x.1 + 1 == spans.length) (x.2.headD o) x.2.length (body x.2).length ++ body x.2

/-- A message joins what a member has sent: a part starts at its first token, goes on in order, and is kept once complete; the flag of a
complete part stands. `tokens` are all the tokens of the part. DEDUCED (log entry 35). -/
def joinPart (b : Bytes) (m : Nat) (tokens : List Nat) (rows : List (Nat × List Nat)) (p : PeerPart) : PeerPart :=
  let start := Part.first b == tokens.headD (Part.first b) && (tokens.length == 0 || Part.span b != 0)
  let q := if start then { p with rows := [], next := Part.first b, incomplete := false } else p
  if p.complete || q.next != Part.first b then p
  else
    let next := q.next + m * Part.span b
    { q with
      rows := q.rows ++ rows
      next := next
      incomplete := q.incomplete || Part.incomplete b
      complete := Part.last b && (tokens.all fun t => t < next) }

/-- A part of which nothing has come. -/
def noPart (pos : Nat) : PeerPart where
  pos := pos
  rows := []
  next := 0
  complete := false
  incomplete := false

/-- The parts with the one of position `pos` changed. -/
def setPart (pos : Nat) (f : PeerPart → PeerPart) (l : List PeerPart) : List PeerPart :=
  let old := (l.find? (·.pos == pos)).getD (noPart pos)
  insertBy (fun a b => a.pos ≤ b.pos) (f old) (l.filter (·.pos ≠ pos))

/-- Positions of the members other than this module's. -/
def otherPositions (own m : Nat) : List Nat := (List.range m).filter (· ≠ own)

/-- Positions whose part is not complete. -/
def missingParts (own m : Nat) (l : List PeerPart) : List Nat :=
  (otherPositions own m).filter fun p => !(l.any fun x => x.pos == p && x.complete)

/-! ## The control payload of R230 -/

namespace Ctl

/-- HEAD_ID. -/
def head (b : Bytes) : Nat := u32At b 0
/-- MICRO_BATCH. -/
def mb (b : Bytes) : Nat := u16At b 4
/-- SENDER_POSITION. -/
def pos (b : Bytes) : Nat := u16At b 6
/-- STEP. -/
def step (b : Bytes) : Nat := u64At b 8
/-- ATTEMPT. -/
def attempt (b : Bytes) : Nat := u8At b 16
/-- DIGEST_VALID. -/
def valid (b : Bytes) : Bool := u8At b 18 == 1
/-- REQUEST_DIGEST. -/
def digest (b : Bytes) : Nat := u64At b 24
/-- The payload of a message type is well formed (R230): ATTEMPT, CAUSE, DIGEST_VALID and the digest hold what the type lists. -/
def formed (type : Nat) (b : Bytes) : Bool :=
  b.length == 32 && leAt b 19 5 == 0 &&
    (if type = Spp.memfwdAbort ∨ type = Spp.membwdAbort then
      u8At b 16 == 0 && (u8At b 17 == 1 || u8At b 17 == 2) && u8At b 18 ≤ 1 && (u8At b 18 == 1 || u64At b 24 == 0)
     else u8At b 17 == 0 && u8At b 18 == 1 && u8At b 16 ≤ 3 && !((type == Spp.memfwdRepeat || type == Spp.membwdRepeat) && u8At b 16 == 0))

end Ctl

/-! ## Messages that come before their command starts here -/

/-- A message is kept until its command starts; one for a head that the module does not hold is dropped. DEDUCED (log entry 35). -/
def keepEarly (head peer type : Nat) (b : Bytes) (s : State) : State :=
  if (findHead s head).isNone then s
  else { s with mem := { s.mem with early := s.mem.early ++ [{ peer := peer, type := type, payload := b }] } }

/-- HEAD_ID, STEP and MICRO_BATCH of a message: those with the header of R229, and those with the payload of R230. -/
def earlyKey (e : Early) : Nat × Nat × Nat :=
  if e.type = Spp.memfwdPartial ∨ e.type = Spp.membwdDw then (Part.head e.payload, Part.step e.payload, Part.mb e.payload)
  else (Ctl.head e.payload, Ctl.step e.payload, Ctl.mb e.payload)

/-- The kept messages of some types of one micro-batch. -/
def earlyOf (s : State) (types : List Nat) (head step mb : Nat) : List Early :=
  s.mem.early.filter fun e => types.contains e.type && earlyKey e == (head, step, mb)

/-- The kept messages of a micro-batch go. -/
def dropEarly (types : List Nat) (head step mb : Nat) (s : State) : State :=
  { s with mem := { s.mem with early := s.mem.early.filter fun e => !(types.contains e.type && earlyKey e == (head, step, mb)) } }

/-! ## The end of a command -/

/-- The records of a memory-layer command go. -/
def dropMem (seq : Nat) (s : State) : State :=
  { s with mem := { s.mem with
      fwds := s.mem.fwds.filter (·.seq ≠ seq)
      bwds := s.mem.bwds.filter (·.seq ≠ seq)
      upds := s.mem.upds.filter (·.seq ≠ seq) } }

/-- A forward or backward in flight by its stash key: HEAD_ID, STEP, MICRO_BATCH. -/
def batchOf (s : State) (seq : Nat) : Option (Nat × Nat × Nat) :=
  match s.mem.fwds.find? (·.seq == seq) with
  | some f => some (f.head, f.step, f.mb)
  | none => (s.mem.bwds.find? (·.seq == seq)).map fun b => (b.head, b.step, b.mb)

/-- A command ends without its effect: its micro-batch's stash is released (R231, R233, R250). -/
def endMem (seq : Nat) (comp : Comp) (out : Bytes) (s : State) : State :=
  let s1 := match batchOf s seq with
    | some k => releaseStash k.1 k.2.1 k.2.2 s
    | none => s
  finish seq comp out (dropMem seq s1)

/-- A command ends with a status and INFO. -/
def endMemWith (seq status info : Nat) (s : State) : State := endMem seq { status := status, info := info } [] s

/-- A digest difference (R215): it is counted, and the command completes with GROUP_MISMATCH. -/
def endMismatch (seq : Nat) (s : State) : State := endMemWith seq Status.groupMismatch 0 (bump Key.groupMismatches s)

/-- An abort of a micro-batch has come (R230, R231). DEDUCED (log entry 35). -/
def endAborted (seq : Nat) (valid : Bool) (theirs own : Nat) (s : State) : State :=
  if valid && theirs != own then endMismatch seq s else endMemWith seq Status.groupUnavailable 0xFFFF s

/-- A command met uncorrectable data somewhere in its group (R233): INCOMPLETE_MEDIA, with this member's list of blocks. DEDUCED (log entry 66). -/
def endIncomplete (seq : Nat) (media : List Nat) (s : State) : State :=
  let out := (media.map (toLE 8)).flatten
  endMem seq { status := Status.incompleteMedia, outBytes := out.length, flags := Cflag.incomplete } out s

/-! ## A failed member (11 R264) -/

/-- The memory-layer commands in flight on heads of a group. -/
def groupCmds (s : State) (group : Nat) : List Nat :=
  let inGroup := fun id : Nat => (findHead s id).any fun h => Hd.group h.desc == group
  (s.mem.fwds.filter fun f => inGroup f.head).map (·.seq) ++ (s.mem.bwds.filter fun b => inGroup b.head).map (·.seq) ++
    (s.mem.upds.filter fun u => inGroup u.head).map (·.seq)

/-- A member of a group has failed: until the group changes, every memory-layer command on its heads completes with GROUP_UNAVAILABLE. DEDUCED (log entry 35). -/
def failGroup (group module : Nat) (s : State) : State :=
  let s1 := if s.mem.failed.any (·.1 == group) then s else { s with mem := { s.mem with failed := s.mem.failed ++ [(group, module)] } }
  (groupCmds s1 group).foldl (fun u q => endMemWith q Status.groupUnavailable module u) s1

/-- This module declares a member failed: cause 1 REDUCTION, 2 FORWARD_EXCHANGE, 3 BACKWARD_EXCHANGE. DEDUCED (log entry 35). -/
def declareFailed (h : Head) (module cause step : Nat) (ring : Option (Nat × List Nat)) (s : State) : State :=
  let group := Hd.group h.desc
  let s1 := sendAll (otherMembers s h.members) Spp.memberFailed (memberNotice module cause 0 h.id step group 0xFFFF) s
  let s2 := match ring with
    | some r => sendAll (otherMembers s1 r.2) Spp.memberFailed (memberNotice module cause 0 h.id step 0xFFFF r.1) s1
    | none => s1
  let s3 := logEvent Ev.memberFailed Ev.error module (toLE 4 h.id ++ toLE 8 step) (bump Key.membersDeclaredFailed s2)
  failGroup group module { s3 with mem := { s3.mem with lastFailed := module } }

/-- Why a memory-layer command on a head cannot run: the group's list has changed (R212), a member has failed (R264), or one is degraded
(R265). -/
def layerFail (s : State) (h : Head) : Option (Nat × Nat) :=
  if headMembers s h ≠ h.members then some (Status.groupMismatch, 0)
  else match s.mem.failed.find? (·.1 == Hd.group h.desc) with
    | some x => some (Status.groupUnavailable, x.2)
    | none => if s.mem.degraded.contains (Hd.group h.desc) then some (Status.groupUnavailable, 0xFFFF) else none

/-- A completion with a status and INFO, before the command has begun. -/
def failWith (seq : Nat) (x : Nat × Nat) (s : State) : State := finish seq { status := x.1, info := x.2 } [] s

/-- A notice has its length, its reserved bytes, one of its causes, and a stack where its type names one (11 R261). -/
def noticeFormed (causes : List Nat) (bound : Nat) (b : Bytes) : Bool :=
  b.length == 32 && leAt b 20 12 == 0 && causes.contains (u8At b 2) && u8At b 3 < bound

/-- MEMBER_FAILED (11 R264). -/
def execMemberFailed (_peer : Nat) (payload : Bytes) (t : Nat) (s : State) : Res :=
  let s0 := tick t s
  if noticeFormed [1, 2, 3] 1 payload = false then .next (malformed s0)
  else
    let group := u16At payload 16
    .next (if group = 0xFFFF then s0 else failGroup group (u16At payload 0) s0)

/-- MEMBER_DEGRADED (11 R265): later commands on the groups that hold the sender complete with GROUP_UNAVAILABLE. -/
def execMemberDegraded (_peer : Nat) (payload : Bytes) (s : State) : Res :=
  if noticeFormed [4, 5] 12 payload = false then .next (malformed s)
  else
    let group := u16At payload 16
    .next (if group = 0xFFFF ∨ s.mem.degraded.contains group then s else { s with mem := { s.mem with degraded := insertBy (· ≤ ·) group s.mem.degraded } })

end Sys2Proof.Machine
end

