-- ==== Sys2Proof/Machine/Window.lean ====
section
/-! DEFINITION. Value pages, master pages and the window of a plan (10 R232; 13 R299-R301, R307-R312). A page of a head is numbered here
by its head and by its place in the head's own page-run layout, whose base the spec leaves to the module. -/

namespace Sys2Proof.Machine

/-- Pages of a head have 48 bits of their own. DESIGN CHOICE (log entry 40). -/
def pageBase (h : Head) : Nat := h.id <<< 48

/-- Pages of the value row of a slot (13 R301). DESIGN CHOICE (log entry 40). -/
def valuePages (v : Head) (slot : Nat) : List Nat :=
  let block := slot / 4096
  let r := slot % 4096
  let rpp := (blockEntry v block).rowsPerPage
  let at_ := pageBase v + block * 65536
  if rpp ≠ 0 then [at_ + r / rpp] else
    let n := ceilDiv (Hd.rowBytes v.desc 4) 4096
    (List.range n).map fun i => at_ + r * n + i

/-- Pages of the master row of a slot, in fixed row slots by its local row (13 R301). DESIGN CHOICE (log entry 40). -/
def masterPages (v : Head) (slot : Nat) : List Nat :=
  slotPages (pageBase v + (1 <<< 47)) (localRow slot v.members.length) (masterBytes v.desc)

/-- Pages of the optimiser state of a slot (13 R301). DESIGN CHOICE (log entry 40). -/
def statePages (v : Head) (slot : Nat) : List Nat :=
  slotPages (pageBase v + (1 <<< 46)) (localRow slot v.members.length) (stateBytes v.desc)

/-- The block of a local row in the share of the module's position `p` of `m` members (10 R211). -/
def blockOfLocal (p m row : Nat) : Nat := row / 4096 * max 1 m + p

/-- The value-row block that a page of a head serves, for the list of blocks: the block of a value page, or of a row's fixed slots. -/
def pageBlock (s : State) (v : Head) (page : Nat) : Nat :=
  let x := page - pageBase v
  let own := (ownPosition s v.members).getD 0
  let local_ := fun base bytes : Nat => blockOfLocal own v.members.length ((x - base) / max 1 (ceilDiv bytes 4096))
  if x < 1 <<< 46 then x / 65536 else if x < 1 <<< 47 then local_ (1 <<< 46) (stateBytes v.desc) else local_ (1 <<< 47) (masterBytes v.desc)

/-- The first `round` of each promotion's pages are awaited: what a region holds at once (13 R312). DESIGN CHOICE (log entry 40). -/
def awaited (l : List Promotion) : List Nat := dedup (l.flatMap fun x => (sortOn id (dedup x.pages)).take (max 1 x.capacity))

/-- The last stage at which the promotions of a plan release their pages, as a place in STAGE_LIST; none at the end of the command (13
R307). -/
def releaseStage (p : Plan) : Option Nat :=
  let m := sectionOf p.bytes 6
  let l := ((List.range m.count).map fun i => m.off + 16 * i).filter fun o => u8At p.bytes o == 1 || u8At p.bytes o == 3
  if l.any fun o => u8At p.bytes (o + 3) == 0xFF then none else some (maxOf (l.map fun o => u8At p.bytes (o + 3)))

/-- A stage of a command has completed: the pages that its plan releases by then are released (13 R307, R311; 10 R232). -/
def releaseAfter (seq code : Nat) (s : State) : State :=
  match (findCmd s seq).bind (·.plan) with
  | none => s
  | some p =>
    match releaseStage p, (stagesOf p.bytes).idxOf? code with
    | some r, some i => if r ≤ i then releaseCopies seq s else s
    | _, _ => s

/-- Every page is held and its read is complete. -/
def pagesHeld (s : State) (pages : List Nat) : Bool := pages.all fun p => (copyOf s p).any (·.state == .resident)

/-- The blocks of awaited pages whose read was uncorrectable (13 R311), joined to those that a command has met. -/
def joinBad (s : State) (v : Head) (pages media : List Nat) : List Nat :=
  let bad := (pages.filter fun p => (copyOf s p).any (·.bad)).map (pageBlock s v)
  sortOn id (dedup (media ++ bad))

end Sys2Proof.Machine
end

