-- ==== Sys2Proof/Machine/Forward.lean ====
section
/-! DEFINITION. MEMLAYER_FWD: its request, its stash, its stages, and the exchange of partial rows (10 R213-R233; 11 R240-R242). -/

namespace Sys2Proof.Machine

/-! ## The request (R213, R214) -/

/-- Bytes of the input rows. -/
def inputBytes (d : Bytes) (tokens : Nat) : Nat := tokens * Hd.dIn d * ((Hd.inputFmt d).width / 8)

/-- The first failure of a forward request: status and offset. -/
def fwdFail (h : Head) (order : Nat) (b : Bytes) : Option (Nat × Nat) :=
  let bad := fun o => some (Status.invalidField, o)
  let n := inputBytes h.desc (Fw.tokens b)
  if u32At b 0 ≠ Fw.magic then bad 0
  else if u32At b 4 ≠ b.length then some (Status.lengthMismatch, 0)
  else if u32At b 60 ≠ crc32c (slice b 0 60) then bad 60
  else (firstFail [
    fwdHeaderFail h order b,
    require (b.length == roundUp 16 (64 + n)) 56,
    elementFail (Hd.inputFmt h.desc) (Fw.tokens b * Hd.dIn h.desc) (b.drop 64) 64,
    padding b (64 + n) (b.length - 64 - n)]).map fun o => (Status.invalidField, o)

/-- The input rows as values. -/
def inputRows (h : Head) (b : Bytes) : List (List Num) :=
  let f := Hd.inputFmt h.desc
  (List.range (Fw.tokens b)).map fun t => (List.range (Hd.dIn h.desc)).map fun k => f.value (elemAt f (b.drop 64) (t * Hd.dIn h.desc + k))

/-! ## The records in flight -/

/-- The forward of a command. -/
def findFwd (s : State) (seq : Nat) : Option MemFwd := s.mem.fwds.find? (·.seq == seq)

/-- One forward changed by `f`. -/
def updFwd (seq : Nat) (f : MemFwd → MemFwd) (s : State) : State := { s with mem := { s.mem with fwds := mapIf (fun x => x.seq == seq) f s.mem.fwds } }

/-- This module's position in a head's group. -/
def ownPos (s : State) (h : Head) : Nat := (ownPosition s h.members).getD 0

/-- A forward that ends here with another status than the exchange's own tells the other members (R230, CAUSE 2). DEDUCED (log entry 35). -/
def abortLocal (h : Head) (f : MemFwd) (s : State) : State := sendAbort Spp.memfwdAbort h f.mb f.step 2 (some f.digest) s

/-! ## The stash (11 R240-R242) -/

/-- Bytes of the stash region and of the input region that a micro-batch needs. DEDUCED (log entry 34). -/
def stashNeed (d : Bytes) (tokens : Nat) (recompute : Bool) : Nat × Nat :=
  let k := Hd.ksel d
  let entry := 8 + roundUp 8 (5 * k) + (if recompute then 0 else roundUp 8 (2 * k) + 8 + 2 * Hd.halfDim d)
  let input :=
    if Hd.dModel d ≠ 0 then (if recompute ∨ !Hd.frozenProj d then 64 + tokens * elemBytes (Hd.actFmt d) (Hd.dModel d) else 0)
    else if recompute then inputBytes d tokens else 0
  (tokens * roundUp 64 entry, input)

/-- The two parts of a plan's stash space. DEDUCED (log entry 34). -/
def stashSpace (p : Plan) : Nat × Nat :=
  (planStashMib p.bytes * 1048576, (((regionsOf p.bytes).find? (·.id == 255)).map (·.size)).getD 0)

/-- A stash entry of one token (03 R57): header, slots, and in the full form weights, row scale and query. -/
def stashEntry (h : Head) (recompute : Bool) (x : StashTok) : Bytes :=
  let head := toLE 1 (b2n recompute) ++ toLE 1 (Hd.ksel h.desc) ++ toLE 2 (h.id % 65536) ++ toLE 4 x.token
  let slots := padTo 8 ((x.slots.map (toLE 5)).flatten)
  let rest := if recompute then [] else padTo 8 ((x.weights.map (toLE 2)).flatten) ++ toLE 8 x.rowScale ++ (x.codes.map (toLE 1)).flatten
  padTo 64 (head ++ slots ++ rest)

/-- The stash region's bytes of a micro-batch: its entries in ascending token, each at a multiple of 64 B (03 R57). -/
def stashRegion (h : Head) (x : StashMb) : Bytes := (x.toks.map (stashEntry h x.recompute)).flatten

/-- What of a plan's stash space its head's entries hold. -/
def stashUsed (h : Head) (plan : Nat) : Nat × Nat :=
  let mine := h.stash.filter (·.plan == plan)
  (sumOf (mine.map (·.stashBytes)), sumOf (mine.map (·.inputBytes)))

/-- A need fits what is left. DEDUCED (log entry 34). -/
def needFits (need used space : Nat × Nat) : Bool := need.1 + used.1 ≤ space.1 && need.2 + used.2 ≤ space.2

/-- Whether a forward runs in RECOMPUTE mode, or none where even that exceeds the whole space (R242). DEDUCED (log entry 34). -/
def stashMode (d : Bytes) (p : Plan) (tokens : Nat) : Option Bool :=
  if needFits (stashNeed d tokens false) (0, 0) (stashSpace p) then some false
  else if (stagesOf p.bytes).contains 0x36 && needFits (stashNeed d tokens true) (0, 0) (stashSpace p) then some true
  else none

/-- The entry that reserves the space of a micro-batch. -/
def newStash (h : Head) (f : MemFwd) (scale : Nat) : StashMb where
  step := f.step
  mb := f.mb
  order := f.order
  plan := f.plan
  tokens := f.tokens
  recompute := f.recompute
  ready := false
  toks := []
  inputs := []
  wides := []
  actScale := scale
  stashBytes := (stashNeed h.desc f.tokens f.recompute).1
  inputBytes := (stashNeed h.desc f.tokens f.recompute).2

/-! ## Steps of the projection input (R216; 04 R77, R78) -/

/-- The open step of a head closes: the ring write (04 R78). DEDUCED (log entry 33). -/
def closeStep (h : Head) : Head :=
  match h.openStep with
  | none => h
  | some n =>
    let tile := closeRunning (headTile h 13) h.stepMax
    let h1 := if Hd.dModel h.desc = 0 ∨ h.stepMax = [] then h else { setTile 13 tile h with calib := tile }
    { h1 with openStep := none, closedSteps := h1.closedSteps ++ [n], stepMax := [] }

/-- A step opens: its scale is fixed, and written to TENSOR_SCALE (04 R77). -/
def openAt (step : Nat) (h : Head) : Head :=
  if Hd.dModel h.desc = 0 then { h with openStep := some step, stepScale := 0 }
  else
    let scale := actScale (headTile h 13)
    { setTile 13 (putBytes (headTile h 13) 24 (toLE 4 scale)) h with openStep := some step, stepScale := scale }

/-- A forward of `step` runs: a lower open step closes, and its own opens. DEDUCED (log entry 33). -/
def enterStep (step : Nat) (h : Head) : Head :=
  let h1 := match h.openStep with
    | some n => if n < step then closeStep h else h
    | none => h
  let h2 := if h1.openStep.isSome then h1 else openAt step h1
  { h2 with seenSteps := h2.seenSteps.filter fun x => step < x.1 }

/-- A forward that passed its checks is admitted: a later one may not name a lower STEP, also while this one waits (R216). -/
def seeStep (step order : Nat) (h : Head) : Head :=
  if h.seenSteps.contains (step, order) then h else { h with seenSteps := h.seenSteps ++ [(step, order)] }

/-- A ring write of the calibration tile also writes its cold-tier copy (12 R286). -/
def ringCopy (old new : Head) (s : State) : State :=
  if old.calib = new.calib then s else coldWrite new.calib.length s

/-- A forward of a lower STEP of the head is at work: its maxima belong to its own step. DEDUCED (log entry 33). -/
def lowerStepAhead (s : State) (h : Head) (step : Nat) : Bool := s.mem.fwds.any fun f => f.head == h.id && f.step < step

/-- The maxima of a completed command join its step (04 R78). -/
def joinMax (a b : List Nat) : List Nat := if a.isEmpty then b else List.zipWith max a b

/-- Per-column maxima of some rows. -/
def columnMax (cols : Nat) (rows : List (List Num)) : List Nat :=
  (List.range cols).map fun k => maxOf (rows.map fun r => amaxOf (r.getD k .zero))

/-! ## The exchange -/

/-- The bytes after the header of a MEMFWD_PARTIAL for some tokens (R229). -/
def partialBody (own : List (Nat × List Nat)) (tokens : List Nat) : Bytes :=
  let present := tokens.map fun t => b2n (tableGet own t).isSome
  padTo 8 (packElems .bin1 present) ++ ((tokens.filterMap (tableGet own)).flatMap fun r => (r.map (toLE 4)).flatten)

/-- Every partial of a forward goes out (R229, R231). -/
def sendPartials (h : Head) (f : MemFwd) (s : State) : State :=
  let m := h.members.length
  let k : PartKey := ⟨Fw.partMagic, f.head, ownPos s h, f.mb, f.step, f.replica, f.digest, f.attempt, f.incomplete⟩
  (otherPositions (ownPos s h) m).foldl (fun u o =>
    (partMessages k (partialBody f.own) o (tokensOf o m f.tokens)).foldl (fun v b => sendSpp (h.members.getD o 0) Spp.memfwdPartial b v) u) s

/-- The row of a token as each position sent it. -/
def sentRows (s : State) (h : Head) (f : MemFwd) (t : Nat) : List (Option (List Nat)) :=
  (List.range h.members.length).map fun p =>
    if p = ownPos s h then tableGet f.own t else (f.parts.find? (·.pos == p)).bind fun x => tableGet x.rows t

/-- The output rows of this member's tokens, with whether narrowing each saturated (R223). -/
def outputRows (s : State) (h : Head) (f : MemFwd) : List (Nat × List Nat) × List Bool :=
  let r := (tokensOf (ownPos s h) h.members.length f.tokens).map fun t => (t, groupSum (Hd.outputFmt h.desc) (Hd.dv h.desc) (sentRows s h f t))
  (r.map fun x => (x.1, x.2.1), r.map (·.2.2))

/-- Rows written to the output buffer, each at its own offset; the end of the last. -/
def writeRows (seq width : Nat) (fmt : Fmt) (rows : List (Nat × List Nat)) (s : State) : State :=
  match findCmd s seq with
  | none => s
  | some c => rows.foldl (fun u r => emit (.write (connOf u c) (c.entry.outAddr + r.1 * width) c.entry.outKey (packElems fmt r.2)) u) s

/-- OUT_BYTES of rows that are not contiguous. -/
def rowsEnd (width : Nat) (rows : List (Nat × List Nat)) : Nat := ((rows.getLast?).map fun r => (r.1 + 1) * width).getD 0

/-- What a head takes from a forward that succeeded: its maxima, the end of its step, its stash. DEDUCED (log entry 33). -/
def fwdTaken (f : MemFwd) (h : Head) : Head :=
  let h1 := if h.openStep = some f.step then { h with stepMax := joinMax h.stepMax f.maxima } else h
  let h2 := if f.last && h1.openStep == some f.step then closeStep h1 else h1
  { h2 with stash := mapIf (fun x => x.step == f.step && x.mb == f.mb) (fun x => { x with ready := true }) h2.stash }

/-- A forward completes with SUCCESS. Narrowing saturates once for each micro-operation that moves output rows (04 R84). -/
def fwdSucceeds (h : Head) (f : MemFwd) (s : State) : State :=
  let out := outputRows s h f
  let width := Hd.dv h.desc * ((Hd.outputFmt h.desc).width / 8)
  let flags := (if out.2.any id then f.flags ||| Cflag.saturated else f.flags) + flagIf f.recompute Cflag.recomputed
  let s1 := writeRows f.seq width (Hd.outputFmt h.desc) out.1 s
  let rows := ((findCmd s f.seq).bind (·.plan)).elim 64 fun p => movedRows p.bytes 0x25 0x02
  let s2 := bumpBy Key.widePathSaturations (raisedBy rows out.2) s1
  let s3 := bumpBy Key.memfwdTokens f.tokens (if f.recompute then bump Key.recomputeMicroBatches s2 else s2)
  finish f.seq { status := Status.success, info := f.tokens, outBytes := rowsEnd width out.1, flags := flags } []
    (dropMem f.seq (ringCopy h (fwdTaken f h) (updHead h.id (fwdTaken f) s3)))

/-- A forward whose exchange is complete ends (R223, R233). -/
def fwdEnds (h : Head) (f : MemFwd) (s : State) : State :=
  let s1 := dropEarly Fw.types f.head f.step f.mb s
  if f.incomplete || f.parts.any (·.incomplete) then endIncomplete f.seq f.media s1 else fwdSucceeds h f s1

/-- An earlier forward of the same queue on the head has not ended: its completion goes first (15 R353), so that the maxima join in the order
of completion (04 R78). -/
def earlierForward (s : State) (f : MemFwd) : Bool :=
  let queue := (findCmd s f.seq).map (·.queue)
  s.mem.fwds.any fun g => g.head == f.head && g.seq < f.seq && (findCmd s g.seq).map (·.queue) == queue

/-- MEMFWD_DONE goes out once every partial has come; the forward ends once every other member has said the same (R223). -/
def advanceFwd (seq : Nat) (s : State) : State :=
  match findFwd s seq with
  | none => s
  | some f =>
    match findHead s f.head with
    | none => s
    | some h =>
      let own := ownPos s h
      if f.phase ≠ .exchange ∨ missingParts own h.members.length f.parts ≠ [] then s
      else
        let s1 := if f.dones.contains own then s
          else sendAll (otherMembers s h.members) Spp.memfwdDone (exchangePayload f.head f.mb own f.step f.attempt 0 (some f.digest))
            (updFwd seq (fun x => { x with dones := x.dones ++ [own] }) s)
        match findFwd s1 seq with
        | none => s1
        | some g => if (List.range h.members.length).all g.dones.contains && !earlierForward s1 g then fwdEnds h g s1 else s1

/-- Every forward of a head, in order of receipt: the end of one may let the next end. -/
def advanceFwds (head : Nat) (s : State) : State :=
  ((sortOn (·.seq) (s.mem.fwds.filter (·.head == head))).map (·.seq)).foldl (fun u q => advanceFwd q u) s

/-- The partials go out and the exchange begins. -/
def startExchange (seq : Nat) (s : State) : State :=
  match findFwd s seq with
  | none => s
  | some f =>
    match findHead s f.head with
    | none => s
    | some h => advanceFwds f.head (updFwd seq (fun x => { x with phase := .exchange, since := s.now }) (sendPartials h f s))

/-- A partial of another member has come for a forward in flight. -/
def takePartial (peer : Nat) (b : Bytes) (f : MemFwd) (s : State) : State :=
  match findHead s f.head with
  | none => s
  | some h =>
    let d := Hd.dv h.desc
    let span := Part.span b
    let mapBytes := roundUp 8 (ceilDiv span 8)
    let present := (List.range span).filter fun i => bitOf (b.drop 64) i
    let m := h.members.length
    if h.members[Part.pos b]? ≠ some peer ∨ 65536 < span ∨ b.length ≠ 64 + mapBytes + present.length * d * 4 ∨
        (List.range (8 * mapBytes)).any (fun i => span ≤ i && bitOf (b.drop 64) i) then malformed s
    else if Part.digest b ≠ f.digest ∨ Part.replica b ≠ f.replica then
      let s1 := dropEarly Fw.types f.head f.step f.mb s
      advanceFwds f.head (endMismatch f.seq (if f.phase = .exchange then s1 else abortLocal h f s1))
    else
      let rows := ((List.range present.length).zip present).map fun x =>
        (Part.first b + m * x.2, (List.range d).map fun k => u32At b (64 + mapBytes + 4 * (d * x.1 + k)))
      let mine := tokensOf (ownPos s h) m f.tokens
      advanceFwds f.head (updFwd f.seq (fun x => { x with parts := setPart (Part.pos b) (joinPart b m mine rows) x.parts }) s)

/-- A member repeats its partials (R231). -/
def repeatFwd (attempt : Nat) (f : MemFwd) (s : State) : State :=
  match findHead s f.head with
  | none => s
  | some h =>
    if attempt ≤ f.attempt then s
    else
      let s1 := updFwd f.seq (fun x => { x with attempt := attempt }) s
      if f.phase ≠ .exchange then s1
      else bump Key.fwdExchangeRepeats (updFwd f.seq (fun x => { x with since := s.now }) (sendPartials h { f with attempt := attempt } s1))

/-- One message of the forward exchange reaches its forward. -/
def fwdMessage (f : MemFwd) (e : Early) (s : State) : State :=
  if e.type = Spp.memfwdPartial then takePartial e.peer e.payload f s
  else if e.type = Spp.memfwdDone then
    advanceFwds f.head (updFwd f.seq (fun x => { x with dones := if x.dones.contains (Ctl.pos e.payload) then x.dones else x.dones ++ [Ctl.pos e.payload] }) s)
  else if e.type = Spp.memfwdRepeat then repeatFwd (Ctl.attempt e.payload) f s
  else advanceFwds f.head (endAborted f.seq (Ctl.valid e.payload) (Ctl.digest e.payload) f.digest (dropEarly Fw.types f.head f.step f.mb s))

/-- A message of the forward exchange: to its forward, or kept until that starts. DEDUCED (log entry 35). -/
def fwdDeliver (e : Early) (s : State) : State :=
  let k := earlyKey e
  match s.mem.fwds.find? fun f => f.head == k.1 && f.step == k.2.1 && f.mb == k.2.2 with
  | some f => fwdMessage f e s
  | none => keepEarly k.1 e.peer e.type e.payload s

/-- The messages that came before a forward reach it, in their order. -/
def replayFwd (seq : Nat) (s : State) : State :=
  match findFwd s seq with
  | none => s
  | some f =>
    let l := earlyOf s Fw.types f.head f.step f.mb
    l.foldl (fun u e => match findFwd u seq with | some g => fwdMessage g e u | none => u) (dropEarly Fw.types f.head f.step f.mb s)

/-! ## The stages (R217-R224) -/

/-- What the stages of a micro-batch give on this member. -/
structure Formed where
  own : List (Nat × List Nat)
  toks : List StashTok
  inputs : List (List Nat)
  wides : List (Nat × Nat × List Nat)
  maxima : List Nat
  reruns : Nat
  raised : Nat                  -- micro-operations that raised SATURATED
  scales : List Nat             -- the row scale of each token, a BF16 code
  blocks : List Nat             -- blocks of the value rows that it read
  slots : List Nat              -- owned slots that it read

/-- A stash entry's content from a token's selection (03 R57); RECOMPUTE mode leaves out what it forms again (11 R242). The half selections
stand beside the entry. DEDUCED (log entry 34). -/
def stashTok (recompute : Bool) (t : Nat) (x : Selected) : StashTok where
  token := t
  slots := x.slots
  weights := if recompute then [] else x.weights
  rowScale := if recompute then 0 else x.rowScale
  codes := if recompute then [] else x.codes
  half1 := x.half1
  half2 := x.half2

/-- What the input region keeps of a micro-batch (11 R240): the activation codes, the input rows where there is no projection, or nothing. -/
def retained (h : Head) (recompute : Bool) (codes : List (List Nat)) (request : Bytes) : List (List Nat) :=
  if Hd.dModel h.desc ≠ 0 then (if recompute ∨ !Hd.frozenProj h.desc then codes else [])
  else if recompute then (List.range (Fw.tokens request)).map fun t =>
    (List.range (Hd.dIn h.desc)).map fun k => elemAt (Hd.inputFmt h.desc) (request.drop 64) (t * Hd.dIn h.desc + k)
  else []

/-- The projection of a head under a plan. -/
def projection (h : Head) (p : Plan) (w : Scales) (scale : Nat) : Projection :=
  ⟨h, val32 scale, w.proj, actScopes p.bytes 0x20 (Hd.actFormat h.desc) (Hd.dModel h.desc)⟩

/-- The stages PROJECT to GATHER. DESIGN CHOICE (log entry 63). -/
def formBatch (h v : Head) (p : Plan) (pos : Nat) (scale : Nat) (recompute : Bool) (request : Bytes) : Formed :=
  let rows := inputRows h request
  let m := h.members.length
  let w := scalesOf p h v 0x20 0x21 0x24
  let pr := projection h p w scale
  let q := project pr rows
  let sel := q.queries.map (selectToken h w)
  let numbered := (List.range sel.length).zip sel
  let slots := sel.flatMap fun x => (ownedRanks x.slots pos m).map fun n => x.slots.getD n 0
  { own := numbered.filterMap fun x => (gatherRow v w.value x.2.slots x.2.weights pos m).map fun r => (x.1, r)
    toks := numbered.map fun x => stashTok recompute x.1 x.2
    inputs := retained h recompute q.codes request
    wides := if recompute then ((List.range q.wides.length).zip q.wides).flatMap fun x => x.2.map fun y => (x.1, y.1, y.2) else []
    maxima := if Hd.dModel h.desc = 0 then [] else columnMax (Hd.dModel h.desc) rows
    reruns := q.reruns
    raised := q.raised + sumOf ((overScopes pr.scopes (sel.map (·.sat))).map fun x => b2n (x.2.any id))
    scales := sel.map (·.rowScale)
    blocks := sortOn id (dedup (slots.map (· / 4096)))
    slots := slots }

/-- The row scales of a micro-batch go into the plan's ROW scale tile (04 R67, R79): token `t` has entry `t` modulo CHANNELS. -/
def putRowScales (head plan : Nat) (scales : List Nat) (s : State) : State :=
  let change := fun p : Plan => match p.tiles.find? fun t => u32At t.2 0 == 0x43534C41 && stKind t.2 == 3 with
    | none => p
    | some t => { p with tiles := tablePut p.tiles t.1 (((List.range scales.length).zip scales).foldl
        (fun b x => putBytes b (32 + 2 * (x.1 % max 1 (stChannels b))) (toLE 2 x.2)) t.2) }
  { s with ahp := { s.ahp with plans := mapIf (fun p => p.kind == 2 && p.target == head && p.planId == plan) change s.ahp.plans } }

/-- Passes of the selection units (10 R234): over tiles of 4 096 sub-keys for each half, and one for COMBINE. -/
def batchPasses (d : Bytes) (tokens : Nat) : Nat := tokens * (ceilDiv (Hd.subkeys1 d) 4096 + ceilDiv (Hd.subkeys2 d) 4096 + 1)

/-- Blocks that a micro-batch finds uncorrectable: of the value rows that it read, or of a replicated tensor or a scale tile (R233). -/
def mediaFound (h v : Head) (order : Nat) (blocks : List Nat) : List Nat :=
  blocks.filter (blockHurt v order) ++ (if blockHurt h order fillId || tileHurt v order then [fillId] else [])

/-- A forward has its pages: what was uncorrectable among them joins, the pages that the plan releases by GATHER are released, and its partials
go out. -/
def fwdReads (seq : Nat) (s : State) : State :=
  match findFwd s seq with
  | none => s
  | some f =>
    match findHead s f.head with
    | none => s
    | some h =>
      let media := joinBad s (sourceHead s h) f.pages f.media
      let s1 := releaseAfter seq 0x24 s
      startExchange seq (updFwd seq (fun x => { x with media := media, incomplete := x.incomplete || !media.isEmpty }) s1)

/-- The stages of a forward that holds its stash space and its scratchpad banks run; then its partials go out, or it waits for value pages (R232). DESIGN CHOICE (log entry 63). -/
def runForward (seq : Nat) (s : State) : State :=
  match findFwd s seq, findCmd s seq with
  | some f, some c =>
    match findHead s f.head, c.plan with
    | some h0, some p =>
      let h := enterStep f.step h0
      let v := sourceHead s h0
      let scale := h.stepScale
      let x := formBatch h v p (ownPos s h) scale f.recompute f.request
      let media := mediaFound h v f.order x.blocks
      let windows := promotionsOf p [0x20, 0x21, 0x22, 0x23, 0x24, 0x25, 0x26] fun _ => if Hd.streamed v.desc then x.slots.flatMap (valuePages v) else []
      let pages := awaited windows
      let entry : StashMb := { newStash h f scale with toks := x.toks, inputs := x.inputs, wides := x.wides }
      let h1 := if f.stash then { h with stash := mapIf (fun e => e.step == f.step && e.mb == f.mb) (fun _ => entry) h.stash } else h
      let s1 := bumpBy Key.selectionPasses (batchPasses h.desc f.tokens) (bumpBy Key.wideRerunTiles x.reruns (ringCopy h0 h (updHead h.id (fun _ => h1)
        (if Hd.streamed v.desc then s else touchRows v x.slots s))))
      let s2 := putRowScales h.id f.plan x.scales (bumpBy Key.widePathSaturations x.raised s1)
      let g := { f with own := x.own, maxima := x.maxima, flags := flagIf (0 < x.raised) Cflag.saturated, incomplete := f.incomplete || !media.isEmpty,
                        media := f.media ++ media, pages := pages }
      let s3 := askPages seq windows (updFwd seq (fun _ => g) s2)
      if pagesHeld s3 pages then fwdReads seq s3
      else bump Key.valuePageStalls (updFwd seq (fun y => { y with phase := .waiting, since := s3.now }) s3)
    | _, _ => s
  | _, _ => s

/-- A forward at its first micro-operation: it takes its scratchpad banks, or waits for them (12 R273). -/
def bankForward (seq : Nat) (s : State) : State :=
  match findCmd s seq with
  | none => s
  | some c =>
    let s1 := takeBanks c s
    if awaitsBanks s1 seq then updFwd seq (fun x => { x with phase := .banks }) s1
    else runForward seq (updFwd seq (fun x => { x with phase := .waiting }) s1)

/-- A forward reserves its stash space, or is held until there is enough (11 R240, R241). DEDUCED (log entry 34). -/
def reserveFwd (h : Head) (p : Plan) (f : MemFwd) (s : State) : State :=
  if f.stash = false then bankForward f.seq s
  else if needFits (stashNeed h.desc f.tokens f.recompute) (stashUsed h f.plan) (stashSpace p) then
    bankForward f.seq (updFwd f.seq (fun x => { x with phase := .waiting })
      (updHead h.id (fun x => { x with stash := x.stash.filter (fun e => !(e.step == f.step && e.mb == f.mb)) ++ [newStash h f 0] }) s))
  else bump Key.stashHolds (updFwd f.seq (fun x => { x with phase := .held, since := s.now }) s)

/-- A new forward from its request. -/
def newFwd (c : Cmd) (plan : Nat) (h : Head) (b : Bytes) (recompute : Bool) : MemFwd where
  seq := c.seq
  head := h.id
  order := c.order
  plan := plan
  step := Fw.step b
  mb := Fw.mb b
  last := Fw.last b
  stash := Fw.stash b
  tokens := Fw.tokens b
  request := b
  digest := requestDigest b plan
  replica := c.replica
  phase := .waiting
  since := 0
  attempt := 0
  own := []
  parts := []
  dones := []
  maxima := []
  incomplete := false
  media := []
  flags := 0
  recompute := recompute
  pages := []

/-- A forward whose success ends a step with a ring write to the cold tier: its own step, or a lower one that is open (04 R78, 12 R286). -/
def ringWrite (h : Head) (b : Bytes) : Bool := Hd.dModel h.desc != 0 && (Fw.last b || h.openStep.any (· < Fw.step b))

/-- What a checked forward may still fail with, before its stages: the completion, in the order of OUT_LENGTH, tiles, stash, and a
cold tier that takes no write (13 R303). -/
def fwdRefused (s : State) (c : Cmd) (h : Head) (p : Plan) (b : Bytes) : Option Comp :=
  let width := Hd.dv h.desc * ((Hd.outputFmt h.desc).width / 8)
  if c.entry.outLen < Fw.tokens b * width then some { status := Status.invalidField, source := .entry, offset := 56 }
  else match firstFail [headTilesFail s h (planUpdates p), planTilesFail p (scaleTilesOf p.bytes [0x20, 0x21, 0x22, 0x23, 0x24, 0x25, 0x26])] with
    | some x => some { status := Status.invalidField, info := x.1, source := .tile, offset := x.2 }
    | none => if (Fw.stash b && (stashMode h.desc p (Fw.tokens b)).isNone) || (ringWrite h b && coldRefuses s 0) then some { status := Status.capacityExceeded } else none

/-- A forward ends with a completion of its own before its stages: the other members are told. -/
def refuseFwd (h : Head) (f : MemFwd) (c : Comp) (s : State) : State :=
  let s1 := if c.source = .tile then bump Key.scaleTileRejects s else s
  finish f.seq c [] (abortLocal h f (dropEarly Fw.types f.head f.step f.mb s1))

/-- The request of an admitted forward that need not wait is checked, and its stages run; `media` lists what lost words held (12 R275). -/
def forwardNow (seq : Nat) (c : Cmd) (h : Head) (p : Plan) (input : Bytes) (media : List Nat) (s : State) : State :=
  match layerFail s h with
  | some x => failWith seq x s
  | none =>
    match fwdFail h c.order input with
    | some x => failInput seq x (if 64 ≤ x.2 then abortLocal h (newFwd c p.planId h input false) s else s)
    | none =>
      if Fw.tokens input = 0 then succeed seq 0 [] s
      else
        let f := newFwd c p.planId h input (Fw.stash input && (stashMode h.desc p (Fw.tokens input)).getD false)
        match fwdRefused s c h p input with
        | some x => refuseFwd h f x s
        | none =>
          let g := { f with media := media, incomplete := !media.isEmpty }
          replayFwd seq (reserveFwd h p g (startStream seq { s with mem := { s.mem with fwds := s.mem.fwds ++ [g] } }))

/-- A forward of the command's queue on the head is held for stash space and delays the later ones (11 R241). -/
def heldAhead (s : State) (c : Cmd) (h : Head) : Bool :=
  s.mem.fwds.any fun f => f.head == h.id && f.phase == .held && f.seq < c.seq && (findCmd s f.seq).any (·.queue == c.queue)

/-- A forward that passes its checks is seen at its admission, also where it must wait (R216). -/
def seeForward (c : Cmd) (h : Head) (input : Bytes) (s : State) : State :=
  if (layerFail s h).isNone && (fwdFail h c.order input).isNone && Fw.tokens input != 0 then updHead h.id (seeStep (Fw.step input) c.order) s else s

/-- A forward waits for the value rows that are not back in HBM: it counts as a micro-batch that waits (R232), once. -/
def stallForward (c : Cmd) (s : State) : State :=
  if c.stalledAt.isSome then s else bump Key.valuePageStalls (updCmd c.seq (fun d => { d with stalledAt := some s.now }) s)

/-- The wait of a forward for value rows ends and is added to VALUE_PAGE_STALL_US (R232). -/
def endStall (c : Cmd) (s : State) : State :=
  match c.stalledAt with
  | none => s
  | some t => bumpBy Key.valuePageStallUs ((s.now - t) / 1000) (updCmd c.seq (fun d => { d with stalledAt := none }) s)

/-- MEMLAYER_FWD (R213). It waits for earlier writes and updates of the tensors that it reads (R216), for value rows that are not back
after a reset (13 R313), for the forwards of a lower STEP, and behind a held forward of its queue (11 R241). What the SRAM code and the check
codes find meanwhile comes with it (12 R275, 19 R437). DEDUCED (log entry 64). -/
def execMemlayerFwd (seq : Nat) (input : Bytes) (upsets : Upsets) (t : Nat) (s : State) : Res :=
  let sa := tick t s
  match admittedCmd sa seq 0x33 with
  | none => .next sa
  | some c =>
    if wrongTransfer c input then .next (fail seq Status.lengthMismatch sa)
    else match findHead sa c.entry.target, c.plan with
    | some h0, some p =>
      let sb := seeForward c h0 input sa
      let v := sourceHead sb h0
      if heldAhead sb c h0 || writersAhead sb c [h0.id, v.id] || lowerStepAhead sb h0 (Fw.step input) then .next sb
      else if h0.restoring || v.restoring then .next (stallForward c sb)
      else
        let s0 := endStall c sb
        let h := (findHead s0 h0.id).getD h0
        let s1 := guarded upsets s0
        match upsets.codes.second with
        | some m => .next (codeFails c m s1)
        | none => .next (forwardNow seq c h p input (lostMedia s1 upsets) s1)
    | _, _ => .next sa

/-- STASH_HOLD_RELEASE (11 R241): a held forward proceeds once there is space for it. -/
def execStashHoldRelease (seq t : Nat) (s : State) : Res :=
  let s0 := tick t s
  match findFwd s0 seq, (findCmd s0 seq).bind (·.plan) with
  | some f, some p =>
    match findHead s0 f.head with
    | none => .next s0
    | some h =>
      if f.phase = .held ∧ needFits (stashNeed h.desc f.tokens f.recompute) (stashUsed h f.plan) (stashSpace p) then
        .next (reserveFwd h p f s0)
      else .next s0
  | _, _ => .next s0

/-- STASH_WAIT_TIMEOUT (11 R241): no space was freed for STASH_WAIT_US. -/
def execStashWaitTimeout (seq t : Nat) (s : State) : Res :=
  let s0 := tick t s
  match findFwd s0 seq with
  | none => .next s0
  | some f =>
    match findHead s0 f.head with
    | none => .next s0
    | some h =>
      if f.phase = .held ∧ f.since + settingUs s0 Key.stashWaitUs ≤ s0.now then
        .next (advanceFwds f.head (fail seq Status.stashFull (dropMem seq (abortLocal h f (dropEarly Fw.types f.head f.step f.mb s0)))))
      else .next s0

/-! ## Messages and timeouts -/

/-- MEMFWD_PARTIAL (R229). -/
def execMemfwdPartial (peer : Nat) (payload : Bytes) (t : Nat) (s : State) : Res :=
  let s0 := tick t s
  .next (if Part.formed Fw.partMagic payload then fwdDeliver { peer := peer, type := Spp.memfwdPartial, payload := payload } s0 else malformed s0)

/-- A control message of the forward exchange from the member at its SENDER_POSITION. -/
def fwdControl (type peer : Nat) (payload : Bytes) (s : State) : State :=
  let from_ := (findHead s (Ctl.head payload)).bind fun h => h.members[Ctl.pos payload]?
  if Ctl.formed type payload = false then malformed s
  else if from_ = some peer then fwdDeliver { peer := peer, type := type, payload := payload } s
  else if from_ = none then s else malformed s

/-- MEMFWD_DONE (R230). -/
def execMemfwdDone (peer : Nat) (payload : Bytes) (t : Nat) (s : State) : Res := .next (fwdControl Spp.memfwdDone peer payload (tick t s))

/-- MEMFWD_REPEAT (R231). -/
def execMemfwdRepeat (peer : Nat) (payload : Bytes) (t : Nat) (s : State) : Res := .next (fwdControl Spp.memfwdRepeat peer payload (tick t s))

/-- MEMFWD_ABORT (R231). -/
def execMemfwdAbort (peer : Nat) (payload : Bytes) (t : Nat) (s : State) : Res := .next (fwdControl Spp.memfwdAbort peer payload (tick t s))

/-- FWD_EXCHANGE_TIMEOUT (R231): a repeat is asked for, and after the third the lowest member that is missing is declared failed. DEDUCED (log entry 35). -/
def execFwdExchangeTimeout (seq t : Nat) (s : State) : Res :=
  let s0 := tick t s
  match findFwd s0 seq with
  | none => .next s0
  | some f =>
    match findHead s0 f.head with
    | none => .next s0
    | some h =>
      match missingParts (ownPos s0 h) h.members.length f.parts with
      | [] => .next (advanceFwds f.head s0)
      | p :: _ =>
        if f.phase ≠ .exchange ∨ s0.now < f.since + settingUs s0 Key.stepTimeoutUs then .next s0
        else if f.attempt < 3 then
          let ask := exchangePayload f.head f.mb (ownPos s0 h) f.step (f.attempt + 1) 0 (some f.digest)
          .next (repeatFwd (f.attempt + 1) f (sendAll (otherMembers s0 h.members) Spp.memfwdRepeat ask s0))
        else .next (declareFailed h (h.members.getD p 0) 2 f.step none s0)

/-! ## The window (13 R311, R312) -/

/-- A forward that waits for value pages proceeds once they are held; the wait is counted (R232). -/
def resumeFwd (f : MemFwd) (s : State) : State :=
  if f.phase = .waiting ∧ f.pages ≠ [] ∧ pagesHeld s f.pages then
    fwdReads f.seq (bumpBy Key.valuePageStallUs ((s.now - f.since) / 1000) s)
  else s

end Sys2Proof.Machine
end

