-- ==== Sys2Proof/Machine/Backward.lean ====
section
/-! DEFINITION. MEMLAYER_BWD: its request, the gradient quantised, BWD_VALUE, the exchange of dw, BWD_SCORE and BWD_WEIGHT, and the record
region (11 R237-R250). -/

namespace Sys2Proof.Machine

/-! ## The request (R238, R239) -/

/-- A mask field holds no bit at or beyond `n`. -/
def maskWithin (b : Bytes) (off bytes n : Nat) : Bool := leAt b off bytes >>> n == 0

/-- The first byte in which a mask differs from the step's. -/
def maskDiffers (h : Head) (b : Bytes) : Option Nat :=
  match stepOf h (Fw.step b) with
  | none => none
  | some x => ((List.range 96).find? fun i => u8At (Bw.mask b) i ≠ u8At x.mask i).map (64 + ·)

/-- The first failure of a backward request: status and offset. DEDUCED (log entry 37). -/
def bwdFail (h : Head) (order : Nat) (b : Bytes) : Option (Nat × Nat) :=
  let bad := fun o => some (Status.invalidField, o)
  let d := h.desc
  let f := Bw.gradFmt b
  let n := Fw.tokens b * Hd.dv d * (f.width / 8)
  if u32At b 0 ≠ Bw.magic then bad 0
  else if u32At b 4 ≠ b.length then some (Status.lengthMismatch, 0)
  else if u32At b 60 ≠ crc32c (slice b 0 60) then bad 60
  else (firstFail [
    bwdHeaderFail h order b,
    require (b.length == roundUp 16 (160 + n)) 56,
    require (maskWithin b 64 32 (if Hd.frozenKeys d then 0 else ceilDiv (Hd.subkeys1 d) 4096)) 64,
    require (maskWithin b 96 32 (if Hd.frozenKeys d then 0 else ceilDiv (Hd.subkeys2 d) 4096)) 96,
    require (maskWithin b 128 2 (if Hd.frozenProj d || Hd.dModel d == 0 then 0 else ceilDiv (2 * Hd.halfDim d) 64)) 128,
    reserved b 130 30,
    maskDiffers h b,
    elementFail f (Fw.tokens b * Hd.dv d) (b.drop 160) 160,
    padding b (160 + n) (b.length - 160 - n)]).map fun o => (Status.invalidField, o)

/-- The gradient rows, widened. -/
def gradRows (h : Head) (b : Bytes) : List (List Num) :=
  let f := Bw.gradFmt b
  (List.range (Fw.tokens b)).map fun t => (List.range (Hd.dv h.desc)).map fun k => f.value (elemAt f (b.drop 160) (t * Hd.dv h.desc + k))

/-! ## The gradient calibration tile (R243) -/

/-- The plan's gradient calibration tile: the first constant-filled tile that is a RUNNING scale tile (notes/assumptions/32.md). DEDUCED (log entry 32). -/
def gradTile (p : Plan) : Option (Nat × Bytes) := p.tiles.find? fun t => u32At t.2 0 == 0x43534C41 && stKind t.2 == 2

/-- The gradient calibration tile of a head's plan changed. DEDUCED (log entry 32). -/
def setGradTile (head plan : Nat) (f : Bytes → Bytes) (s : State) : State :=
  let change := fun p : Plan => match gradTile p with
    | none => p
    | some t => { p with tiles := tablePut p.tiles t.1 (f t.2) }
  { s with ahp := { s.ahp with plans := mapIf (fun p => p.kind == 2 && p.target == head && p.planId == plan) change s.ahp.plans } }

/-- The open gradient step of a head closes: its ring write. DEDUCED (log entry 32). -/
def closeGrad (h : Head) (s : State) : State :=
  if h.gradStep.isNone then s
  else
    let s1 := if h.gradMax = [] then s
      else setGradTile h.id h.gradPlan (fun t => closeRunning t h.gradMax) s
    updHead h.id (fun x => { x with gradStep := none, gradMax := [] }) s1

/-- A gradient step opens: its scale is fixed, and written to TENSOR_SCALE (04 R77). -/
def openGrad (head : Nat) (p : Plan) (step : Nat) (s : State) : State :=
  let scale := ((gradTile (livePlan s p)).map fun t => actScale t.2).getD 0
  setGradTile head p.planId (fun t => putBytes t 24 (toLE 4 scale))
    (updHead head (fun x => { x with gradStep := some step, gradPlan := p.planId, gradScale := scale, gradMax := [] }) s)

/-- A backward of `step` runs: the gradient step of a lower STEP closes, and its own opens with its scale (R243). One of a STEP below the open
one uses the open scale, and its maxima join no step. DEDUCED (log entry 32). -/
def enterGrad (h : Head) (p : Plan) (step : Nat) (s : State) : State :=
  match h.gradStep with
  | none => openGrad h.id p step s
  | some n => if n < step then openGrad h.id p step (closeGrad h s) else s

/-- The gradient as BWD_VALUE uses it: the dequantised rows, for each row the operands of dw with their scale cut by cut, the tiles that ran
wide, and the micro-operations that raised a flag. -/
structure GradIn where
  ghat : List (List Num)
  ops : List (List (List Num × Num))
  reruns : Nat
  raised : Nat

/-- One cut of a tile of gradient rows, quantised, or narrowed to BF16 where it saturates (04 R83). DEDUCED (log entry 31). -/
def gradChunk (f : Fmt) (sg : Num) (readers : Nat) (rows : List (List Num)) : GradIn :=
  let q := rows.map (quantRow f sg)
  if q.any (·.2) then
    let w := rows.map fun r => r.map (narrow .bf16)
    let v := w.map fun r => r.map fun x => Fmt.bf16.value x.1
    { ghat := v, ops := v.map fun r => [(r, .ofInt 1)], reruns := 1, raised := if w.any fun r => r.any (·.2) then readers else 0 }
  else
    let v := q.map fun r => r.1.map f.value
    { ghat := v.map fun r => r.map fun g => r32 (Num.mul sg g), ops := v.map fun r => [(r, sg)], reruns := 0, raised := 0 }

/-- The cuts of a tile side by side. -/
def joinCuts (n : Nat) (l : List GradIn) : GradIn where
  ghat := (List.range n).map fun i => l.flatMap fun c => c.ghat.getD i []
  ops := (List.range n).map fun i => l.flatMap fun c => c.ops.getD i []
  reruns := sumOf (l.map (·.reruns))
  raised := sumOf (l.map (·.raised))

/-- The gradient of a micro-batch over the plan's activation tiles. -/
def gradIn (f : Fmt) (sg : Num) (scopes : List ActScope) (dy : List (List Num)) : GradIn :=
  let c := (overScopes scopes dy).map fun x =>
    joinCuts x.2.length ((cutsFrom 0 x.1.cols).map fun k => gradChunk f sg x.1.readers (x.2.map fun r => (r.drop k.1).take k.2))
  { ghat := c.flatMap (·.ghat), ops := c.flatMap (·.ops), reruns := sumOf (c.map (·.reruns)), raised := sumOf (c.map (·.raised)) }

/-! ## BWD_VALUE (R244) -/

/-- dw of one owned rank: the reduction runs over the columns, whose scales are applied before the product, cut by cut (05 R91). -/
def dwOf (v : Head) (w : ScalePair) (slot : Nat) (g : List (List Num × Num)) : Num :=
  let f := Hd.fmt v.desc 4
  let codes := rowCodes v 4 slot
  let row := ((List.range codes.length).zip codes).map fun p => dequantBf16 f w.tile w.side p.1 p.2
  let part := fun (x : (List Num × Num) × Nat × Nat) =>
    scaledOutput (dot .bf16 .bf16 .bf16 x.1.1 ((row.drop x.2.1).take x.2.2)) .zero false .zero (.ofInt 1) x.1.2
  foldFirst add32 ((g.zip (cutsFrom 0 (g.map (·.1.length)))).map part)

/-- A gradient record (03 R58): header, elements, padding. -/
def gradRecordBytes (r : GradRec) : Bytes :=
  zeros 2 ++ toLE 2 r.mb ++ toLE 4 r.token ++ toLE 2 r.head ++ toLE 1 r.rank ++ toLE 5 r.slot ++ (r.elems.map (toLE 4)).flatten ++ zeros 48

/-- The records of one token; HEAD holds the low 16 bits of HEAD_ID, as the worked example of chapter 10 does. DEDUCED (log entry 37). -/
def tokenRecords (h : Head) (pos mb : Nat) (x : StashTok) (ghat : List Num) : List GradRec :=
  (ownedRanks x.slots pos h.members.length).map fun n =>
    { slot := x.slots.getD n 0, rank := n, head := h.id % 65536, token := x.token, mb := mb,
      elems := ghat.map fun g => code32 (Num.mul (Fmt.bf16.value (x.weights.getD n 0)) g) }

/-- The rank mask and the dw values of one token on this member. -/
def tokenDw (h v : Head) (w : ScalePair) (pos : Nat) (x : StashTok) (g : List (List Num × Num)) : List Nat :=
  let own := ownedRanks x.slots pos h.members.length
  sumOf (own.map (1 <<< ·)) :: own.map fun n => code32 (dwOf v w (x.slots.getD n 0) g)

/-! ## BWD_SCORE (R246) -/

/-- dw of rank `n` of a token from what each position sent: a mask and the values of its set bits. -/
def dwAt (parts : List (List Nat)) (n : Nat) : Num :=
  match parts.find? fun p => bit (p.headD 0) n with
  | none => .zero
  | some p => val32 (p.getD (1 + ((List.range n).filter (bit (p.headD 0))).length) 0)

/-- bwd_score: ds of each rank. -/
def bwdScore (wb dw : List Num) : List Num :=
  let p := List.zipWith (fun w d => r32 (Num.mul w d)) wb dw
  let t := tree add32 p
  List.zipWith (fun w d => r32 (Num.mul w (r32 (Num.sub d t)))) wb dw

/-- The chain of the terms of a sub-key, +0 where it has none. -/
def chainSum (l : List Num) : Num := foldFirst add32 l

/-- Half gradients of the kept sub-keys: `part` gives the sub-key of a slot in this half. -/
def halfGrad (keys slots : List Nat) (part : Nat → Nat) (ds : List Num) : List Num :=
  keys.map fun k => chainSum (((List.range slots.length).filter fun n => part (slots.getD n 0) == k).map fun n => ds.getD n .zero)

/-- The gradient of half a query: the half gradients times the sub-key rows, reduced over the kept sub-keys. -/
def halfDq (h : Head) (w : ScalePair) (t : Nat) (keys : List Nat) (g : List Num) : List Num :=
  let f := Hd.fmt h.desc t
  let rows := keys.map fun k => (rowCodes h t k).map (dequantBf16 f w.tile w.side k)
  (List.range (Hd.halfDim h.desc)).map fun e => r32 (dot .split .fp32 .bf16 g (rows.map fun r => r.getD e .zero))

/-- What BWD_SCORE gives for one token. -/
structure Scores where
  tok : StashTok
  g1 : List Num
  g2 : List Num
  dq : List Num

/-- BWD_SCORE of one token. -/
def scoreToken (h : Head) (w : Scales) (x : StashTok) (parts : List (List Nat)) : Scores :=
  let wb := x.weights.map Fmt.bf16.value
  let ds := bwdScore wb ((List.range x.slots.length).map (dwAt parts))
  let n2 := Hd.subkeys2 h.desc
  let g1 := halfGrad x.half1 x.slots (· / n2) ds
  let g2 := halfGrad x.half2 x.slots (· % n2) ds
  { tok := x, g1 := g1, g2 := g2, dq := halfDq h w.key1 1 x.half1 g1 ++ halfDq h w.key2 2 x.half2 g2 }

/-- dx of one token in INPUT_FORMAT, and whether narrowing saturated. -/
def dxRow (h : Head) (w : ScalePair) (dq : List Num) : List Nat × Bool :=
  let d := h.desc
  let out :=
    if Hd.dModel d = 0 then dq
    else
      let f := Hd.fmt d 3
      (List.range (Hd.dModel d)).map fun e =>
        dot .split .fp32 .bf16 dq ((List.range (2 * Hd.halfDim d)).map fun o =>
          dequantBf16 f w.tile w.side o (elemAt f (headRow h 3 o) e))
  let r := out.map (narrow (Hd.inputFmt d))
  (r.map (·.1), r.any (·.2))

/-! ## BWD_WEIGHT (R247) -/

/-- q̂ of one token. -/
def qHat (x : StashTok) : List Num := x.codes.map fun c => narrowVal .bf16 (Num.mul (Fmt.bf16.value x.rowScale) (Fmt.e4m3.value c))

/-- The product over tokens of one gradient element with one operand column. DEDUCED (log entry 37). -/
def overTokens (g : List Num) (rows : List (List Num)) : List Num :=
  (List.range ((rows.headD []).length)).map fun e => dot .split .fp32 .bf16 g (rows.map fun r => r.getD e .zero)

/-- A mask bit of the step. -/
def maskBit (mask : Bytes) (t row : Nat) : Bool :=
  bitOf mask (if t = 1 then row / 4096 else if t = 2 then 256 + row / 4096 else 512 + row / 64)

/-- Contributions to the sub-key rows of table `t` in ascending sub-key. -/
def keyContributions (h : Head) (mask : Bytes) (t : Nat) (l : List Scores) : List Accum :=
  let keys := fun x : Scores => if t = 1 then x.tok.half1 else x.tok.half2
  let grads := fun x : Scores => if t = 1 then x.g1 else x.g2
  let half := fun q : List Num => if t = 1 then q.take (Hd.halfDim h.desc) else q.drop (Hd.halfDim h.desc)
  if Hd.frozenKeys h.desc then []
  else (sortOn id (dedup (l.flatMap keys))).filterMap fun i =>
    if maskBit mask t i then
      let mine := l.filter fun x => (keys x).contains i
      let g := mine.map fun x => (grads x).getD ((keys x).idxOf i) .zero
      some { tensor := t, row := i, elems := (overTokens g (mine.map fun x => half (qHat x.tok))).map code32 }
    else none

/-- Contributions to the projection rows. -/
def projContributions (h : Head) (mask : Bytes) (stash : StashMb) (l : List Scores) : List Accum :=
  if Hd.dModel h.desc = 0 ∨ Hd.frozenProj h.desc ∨ l.isEmpty then []
  else
    let xs := l.map fun x => (stash.inputs.getD x.tok.token []).map fun c =>
      narrowVal .bf16 (Num.mul (val32 stash.actScale) ((Hd.actFmt h.desc).value c))
    (List.range (2 * Hd.halfDim h.desc)).filterMap fun o =>
      if maskBit mask 3 o then some { tensor := 3, row := o, elems := (overTokens (l.map fun x => x.dq.getD o .zero) xs).map code32 } else none

/-- A contribution is added into its accumulator, which holds +0 at first. -/
def addAccum (l : List Accum) (a : Accum) : List Accum :=
  let old := (l.find? fun x => x.tensor == a.tensor && x.row == a.row).map (·.elems)
  let sum := List.zipWith (fun x y => code32 (add32 (val32 x) (val32 y))) (old.getD (List.replicate a.elems.length 0)) a.elems
  insertBy (fun x y => x.tensor < y.tensor || (x.tensor == y.tensor && x.row ≤ y.row)) { a with elems := sum }
    (l.filter fun x => !(x.tensor == a.tensor && x.row == a.row))

/-! ## The adding pass (R249, R250; 03 R58) -/

/-- Ascending (slot, ORDER_KEY). -/
def recLe (a b : GradRec) : Bool := lexLe [a.slot, a.mb, a.token, a.head, a.rank] [b.slot, b.mb, b.token, b.head, b.rank]

/-- grad_add. -/
def gradAdd (records : List GradRec) (table : List (Nat × List Nat)) : List (Nat × List Nat) :=
  (sortBy recLe records).foldl (fun t r => tablePut t r.slot (match tableGet t r.slot with
    | none => r.elems
    | some acc => List.zipWith (fun x y => code32 (add32 (val32 x) (val32 y))) acc r.elems)) table

/-- The step's records changed by `f`; a step without a backward has none. -/
def updStep (head step : Nat) (f : BwdStep → BwdStep) (s : State) : State :=
  updHead head (fun h => { h with steps := mapIf (fun x => x.step == step) f h.steps }) s

/-- An early fold of the step's completed backwards. DEDUCED (log entry 37). -/
def earlyFold (head step : Nat) (s : State) : State :=
  bump Key.earlyFolds (updStep head step (fun x => { x with table := gradAdd x.records x.table, records := [] }) s)

/-- Records that the record region holds for a head: of completed backwards and of those at work. -/
def recordsHeld (s : State) (h : Head) : Nat :=
  sumOf (h.steps.map (·.records.length)) + sumOf ((s.mem.bwds.filter (·.head == h.id)).map (·.records.length))

/-- Records that fit the record region of a plan, region 254. -/
def recordRoom (h : Head) (p : Plan) : Nat :=
  (((regionsOf p.bytes).find? (·.id == 254)).map (·.size)).getD 0 / (4 * Hd.dv h.desc + 64)

/-- The head shares its value table (R250). -/
def isTied (s : State) (h : Head) : Bool := Hd.tied h.desc || 1 < (tableHeads s h).length

/-- The records of a backward fit the record region. -/
def recordsFit (s : State) (h : Head) (p : Plan) (n : Nat) : Bool := recordsHeld s h + n ≤ recordRoom h p

/-- Records that do not fit make the module fold those of the step's completed backwards first, where the head has no tied head (R250).
DEDUCED (log entry 37). -/
def foldForRoom (h : Head) (p : Plan) (step n : Nat) (s : State) : State :=
  if recordsFit s h p n || isTied s h then s else earlyFold h.id step s

/-! ## The records in flight -/

/-- The backward of a command. -/
def findBwd (s : State) (seq : Nat) : Option MemBwd := s.mem.bwds.find? (·.seq == seq)

/-- One backward changed by `f`. -/
def updBwd (seq : Nat) (f : MemBwd → MemBwd) (s : State) : State := { s with mem := { s.mem with bwds := mapIf (fun x => x.seq == seq) f s.mem.bwds } }

/-- A backward that ends here with another status than the exchange's own tells the other members (R245). DEDUCED (log entry 35). -/
def abortBwd (h : Head) (b : MemBwd) (s : State) : State := sendAbort Spp.membwdAbort h b.mb b.step 2 (some b.digest) s

/-! ## The exchange (R245) -/

/-- The bytes after the header of a MEMBWD_DW for some tokens. -/
def dwBody (own : List (Nat × List Nat)) (tokens : List Nat) : Bytes :=
  tokens.flatMap fun t =>
    let r := (tableGet own t).getD [0]
    padTo 8 (toLE 8 (r.headD 0) ++ (r.tail.map (toLE 4)).flatten)

/-- Every part of a backward goes out. -/
def sendDw (h : Head) (b : MemBwd) (s : State) : State :=
  let m := h.members.length
  let k : PartKey := ⟨Bw.partMagic, b.head, ownPos s h, b.mb, b.step, b.replica, b.digest, b.attempt, b.incomplete⟩
  (otherPositions (ownPos s h) m).foldl (fun u o =>
    (partMessages k (dwBody b.dwOwn) o (tokensOf o m b.tokens)).foldl (fun v x => sendSpp (h.members.getD o 0) Spp.membwdDw x v) u) s

/-- The masks and dw values of the tokens of a message; none where its length does not fit. -/
def readDw : Nat → Nat → Nat → Bytes → Option (List (Nat × List Nat))
  | 0, _, _, b => if b.isEmpty then some [] else none
  | n + 1, t, m, b =>
    let mask := u64At b 0
    let k := ((List.range 64).filter (bit mask)).length
    let len := roundUp 8 (8 + 4 * k)
    if b.length < len || leAt b (8 + 4 * k) (len - (8 + 4 * k)) != 0 then none
    else (readDw n (t + m) m (b.drop len)).map ((t, mask :: (List.range k).map fun i => u32At b (8 + 4 * i)) :: ·)

/-- What every position sent for a token. -/
def dwParts (s : State) (h : Head) (b : MemBwd) (t : Nat) : List (List Nat) :=
  (List.range h.members.length).filterMap fun p =>
    if p = ownPos s h then tableGet b.dwOwn t else (b.parts.find? (·.pos == p)).bind fun x => tableGet x.rows t

/-! ## Its end (R248) -/

/-- The plan of a command in flight. -/
def planOfCmd (s : State) (seq : Nat) : Option Plan := (findCmd s seq).bind (·.plan)

/-- The scales that a backward's stages name. -/
def bwdScales (p : Plan) (h v : Head) : Scales := scalesOf p h v 0x31 0x31 0x30

/-- Stage RECOMPUTE (R242): an entry that holds slots only gets its weights, row scale and query again. -/
def recomputed (h v : Head) (p : Plan) (st : StashMb) (x : StashTok) : StashTok :=
  if st.recompute = false then x
  else
    let w := scalesOf p h v 0x20 0x21 0x24
    let pr := projection h p w st.actScale
    let codes := st.inputs.getD x.token []
    let scope := (((overScopes pr.scopes (List.range st.tokens)).find? fun y => y.2.contains x.token).map (·.1)).getD { rows := 0, cols := [], readers := 0 }
    let q := if Hd.dModel h.desc = 0 then codes.map (Hd.inputFmt h.desc).value
      else projectAgain pr scope codes ((st.wides.filter (·.1 == x.token)).map (·.2))
    let r := selectAgain h w x.slots q
    { x with weights := r.1, rowScale := r.2.1, codes := r.2.2 }

/-- The accumulators are changed by atomics in the cache banks of their home dies (12 R272). -/
def touchAccums (h : Head) (adds : List Accum) (s : State) : State :=
  let size := fun t : Nat => if Hd.holds h.desc t then Hd.rows h.desc t * Hd.cols h.desc t else 0
  let first := fun t : Nat => sumOf ((List.range t).map fun i => if i = 0 then 0 else size i)
  adds.foldl (fun u a => touchBytes true (.training h.id) (4 * (first a.tensor + a.row * a.elems.length)) (4 * a.elems.length) u) (placeTiles s)

/-- A backward completes with SUCCESS. -/
def bwdSucceeds (h : Head) (b : MemBwd) (s : State) : State :=
  match stashOf h b.step b.mb, stepOf h b.step, planOfCmd s b.seq with
  | some stash, some st, some p =>
    let mine := tokensOf (ownPos s h) h.members.length b.tokens
    let v := sourceHead s h
    let w := bwdScales p h v
    let scores := mine.filterMap fun t => (stash.toks.find? (·.token == t)).map fun x => scoreToken h w (recomputed h v p stash x) (dwParts s h b t)
    let dx := scores.map fun x => (x.tok.token, dxRow h w.proj x.dq)
    let rows := dx.map fun x => (x.1, x.2.1)
    let raised := raisedBy (movedRows p.bytes 0x31 0x02) (dx.map (·.2.2))
    let sat := 0 < raised
    let width := Hd.dIn h.desc * ((Hd.inputFmt h.desc).width / 8)
    let adds := keyContributions h st.mask 1 scores ++ keyContributions h st.mask 2 scores ++ projContributions h st.mask stash scores
    let s1 := writeRows b.seq width (Hd.inputFmt h.desc) rows s
    let s2 := touchAccums h adds (updStep h.id b.step (fun x => { x with records := x.records ++ b.records, accums := adds.foldl addAccum x.accums }) s1)
    let s3 := bumpBy Key.widePathSaturations raised s2
    let s4 := updHead h.id (fun x => if x.gradStep = some b.step then { x with gradMax := joinMax x.gradMax b.maxima } else x)
      (releaseStash h.id b.step b.mb s3)
    let s5 := match findHead s4 h.id with
      | some x => if b.last && x.gradStep == some b.step then closeGrad x s4 else s4
      | none => s4
    finish b.seq { status := Status.success, info := b.tokens, outBytes := rowsEnd width rows, flags := if sat then b.flags ||| Cflag.saturated else b.flags } []
      (dropMem b.seq (bumpBy Key.membwdTokens b.tokens s5))
  | _, _, _ => endMemWith b.seq Status.stashNotFound 0 s

/-- A backward whose exchange is complete ends. -/
def bwdEnds (h : Head) (b : MemBwd) (s : State) : State :=
  let s1 := dropEarly Bw.types b.head b.step b.mb s
  if b.incomplete || b.parts.any (·.incomplete) then endIncomplete b.seq b.media s1 else bwdSucceeds h b s1

/-- An earlier micro-batch of the step is still at work, or its backward was admitted earlier and still waits: contributions are added in
ascending MICRO_BATCH (R247). DEDUCED (log entry 37). -/
def lowerBatchAhead (s : State) (b : MemBwd) : Bool :=
  s.mem.bwds.any (fun x => x.head == b.head && x.step == b.step && x.mb < b.mb) ||
    s.ahp.cmds.any fun d => d.entry.opcode == 0x34 && d.entry.target == b.head && d.phase == .admitted && (findCmd s b.seq).any (d.order < ·.order)

/-- MEMBWD_DONE goes out once every part has come; the backward ends once every other member has said the same. -/
def advanceBwd (s : State) (seq : Nat) : State :=
  match findBwd s seq with
  | none => s
  | some b =>
    match findHead s b.head with
    | none => s
    | some h =>
      let own := ownPos s h
      if b.phase ≠ .exchange ∨ missingParts own h.members.length b.parts ≠ [] then s
      else
        let s1 := if b.dones.contains own then s
          else sendAll (otherMembers s h.members) Spp.membwdDone (exchangePayload b.head b.mb own b.step b.attempt 0 (some b.digest))
            (updBwd seq (fun x => { x with dones := x.dones ++ [own] }) s)
        match findBwd s1 seq with
        | none => s1
        | some g => if (List.range h.members.length).all g.dones.contains && !lowerBatchAhead s1 g then bwdEnds h g s1 else s1

/-- Every backward of a head, in ascending MICRO_BATCH: the end of one may let the next end. -/
def advanceBwds (head : Nat) (s : State) : State := ((sortOn (·.mb) (s.mem.bwds.filter (·.head == head))).map (·.seq)).foldl advanceBwd s

/-- The parts go out and the exchange begins. -/
def startDw (seq : Nat) (s : State) : State :=
  match findBwd s seq with
  | none => s
  | some b =>
    match findHead s b.head with
    | none => s
    | some h => advanceBwds b.head (updBwd seq (fun x => { x with phase := .exchange, since := s.now }) (sendDw h b s))

/-- A MEMBWD_DW of another member has come for a backward in flight. -/
def takeDw (peer : Nat) (b : Bytes) (w : MemBwd) (s : State) : State :=
  match findHead s w.head with
  | none => s
  | some h =>
    let m := h.members.length
    if h.members[Part.pos b]? ≠ some peer ∨ 65536 < Part.span b then malformed s
    else match readDw (Part.span b) (Part.first b) m (b.drop 64) with
      | none => malformed s
      | some rows =>
        if Part.digest b ≠ w.digest ∨ Part.replica b ≠ w.replica then
          let s1 := dropEarly Bw.types w.head w.step w.mb s
          advanceBwds w.head (endMismatch w.seq (if w.phase = .exchange then s1 else abortBwd h w s1))
        else
          let mine := tokensOf (ownPos s h) m w.tokens
          advanceBwds w.head (updBwd w.seq (fun x => { x with parts := setPart (Part.pos b) (joinPart b m mine rows) x.parts }) s)

/-- A member repeats its parts. -/
def repeatBwd (attempt : Nat) (b : MemBwd) (s : State) : State :=
  match findHead s b.head with
  | none => s
  | some h =>
    if attempt ≤ b.attempt then s
    else
      let s1 := updBwd b.seq (fun x => { x with attempt := attempt }) s
      if b.phase ≠ .exchange then s1
      else updBwd b.seq (fun x => { x with since := s.now }) (sendDw h { b with attempt := attempt } s1)

/-- One message of the backward exchange reaches its backward. -/
def bwdMessage (b : MemBwd) (e : Early) (s : State) : State :=
  if e.type = Spp.membwdDw then takeDw e.peer e.payload b s
  else if e.type = Spp.membwdDone then
    advanceBwds b.head (updBwd b.seq (fun x => { x with dones := if x.dones.contains (Ctl.pos e.payload) then x.dones else x.dones ++ [Ctl.pos e.payload] }) s)
  else if e.type = Spp.membwdRepeat then repeatBwd (Ctl.attempt e.payload) b s
  else advanceBwds b.head (endAborted b.seq (Ctl.valid e.payload) (Ctl.digest e.payload) b.digest (dropEarly Bw.types b.head b.step b.mb s))

/-- A message of the backward exchange: to its backward, or kept until that starts. DEDUCED (log entry 35). -/
def bwdDeliver (e : Early) (s : State) : State :=
  let k := earlyKey e
  match s.mem.bwds.find? fun b => b.head == k.1 && b.step == k.2.1 && b.mb == k.2.2 with
  | some b => bwdMessage b e s
  | none => keepEarly k.1 e.peer e.type e.payload s

/-- The messages that came before a backward reach it, in their order. -/
def replayBwd (seq : Nat) (s : State) : State :=
  match findBwd s seq with
  | none => s
  | some b =>
    let l := earlyOf s Bw.types b.head b.step b.mb
    l.foldl (fun u e => match findBwd u seq with | some g => bwdMessage g e u | none => u) (dropEarly Bw.types b.head b.step b.mb s)

/-! ## The stages -/

/-- A new backward from its request. -/
def newBwd (c : Cmd) (plan : Nat) (h : Head) (b : Bytes) : MemBwd where
  seq := c.seq
  head := h.id
  plan := plan
  step := Fw.step b
  mb := Fw.mb b
  last := Fw.last b
  tokens := Fw.tokens b
  request := b
  digest := requestDigest b plan
  replica := c.replica
  phase := .waiting
  since := 0
  attempt := 0
  ghat := []
  dwOwn := []
  records := []
  parts := []
  dones := []
  maxima := []
  incomplete := false
  media := []
  flags := 0
  pages := []

/-- A backward of the step is admitted: its mask is the step's, and its MICRO_BATCH is noted with its place in the order of admission. DEDUCED
(log entry 37). -/
def noteBwd (order : Nat) (b : Bytes) (h : Head) : Head :=
  if (stepOf h (Fw.step b)).isSome then
    { h with steps := mapIf (fun x => x.step == Fw.step b) (fun x => { x with noted := x.noted ++ [(order, Fw.mb b)] }) h.steps }
  else { h with steps := h.steps ++ [{ step := Fw.step b, mask := Bw.mask b, noted := [(order, Fw.mb b)], records := [], table := [], accums := [] }] }

/-- A backward has its pages: what was uncorrectable among them joins, and its dw values go out. -/
def bwdReads (seq : Nat) (s : State) : State :=
  match findBwd s seq with
  | none => s
  | some b =>
    match findHead s b.head with
    | none => s
    | some h =>
      let media := joinBad s (sourceHead s h) b.pages b.media
      let s1 := releaseAfter seq 0x30 s
      startDw seq (updBwd seq (fun x => { x with media := media, incomplete := x.incomplete || !media.isEmpty }) s1)

/-- BWD_VALUE runs; then the dw values go out, or the backward waits for value pages. -/
def runBackward (seq : Nat) (h0 v : Head) (p : Plan) (stash : StashMb) (s : State) : State :=
  match findBwd s seq with
  | none => s
  | some b =>
    let s1 := enterGrad h0 p b.step s
    match findHead s1 h0.id with
    | none => s1
    | some h =>
      let pos := ownPos s1 h
      let tile := ((gradTile (livePlan s1 p)).map (·.2)).getD []
      let fmt := (Fmt.ofCode (stFormat tile)).getD .e5m2
      let dy := gradRows h b.request
      let g := gradIn fmt (val32 h.gradScale) (actScopes p.bytes 0x30 (stFormat tile) (Hd.dv h.desc)) dy
      let w := (bwdScales p h v).value
      let toks := stash.toks.map (recomputed h v p stash)
      let records := (toks.zip g.ghat).flatMap fun x => tokenRecords h pos b.mb x.1 x.2
      let dw := (toks.zip g.ops).map fun x => (x.1.token, tokenDw h v w pos x.1 x.2)
      let media := mediaFound h v (orderOf s1 seq) (sortOn id (dedup (records.map (·.slot / 4096))))
      let windows := promotionsOf p Bw.stages fun _ => if Hd.streamed v.desc then records.flatMap fun r => valuePages v r.slot else []
      let pages := awaited windows
      let c := { b with
        ghat := g.ghat.map fun r => r.map code32
        dwOwn := dw
        records := records
        maxima := columnMax (Hd.dv h.desc) dy
        flags := flagIf (0 < g.raised) Cflag.saturated
        incomplete := b.incomplete || !media.isEmpty
        media := b.media ++ media
        pages := pages }
      let s2 := bumpBy Key.gradientRecords records.length (bumpBy Key.wideRerunTiles g.reruns (if Hd.streamed v.desc then s1 else touchRows v (records.map (·.slot)) s1))
      let s3 := bumpBy Key.widePathSaturations g.raised s2
      let s4 := askPages seq windows (updBwd seq (fun _ => c) s3)
      if pagesHeld s4 pages then bwdReads seq s4
      else bump Key.valuePageStalls (updBwd seq (fun y => { y with since := s4.now }) s4)

/-- Whether a backward must wait: for writes and updates, and for the forward of its micro-batch (R237). DEDUCED (log entry 37). -/
def bwdWaits (s : State) (c : Cmd) (h v : Head) (b : Bytes) : Bool :=
  heldAhead s c h || h.restoring || v.restoring || writersAhead s c [h.id, v.id] || headMoves s h.id ||
    s.ahp.cmds.any (fun d => d.entry.opcode == 0x33 && d.entry.target == h.id && d.phase == .admitted && d.order < c.order) ||
    s.mem.fwds.any (fun f => f.head == h.id && f.step == Fw.step b && f.mb == Fw.mb b)

/-- Records that the backward of a micro-batch writes on this member. -/
def ownedUses (s : State) (h : Head) (x : StashMb) : Nat := sumOf (x.toks.map fun t => (ownedRanks t.slots (ownPos s h) h.members.length).length)

/-- What a checked backward may still fail with, before its stages. DEDUCED (log entry 32). -/
def bwdRefused (s : State) (c : Cmd) (h : Head) (p : Plan) (b : Bytes) : Option Comp :=
  let width := Hd.dIn h.desc * ((Hd.inputFmt h.desc).width / 8)
  let q := livePlan s p
  match stashOf h (Fw.step b) (Fw.mb b) with
  | none => some { status := Status.stashNotFound }
  | some x =>
    if x.ready = false then some { status := Status.stashNotFound }
    else if c.entry.outLen < Fw.tokens b * width then some { status := Status.invalidField, source := .entry, offset := 56 }
    else match firstFail [headTilesFail s h (planUpdates p),
        planTilesFail q (sortOn id (dedup (scaleTilesOf q.bytes Bw.stages ++ ((gradTile q).map (·.1)).toList))),
        (if (gradTile q).isNone then some (0xFFFFFFFF, 0) else none)] with
      | some t => some { status := Status.invalidField, info := t.1, source := .tile, offset := t.2 }
      | none =>
        if recordsFit s h p (ownedUses s h x) then none else some { status := Status.capacityExceeded }

/-- A backward ends with a completion of its own before its stages. The stash space of its micro-batch is free (R240, R250). -/
def refuseBwd (h : Head) (b : MemBwd) (c : Comp) (s : State) : State :=
  let s1 := if c.source = .tile then bump Key.scaleTileRejects s else s
  let s2 := if c.status = Status.stashNotFound then s1 else releaseStash h.id b.step b.mb s1
  finish b.seq c [] (abortBwd h b (dropEarly Bw.types b.head b.step b.mb s2))

/-- MEMLAYER_BWD (R236-R250), with what the codes find meanwhile (12 R275, R285; 19 R437). DEDUCED (log entries 37, 64). -/
def execMemlayerBwd (run : CmdRun) (input : Bytes) (t : Nat) (s : State) : Res :=
  let s0 := tick t s
  match admittedCmd s0 run.seq 0x34 with
  | none => .next s0
  | some c =>
    if wrongTransfer c input then .next (fail run.seq Status.lengthMismatch s0)
    else match findHead s0 c.entry.target, c.plan with
    | some h, some p =>
      let v := sourceHead s0 h
      if bwdWaits s0 c h v input then .next s0
      else match layerFail s0 h with
        | some x => .next (failWith run.seq x s0)
        | none =>
          let b := newBwd c p.planId h input
          match bwdFail h c.order input with
          | some x => .next (failInput run.seq x (if 64 ≤ x.2 then abortBwd h b s0 else s0))
          | none =>
            let s01 := takeBanks c s0
            if Fw.tokens input = 0 then .next (succeed run.seq 0 [] s0)
            else if awaitsBanks s01 run.seq then .next s01
            else if run.upsets.codes.second.isSome then
              .next ((run.upsets.codes.second.map fun m => codeFails c m (guarded run.upsets s01)).getD s01)
            else
              let s02 := guarded run.upsets s01
              let lost := lostMedia s02 run.upsets
              let s1 := updHead h.id (noteBwd c.order input) s02
              let s2 := match stashOf h b.step b.mb with
                | some x => if x.ready then foldForRoom h p b.step (ownedUses s1 h x) s1 else s1
                | none => s1
              let h2 := (findHead s2 h.id).getD h
              match bwdRefused s2 c h2 p input, stashOf h2 b.step b.mb with
              | some x, _ => .next (advanceBwds h.id (refuseBwd h2 b x s2))
              | none, none => .next s2
              | none, some stash =>
                let b' := { b with media := lost, incomplete := !lost.isEmpty }
                let s3 := startStream run.seq { s2 with mem := { s2.mem with bwds := s2.mem.bwds ++ [b'] } }
                .next (replayBwd run.seq (runBackward run.seq h2 v p stash s3))
    | _, _ => .next s0

/-! ## Messages and timeouts -/

/-- MEMBWD_DW (R245). -/
def execMembwdDw (peer : Nat) (payload : Bytes) (t : Nat) (s : State) : Res :=
  let s0 := tick t s
  .next (if Part.formed Bw.partMagic payload then bwdDeliver { peer := peer, type := Spp.membwdDw, payload := payload } s0 else malformed s0)

/-- A control message of the backward exchange from the member at its SENDER_POSITION. -/
def bwdControl (type peer : Nat) (payload : Bytes) (s : State) : State :=
  let from_ := (findHead s (Ctl.head payload)).bind fun h => h.members[Ctl.pos payload]?
  if Ctl.formed type payload = false then malformed s
  else if from_ = some peer then bwdDeliver { peer := peer, type := type, payload := payload } s
  else if from_ = none then s else malformed s

/-- MEMBWD_DONE (R245). -/
def execMembwdDone (peer : Nat) (payload : Bytes) (t : Nat) (s : State) : Res := .next (bwdControl Spp.membwdDone peer payload (tick t s))

/-- MEMBWD_REPEAT (R245). -/
def execMembwdRepeat (peer : Nat) (payload : Bytes) (t : Nat) (s : State) : Res := .next (bwdControl Spp.membwdRepeat peer payload (tick t s))

/-- MEMBWD_ABORT (R245). -/
def execMembwdAbort (peer : Nat) (payload : Bytes) (t : Nat) (s : State) : Res := .next (bwdControl Spp.membwdAbort peer payload (tick t s))

/-- BWD_EXCHANGE_TIMEOUT (R245): as the forward's. DEDUCED (log entry 35). -/
def execBwdExchangeTimeout (seq t : Nat) (s : State) : Res :=
  let s0 := tick t s
  match findBwd s0 seq with
  | none => .next s0
  | some b =>
    match findHead s0 b.head with
    | none => .next s0
    | some h =>
      match missingParts (ownPos s0 h) h.members.length b.parts with
      | [] => .next (advanceBwds b.head s0)
      | p :: _ =>
        if b.phase ≠ .exchange ∨ s0.now < b.since + settingUs s0 Key.stepTimeoutUs then .next s0
        else if b.attempt < 3 then
          let ask := exchangePayload b.head b.mb (ownPos s0 h) b.step (b.attempt + 1) 0 (some b.digest)
          .next (repeatBwd (b.attempt + 1) b (sendAll (otherMembers s0 h.members) Spp.membwdRepeat ask s0))
        else .next (declareFailed h (h.members.getD p 0) 3 b.step none s0)

/-- A backward that waits for value pages proceeds once they are held. -/
def resumeBwd (b : MemBwd) (s : State) : State :=
  if b.phase = .waiting ∧ b.pages ≠ [] ∧ pagesHeld s b.pages then
    bwdReads b.seq (bumpBy Key.valuePageStallUs ((s.now - b.since) / 1000) s)
  else s

end Sys2Proof.Machine
end

