-- ==== Sys2Proof/Machine/Reduce.lean ====
section
/-! DEFINITION. The reduction of replicated gradients at one rank: buckets, wire forms, messages and samples (11 R256-R262). -/

namespace Sys2Proof.Machine

namespace Up

/-- MAGIC of an update request. -/
abbrev magic : Nat := 0x554D4C41
/-- MAGIC of a reduction message. -/
abbrev partMagic : Nat := 0x44524C41
/-- OPTIMISER. -/
def optimiser (b : Bytes) : Nat := u8At b 18
/-- WIRE_MODE is BLOCK8. -/
def block8 (b : Bytes) : Bool := u8At b 19 == 2
/-- TOPOLOGY is TREE2. -/
def tree2 (b : Bytes) : Bool := u8At b 20 == 2
/-- HEADROOM_LOG2. -/
def headroom (b : Bytes) : Nat := u8At b 21
/-- RING_ID. -/
def ringId (b : Bytes) : Nat := u16At b 22
/-- STEP. -/
def step (b : Bytes) : Nat := u64At b 28
/-- LEARNING_RATE, BETA1, BETA2, EPSILON, WEIGHT_DECAY as FP32 codes. -/
def rate (b : Bytes) (i : Nat) : Nat := u32At b (36 + 4 * i)
/-- BUCKET_ELEMENTS. -/
def bucketElements (b : Bytes) : Nat := u32At b 56
/-- The message types of the reduction. -/
def types : List Nat := [Spp.reduceAmax, Spp.reducePartial, Spp.reduceResult, Spp.reduceSample, Spp.reduceRepeat, Spp.updateVerdict]

end Up

/-! ## The place of a rank (R257) -/

/-- The ring length. -/
def Update.rr (u : Update) : Nat := u.ring.length

/-- The sum runs over sub-groups of four. -/
def Update.grouped (u : Update) : Bool := Up.tree2 u.request && 4 < u.rr

/-- The first rank of the chain of rank `r`. -/
def Update.chainLo (u : Update) (r : Nat) : Nat := if u.grouped then r / 4 * 4 else 0

/-- The last rank of the chain of rank `r`. -/
def Update.chainHi (u : Update) (r : Nat) : Nat := if u.grouped then min (u.rr - 1) (r / 4 * 4 + 3) else u.rr - 1

/-- The rank whose sum between sub-groups this rank awaits. -/
def Update.leaderFrom (u : Update) : Option Nat :=
  if u.grouped && u.rank == u.chainHi u.rank && u.chainLo u.rank != 0 then some (u.chainLo u.rank - 1) else none

/-- The rank before this one in the ring. -/
def Update.before (u : Update) : Nat := (u.rank + u.rr - 1) % max 1 u.rr

/-- The rank after this one in the ring. -/
def Update.after (u : Update) : Nat := (u.rank + 1) % max 1 u.rr

/-- The other ranks. -/
def Update.others (u : Update) : List Nat := (List.range u.rr).filter (· ≠ u.rank)

/-- Number of buckets of G (R256). -/
def Update.bucketCount (u : Update) : Nat := ceilDiv u.g.length (max 1 (Up.bucketElements u.request))

/-- This rank's contribution to a bucket. -/
def Update.part (u : Update) (i : Nat) : List Nat := (u.g.drop (i * Up.bucketElements u.request)).take (Up.bucketElements u.request)

/-! ## Wire forms (R258) -/

/-- a_r: the largest magnitude of a bucket, NaN where one is held. -/
def bucketMax (g : List Nat) : Nat :=
  if g.any fun c => (val32 c).isNan then 0x7FC00000 else maxOf (g.map fun c => c % 0x80000000)

/-- SE, from the largest a_r and HEADROOM_LOG2. -/
def scaleExp (a headroom : Nat) : Int :=
  let e : Int := if a = 0 then -110 else
    (((List.range 256).map fun i => (i : Int) - 130).find? fun e => !Num.lt (.fin false 448 e) (val32 a)).getD 130
  min 110 (max (-110) (e + headroom))

/-- The bucket scale's exponent of a bucket whose maxima have all come. -/
def Update.scaleOf (u : Update) (b : Bucket) : Int := scaleExp (maxOf (b.amax.map (·.2))) (Up.headroom u.request)

/-- A bucket in wire form: its shifts, its codes, the values that it decodes to, and whether an encode raised OVERFLOW. -/
structure Wire where
  shifts : List Nat
  codes : List Nat
  vals : List Nat
  ovf : Bool

/-- The shift of a block with maximum `mx`. -/
def blockShift (se : Int) (mx : Num) : Nat := ((List.range 16).reverse.find? fun k : Nat => !Num.lt (.fin false 448 (se - (k : Int))) mx).getD 0

/-- One decoded element. -/
def decodeElem (se : Int) (k c : Nat) : Num := Num.scale2 (se - k) (Fmt.e4m3.value c)

/-- One encoded element. -/
def encodeElem (se : Int) (k : Nat) (x : Num) : Nat := narrowCode .e4m3 (Num.scale2 (k - se) x)

/-- The BLOCK8 form of a bucket. -/
def encodeBlocks (se : Int) (x : List Nat) : Wire :=
  let blocks := (chunksOf 32 x).map fun b =>
    let v := b.map val32
    let mx := v.foldl (fun m y => if y.isFin then Num.max m y.abs else .inf false) Num.zero
    let k := blockShift se mx
    (k, v.map (encodeElem se k), Num.lt (.fin false 448 se) mx)
  { shifts := blocks.map (·.1), codes := blocks.flatMap (·.2.1),
    vals := blocks.flatMap fun b => b.2.1.map fun c => code32 (decodeElem se b.1 c), ovf := blocks.any (·.2.2) }

/-- The wire form of a sum: BINARY32, or BLOCK8 with a scale. -/
def wireOf (block8 : Bool) (se : Int) (x : List Nat) : Wire :=
  if block8 then encodeBlocks se x else { shifts := [], codes := x, vals := x, ovf := false }

/-- The values of a message. -/
def msgVals (se : Int) (m : RedMsg) : List Nat :=
  if m.block8 then ((List.range m.codes.length).zip m.codes).map fun p => code32 (decodeElem se (m.shifts.getD (p.1 / 32) 0) p.2) else m.codes

/-- Two buckets added element by element. -/
def addBuckets (a b : List Nat) : List Nat := List.zipWith (fun x y => code32 (add32 (val32 x) (val32 y))) a b

/-! ## Messages (R260, R261) -/

namespace Red

/-- HEAD_ID. -/
def head (b : Bytes) : Nat := u32At b 40
/-- STEP. -/
def step (b : Bytes) : Nat := u64At b 44
/-- BUCKET. -/
def bucket (b : Bytes) : Nat := u32At b 52
/-- ELEMENT_COUNT. -/
def count (b : Bytes) : Nat := u32At b 56
/-- REQUEST_DIGEST. -/
def digest (b : Bytes) : Nat := u64At b 24
/-- BLOCK8. -/
def block8 (b : Bytes) : Bool := bit (u8At b 32) 0
/-- OVERFLOW. -/
def ovf (b : Bytes) : Bool := bit (u8At b 32) 1
/-- ATTEMPT. -/
def attempt (b : Bytes) : Nat := u8At b 37
/-- SENDER_RANK. -/
def rank (b : Bytes) : Nat := u16At b 38

/-- Bytes of a bucket of `n` elements in wire form. -/
def wireBytes (block8 : Bool) (n : Nat) : Nat := if block8 then roundUp 8 (ceilDiv n 32) + roundUp 8 n else roundUp 8 (4 * n)

/-- The padding of a bucket in wire form is 0. -/
def wirePadded (b : Bytes) : Bool :=
  let n := count b
  if block8 b then leAt b (64 + ceilDiv n 32) (roundUp 8 (ceilDiv n 32) - ceilDiv n 32) == 0 && leAt b (64 + roundUp 8 (ceilDiv n 32) + n) (roundUp 8 n - n) == 0
  else leAt b (64 + 4 * n) (roundUp 8 (4 * n) - 4 * n) == 0

/-- The payload after the header has the layout of its type (R261). -/
def bodyFormed (type : Nat) (b : Bytes) : Bool :=
  if type = Spp.reduceAmax then b.length == 72 && count b == 1 && leAt b 68 4 == 0
  else if type = Spp.reduceSample then b.length == 64 + 16 * count b && ((List.range (count b)).all fun i => leAt b (64 + 16 * i + 11) 5 == 0)
  else if type = Spp.reduceRepeat then b.length == 64 && count b == 0
  else if type = Spp.updateVerdict then b.length == 72 && count b == 0 && bucket b == 0 && u8At b 64 ≤ 3 && leAt b 65 7 == 0
  else b.length == 64 + wireBytes (block8 b) (count b) && wirePadded b

/-- A message is well formed. -/
def formed (type : Nat) (b : Bytes) : Bool :=
  64 ≤ b.length && u32At b 0 == Up.partMagic && u32At b 4 == b.length && u32At b 60 == crc32c (slice b 0 60) && leAt b 8 16 == 0 &&
    u32At b 32 < 4 && u8At b 37 ≤ 3 && !(type == Spp.reduceRepeat && u8At b 37 == 0) && bodyFormed type b

end Red

/-- A message of this rank: BLOCK8, OVERFLOW and SE, its bucket, its count, and what follows the header. -/
def redMessage (u : Update) (block8 ovf : Bool) (se : Int) (bucket count : Nat) (body : Bytes) : Bytes :=
  withCrc (toLE 4 Up.partMagic ++ toLE 4 (64 + body.length) ++ zeros 16 ++ toLE 8 u.digest ++ toLE 4 (b2n block8 + 2 * b2n ovf) ++
    toLE 1 (if block8 then unsignedOf 8 se else 0) ++ toLE 1 u.attempt ++ toLE 2 u.rank ++ toLE 4 u.head ++ toLE 8 u.step ++ toLE 4 bucket ++
    toLE 4 count) ++ body

/-- The bytes of a wire form. -/
def wireBody (block8 : Bool) (w : Wire) : Bytes :=
  if block8 then padTo 8 ((w.shifts.map (toLE 1)).flatten) ++ padTo 8 ((w.codes.map (toLE 1)).flatten) else padTo 8 ((w.codes.map (toLE 4)).flatten)

/-- What a message of a bucket carries. -/
def readMsg (type : Nat) (b : Bytes) : RedMsg :=
  let n := Red.count b
  let blocks := ceilDiv n 32
  { rank := Red.rank b, result := type == Spp.reduceResult, block8 := Red.block8 b, ovf := Red.ovf b
    shifts := if Red.block8 b then (List.range blocks).map fun i => u8At b (64 + i) else []
    codes := (List.range n).map fun i => if Red.block8 b then u8At b (64 + roundUp 8 blocks + i) else u32At b (64 + 4 * i) }

/-! ## One bucket goes as far as it can (R257-R259) -/

/-- A message to a rank. -/
structure RedSend where
  rank : Nat
  type : Nat
  payload : Bytes

/-- What a bucket does next. -/
structure BucketStep where
  bucket : Bucket
  sends : List RedSend

/-- The bucket is reduced in BLOCK8 form now. -/
def Update.inBlock8 (u : Update) (b : Bucket) : Bool := Up.block8 u.request && !b.fell

/-- The BLOCK8 pass of a bucket has ended with OVERFLOW: it is reduced again in BINARY32. DEDUCED (log entry 38). -/
def fallBack (b : Bucket) : Bucket :=
  { b with ovf := true, fell := true, chain := none, leader := none, final := none, inbox := b.inbox.filter fun m => !m.block8 }

/-- The message of this pass from a rank. -/
def passMsg (u : Update) (b : Bucket) (rank : Nat) (result : Bool) : Option RedMsg :=
  b.inbox.find? fun m => m.rank == rank && m.result == result && m.block8 == u.inBlock8 b

/-- The sum of this rank's chain so far. -/
def chainAcc (u : Update) (b : Bucket) : Option (List Nat) :=
  if u.rank = u.chainLo u.rank then some (u.part b.idx)
  else (passMsg u b (u.rank - 1) false).map fun m => addBuckets (msgVals (u.scaleOf b) m) (u.part b.idx)

/-- The sum of this rank, with that of the sub-groups before. -/
def totalAcc (u : Update) (b : Bucket) : Option (List Nat) :=
  match chainAcc u b, u.leaderFrom with
  | some acc, some l => (passMsg u b l false).map fun m => addBuckets (msgVals (u.scaleOf b) m) acc
  | acc, _ => acc

/-- A message of a bucket in wire form. -/
def bucketMessage (u : Update) (b : Bucket) (ovf : Bool) (w : Wire) : Bytes :=
  redMessage u (u.inBlock8 b) ovf (u.scaleOf b) b.idx (u.part b.idx).length (wireBody (u.inBlock8 b) w)

/-- A result has come or been formed. -/
def takeResult (u : Update) (b : Bucket) (vals : List Nat) : Bucket := if u.inBlock8 b && b.ovf then fallBack b else { b with result := some vals }

/-- A result from the rank before, passed on along the ring. -/
def resultStep (u : Update) (b : Bucket) (m : RedMsg) : BucketStep :=
  let c := { b with ovf := b.ovf || m.ovf }
  let w : Wire := { shifts := m.shifts, codes := m.codes, vals := msgVals (u.scaleOf b) m, ovf := m.ovf }
  { bucket := takeResult u c w.vals
    sends := if u.after = u.rr - 1 then [] else [⟨u.after, Spp.reduceResult, bucketMessage u c c.ovf w⟩] }

/-- The last rank forms the result and sends it around the ring. -/
def finalStep (u : Update) (b : Bucket) (acc : List Nat) : BucketStep :=
  let w := wireOf (u.inBlock8 b) (u.scaleOf b) acc
  let c := { b with ovf := b.ovf || w.ovf, final := some w.shifts }
  { bucket := takeResult u c w.vals
    sends := if u.rr ≤ 1 then [] else [⟨u.after, Spp.reduceResult, bucketMessage u c c.ovf w⟩] }

/-- A partial along the chain, or between sub-groups. -/
def partialStep (u : Update) (b : Bucket) (acc : List Nat) (ends : Bool) : BucketStep :=
  let w := wireOf (u.inBlock8 b) (u.scaleOf b) acc
  let c := { b with ovf := b.ovf || w.ovf }
  { bucket := if ends then { c with leader := some w.shifts } else { c with chain := some w.shifts }
    sends := [⟨if ends then min (u.rr - 1) (u.rank + 4) else u.rank + 1, Spp.reducePartial, bucketMessage u c c.ovf w⟩] }

/-- The next thing that a bucket can do. DEDUCED (log entry 38). -/
def bucketStep (u : Update) (b : Bucket) : Option BucketStep :=
  let ends := u.rank == u.chainHi u.rank
  let last := u.rank + 1 == u.rr
  if b.result.isSome then none
  else if u.inBlock8 b && b.amax.length < u.rr then none
  else if u.inBlock8 b && b.amax.any (fun a => !(val32 a.2).isFin) then some { bucket := fallBack b, sends := [] }
  else
    match (if last then none else passMsg u b u.before true), (if ends then totalAcc u b else chainAcc u b) with
    | some m, _ => some (resultStep u b m)
    | none, some acc =>
      if last then (if b.final.isNone then some (finalStep u b acc) else none)
      else if ends then (if b.leader.isNone then some (partialStep u b acc true) else none)
      else if b.chain.isNone then some (partialStep u b acc false)
      else none
    | none, none => none

/-- A bucket goes as far as it can; `fuel` bounds the steps of its two passes. -/
def bucketGo (u : Update) : Nat → Bucket → BucketStep
  | 0, b => { bucket := b, sends := [] }
  | n + 1, b =>
    match bucketStep u b with
    | none => { bucket := b, sends := [] }
    | some x =>
      let r := bucketGo u n x.bucket
      { r with sends := x.sends ++ r.sends }

/-! ## Samples (R262) -/

/-- o of a STEP. -/
def sampleOffset (step : Nat) : Nat := hash64 step % 1024

/-- The sampled indices of a bucket. -/
def sampled (u : Update) (i : Nat) : List Nat :=
  let lo := i * Up.bucketElements u.request
  ((List.range (u.part i).length).map (lo + ·)).filter fun j => j % 1024 == sampleOffset u.step

/-- This rank's samples of a bucket that has its result; the shifts are those of the pass that gave it. DEDUCED (log entry 38). -/
def ownSamples (u : Update) (b : Bucket) : List Sample :=
  let shift := fun (l : Option (List Nat)) (j : Nat) => (l.getD []).getD ((j - b.idx * Up.bucketElements u.request) / 32) 0
  (sampled u b.idx).map fun j =>
    { index := j, contribution := u.g.getD j 0, shiftChain := shift b.chain j, shiftLeader := shift b.leader j, shiftFinal := shift b.final j }

/-- The entries of some samples. -/
def sampleBody (l : List Sample) : Bytes :=
  l.flatMap fun x => toLE 4 x.index ++ toLE 4 x.contribution ++ toLE 1 x.shiftChain ++ toLE 1 x.shiftLeader ++ toLE 1 x.shiftFinal ++ zeros 5

/-- The entries of a REDUCE_SAMPLE. -/
def readSamples (b : Bytes) : List Sample :=
  (List.range (Red.count b)).map fun i =>
    let o := 64 + 16 * i
    { index := u32At b o, contribution := u32At b (o + 4), shiftChain := u8At b (o + 8), shiftLeader := u8At b (o + 9), shiftFinal := u8At b (o + 10) }

/-- wire of one element with a recorded shift. -/
def wireElem (block8 : Bool) (se : Int) (k : Nat) (x : Num) : Num := if block8 then decodeElem se k (encodeElem se k x) else x

/-- A chain over some ranks' entries. -/
def sampleChain (block8 : Bool) (se : Int) (l : List Sample) : Num :=
  match l with
  | [] => .zero
  | a :: r => (r.foldl (fun (acc : Num × Nat) x => (add32 (wireElem block8 se acc.2 acc.1) (val32 x.contribution), x.shiftChain))
      (val32 a.contribution, a.shiftChain)).1

/-- reduce_bucket of one element from every rank's entry. DEDUCED (log entry 38). -/
def sampleValue (u : Update) (b : Bucket) (l : List Sample) : Nat :=
  let b8 := u.inBlock8 b
  let se := u.scaleOf b
  let last := (l.getLast?.map (·.shiftFinal)).getD 0
  let total :=
    if u.grouped then
      match (chunksOf 4 l).map fun c => (sampleChain b8 se c, (c.getLast?.map (·.shiftLeader)).getD 0) with
      | [] => .zero
      | a :: r => (r.foldl (fun acc x => (add32 (wireElem b8 se acc.2 acc.1) x.1, x.2)) a).1
    else sampleChain b8 se l
  code32 (wireElem b8 se last total)

/-- The entries of every rank for element `j` of a bucket. -/
def entriesFor (u : Update) (i j : Nat) : List Sample :=
  (List.range u.rr).filterMap fun r => (u.samples.find? fun x => x.rank == r && x.bucket == i).bind fun x => x.samples.find? (·.index == j)

/-- The sampled elements at which the second path differs. DEDUCED (log entry 38). -/
def mismatched (u : Update) : List Nat :=
  u.buckets.flatMap fun b => (sampled u b.idx).filter fun j =>
    let l := entriesFor u b.idx j
    l.length ≠ u.rr || sampleValue u b l != (b.result.getD []).getD (j - b.idx * Up.bucketElements u.request) 0

/-- The buckets that hold a sampled element. -/
def sampledBuckets (u : Update) : List Nat := (List.range u.bucketCount).filter fun i => !(sampled u i).isEmpty

/-! ## What a rank lacks (R264) -/

/-- The sender of the message that a bucket waits for. -/
def bucketLacks (u : Update) (b : Bucket) : List Nat :=
  if b.result.isSome then []
  else if u.inBlock8 b && b.amax.length < u.rr then u.others.filter fun r => !(b.amax.any (·.1 == r))
  else if (chainAcc u b).isNone then [u.rank - 1]
  else match u.leaderFrom with
    | some l => if (totalAcc u b).isNone then [l] else [u.before]
    | none => [u.before]

/-- A bucket and the senders of the messages that this rank lacks. -/
def lacks (u : Update) : List (Nat × Nat) :=
  let first := u.buckets.flatMap fun b => (bucketLacks u b).map fun r => (b.idx, r)
  if !first.isEmpty then first
  else
    let second := (sampledBuckets u).flatMap fun i => (u.others.filter fun r => !(u.samples.any fun x => x.rank == r && x.bucket == i)).map fun r => (i, r)
    if !second.isEmpty then second else (u.others.filter fun r => !(u.verdicts.any (·.1 == r))).map fun r => (0, r)

/-! ## A message joins (R260) -/

/-- A bucket changed. -/
def updBucket (i : Nat) (f : Bucket → Bucket) (u : Update) : Update := { u with buckets := mapIf (fun b => b.idx == i) f u.buckets }

/-- A message fits the reduction: its sender and its bucket. -/
def redFits (u : Update) (peer type : Nat) (b : Bytes) : Bool :=
  u.ring[Red.rank b]? == some peer && Red.rank b != u.rank &&
    (if type = Spp.updateVerdict ∨ type = Spp.reduceRepeat then true
     else Red.bucket b < u.bucketCount &&
      (type == Spp.reduceAmax || Red.count b == (if type = Spp.reduceSample then (sampled u (Red.bucket b)).length else (u.part (Red.bucket b)).length)))

/-- A message of this attempt joins what has come; a second one of the same kind changes nothing. -/
def takeRed (type : Nat) (b : Bytes) (u : Update) : Update :=
  let r := Red.rank b
  let i := Red.bucket b
  if type = Spp.reduceAmax then
    updBucket i (fun x => { x with ovf := x.ovf || Red.ovf b, amax := if x.amax.any (·.1 == r) then x.amax else x.amax ++ [(r, u32At b 64)] }) u
  else if type = Spp.reducePartial ∨ type = Spp.reduceResult then
    updBucket i (fun x => { x with ovf := x.ovf || Red.ovf b, inbox := x.inbox ++ [readMsg type b] }) u
  else if type = Spp.reduceSample then
    if u.samples.any (fun x => x.rank == r && x.bucket == i) then u
    else { u with samples := u.samples ++ [{ rank := r, bucket := i, samples := readSamples b }] }
  else if type = Spp.updateVerdict then
    if u.verdicts.any (·.1 == r) then u else { u with verdicts := u.verdicts ++ [(r, u8At b 64)] }
  else u

/-- The buckets of a new attempt: this rank's own maxima are known. -/
def freshBuckets (u : Update) : List Bucket :=
  (List.range u.bucketCount).map fun i =>
    let a := bucketMax (u.part i)
    { idx := i, amax := if Up.block8 u.request then [(u.rank, a)] else [], inbox := [], chain := none, leader := none, final := none,
      ovf := Up.block8 u.request && !(val32 a).isFin, fell := false, result := none }

/-- The REDUCE_AMAX messages of a new attempt. -/
def amaxSends (u : Update) : List RedSend :=
  if Up.block8 u.request = false then []
  else u.buckets.flatMap fun b =>
    let p := redMessage u false b.ovf 0 b.idx 1 (toLE 4 (bucketMax (u.part b.idx)) ++ zeros 4)
    u.others.map fun r => ⟨r, Spp.reduceAmax, p⟩

end Sys2Proof.Machine
end

