-- ==== Sys2Proof/Machine/Update.lean ====
section
/-! DEFINITION. MEMLAYER_UPDATE: its request, the slot gradients, the optimiser, the verdicts, and the messages of the reduction
(11 R249-R264). -/

namespace Sys2Proof.Machine

/-! ## The request (R251-R253) -/

/-- A U32 field is a finite FP32 value of at least 0 that is below 1. -/
def belowOne (c : Nat) : Bool := c < 0x3F800000

/-- RING_ID lists exactly the members of the head's group. -/
def ringFits (s : State) (h : Head) (id : Nat) : Bool :=
  if h.members.length ≤ 1 then id == 0xFFFF
  else id != 0xFFFF && (match (descRingList (liveDesc s))[id]? with
    | none => false
    | some r => r.length == h.members.length && h.members.all r.contains && r.all h.members.contains)

/-- The first failure of an update request: status, offset. DEDUCED (log entry 39). -/
def updFail (s : State) (h : Head) (b : Bytes) : Option (Nat × Nat) :=
  let one := h.members.length ≤ 1
  let opt := Up.optimiser b
  let b8 := Up.block8 b
  if u32At b 0 ≠ Up.magic then some (Status.invalidField, 0)
  else if u32At b 4 ≠ b.length then some (Status.lengthMismatch, 0)
  else if u32At b 60 ≠ crc32c (slice b 0 60) then some (Status.invalidField, 60)
  else (firstFail [
    require (u32At b 4 == 64) 4,
    reserved b 8 10,
    require (opt ≤ 2 && (!Hd.tied h.desc || opt == 0)) 18,
    require ((u8At b 19 == 1 || u8At b 19 == 2) && !(one && b8)) 19,
    require (u8At b 20 == 1 || u8At b 20 == 2) 20,
    require (if b8 then Up.headroom b ≤ 4 else Up.headroom b == 0) 21,
    require (ringFits s h (Up.ringId b)) 22,
    require (u32At b 24 == h.id) 24,
    require (Up.step b != 0xFFFFFFFFFFFFFFFF && (match h.trained with | none => true | some n => n < Up.step b)) 28,
    require (nonNegFinite32 (Up.rate b 0)) 36,
    require (if opt = 0 then Up.rate b 1 == 0 else belowOne (Up.rate b 1)) 40,
    require (if opt = 2 then belowOne (Up.rate b 2) else Up.rate b 2 == 0) 44,
    require (if opt = 2 then posNormal32 (Up.rate b 3) else Up.rate b 3 == 0) 48,
    require (nonNegFinite32 (Up.rate b 4)) 52,
    require (4096 ≤ Up.bucketElements b && Up.bucketElements b ≤ 16777216 && Up.bucketElements b % 32 == 0) 56]).map fun o => (Status.invalidField, o)

/-- The completion of a failed request: INFO names TRAINED_STEP where STEP fails (R252). DEDUCED (log entry 39). -/
def failUpdate (seq : Nat) (h : Head) (x : Nat × Nat) (s : State) : State :=
  if x.1 = Status.invalidField ∧ x.2 = 28 then
    finish seq { status := Status.invalidField, info := h.trained.getD fillId, source := .payload, offset := 28 } [] s
  else failInput seq x s

/-! ## Gradients (R249, R256) -/

/-- The head reads its own value table. -/
def ownsTable (h : Head) : Bool := !Hd.tied h.desc

/-- The heads whose step an update closes: a source head's with its tied heads. -/
def stepHeads (s : State) (h : Head) : List Head := if ownsTable h then tableHeads s h else [h]

/-- A backward of STEP was admitted on one of the heads. -/
def stepBegun (s : State) (h : Head) (step : Nat) : Bool := (stepHeads s h).any fun x => (stepOf x step).isSome

/-- grad_add over the records of the head and its tied heads. -/
def slotGradients (s : State) (h : Head) (step : Nat) : List (Nat × List Nat) :=
  if ownsTable h = false then []
  else
    let steps := (tableHeads s h).filterMap fun x => stepOf x step
    gradAdd (steps.flatMap (·.records)) (((stepOf h step).map (·.table)).getD [])

/-- Trained rows of a tensor: a mask bit covers them, and they are not frozen. -/
def trainedRows (h : Head) (mask : Bytes) (t : Nat) : List Nat :=
  if t = 3 then
    if Hd.dModel h.desc = 0 ∨ Hd.frozenProj h.desc then [] else (List.range (2 * Hd.halfDim h.desc)).filter (maskBit mask 3)
  else if Hd.frozenKeys h.desc then [] else (List.range (Hd.rows h.desc t)).filter (maskBit mask t)

/-- G: the step accumulators of the trained rows; one without a contribution holds +0. -/
def gradientG (h : Head) (step : Nat) : List Nat :=
  match stepOf h step with
  | none => []
  | some x => [1, 2, 3].flatMap fun t => (trainedRows h x.mask t).flatMap fun r =>
      ((x.accums.find? fun a => a.tensor == t && a.row == r).map (·.elems)).getD (List.replicate (Hd.cols h.desc t) 0)

/-! ## The optimiser (R254) -/

/-- The step inputs of the optimiser as values. -/
structure Rates where
  lr : Num
  b1 : Num
  b2 : Num
  eps : Num
  wd : Num

/-- The rates of a request. -/
def ratesOf (b : Bytes) : Rates where
  lr := val32 (Up.rate b 0)
  b1 := val32 (Up.rate b 1)
  b2 := val32 (Up.rate b 2)
  eps := val32 (Up.rate b 3)
  wd := val32 (Up.rate b 4)

/-- A product narrowed to FP32. -/
def mul32 (a b : Num) : Num := r32 (Num.mul a b)

/-- sgd_row. -/
def sgdRow (p : Rates) (g : List Nat) (r : Master) : Master :=
  let u := List.zipWith (fun g x => add32 (val32 g) (mul32 p.wd (val32 x))) g r.x
  let m := List.zipWith (fun m u => add32 (mul32 p.b1 (val32 m)) u) r.m u
  { r with x := List.zipWith (fun x m => code32 (add32 (val32 x) (mul32 p.lr.neg m))) r.x m, m := m.map code32 }

/-- adam_row. -/
def adamRow (p : Rates) (g : List Nat) (r : Master) : Master :=
  let gv := g.map val32
  let mean := r32 (Num.div (tree add32 (gv.map fun x => mul32 x x)) (.ofInt g.length))
  let v := add32 (mul32 p.b2 (val32 r.v)) (mul32 (r32 (Num.sub (.ofInt 1) p.b2)) mean)
  let d := add32 (sqrtRn v) p.eps
  let m := List.zipWith (fun m g => add32 (mul32 p.b1 (val32 m)) (mul32 (r32 (Num.sub (.ofInt 1) p.b1)) g)) r.m gv
  let st := List.zipWith (fun m x => add32 (r32 (Num.div m d)) (mul32 p.wd (val32 x))) m r.x
  { r with x := List.zipWith (fun x st => code32 (add32 (val32 x) (mul32 p.lr.neg st))) r.x st, m := m.map code32, v := code32 v }

/-- The master row of a slot; one never written reads as zero bytes (10 R210). DESIGN CHOICE (log entry 30). -/
def masterOf (h : Head) (slot : Nat) : Master :=
  (h.masters.find? (·.slot == slot)).getD
    { slot := slot, x := List.replicate (Hd.dv h.desc) 0, m := List.replicate (Hd.dv h.desc) 0, v := 0 }

/-- One slot is updated: its master row, its state, and its row in the table format. -/
def updateRow (b : Bytes) (id : Nat) (s : State) (g : Nat × List Nat) : State :=
  match findHead s id with
  | none => s
  | some h =>
    let old := masterOf h g.1
    let m := if Up.optimiser b = 1 then sgdRow (ratesOf b) g.2 old else adamRow (ratesOf b) g.2 old
    bump Key.rowsUpdated (renarrow id m (updHead id (setMaster m) s))

/-- The value rows of the touched slots are updated in ascending slot, with their cold-tier copies. -/
def updateRows (b : Bytes) (h : Head) (table : List (Nat × List Nat)) (s : State) : State :=
  if Up.optimiser b = 0 then s
  else coldWrite (table.length * (8 * Hd.dv h.desc + (if Up.optimiser b = 2 then 4 else 0)))
    (clearLost 2 h.id (table.flatMap fun x => masterLpns h x.1 ++ stateLpns h x.1) (table.foldl (updateRow b h.id) s))

/-! ## Records in flight -/

/-- The update of a command. -/
def findUpd (s : State) (seq : Nat) : Option Update := s.mem.upds.find? (·.seq == seq)

/-- One update set. -/
def setUpd (u : Update) (s : State) : State := { s with mem := { s.mem with upds := mapIf (fun x => x.seq == u.seq) (fun _ => u) s.mem.upds } }

/-- Messages of a reduction go to their ranks. -/
def sendRed (u : Update) (l : List RedSend) (s : State) : State := l.foldl (fun v x => sendSpp (u.ring.getD x.rank 0) x.type x.payload v) s

/-- The same message to every other rank. -/
def sendOthers (u : Update) (type : Nat) (p : Bytes) (s : State) : State := sendRed u (u.others.map fun r => ⟨r, type, p⟩) s

/-- The kept messages of the reduction of a step. -/
def redEarly (s : State) (head step : Nat) : List Early :=
  s.mem.early.filter fun e => Up.types.contains e.type && Red.head e.payload == head && Red.step e.payload == step

/-- The kept messages of the reduction of a step go. -/
def dropRedEarly (head step : Nat) (s : State) : State :=
  { s with mem := { s.mem with early := s.mem.early.filter fun e =>
      !(Up.types.contains e.type && Red.head e.payload == head && Red.step e.payload == step) } }

/-! ## The outcome (R263) -/

/-- What of a step goes after a verdict. A tied head's records stay for the update of its source. DEDUCED (log entry 39). -/
def releaseStep (s : State) (h : Head) (step : Nat) : State :=
  let drop := fun (x : Head) => { x with damagedAccum := false, steps := x.steps.filter (·.step ≠ step) }
  if ownsTable h then
    (tableHeads s h).foldl (fun u t => dropStash t.id (fun e => e.step == step)
      (if t.id = h.id || t.trained == some step then updHead t.id drop u else updStep t.id step (fun x => { x with records := [] }) u)) s
  else
    let done := (sourceHead s h).trained == some step
    dropStash h.id (fun e => e.step == step) (if done then updHead h.id drop s else updStep h.id step (fun x => { x with accums := [], table := [] }) s)

/-- An update ends after its verdicts. -/
def endUpdate (u : Update) (h : Head) (comp : Comp) (out : Bytes) (s : State) : State :=
  finish u.seq comp out (dropMem u.seq (dropRedEarly u.head u.step (releaseStep s h u.step)))

/-- The copies of pages that an update has written: clean once a WRITE_BACK_ROWS item of its plan has put them into its unit, and dirty without one
(13 R308, R311). -/
def dirtyPages (back : Bool) (pages : List Nat) (s : State) : State :=
  { s with cold := { s.cold with copies := mapIf (fun c => pages.contains c.page) (fun c => { c with dirty := !back }) s.cold.copies } }

/-- Every verdict is OK: the update is applied as one unit. DEDUCED (log entry 39). -/
def applyUpdate (u : Update) (h : Head) (s : State) : State :=
  let g := (sortOn (·.idx) u.buckets).flatMap fun b => b.result.getD []
  let out := (g.map (toLE 4)).flatten
  let table := slotGradients s h u.step
  let pages := if Up.optimiser u.request = 0 then [] else table.flatMap fun x => masterPages h x.1 ++ statePages h x.1
  let back := ((findCmd s u.seq).bind (·.plan)).any fun p => (movesOf p.bytes).any (·.kind == 4)
  let s1 := dirtyPages back pages (updateRows u.request h table s)
  let s2 := chainExtend 2 h.id u.request (updHead h.id (fun x => { x with trained := some u.step }) s1)
  let order := ((findCmd s2 u.seq).map (·.order)).getD 0
  let s3 := discardStash ((tableHeads s2 h).map (·.id)) order s2
  endUpdate u h { status := Status.success, info := g.length, outBytes := out.length } out s3

/-- What this rank says of the step (R263). DEDUCED (log entry 39). -/
def verdictOf (u : Update) (s : State) : Nat :=
  let bad := fun l : List Nat => l.any fun c => !(val32 c).isFin
  if !u.media.isEmpty then 3
  else if (u.buckets.any fun b => bad (b.result.getD [])) || (match findHead s u.head with
      | none => false
      | some h => (slotGradients s h u.step).any fun x => bad x.2) then 1
  else if !(mismatched u).isEmpty then 2
  else 0

/-- Every bucket and every sample of the attempt has come. -/
def gathered (u : Update) : Bool :=
  (u.buckets.all (·.result.isSome)) && (sampledBuckets u).all fun i => (List.range u.rr).all fun r => u.samples.any fun x => x.rank == r && x.bucket == i

/-! ## An attempt goes as far as it can -/

/-- Every bucket goes as far as it can; each that falls back is counted. DEDUCED (log entry 38). -/
def runBuckets (u : Update) (s : State) : Update × State :=
  let steps := u.buckets.map fun b => bucketGo u 8 b
  let fell := ((u.buckets.zip steps).filter fun x => x.2.bucket.fell && !x.1.fell).length
  ({ u with buckets := steps.map (·.bucket) }, bumpBy Key.block8Fallbacks fell (sendRed u (steps.flatMap (·.sends)) s))

/-- The samples of buckets that have their result go out. DEDUCED (log entry 38). -/
def runSamples (u : Update) (s : State) : Update × State :=
  let due := u.buckets.filter fun b => b.result.isSome && !(sampled u b.idx).isEmpty && !(u.samples.any fun x => x.rank == u.rank && x.bucket == b.idx)
  let mine := due.map fun b => ({ rank := u.rank, bucket := b.idx, samples := ownSamples u b } : RankSamples)
  ({ u with samples := u.samples ++ mine },
    mine.foldl (fun v x => sendOthers u Spp.reduceSample (redMessage u false false 0 x.bucket x.samples.length (sampleBody x.samples)) v) s)

/-- Elements that differ on the second path are logged and counted (R262). -/
def logMismatches (u : Update) (s : State) : State :=
  (mismatched u).foldl (fun v j => logEvent Ev.sampleMismatch Ev.error u.rank (toLE 4 u.head ++ toLE 8 u.step ++ toLE 4 j ++ toLE 1 u.attempt)
    (bump Key.sampleMismatches v)) s

/-- This rank's verdict goes out once all has come and the master rows are here. -/
def runVerdict (u : Update) (s : State) : Update × State :=
  if u.verdicts.any (·.1 == u.rank) || !gathered u || !pagesHeld s u.pages then (u, s)
  else
    let v := { u with media := match findHead s u.head with | none => u.media | some h => joinBad s h u.pages u.media }
    let code := verdictOf v s
    ({ v with verdicts := u.verdicts ++ [(u.rank, code)], since := s.now },
      sendOthers u Spp.updateVerdict (redMessage u false false 0 0 0 (toLE 1 code ++ zeros 7)) (logMismatches u s))

/-- The update begins an attempt: with what has come early for it. DEDUCED (log entry 39). -/
def beginAttempt (attempt : Nat) (u : Update) (s : State) : State :=
  let v := { u with attempt := attempt, samples := [], verdicts := [], since := s.now }
  let w := { v with buckets := freshBuckets v }
  let early := (redEarly s u.head u.step).filter fun e => Red.attempt e.payload == attempt && redFits w e.peer e.type e.payload
  setUpd (early.foldl (fun x e => takeRed e.type e.payload x) w) (sendRed w (amaxSends w) s)

/-- An update goes as far as it can: to its outcome, or a further attempt after a MISMATCH. `fuel` bounds the attempts. DEDUCED (log entry 39). -/
def advanceUpd : Nat → Nat → State → State
  | 0, _, s => s
  | n + 1, seq, s =>
    match findUpd s seq with
    | none => s
    | some u0 =>
      match findHead s u0.head with
      | none => s
      | some h =>
        let a := runBuckets u0 s
        let b := runSamples a.1 a.2
        let c := runVerdict b.1 b.2
        let u := c.1
        let s1 := setUpd u c.2
        let said := fun k => u.verdicts.any (·.2 == k)
        if u.verdicts.length < u.rr then s1
        else if said 3 then
          let out := (u.media.map (toLE 8)).flatten
          endUpdate u h { status := Status.incompleteMedia, outBytes := out.length, flags := Cflag.incomplete } out s1
        else if said 1 then endUpdate u h { status := Status.nonfiniteGradient } [] s1
        else if said 2 then
          if 2 ≤ u.mismatches then endUpdate u h { status := Status.reductionMismatch } [] s1
          else advanceUpd n seq (beginAttempt (u.attempt + 1) { u with mismatches := u.mismatches + 1 } (bump Key.reduceRepeats s1))
        else applyUpdate u h s1

/-- The attempts that one event can run through. -/
abbrev attempts : Nat := 4

/-- The whole reduction is performed again (R264). DEDUCED (log entry 39). -/
def repeatUpd (attempt : Nat) (u : Update) (s : State) : State :=
  advanceUpd attempts u.seq (beginAttempt attempt u (bump Key.reduceRepeats s))

/-! ## The command -/

/-- Why a checked update ends before its stages. -/
def updRefused (s : State) (c : Cmd) (h : Head) (p : Plan) (g : List Nat) : Option Comp :=
  if c.entry.outLen < 4 * g.length then some { status := Status.invalidField, source := .entry, offset := 56 }
  else match firstFail [headTilesFail s h (planUpdates p), planTilesFail p (scaleTilesOf p.bytes [0x33, 0x34, 0x35])] with
    | some x => some { status := Status.invalidField, info := x.1, source := .tile, offset := x.2 }
    | none => if coldRefuses s 0 then some { status := Status.capacityExceeded } else none

/-- The rank of this module and the ring of an update. -/
def ringOf (s : State) (h : Head) (b : Bytes) : List Nat :=
  if h.members.length ≤ 1 then [moduleIndex s] else (descRingList (liveDesc s)).getD (Up.ringId b) []

/-- A new update from its request. -/
def newUpdate (seq : Nat) (s : State) (h : Head) (p : Plan) (b : Bytes) : Update where
  seq := seq
  head := h.id
  plan := p.planId
  step := Up.step b
  request := b
  digest := sm3Low64 b
  ring := ringOf s h b
  rank := ((ringOf s h b).idxOf? (moduleIndex s)).getD 0
  g := gradientG h (Up.step b)
  attempt := 0
  buckets := []
  samples := []
  verdicts := []
  mismatches := 0
  since := s.now
  pages := []
  media := []

/-- What an update finds uncorrectable beside the pages that it promotes: the head's accumulators or records (R263), what lost words held (12
R275), and the master rows and states of its slots whose pages are lost (13 R303). -/
def updateMedia (s : State) (h : Head) (slots lost : List Nat) : List Nat :=
  let gone := (slots.filter fun i => pagesLost s 2 h.id (masterLpns h i ++ stateLpns h i)).map (· / 4096)
  sortOn id (dedup (lost ++ gone ++ (if h.damagedAccum then [fillId] else [])))

/-- The stages of an update run: the slot gradients, the request for master pages, and the first attempt. -/
def runUpdate (seq : Nat) (h : Head) (p : Plan) (b : Bytes) (lost : List Nat) (s : State) : State :=
  let table := slotGradients s h (Up.step b)
  let works := ownsTable h && Up.optimiser b != 0
  let windows := promotionsOf p [0x33, 0x34, 0x35] fun i =>
    if !works then [] else if i = 0 then table.flatMap fun x => masterPages h x.1 else table.flatMap fun x => statePages h x.1
  let pages := awaited windows
  let u := { newUpdate seq s h p b with pages := pages, media := updateMedia s h (if works then table.map (·.1) else []) lost }
  let s1 := askPages seq windows { s with mem := { s.mem with upds := s.mem.upds ++ [u] } }
  let s2 := if pagesHeld s1 pages then s1 else bump Key.updateStalls s1
  let early := redEarly s2 u.head u.step
  if early.any fun e => Red.digest e.payload ≠ u.digest then endMismatch seq (dropRedEarly u.head u.step s2)
  else
    let first := maxOf ((early.filter (·.type == Spp.reduceRepeat)).map fun e => Red.attempt e.payload)
    advanceUpd attempts seq (beginAttempt first u (if first = 0 then s2 else bump Key.reduceRepeats s2))

/-- MEMLAYER_UPDATE (R249-R263). It waits for every earlier forward, backward, write and update of the tensors that it changes, its
backwards among them (10 R216, R237), and while a tile that it writes moves (12 R284). DEDUCED (log entry 64). -/
def execMemlayerUpdate (run : CmdRun) (input : Bytes) (t : Nat) (s : State) : Res :=
  let s0 := tick t s
  match admittedCmd s0 run.seq 0x35 with
  | none => .next s0
  | some c =>
    if wrongTransfer c input then .next (fail run.seq Status.lengthMismatch s0)
    else match findHead s0 c.entry.target, c.plan with
    | some h0, some p =>
      let ids := (tableHeads s0 h0).map (·.id)
      if heldAhead s0 c h0 || h0.restoring || readersAhead s0 c ids || writersAhead s0 c ids || ids.any (headMoves s0) then .next s0
      else match layerFail s0 h0 with
        | some x => .next (failWith run.seq x s0)
        | none =>
          match updFail s0 h0 input with
          | some x => .next (failUpdate run.seq h0 x s0)
          | none =>
            let sb := takeBanks c s0
            if stepBegun s0 h0 (Up.step input) = false then .next (succeed run.seq 0 [] s0)
            else if awaitsBanks sb run.seq then .next sb
            else
            let sb := guarded run.upsets sb
            let lost := lostMedia sb run.upsets
            if run.upsets.codes.second.isSome then .next ((run.upsets.codes.second.map fun m => codeFails c m sb).getD sb)
            else match updRefused sb c h0 (livePlan sb p) (gradientG h0 (Up.step input)) with
              | some x => .next (finish run.seq x [] (if x.source = .tile then bump Key.scaleTileRejects sb else sb))
              | none =>
                let s1 := if h0.gradStep = some (Up.step input) then closeGrad h0 sb else sb
                match findHead s1 h0.id with
                | none => .next s1
                | some h => .next (runUpdate run.seq h p input lost (startStream run.seq s1))
    | _, _ => .next s0

/-! ## Messages -/

/-- A message of a step that is over here. -/
def stepPast (s : State) (head step : Nat) : Bool :=
  match findHead s head with
  | none => true
  | some h => match h.trained with | none => false | some n => step ≤ n

/-- A message of the reduction: to its update, or kept until that starts or begins the attempt; one of an earlier attempt is dropped. -/
def redDeliver (peer type : Nat) (b : Bytes) (s : State) : State :=
  if Red.formed type b = false then malformed s
  else match s.mem.upds.find? fun u => u.head == Red.head b && u.step == Red.step b with
    | none => if stepPast s (Red.head b) (Red.step b) then s else keepEarly (Red.head b) peer type b s
    | some u =>
      if redFits u peer type b = false then malformed s
      else if Red.digest b ≠ u.digest then endMismatch u.seq (dropRedEarly u.head u.step s)
      else if Red.attempt b < u.attempt then s
      else if Red.attempt b = u.attempt then
        if type = Spp.reduceRepeat then s else advanceUpd attempts u.seq (setUpd (takeRed type b u) s)
      else if type = Spp.reduceRepeat then repeatUpd (Red.attempt b) u s
      else keepEarly u.head peer type b s

/-- REDUCE_AMAX (R258). -/
def execReduceAmax (peer : Nat) (payload : Bytes) (t : Nat) (s : State) : Res := .next (redDeliver peer Spp.reduceAmax payload (tick t s))

/-- REDUCE_PARTIAL (R257). -/
def execReducePartial (peer : Nat) (payload : Bytes) (t : Nat) (s : State) : Res := .next (redDeliver peer Spp.reducePartial payload (tick t s))

/-- REDUCE_RESULT (R257). -/
def execReduceResult (peer : Nat) (payload : Bytes) (t : Nat) (s : State) : Res := .next (redDeliver peer Spp.reduceResult payload (tick t s))

/-- REDUCE_SAMPLE (R262). -/
def execReduceSample (peer : Nat) (payload : Bytes) (t : Nat) (s : State) : Res := .next (redDeliver peer Spp.reduceSample payload (tick t s))

/-- REDUCE_REPEAT (R264). -/
def execReduceRepeat (peer : Nat) (payload : Bytes) (t : Nat) (s : State) : Res := .next (redDeliver peer Spp.reduceRepeat payload (tick t s))

/-- UPDATE_VERDICT (R263). -/
def execUpdateVerdict (peer : Nat) (payload : Bytes) (t : Nat) (s : State) : Res := .next (redDeliver peer Spp.updateVerdict payload (tick t s))

/-- REDUCE_TIMEOUT (R264): a message has not come for STEP_TIMEOUT_US; a repeat, or after the third the lowest rank that is named is
declared failed. DEDUCED (log entry 39). -/
def execReduceTimeout (seq t : Nat) (s : State) : Res :=
  let s0 := tick t s
  match findUpd s0 seq with
  | none => .next s0
  | some u =>
    match findHead s0 u.head, lacks u with
    | some h, (bucket, rank) :: rest =>
      if s0.now < u.since + settingUs s0 Key.stepTimeoutUs then .next s0
      else if u.attempt < 3 then
        let v := { u with attempt := u.attempt + 1 }
        .next (repeatUpd (u.attempt + 1) u (sendOthers v Spp.reduceRepeat (redMessage v false false 0 bucket 0 []) s0))
      else
        let low := (rest.map (·.2)).foldl min rank
        .next (declareFailed h (u.ring.getD low 0) 1 u.step (some (Up.ringId u.request, u.ring)) s0)
    | _, _ => .next s0

/-- An update that waited for master pages goes on once they are held. -/
def resumeUpd (u : Update) (s : State) : State := if u.pages ≠ [] ∧ pagesHeld s u.pages then advanceUpd attempts u.seq s else s

end Sys2Proof.Machine
end

