-- ==== Sys2Proof/Machine/Completion.lean ====
section
/-! DEFINITION. The commands at which commands end or go on once others have: QUEUE_RESET, COMPLETION_SEND, DISCONNECT_REQUEST and
SCRATCH_BANKS_GRANTED (15 R353, R354; 14 R338; 12 R273). -/

namespace Sys2Proof.Machine

/-- Forwards and backwards that waited for one that has ended go on (04 R78; 11 R247, R248). -/
def resumeLayers (s : State) : State := s.mem.heads.foldl (fun u h => advanceBwds h.id (advanceFwds h.id u)) s

/-- QUEUE_RESET (R354): every command of the target queue that was outstanding at its dispatch ends. DEDUCED (log entry 67). -/
def execQueueReset (seq : Nat) (headers : List HeaderRead) (s : State) : Res :=
  match admittedCmd s seq 0x02 with
  | none => .next s
  | some c =>
    if resetPending s c then .next s
    else
      let qid := c.entry.target % 65536
      let ended := (endable s qid).filter (·.seq < u64At c.report 0)
      let own := ended.any (·.seq == seq)
      let others := ended.filter (·.seq ≠ seq)
      let s1 := bump Key.queueResets (endAll headers [] others s)
      if own then
        let s2 := bump Key.commandsAborted s1
        .next (resumeLayers (resumeQueue qid { s2 with ahp := { s2.ahp with cmds := s2.ahp.cmds.filter (·.seq ≠ seq) } }))
      else
        .next (resumeLayers (updCmd seq (fun d => { d with waitsFor := others.map (·.seq) }) (succeed seq ended.length [] s1)))

/-- COMPLETION_SEND (15 R353): the completion of a command that is ready is posted; one of a query past its deadline instant reports
DEADLINE_MISSED (07 R156). From the power-fail signal on none is
(18 R429). DESIGN CHOICE (log entry 11); DEDUCED (log entry 18). -/
def execCompletionSend (seq t : Nat) (s : State) : Res :=
  let s0 := tick t s
  match findCmd s0 seq with
  | none => .next s0
  | some c =>
    match c.comp with
    | none => .next s0
    | some comp =>
      if maySend s0 c = false ∨ s0.power.state = .p4 then .next s0
      else
        let late := c.deadline != 0 && c.deadline < s0.now
        let comp' := { comp with flags := (comp.flags ||| c.tileFlags) + flagIf late Cflag.deadlineMissed }
        let s00 := if late then bump Key.deadlineMisses s0 else s0
        let s1 := bump Key.commandsCompleted (sendCompletion (connOf s00 c) c.entry.cmdId comp' s00)
        .next (resumeLayers (afterCompletion c.entry { s1 with ahp := { s1.ahp with cmds := s1.ahp.cmds.filter (·.seq ≠ seq) } }))

/-- DISCONNECT_REQUEST (14 R338): the other end tears the connection down. -/
def execDisconnectRequest (qpn t : Nat) (s : State) : Res := .next (resumeLayers (closeConn qpn (tick t s)))

/-- A forward that waited for its scratchpad banks runs (12 R273). -/
def runBanked (seq : Nat) (s : State) : State :=
  if (findFwd s seq).any (·.phase == .banks) then resumeLayers (bankForward seq s) else s

/-- SCRATCH_BANKS_GRANTED (12 R273): the command that has waited longest in order of admission gets its banks once enough are free. -/
def execScratchBanksGranted (s : State) : Res :=
  match s.hbm.waiters with
  | [] => .next s
  | w :: rest =>
    if w.banks ≤ banksFree s then
      .next (runBanked w.seq { s with hbm := { s.hbm with holds := s.hbm.holds ++ [w], waiters := rest } })
    else .next s

end Sys2Proof.Machine
end

