-- ==== Sys2Proof/Machine/Power.lean ====
section
/-! DEFINITION. Power states, thermal control, the control cores, and going down (18 R418-R430; 19 R438; 20 R458 R459). -/

namespace Sys2Proof.Machine

/-! ## Idle, and the entries into P2 and P3 (R419-R423) -/

/-- POWER_STATE (R419, R435). DEDUCED (log entry 55). -/
def powerCode (s : State) : Nat :=
  match s.power.state with
  | .p0 => if s.power.gated.length = 32 ∧ s.ahp.cmds.isEmpty then 1 else 0
  | .p2 => 2
  | .p3 => 3
  | _ => 0

/-- The keeper of a sharded collection, or a bucket move of it, is at work (R420). -/
def shardBusy (c : Coll) : Bool :=
  match c.shard with
  | none => false
  | some x => x.grants.any (fun g => g.state == .granted) || x.move.isSome || !x.toMove.isEmpty

/-- The module is idle (R420). DEDUCED (log entry 55). -/
def idle (s : State) : Bool :=
  s.ahp.cmds.isEmpty &&
  !(s.search.colls.any fun c => c.job.isSome || shardBusy c) &&
  s.dap.applies.isEmpty && s.sec.load.isNone && !(s.dap.sessions.any fun x => !x.outstanding.isEmpty) && s.dap.diagRequest.isNone &&
  s.search.queries.isEmpty && s.search.ingests.isEmpty && s.search.units.isEmpty &&
  s.mem.fwds.isEmpty && s.mem.bwds.isEmpty && s.mem.upds.isEmpty && s.net.waits.isEmpty &&
  s.hbm.relocs.isEmpty && !(s.hbm.hurt.any fun h => !s.hbm.fenced.contains h.channel)

/-- The instant from which the module has been idle, where it is idle: its last output or end of work. DEDUCED (log entry 55). -/
def idleStart (s : State) : Nat := max s.net.lastOut s.power.idleSince

/-- No power state below P1 is entered now: diagnostic mode, a reset under way, admission closed (19 R448, R430). DEDUCED (log entry 55). -/
def mayDeepen (s : State) : Bool := s.box.diag == 0 && s.power.resetting.isNone && s.ahp.admissionOpen && idle s

/-- The time since `p2Since` has been spent in P2 or P3, which the patrols do not count (R420). -/
def endP2 (s : State) : State := { s with power := { s.power with suspended := s.power.suspended + (s.now - s.power.p2Since) } }

/-- An entry that has not reached its last step is undone, and the module is in P0 (R422). The record of an entry into P3 is written at 0.5 ms. DEDUCED (log entry 55). -/
def abandonEntry (target start : Nat) (s : State) : State :=
  let s1 := if target = 3 then endP2 s else s
  let s2 := if target = 3 ∧ start + 500000 ≤ s1.now then logEvent Ev.p3Entry Ev.info 0 [] s1 else s1
  bump Key.entriesAbandoned { s2 with power := { s2.power with state := .p0, entry := none, idleSince := s2.now } }

/-- Nothing has ended the module's idleness since an entry's start. DEDUCED (log entry 55). -/
def stillIdle (start : Nat) (s : State) : Bool := mayDeepen s && decide (idleStart s ≤ start)

/-- P2_ENTRY (R421): the entry starts after P2_IDLE_MS of idleness, and P2 is reached 80 µs later, where the command comes again; an entry whose
idleness has ended is abandoned (R422). DEDUCED (log entry 55). -/
def execP2Entry (t : Nat) (s : State) : Res :=
  let s0 := tick t s
  match s0.power.entry with
  | some (k, start) =>
    if k = 2 ∧ start + 80000 ≤ s0.now then
      .next (if stillIdle start s0 then
          bump Key.p2Entries { s0 with power := { s0.power with state := .p2, entry := none, p2Since := s0.now } }
        else abandonEntry k start s0)
    else .next s0
  | none =>
    if s0.power.state = .p0 ∧ mayDeepen s0 ∧ 2 ≤ settingNat s0 Key.deepestState ∧ idleStart s0 + settingNat s0 Key.p2IdleMs * 1000000 ≤ s0.now then
      .next { s0 with power := { s0.power with entry := some (2, s0.now) } }
    else .next s0

/-- The last step of the entry into P3: every connection closes with a disconnect request and ports 1 to 3 stop (R421, 14 R338). The cache
banks are written back and lost (12 R274). DEDUCED (log entry 55). -/
def enterP3 (s : State) : State :=
  let s1 := s.net.conns.foldl (fun u c => disconnect c.qpn u) (logEvent Ev.p3Entry Ev.info 0 [] s)
  let s2 := { s1 with net := { s1.net with subs := mapIf (fun x => x.port != 0 && x.up) (fun x => { x with up := false, downSince := s1.now, pauses := [] }) s1.net.subs } }
  bump Key.p3Entries (loseCache { s2 with power := { s2.power with state := .p3, entry := none } })

/-- P3_ENTRY (R421): the entry starts after P3_IDLE_S in P2, and P3 is reached 3 ms later, where the command comes again; an entry whose idleness has
ended is abandoned (R422). DEDUCED (log entry 55). -/
def execP3Entry (t : Nat) (s : State) : Res :=
  let s0 := tick t s
  match s0.power.entry with
  | some (k, start) =>
    if k = 3 ∧ start + 3000000 ≤ s0.now then .next (if stillIdle start s0 then enterP3 s0 else abandonEntry k start s0) else .next s0
  | none =>
    if s0.power.state = .p2 ∧ mayDeepen s0 ∧ settingNat s0 Key.deepestState = 3 ∧ s0.power.p2Since + settingNat s0 Key.p3IdleS * 1000000000 ≤ s0.now then
      .next { s0 with power := { s0.power with entry := some (3, s0.now) } }
    else .next s0

/-- The instant of an entry's last step, from its start: P2 is reached at 80 µs, and the last step into P3 is at 2.5 ms (R421). -/
def lastStepAt (target : Nat) : Nat := if target = 2 then 80000 else 2500000

/-- ENTRY_ABANDON (R422): an entry that has not reached its last step is undone. DEDUCED (log entry 55). -/
def execEntryAbandon (t : Nat) (s : State) : Res :=
  let s0 := tick t s
  match s0.power.entry with
  | none => .next s0
  | some (k, start) => .next (if start + lastStepAt k ≤ s0.now then s0 else abandonEntry k start s0)

/-- The time base restarts from the always-on island's count of 10 ns, and is to lock again (02 R28): it is in HOLDOVER where it was locked since
start-up (14 R339, R340). DEDUCED (log entry 50). -/
def restartTime (t : Nat) (s : State) : State :=
  { s with now := max s.now (t / 10 * 10), net := { s.net with timeState := if s.net.locked then 2 else 0 } }

/-- WAKE (R422, R423): from P2 or P3 to P0. The time spent there does not count for the patrols (R420). DEDUCED (log entry 55). -/
def execWake (t : Nat) (s : State) : Res :=
  let s0 := if s.power.state = .p3 then restartTime t s else tick t s
  if (s0.power.state = .p2 ∧ s0.power.entry = none) ∨ s0.power.state = .p3 then
    let s1 := endP2 s0
    .next { s1 with power := { s1.power with state := .p0, idleSince := s1.now } }
  else .next s0

/-- CLUSTER_CLOCK_GATE (R419). DEDUCED (log entry 55). -/
def execClusterClockGate (cluster : Nat) (s : State) : Res :=
  .next (if s.power.gated.contains cluster ∨ 32 ≤ cluster then s
    else { s with power := { s.power with gated := insertBy (· ≤ ·) cluster s.power.gated } })

/-! ## Resets and going down (R428-R430) -/

/-- A unit that is logged and waits for its epoch keeps its log record (06 R120, 09 R189); its command does not (15 R363). DEDUCED (log entry 57). -/
def keepUnit (s : State) (u : CUnit) : Option CUnit :=
  let handOver := match u.body with | .handOver _ => true | _ => false
  if (shardMapOf s u.coll).isSome && u.phase == .logged && !handOver then
    some { u with origin := match u.origin with | .command _ => .local_ | o => o }
  else none

/-- The sharding state of a collection at its reopen: a move under way starts again at the bucket's live owner, `self`. -/
def coldShard (self epoch : Nat) (x : Shard) : Shard :=
  let again := (x.move.map fun m => m.bucket).toList
  { x with
    learned := []
    holdFrom := epoch
    reach := []
    toMove := again ++ x.toMove
    liveOwner := x.liveOwner.filter (fun o => !again.contains o.1) ++ again.map (fun b => (b, self))
    move := none }

/-- A collection as its durable records hold it; its stripes are to be restored (R432, 13 R313). DEDUCED (log entry 57). -/
def coldColl (self : Nat) (c : Coll) : Coll :=
  { c with
    job := none
    shard := c.shard.map (coldShard self c.epoch)
    damaged := []
    healed := []
    deleteSeq := none
    unrestored := List.range (((c.trees.head?).map (·.parts.length)).getD 0) }

/-- A head as its durable records hold it: no step is open, no stash is kept, and the rows of a RESIDENT share are to be restored (R363,
R432). DEDUCED (log entry 57). -/
def coldHead (h : Head) : Head :=
  { h with
    openStep := none
    closedSteps := []
    stepMax := []
    stepScale := 0
    gradStep := none
    gradPlan := 0
    gradScale := 0
    gradMax := []
    stash := []
    steps := []
    deleteSeq := none
    damagedRows := []
    damagedTile := false
    damagedAccum := false
    healed := []
    restoring := !Hd.streamed h.desc && !Hd.tied h.desc }

/-- What HBM, the SRAM and the running parts held is gone (15 R358 R363, 18 R418 R430). DEDUCED (log entries 57, 68). -/
def loseVolatile (s : State) : State :=
  { s with
    ahp := { Ahp.reset with nextSeq := s.ahp.nextSeq, nextOrder := s.ahp.nextOrder, admissionOpen := false }
    search := { s.search with
      colls := s.search.colls.map (coldColl (moduleIndex s))
      queries := []
      ingests := []
      units := s.search.units.filterMap (keepUnit s) }
    mem := { Mem.reset with heads := s.mem.heads.map coldHead }
    net := { s.net with
      subs := s.net.subs.map fun x => { x with up := false, downSince := s.now, pauses := [] }
      conns := []
      requests := []
      waits := []
      timeState := 0
      offset := 0
      locked := false }
    hbm := { s.hbm with ce := [], pins := [], lostPins := [], hurt := [], tiles := [], cache := [], relocs := [], stuck := [], holds := [], waiters := [], tg := TestGen.idle 72 }
    cold := { s.cold with copies := [], waits := [], ftg := TestGen.idle 0 }
    dap := { s.dap with sessions := [], applies := [], lastResult := 3, diagRequest := none }
    sec := { s.sec with load := none, loadState := 0, loadReason := 0, loadBytes := 0, measure := List.replicate 8 (zeros 32) }
    power := { s.power with entry := none, gated := [], draining := [], resetting := none }
    box := { s.box with queue := [], recent := [], misread := false, restarts := [] } }

/-- The writer's last records before the rails go: what is queued, and the power-fail record (19 R442, R443). DEDUCED (log entry 58). -/
def lastRecords (s : State) : State :=
  let e : Event := {
    code := Ev.powerFail
    severity := Ev.error
    unit := 0
    detail := detail24 (toLE 4 s.power.inputMv ++ toLE 2 (counter s Key.blackboxDropped))
    time := s.now
    boot := s.sec.bootCount }
  writeEvent e (flushEvents s)

/-- The power-fail sequence (R429): the last records, and P4. A module whose ROM has stopped writes no record. DEDUCED (log entry 58). -/
def powerDown (cause : Nat) (s : State) : State :=
  let s1 := loseVolatile (if s.power.state = .idFault then s else lastRecords s)
  { s1 with power := { s1.power with state := .p4, cause := cause } }

/-- A power failure (R429): from any state but P4, where the rails are already off. DEDUCED (log entry 58). -/
def powerFails (s : State) : State := if s.power.state = .p4 then s else powerDown 1 (bump Key.powerFails s)

/-- POWER_FAIL_SIGNAL (R429). DEDUCED (log entry 58). -/
def execPowerFailSignal (inputMv t : Nat) (s : State) : Res :=
  let s0 := tick t s
  .next (powerFails { s0 with power := { s0.power with inputMv := inputMv } })

/-- PWR_EN_FALL (20 R458): the effects of a power failure. DEDUCED (log entry 58). -/
def execPwrEnFall (t : Nat) (s : State) : Res :=
  let s0 := tick t s
  .next (powerFails { s0 with power := { s0.power with pwrEn := false } })

/-- A thermal trip (R428): the sensor and its reading are recorded, and the module goes to P4. The fourth within one hour holds it
there. DEDUCED (log entry 58). -/
def thermalTrip (unit : Nat) (reading : Int) (s : State) : State :=
  let s1 := bump Key.thermalTrips (logEvent Ev.thermalTrip Ev.fatal unit (toLE 2 (unsignedOf 16 reading)) s)
  let trips := s1.power.trips.filter (fun x => (s1.now : Int) < x + 3600000000000) ++ [(s1.now : Int)]
  let s2 := powerDown 5 s1
  { s2 with power := { s2.power with trips := trips, tripHold := decide (4 ≤ trips.length), tripAt := some s1.now } }

/-- TRIP_RESTART (R428): 300 s after a trip, start-up may come again. DEDUCED (log entry 58). -/
def execTripRestart (t : Nat) (s : State) : Res :=
  let s0 := tick t s
  match s0.power.tripAt with
  | none => .next s0
  | some at_ => .next (if at_ + 300000000000 ≤ s0.now then { s0 with power := { s0.power with tripAt := none } } else s0)

/-! ## HBM stacks (R424-R426, 11 R265) -/

/-- Groups of the live descriptor that hold this module. -/
def ownGroups (s : State) : List Nat := (List.range (descGroups (liveDesc s))).filter fun g => (groupMembers (liveDesc s) g).contains (moduleIndex s)

/-- Rings of the live descriptor that hold this module. -/
def ownRings (s : State) : List (Nat × List Nat) :=
  if (liveDesc s).isEmpty then [] else
    let rings := descRingList (liveDesc s)
    ((List.range rings.length).zip rings).filter fun r => r.2.contains (moduleIndex s)

/-- MEMBER_DEGRADED goes to every group and ring that holds the module (11 R260, R265). -/
def sendDegraded (cause stack : Nat) (s : State) : State :=
  let s1 := (ownGroups s).foldl (fun u g => sendAll (otherMembers u (groupMembers (liveDesc u) g)) Spp.memberDegraded
    (memberNotice (moduleIndex u) cause stack 0xFFFFFFFF 0 g 0xFFFF) u) s
  (ownRings s).foldl (fun u r => sendAll (otherMembers u r.2) Spp.memberDegraded
    (memberNotice (moduleIndex u) cause stack 0xFFFFFFFF 0 0xFFFF r.1) u) s1

/-- A stack leaves service (R425, R426): its channels are marked for map-out and no longer answer. DEDUCED (log entry 56). -/
def stackOut (stack : Nat) (beyond : Bool) (s : State) : State :=
  let reading := ((s.power.hbmStacks[stack]?).map (·.temp)).getD 0
  let s1 := (stackChannels stack).foldl (fun u c => markChannel c u) (bump Key.hbmThermalSteps s)
  let s1 := (stackChannels stack).foldl (fun u c => fence c u) (placeTiles s1)
  let s2 := { s1 with
    power := { s1.power with
      hbmStacks := modAt (fun x => { x with state := 4, coolSince := none }) stack s1.power.hbmStacks
      draining := s1.power.draining.filter (· ≠ stack)
      degraded := true } }
  let s3 := logEvent Ev.hbmStackOut Ev.error stack (toLE 2 (unsignedOf 16 reading) ++ toLE 1 (b2n beyond)) s2
  sendDegraded (if beyond then 5 else 4) stack (logEvent Ev.moduleDegraded Ev.error stack [] s3)

/-- Memory-layer commands that are admitted and have not completed. -/
def memoryCmds (s : State) : List Cmd := s.ahp.cmds.filter fun c => memoryLayer c.entry.opcode && (c.phase == .admitted || c.phase == .working)

/-- A memory-layer command in progress completes with MODULE_DEGRADED (R426). DEDUCED (log entry 56). -/
def degradeCmd (s : State) (c : Cmd) : State :=
  let mine := s.mem.fwds.filter (·.seq == c.seq)
  let s1 := mine.foldl (fun u f => releaseStash f.head f.step f.mb u) s
  let s2 := { s1 with mem := { s1.mem with
    fwds := s1.mem.fwds.filter (·.seq ≠ c.seq)
    bwds := s1.mem.bwds.filter (·.seq ≠ c.seq)
    upds := s1.mem.upds.filter (·.seq ≠ c.seq) } }
  fail c.seq Status.moduleDegraded { s2 with cold := { s2.cold with waits := s2.cold.waits.filter (·.seq ≠ c.seq) } }

/-- Threshold, in 0.125 °C, at or above which a stack is in step `k` (R424, R428): T1, T2, TC and TC + 3 °C. -/
def stackThreshold (s : State) (k : Nat) : Int :=
  if k = 1 then settingNat s Key.hbmThrottle1C * 8
  else if k = 2 then settingNat s Key.hbmThrottle2C * 8
  else if k = 3 then settingNat s Key.hbmCriticalC * 8
  else settingNat s Key.hbmCriticalC * 8 + 24

/-- The step that a temperature demands. DEDUCED (log entry 56). -/
def stackDemand (s : State) (temp : Int) : Nat :=
  if stackThreshold s 4 ≤ temp then 4 else if stackThreshold s 3 ≤ temp then 3 else if stackThreshold s 2 ≤ temp then 2
  else if stackThreshold s 1 ≤ temp then 1 else 0

/-- Since when readings lie 3 °C below a threshold, with one more reading. DEDUCED (log entry 56). -/
def coolFrom (since : Option Nat) (threshold temp : Int) (now : Nat) : Option Nat := if temp ≤ threshold - 24 then some (since.getD now) else none

/-- The stack's state changed, as a step. -/
def setStack (stack : Nat) (x : Stack) (s : State) : State := { s with power := { s.power with hbmStacks := modAt (fun _ => x) stack s.power.hbmStacks } }

/-- One reading of a stack (R424-R426). A stack that is CRITICAL waits for the admitted memory-layer commands and does not step back. DEDUCED (log entry 56). -/
def readStack (s : State) (stack : Nat) (temp : Int) : State :=
  match s.power.hbmStacks[stack]? with
  | none => s
  | some old =>
    let x := { old with temp := temp }
    let s1 := setStack stack x s
    let k := stackDemand s temp
    if x.state = 4 then s1
    else if k = 4 then
      let s2 := stackOut stack true s1
      (memoryCmds s2).foldl degradeCmd s2
    else if x.state = 3 then s1
    else if x.state < k then
      let s2 := bump Key.hbmThermalSteps (setStack stack { x with state := k, coolSince := none } s)
      if k = 3 then { s2 with power := { s2.power with draining := s2.power.draining ++ [stack] } } else s2
    else if x.state = 0 then s1
    else
      match coolFrom x.coolSince (stackThreshold s x.state) temp s.now with
      | none => setStack stack { x with coolSince := none } s
      | some c =>
        if c + 1000000000 ≤ s.now then
          bump Key.hbmThermalSteps (setStack stack { x with state := x.state - 1, coolSince := coolFrom none (stackThreshold s (x.state - 1)) temp s.now } s)
        else setStack stack { x with coolSince := some c } s

/-- STACK_DRAIN_COMPLETE (R425): the last admitted memory-layer command has completed. DEDUCED (log entry 56). -/
def execStackDrainComplete (stack : Nat) (s : State) : Res :=
  .next (if s.power.draining.contains stack ∧ memoryCmds s = [] then stackOut stack false s else s)

/-! ## Compute dies and the power cap (R427) -/

/-- The clock of a number of steps below 1.2 GHz. -/
def clockMhz (k : Nat) : Nat := if k = 0 then 1200 else if k = 1 then 1000 else if k = 2 then 800 else 600

/-- Steps below 1.2 GHz of a die's present clock. -/
def dieSteps (x : DieClock) : Nat := max x.step x.cap

/-- Threshold of a temperature step of a die: 95 °C and 100 °C. -/
def dieThreshold (k : Nat) : Int := if k = 1 then 760 else 800

/-- One reading of a die. DEDUCED (log entry 56). -/
def readDieTemp (now : Nat) (temp : Int) (old : DieClock) : DieClock :=
  let x := { old with temp := temp }
  let k := if 800 ≤ temp then 2 else if 760 ≤ temp then 1 else 0
  if x.step < k then { x with step := k, coolSince := none }
  else if x.step = 0 then x
  else match coolFrom x.coolSince (dieThreshold x.step) temp now with
    | none => { x with coolSince := none }
    | some c =>
      if c + 1000000000 ≤ now then
        { x with step := x.step - 1, coolSince := if x.step = 2 then coolFrom none (dieThreshold 1) temp now else none }
      else { x with coolSince := some c }

/-- The power cap acts on a die: one step below the present clock while it is exceeded, one step up after 10 ms below 95 %. DEDUCED (log entry 56). -/
def capDie (above up : Bool) (x : DieClock) : DieClock :=
  if above then { x with cap := min 3 (dieSteps x + 1) } else if up then { x with cap := x.cap - 1 } else x

/-- A die takes the clock that is demanded; a change counts, and one that the cap causes counts as that too. DEDUCED (log entry 56). -/
def setDie (i : Nat) (old new : DieClock) (s : State) : State :=
  let x := { new with mhz := clockMhz (dieSteps new) }
  let s1 := { s with power := { s.power with dies := modAt (fun _ => x) i s.power.dies } }
  let s2 := if x.mhz = old.mhz then s1 else bump Key.clockSteps s1
  if old.cap < new.cap ∧ x.mhz < old.mhz ∧ new.step < new.cap then bump Key.powerCapEvents s2 else s2

/-- One reading of a die and of the input power. -/
def readDie (above up : Bool) (s : State) (i : Nat) (temp : Int) : State :=
  match s.power.dies[i]? with
  | none => s
  | some old => setDie i old (capDie above up (readDieTemp s.now temp old)) s

/-- Since when the power lies below 95 % of the cap. DEDUCED (log entry 56). -/
def capCool (s : State) (w : Nat) : Option Nat := if 100 * w < 95 * settingNat s Key.powerCapW then some (s.power.capSince.getD s.now) else none

/-- The sensor pass of a working supervisor core. DEDUCED (log entry 56). -/
def controlPass (x : Sensors) (s : State) : State :=
  let s1 := ((List.range 12).zip x.hbm).foldl (fun u p => readStack u p.1 p.2) s
  let above := decide (settingNat s1 Key.powerCapW < x.inputW)
  let since := capCool s1 x.inputW
  let up := match since with | none => false | some c => decide (c + 10000000 ≤ s1.now)
  let s2 := { s1 with power := { s1.power with capSince := if up then some s1.now else since } }
  ((List.range 2).zip x.dies).foldl (fun u p => readDie above up u p.1 p.2) s2

/-- The first sensor at its trip temperature: a stack at 105 °C, a compute die at 110 °C, the hub die at 115 °C (R428). DEDUCED (log entry 58). -/
def tripSensor (x : Sensors) : Option (Nat × Int) :=
  (((List.range 12).zip x.hbm).find? fun p => 840 ≤ p.2).orElse fun _ =>
    ((([12, 13] : List Nat).zip x.dies).find? fun p => 880 ≤ p.2).orElse fun _ => if 920 ≤ x.hub then some (14, x.hub) else none

/-- The readings that the dictionary reports. -/
def takeReadings (x : Sensors) (s : State) : State :=
  { s with power := { s.power with hubTemp := x.hub, coolant := x.coolant, inputMv := x.inputMv, inputW := x.inputW } }

/-- SENSOR_READING (R424-R428): a trip acts without either control core; the steps wait for a restarting supervisor core (19 R438). -/
def execSensorReading (sensors : Sensors) (t : Nat) (s : State) : Res :=
  let s0 := tick t s
  if s0.power.state = .p4 then .next s0
  else match tripSensor sensors with
    | some (unit, reading) => .next (thermalTrip unit reading s0)
    | none =>
      if (s0.power.state = .p0 ∨ s0.power.state = .p2) ∧ supervisorDown s0 = false then .next (controlPass sensors (takeReadings sensors s0))
      else .next s0

/-! ## The control cores (19 R438) -/

/-- Restarts of a core within the last 60 s. DEDUCED (log entry 59). -/
def recentRestarts (s : State) (core : Nat) : Nat := (s.box.restarts.filter fun r => r.1 == core && decide (s.now < r.2 + 60000000000)).length

/-- The Tansy cores run. DEDUCED (log entries 59, 68). -/
def coresRun (s : State) : Bool := s.power.state == .p0 || s.power.state == .p2 || s.power.state == .recovery

/-- HEARTBEAT_TIMEOUT (19 R438): core 0 is the service core, core 1 the supervisor core. DEDUCED (log entry 59). -/
def execHeartbeatTimeout (core t : Nat) (s : State) : Res :=
  let s0 := tick t s
  if coresRun s0 = false then .next s0
  else
    let s1 := bump Key.controlCoreRestarts { s0 with box := { s0.box with restarts := s0.box.restarts ++ [(core, s0.now)] } }
    let n := recentRestarts s1 core
    let s2 := logEvent Ev.coreRestart Ev.error core (toLE 1 n) s1
    let s3 := if core = 0 then (s2.dap.sessions.map (·.id)).foldl (fun u i => closeSession i u) s2 else s2
    .next (if 3 ≤ n then beginReset 6 s3 else s3)

/-- BOTH_CORES_SILENT (19 R438). DEDUCED (log entry 59). -/
def execBothCoresSilent (t : Nat) (s : State) : Res :=
  let s0 := tick t s
  .next (if coresRun s0 then beginReset 6 s0 else s0)

/-! ## Signals and indicators (20 R458, R459) -/

/-- LOCATE is lit (R459). -/
def locateLit (s : State) : Bool := s.power.state != .p4 && settingNat s Key.locate != 0

/-- A cage's indicator (R459): 0 off, 1 green, 2 amber. A green one flashes with traffic. -/
def cageIndicator (s : State) (port : Nat) : Nat :=
  if cageMedium s port = 3 then 2 else if s.net.subs.any (fun x => x.port == port && x.up) then 1 else 0

/-- PPS_OUT gives a pulse each second of the time base (R458): in P0 to P2, while TIME_STATE is LOCKED or HOLDOVER. -/
def ppsOut (s : State) : Bool := netUp s && s.net.timeState != 0

/-- ALERT_N is low. -/
def alertLow (s : State) : Bool := s.power.degraded || s.power.state == .recovery || (s.power.state == .p4 && s.power.cause == 5)

/-- PWR_GOOD is high. -/
def pwrGood (s : State) : Bool := s.power.state != .p4

/-- The condition of the table of R459 that STATUS shows, by its order. -/
def statusIndicator (s : State) : Nat :=
  if s.power.state = .idFault then 1
  else if s.power.tripHold ∧ s.power.state = .p4 then 2
  else if s.power.state = .recovery then 3
  else if s.power.state = .p4 then 9
  else if s.power.degraded ∨ s.power.holdupWeak then 4
  else if s.box.diag = 2 then 5
  else if s.power.resetting.isSome then 6
  else if s.power.state = .p2 ∨ s.power.state = .p3 then 7
  else 8

end Sys2Proof.Machine
end

