-- ==== Sys2Proof/Machine/Sec.lean ====
section
/-! DEFINITION. Security: firmware images and their checks, bundle selection, measured boot, roles, attestation, and the factory reset
(17 R391-R417). -/

namespace Sys2Proof.Machine

/-! ## Images (R396-R400) -/

namespace Img

/-- VERSION. -/
def version (b : Bytes) : Nat := u32At b 44
/-- IMAGE_KIND. -/
def kind (b : Bytes) : Nat := u8At b 49
/-- KEY_EPOCH. -/
def epoch (b : Bytes) : Nat := u16At b 50
/-- SECURITY_VERSION. -/
def security (b : Bytes) : Nat := u16At b 52
/-- COMPAT_COUNT. -/
def compatCount (b : Bytes) : Nat := u16At b 54
/-- BODY_LENGTH. -/
def bodyLength (b : Bytes) : Nat := u32At b 56
/-- The body. -/
def body (b : Bytes) : Bytes := slice b (64 + 16 * compatCount b) (bodyLength b)
/-- The bytes that both signatures sign. -/
def signedPart (b : Bytes) : Bytes := b.take (b.length - 128)

/-- The length rules of R396; a rotation has no compatibility entry and a 72-byte body (R399). -/
def lengthOk (b : Bytes) : Bool :=
  u32At b 4 == b.length && b.length == 64 + 16 * compatCount b + bodyLength b + 128 && b.length ≤ 8388608 &&
    (if kind b == 5 then compatCount b == 0 && bodyLength b == 72 && u8At (body b) 0 ≤ 1 && u8At (body b) 1 ≤ 1 && leAt (body b) 2 6 == 0
     else 1 ≤ compatCount b && compatCount b ≤ 64)

/-- The bounds of an entry of a kind include a version (R397). -/
def hasEntry (b : Bytes) (k v : Nat) : Bool :=
  (List.range (compatCount b)).any fun i =>
    let o := 64 + 16 * i
    u8At b o == k && u32At b (o + 8) ≤ v && v ≤ u32At b (o + 12)

end Img

/-- The two vendor keys of an epoch. -/
def vendorKeys (s : State) (epoch : Nat) : Option VendorKeys := s.sec.vendor.find? (·.epoch == epoch)

/-- Both signatures of an image verify under the keys of its epoch (R399). -/
def imageSigned (s : State) (b : Bytes) : Bool :=
  match vendorKeys s (Img.epoch b) with
  | none => false
  | some k =>
    let d := sm3 (Img.signedPart b)
    Config.sm2Verify k.slot0 d (slice b (b.length - 128) 64) && Config.sm2Verify k.slot1 d (slice b (b.length - 64) 64)

/-- KEY_EPOCH is accepted: from ACCEPT_FROM to the current epoch, and the current one for a rotation (R399). -/
def epochAccepted (s : State) (b : Bytes) : Bool :=
  if Img.kind b = 5 then Img.epoch b == s.sec.epoch else s.sec.acceptFrom ≤ Img.epoch b && Img.epoch b ≤ s.sec.epoch

/-- verify_all of R401 for one image, as the REASON of R405; 0 passes. DEDUCED (log entry 53). -/
def imageReason (s : State) (k : Nat) (b : Bytes) : Nat :=
  if b.length < 64 ∨ u32At b 0 ≠ 0x57464C41 ∨ u32At b 60 ≠ crc32c (slice b 0 60) then 1
  else if Img.lengthOk b = false then 2
  else if Img.kind b ≠ k then 3
  else if epochAccepted s b = false then 4
  else if imageSigned s b = false then 5
  else if k ≤ 4 ∧ Img.security b < s.sec.minVersion.getD (k - 1) 0 then 6
  else 0

/-- The image in a slot. -/
def slotImage (s : State) (kind slot : Nat) : Bytes := ((s.sec.slots.find? fun x => x.kind == kind && x.slot == slot).map (·.image)).getD []

/-- Bit k − 1 of a slot word, as the slot. -/
def slotOf (w kind : Nat) : Nat := b2n (bit w (kind - 1))

/-- The images of a bundle, kinds 1 to 4. -/
def bundleImages (s : State) (slots : Nat) : List Bytes := [1, 2, 3, 4].map fun k => slotImage s k (slotOf slots k)

/-- Two images are a tested pair (R398). -/
def testedPair (x y : Bytes) : Bool := Img.hasEntry x (Img.kind y) (Img.version y) && Img.hasEntry y (Img.kind x) (Img.version x)

/-- An image is tested with the hardware, and its major version is 1 (R398). -/
def testedHardware (x : Bytes) : Bool := Img.hasEntry x 0 0x02B0 && Img.version x / 16777216 == 1

/-- The images of a bundle with their kinds. -/
def kindImages (s : State) (slots : Nat) : List (Nat × Bytes) := [1, 2, 3, 4].map fun k => (k, slotImage s k (slotOf slots k))

/-- The first failing image of a bundle: its kind and REASON (R401). DEDUCED (log entry 53). -/
def bundleBad (s : State) (slots : Nat) : Option (Nat × Nat) :=
  (kindImages s slots).findSome? fun p => if imageReason s p.1 p.2 = 0 then none else some (p.1, imageReason s p.1 p.2)

/-- The first untested image or pair of a bundle, as its two kinds; 0 where one image alone fails (R398). DEDUCED (log entry 53). -/
def bundleUntested (s : State) (slots : Nat) : Option (Nat × Nat) :=
  let image := fun k => slotImage s k (slotOf slots k)
  match [1, 2, 3, 4].find? fun k => !testedHardware (image k) with
  | some k => some (k, 0)
  | none => [(1, 2), (1, 3), (1, 4), (2, 3), (2, 4), (3, 4)].find? fun p => !testedPair (image p.1) (image p.2)

/-- A bundle passes verify_all and tested. -/
def bundleOk (s : State) (slots : Nat) : Bool := (bundleBad s slots).isNone && (bundleUntested s slots).isNone

/-- The candidate: last good, with each pending kind from its pending slot (R401). -/
def candidate (s : State) : Nat :=
  (List.range 4).foldl (fun w i =>
    let b := if bit s.sec.pendMask i then bit s.sec.pendSlots i else bit s.sec.lastGood i
    w + (if b then 1 <<< i else 0)) 0

/-- The record of a failed pending bundle names the image or pair, the versions and the reason (19 R443). -/
def fallbackDetail (s : State) (slots : Nat) : Bytes :=
  let image := fun k => slotImage s k (slotOf slots k)
  let v := fun k => if k = 0 then 0 else Img.version (image k)
  match bundleBad s slots, bundleUntested s slots with
  | some (k, r), _ => toLE 1 k ++ zeros 3 ++ toLE 4 (v k) ++ zeros 4 ++ toLE 1 r
  | none, some (a, b) => toLE 1 a ++ toLE 1 b ++ zeros 2 ++ toLE 4 (v a) ++ toLE 4 (v b) ++ zeros 1
  | none, none => zeros 13

/-- select_bundle of R401: the state after it, and the slots of the bundle chosen. DEDUCED (log entry 53). -/
def selectBundle (s : State) : State × Option Nat :=
  let lastGood := fun (u : State) (result : Nat) =>
    if bundleOk u u.sec.lastGood then ({ u with sec := { u.sec with bootResult := result } }, some u.sec.lastGood)
    else ({ u with sec := { u.sec with bootResult := 3 } }, none)
  if s.sec.pendMask = 0 then lastGood s 0
  else
    let cand := candidate s
    if s.sec.attempts < 3 ∧ bundleOk s cand then
      ({ s with sec := { s.sec with attempts := s.sec.attempts + 1, bootResult := 1 } }, some cand)
    else
      let s1 := bump Key.bootFallbacks (logEvent Ev.bootFallback Ev.warning 0 (fallbackDetail s cand) s)
      lastGood { s1 with sec := { s1.sec with pendMask := 0, pendSlots := 0, attempts := 0 } } 2

/-! ## Measurement (R403) -/

/-- extend(i, d). -/
def extend (i : Nat) (d : Bytes) (m : List Bytes) : List Bytes := modAt (fun r => sm3 (r ++ d)) i m

/-- The measurement registers after measured boot of a bundle. DEDUCED (log entry 53). -/
def measureBoot (s : State) (images : List Bytes) : List Bytes :=
  let start := List.replicate 8 (zeros 32)
  let m0 := extend 0 Config.romDigest.toList start
  let image := fun k => sm3 (images.getD (k - 1) [])
  let m1 := extend 4 (image 4) (extend 3 (image 3) (extend 2 (image 1) (extend 1 (image 2) m0)))
  let m2 := extend 5 ((s.sec.minVersion.map (toLE 2)).flatten) (extend 5 (toLE 2 s.sec.epoch ++ toLE 2 s.sec.acceptFrom) m1)
  (List.range s.sec.records).foldl (fun m i => extend 6 (Config.recordDigest i).toList m) (extend 6 Config.helperDigest.toList m2)

/-- Start-up has completed: a pending bundle becomes the last good one, and the minimum security versions rise (R400, R401). DEDUCED (log entry 53). -/
def bundleGood (slots : Nat) (s : State) : State :=
  let mins := [1, 2, 3, 4].map fun k => max (s.sec.minVersion.getD (k - 1) 0) (Img.security (slotImage s k (slotOf slots k)))
  { s with sec := { s.sec with
      lastGood := slots
      pendMask := 0
      pendSlots := 0
      attempts := 0
      minVersion := mins
      records := if mins = s.sec.minVersion then s.sec.records else s.sec.records + 1
      running := [1, 2, 3, 4].map fun k => Img.version (slotImage s k (slotOf slots k)) } }

/-! ## Loading images (R404, R405) -/

/-- The slot of a kind that is not last good. -/
def spareSlot (s : State) (kind : Nat) : Nat := 1 - slotOf s.sec.lastGood kind

/-- A slot's image set. -/
def setSlot (kind slot : Nat) (image : Bytes) (s : State) : State :=
  { s with sec := { s.sec with slots := mapIf (fun x => x.kind == kind && x.slot == slot) (fun x => { x with image := image }) s.sec.slots } }

/-- Bit `i` of a word set or cleared. -/
def putBit (w i : Nat) (v : Bool) : Nat := if bit w i = v then w else if v then w + 1 <<< i else w - 1 <<< i

/-- The pending bit of a kind set for a slot, or cleared. -/
def setPending (kind : Nat) (slot : Option Nat) (s : State) : State :=
  { s with sec := { s.sec with
      pendMask := putBit s.sec.pendMask (kind - 1) slot.isSome
      pendSlots := putBit s.sec.pendSlots (kind - 1) (slot == some 1) } }

/-- BEGIN: the slot that is not last good is erased and the load opens. DEDUCED (log entry 53). -/
def imageBegin (session kind : Nat) (s : State) : State :=
  let s1 := if kind = 5 then s else setPending kind none (setSlot kind (spareSlot s kind) [] s)
  { s1 with sec := { s1.sec with load := some { session := session, kind := kind, received := [] }, loadState := 1, loadReason := 0, loadBytes := 0 } }

/-- The image is refused (R405). -/
def imageRefuse (kind reason version : Nat) (s : State) : State :=
  let s1 := { s with sec := { s.sec with load := none, loadState := 3, loadReason := reason } }
  logEvent Ev.imageRefused Ev.warning kind (toLE 1 reason ++ zeros 3 ++ toLE 4 version) (bump Key.imagesRejected s1)

/-- IMAGE_BLOCK: image bytes at the expected offset; another offset refuses the image. DEDUCED (log entry 53). -/
def imageBlock (value : Bytes) (s : State) : State :=
  match s.sec.load with
  | none => s
  | some l =>
    if u32At value 0 ≠ l.received.length then imageRefuse l.kind 7 (Img.version l.received) s
    else
      let got := l.received ++ value.drop 8
      { s with sec := { s.sec with load := some { l with received := got }, loadBytes := got.length } }

/-- A rotation is applied (R399). -/
def rotateKey (b : Bytes) (s : State) : State :=
  let body := Img.body b
  let slot := u8At body 0
  let revoke := u8At body 1
  let key := slice body 8 64
  let next := s.sec.epoch + 1
  let old := (vendorKeys s s.sec.epoch).getD { epoch := 0, slot0 := [], slot1 := [] }
  let keys : VendorKeys := { epoch := next, slot0 := if slot = 0 then key else old.slot0, slot1 := if slot = 1 then key else old.slot1 }
  let s1 := { s with sec := { s.sec with
      vendor := s.sec.vendor ++ [keys]
      epoch := next
      acceptFrom := if revoke = 1 then next else s.sec.acceptFrom
      records := s.sec.records + 1 } }
  logEvent Ev.keyRotated Ev.info 0 (toLE 2 next ++ toLE 1 slot ++ toLE 1 revoke) s1

/-- FINISH: the loaded image is verified; it stays in its slot and becomes pending, or a rotation is applied; register 7 is extended. DEDUCED (log entry 53). -/
def imageFinish (s : State) : State :=
  match s.sec.load with
  | none => s
  | some l =>
    let reason := imageReason s l.kind l.received
    if reason ≠ 0 then imageRefuse l.kind reason (Img.version l.received) s
    else
      let s1 := if l.kind = 5 then rotateKey l.received s
        else setPending l.kind (some (spareSlot s l.kind)) (setSlot l.kind (spareSlot s l.kind) l.received s)
      { s1 with sec := { s1.sec with load := none, loadState := 2, loadReason := 0, measure := extend 7 (sm3 l.received) s1.sec.measure } }

/-- ABANDON: the load closes and the erased slot stays empty. DEDUCED (log entry 53). -/
def imageAbandon (s : State) : State := { s with sec := { s.sec with load := none, loadState := 0, loadReason := 0, loadBytes := 0 } }

/-! ## Roles (R408-R412) -/

/-- Collections and heads that a role owns. -/
def ownedCount (s : State) (role : Nat) : Nat := (s.search.colls.filter (·.owner == role)).length + (s.mem.heads.filter (·.owner == role)).length

/-- A role record (R412). -/
def roleBytes (s : State) (r : Role) : Bytes := sm3 r.key ++ toLE 2 r.id ++ toLE 1 r.ahp ++ toLE 1 r.dap ++ toLE 4 (ownedCount s r.id) ++ zeros 8

/-- ROLE_TABLE (R412, R417). -/
def roleTable (s : State) : Bytes := (s.sec.roles.map (roleBytes s)).flatten

/-- The lowest free ROLE_ID. -/
def freeRole (s : State) : Option Nat := ((List.range 1023).map (· + 1)).find? fun i => !(s.sec.roles.any (·.id == i))

/-- The table after a change leaves no role of DAP level 3. -/
def noAdministrator (roles : List Role) : Bool := !(roles.any (·.dap == 3))

namespace Rr

/-- ROLE_ID. -/
def role (b : Bytes) : Nat := u16At b 54
/-- ACTION. -/
def action (b : Bytes) : Nat := u8At b 53
/-- AHP_KIND. -/
def ahp (b : Bytes) : Nat := u8At b 52
/-- DAP_LEVEL. -/
def dap (b : Bytes) : Nat := u8At b 51
/-- DELETE_OWNED. -/
def deleteOwned (b : Bytes) : Bool := bit (u8At b 48) 0
/-- The public key of a CREATE. -/
def key (b : Bytes) : Bytes := slice b 64 64

end Rr

/-- The roles after a request. DEDUCED (log entry 52). -/
def rolesAfter (s : State) (b : Bytes) : List Role :=
  let others := s.sec.roles.filter (·.id ≠ Rr.role b)
  match Rr.action b with
  | 1 => match freeRole s with
    | none => s.sec.roles
    | some i => insertBy (fun x y => x.id ≤ y.id) { id := i, key := Rr.key b, ahp := Rr.ahp b, dap := Rr.dap b } s.sec.roles
  | 2 => others
  | 3 => mapIf (fun r => r.id == Rr.role b) (fun r => { r with ahp := Rr.ahp b, dap := Rr.dap b }) s.sec.roles
  | _ => s.sec.roles

/-- What R410 refuses at ROLE_ID; `host` marks a HOST_ADMIN's request. DEDUCED (log entry 52). -/
def roleRefused (s : State) (host : Bool) (b : Bytes) : Bool :=
  let named := (s.sec.roles.find? (·.id == Rr.role b))
  let changes := Rr.action b == 1 || Rr.action b == 2 || Rr.action b == 3
  (changes && noAdministrator (rolesAfter s b)) ||
    (host && changes && (Rr.dap b != 0 || named.any (·.dap ≠ 0))) ||
    (Rr.action b == 2 && ownedCount s (Rr.role b) != 0 && !Rr.deleteOwned b)

/-- Where a role request fails (R411), after its MAGIC and lengths. DEDUCED (log entry 52). -/
def roleFieldFail (s : State) (host : Bool) (b : Bytes) : Option Nat :=
  let a := Rr.action b
  firstFail [
    require (u32At b 4 == 64 || u32At b 4 == 128) 4,
    reserved b 8 40,
    require (bits (leAt b 48 3) 23 1 == 0) 48,
    require (Rr.dap b ≤ 3) 51,
    require (Rr.ahp b ≤ 2) 52,
    require (1 ≤ a && a ≤ 4 && (u32At b 4 == 128) == (a == 1) && (a == 1 || a == 3 || (Rr.dap b == 0 && Rr.ahp b == 0)) &&
      (a == 2 || !Rr.deleteOwned b)) 53,
    require (match a with
      | 1 => Rr.role b == 0
      | 4 => true
      | _ => s.sec.roles.any (·.id == Rr.role b)) 54,
    require (!roleRefused s host b) 54,
    reserved b 56 4,
    require (!(a == 1 && s.sec.roles.any (fun r => r.key == Rr.key b))) 64]

/-- The check of a role request: STATUS and offset where it fails (R411, R412). DEDUCED (log entry 52). -/
def roleRequestFail (s : State) (host : Bool) (b : Bytes) : Option (Nat × Nat) :=
  if u32At b 0 ≠ 0x4D524C41 then some (Status.invalidField, 0)
  else if u32At b 4 ≠ b.length then some (Status.lengthMismatch, 0)
  else if u32At b 60 ≠ crc32c (slice b 0 60) then some (Status.invalidField, 60)
  else match roleFieldFail s host b with
    | some o => some (Status.invalidField, o)
    | none => if Rr.action b = 1 ∧ freeRole s = none then some (Status.capacityExceeded, 0) else none

/-- The owned collections and heads of a role are deleted first, under R105 and R362. DEDUCED (log entry 52). -/
def deleteOwned (role : Nat) (s : State) : State :=
  let s1 := ((s.search.colls.filter fun c => c.owner == role && !c.deleting).map (·.id)).foldl (fun u i => beginDeleteColl i none u) s
  ((s1.mem.heads.filter fun h => h.owner == role && !h.deleting).map (·.id)).foldl (fun u i => beginDeleteHead i none u) s1

/-- A checked role request takes effect. DEDUCED (log entry 52). -/
def applyRole (b : Bytes) (s : State) : State :=
  let s1 := if Rr.action b = 2 then deleteOwned (Rr.role b) s else s
  { s1 with sec := { s1.sec with roles := rolesAfter s b } }

/-- The reply (R412). -/
def roleReply (s t : State) (b : Bytes) (out : Nat) : Bytes :=
  let list := Rr.action b == 4
  let records := if list then ((s.sec.roles.filter fun r => Rr.role b ≤ r.id).take ((out - 64) / 48)).map (roleBytes s) else []
  let id := if list then 0 else if Rr.action b = 1 then (freeRole s).getD 0 else Rr.role b
  withCrc (toLE 4 0x59524C41 ++ toLE 4 (64 + 48 * records.length) ++ zeros 44 ++ toLE 2 t.sec.roles.length ++ toLE 2 id ++ toLE 4 records.length) ++
    records.flatten

/-- ROLE_MANAGE (R410). DEDUCED (log entry 52). -/
def execRoleManage (seq : Nat) (input : Bytes) (s : State) : Res :=
  match admittedCmd s seq 0x06 with
  | none => .next s
  | some c =>
    if wrongTransfer c input then .next (fail seq Status.lengthMismatch s)
    else match roleRequestFail s true input with
    | some (st, off) => .next (if st = Status.invalidField then failPayload seq off s else fail seq st s)
    | none =>
      let t := applyRole input s
      .next (succeed seq 0 (roleReply s t input c.entry.outLen) t)

/-! ## The configuration digest (16 R385) and attestation (R413, R414) -/

/-- A stored entry's value: the role table for ROLE_TABLE. -/
def storedValue (s : State) (d : DictEntry) : Bytes := if d.key = Key.roleTable then roleTable s else setting s d.key

/-- COMMITTED_CONFIG_DIGEST (16 R385). -/
def configDigest (s : State) : Bytes :=
  sm3 (((Dict.table.filter fun d => d.access == .rw || d.access == .rws || d.access == .adm).map fun d =>
    let v := storedValue s d
    toLE 2 (d.key / 256) ++ toLE 1 d.key ++ toLE 1 d.type ++ toLE 4 v.length ++ v).flatten)

/-- KEY_TAG (R406): of the owner's key, or of the source head's for a tied head. DESIGN CHOICE (log entry 54). -/
def keyTag (s : State) (kind id : Nat) : Nat :=
  let owner := if kind = 2 then ((findHead s id).map fun h => Hd.source h.desc).getD id else id
  match s.sec.keys.find? fun k => k.kind == kind && k.id == owner with
  | none => 0
  | some k => sm3Low64 k.wrapped

/-- A manifest (R414). -/
def manifest (s : State) (kind id role epoch digest : Nat) : Bytes :=
  toLE 8 (keyTag s kind id) ++ toLE 2 role ++ [0] ++ toLE 1 kind ++ toLE 4 id ++ toLE 8 epoch ++ toLE 8 digest ++ chainOf s kind id

/-- The manifest of a collection. -/
def collManifest (s : State) (c : Coll) : Bytes := manifest s 1 c.id c.owner c.epoch (sm3Low64 c.schema)

/-- TRAINED_STEP of a head; a tied head reports that of the head whose table it reads (11 R252). -/
def trainedStep (s : State) (h : Head) : Nat := (((findHead s (Hd.source h.desc)).bind (·.trained))).getD fillId

/-- The manifest of a head. -/
def headManifest (s : State) (h : Head) : Bytes := manifest s 2 h.id h.owner (trainedStep s h) (sm3Low64 h.desc)

/-- Every manifest of a role: collections first, in ascending ID. -/
def roleManifests (s : State) (role : Nat) : List Bytes :=
  (sortOn (·.id) (s.search.colls.filter fun c => c.owner == role && !c.deleting)).map (collManifest s) ++
    (sortOn (·.id) (s.mem.heads.filter fun h => h.owner == role && !h.deleting)).map (headManifest s)

/-- The manifests that an entry selects. DESIGN CHOICE (log entry 54). -/
def entryManifests (s : State) (c : Cmd) : List Bytes :=
  if c.entry.target = 0xFFFFFFFF then (if adminOf s c then [] else roleManifests s (roleOf s c))
  else if bit c.entry.arg2 0 then ((findHead s c.entry.target).map (headManifest s)).toList
  else ((findColl s c.entry.target).map (collManifest s)).toList

/-- The report without its signature (R413). DESIGN CHOICE (log entry 54). -/
def reportBody (s : State) (c : Cmd) : Bytes :=
  let all := entryManifests s c
  let some56 := all.take 56
  toLE 4 0x54414C41 ++ zeros 4 ++ toLE 4 (448 + 64 * some56.length + 64) ++ toLE 4 c.entry.target ++ toLE 8 c.entry.arg0 ++ toLE 8 s.now ++
    toLE 8 s.dap.sequence ++ toLE 8 s.sec.bootCount ++ ((List.range 4).map fun k => toLE 4 (s.sec.running.getD k 0)).flatten ++
    toLE 2 (moduleIndex s) ++ toLE 1 (b2n s.power.degraded) ++ toLE 1 (installMode s) ++ toLE 2 some56.length ++ toLE 2 s.sec.epoch ++
    toLE 16 (b2n (56 < all.length)) ++ toLE 8 s.box.head ++ headDigest s.box ++ configDigest s ++ sm3 Config.identityKey.toList ++
    s.sec.measure.flatten ++ some56.flatten

/-- ATTEST (R413). -/
def execAttest (seq : Nat) (s : State) : Res :=
  match admittedCmd s seq 0x05 with
  | none => .next s
  | some c =>
    let report := reportBody s c ++ signBytes s (reportBody s c)
    .next (succeed seq report.length report (bump Key.attestations (signed s)))

/-! ## Factory reset (R416) -/

/-- Every owner's key is destroyed and every user page released; roles, settings and objects go (R416). -/
def factoryErase (s : State) : State :=
  let s1 := s.search.colls.foldl (fun u c => removeObject 1 c.id u) s
  let s2 := s1.mem.heads.foldl (fun u h => removeObject 2 h.id u) s1
  { s2 with settings := [], sec := { s2.sec with roles := [] } }

end Sys2Proof.Machine
end

