-- ==== Sys2Proof/Machine/Values.lean ====
section
/-! DEFINITION. What every entry of the dictionary reads as, and the range of every value (16 R366-R368, R377, R382, R385, and the entry
tables of the other chapters). -/

namespace Sys2Proof.Machine

/-! ## Reports (RO entries that are not counters) -/

/-- A channel list as 48 bytes, one bit per channel. -/
def channelBits (l : List Nat) : Bytes := (List.range 48).map fun i => BitVec.ofNat 8 (sumOf ((List.range 8).map fun j => if l.contains (8 * i + j) then 2 ^ j else 0))

/-- COLD_USED_GB (13 R296): the written logical pages, in whole GB. DEDUCED (log entry 27). -/
def coldUsedGb (s : State) : Nat := coldPages s * 4096 / 1000000000

/-- COLD_LIFE_USED_PCT (13 R303): programs of the life's 179 PB, in whole percent (notes/assumptions/27.md). DEDUCED (log entry 27). -/
def coldLifePct (s : State) : Nat := min 255 (s.cold.programs * 100 / 179000000000000000)

/-- A temperature as its 16 bits (18 R435). -/
def temp16 (t : Int) : Bytes := toLE 2 (unsignedOf 16 t)

/-- One record of IMAGE_SLOT_TABLE (17 R417); an erased slot has no version. -/
def slotRecord (s : State) (x : ImageSlot) : Bytes :=
  let ok := imageReason s x.kind x.image == 0
  toLE 1 x.kind ++ toLE 1 x.slot ++ toLE 1 (b2n ok) ++ zeros 1 ++ toLE 4 (Img.version x.image) ++ toLE 2 (Img.security x.image) ++
    toLE 2 (Img.epoch x.image) ++ zeros 4

/-- State code of an owned group (16 R389). -/
def StagePhase.code : StagePhase → Nat
  | .empty => 0
  | .staged => 0
  | .checked => 1
  | .applying => 2

/-- STAGING_STATE (16 R389): one record per owned group. -/
def stagingState (s : State) : Bytes :=
  (s.dap.sessions.map fun x => (x.groups.map fun g => toLE 2 g ++ toLE 1 x.phase.code ++ zeros 1 ++ toLE 4 x.id).flatten).flatten

/-- The commit groups (16 R382). -/
def commitGroups : List Nat := [1, 2, 3, 4, 5, 16]

/-- Entries of a commit group, ascending. -/
def groupEntries (g : Nat) : List DictEntry := Dict.table.filter (·.group == g)

/-- COMMIT_GROUP_TABLE (16 R389). -/
def groupTable : Bytes :=
  (commitGroups.map fun g => toLE 2 g ++ toLE 2 (groupEntries g).length ++
    ((groupEntries g).map fun d => toLE 2 (d.key / 256) ++ toLE 1 d.key ++ zeros 1).flatten).flatten

/-- Serial number (00 R2). -/
def serialBytes : Bytes := Config.serial.toList.map fun c => BitVec.ofNat 8 (if c.val < 10 then 0x30 + c.val else 0x41 + c.val - 10)

/-- Identity, versions and communication. DEDUCED (log entry 50). -/
def reportComm (s : State) (k : Nat) : Option Bytes :=
  if k = Key.partNumber then some (ascii "ALC-7212")
  else if k = Key.packageStepping then some (ascii "B0")
  else if k = Key.serialNumber then some serialBytes
  else if k = Key.firmwareBundleVersion then some (toLE 4 (s.sec.running.getD 0 0))
  else if k = Key.installationModuleCount then some (toLE 2 (moduleCount s))
  else if k = Key.installationMode then some (toLE 1 (installMode s))
  else if k = Key.moduleIndex then some (toLE 2 (moduleIndex s))
  else if k = Key.timeState then some (toLE 1 s.net.timeState)
  else if k = Key.ptpOffsetNs then some (toLE 4 (unsignedOf 32 (max (-2147483648) (min 2147483647 s.net.offset))))
  else if k = Key.connectionTable then some (connectionTable s)
  else if k = Key.enclosureSlot then some (toLE 1 s.power.slotId)
  else if Key.cageMedium ≤ k ∧ k < Key.cageMedium + 4 then some (toLE 1 (cageMedium s (k - Key.cageMedium)))
  else none

/-- HBM, the shared store, the cold tier and the generators. -/
def reportMem (s : State) (k : Nat) : Option Bytes :=
  if k = Key.hbmCapacityKib then some (toLE 4 (hbmCapacityKib s))
  else if k = Key.hbmChannelsInService then some (toLE 2 (channelsInService s).length)
  else if k = Key.hbmChannelMap then some (channelBits (channelsInService s))
  else if k = Key.hbmMapoutPending then some (channelBits s.hbm.marked)
  else if k = Key.hbmRetiredPages then some (toLE 4 (retiredPages s))
  else if k = Key.hbmRetiredBanks then some (toLE 2 (retiredBanks s))
  else if k = Key.hbmPendingRetirement then some (toLE 4 s.hbm.stuck.length)
  else if k = Key.cacheBanks then some (toLE 1 (39 - settingNat s Key.treePinBanks - settingNat s Key.scratchBankCount))
  else if k = Key.coldUsedGb then some (toLE 4 (coldUsedGb s))
  else if k = Key.coldLifeUsedPct then some (toLE 1 (coldLifePct s))
  else if k = Key.coldSpareLeftPct then some (toLE 1 s.cold.sparePct)
  else if k = Key.coldBytesWrittenGb then some (toLE 8 (s.cold.written / 1000000000))
  else if k = Key.lastFailedModule then some (toLE 2 s.mem.lastFailed)
  else if k = Key.tgStatus then some (toLE 4 (s.hbm.tg.state <<< 30 + s.hbm.tg.failed <<< 8))
  else if k = Key.tgErrorCount then some (toLE 8 s.hbm.tg.errors)
  else if k = Key.tgPinErrors then some ((s.hbm.tg.pins.map (toLE 4)).flatten)
  else if k = Key.ftgStatus then some (toLE 4 (s.cold.ftg.state <<< 30 + s.cold.ftg.failed))
  else if k = Key.ftgErrorCount then some (toLE 8 s.cold.ftg.errors)
  else none

/-- Security. -/
def reportSec (s : State) (k : Nat) : Option Bytes :=
  if k = Key.identityPublicKey then some Config.identityKey.toList
  else if k = Key.identityCertificate then some Config.identityCertificate
  else if k = Key.identityKeyDigest then some (sm3 Config.identityKey.toList)
  else if k = Key.measurements then some s.sec.measure.flatten
  else if k = Key.bootCount then some (toLE 8 s.sec.bootCount)
  else if k = Key.claimState then some (toLE 1 (b2n (!s.sec.roles.isEmpty)))
  else if k = Key.roleCount then some (toLE 2 s.sec.roles.length)
  else if k = Key.imageSlotTable then some ((s.sec.slots.map (slotRecord s)).flatten)
  else if k = Key.lastGoodSlots then some (toLE 1 s.sec.lastGood)
  else if k = Key.pendingSlots then some (toLE 1 (s.sec.pendMask <<< 4 + s.sec.pendSlots))
  else if k = Key.bootResult then some (toLE 1 s.sec.bootResult)
  else if k = Key.vendorKeyEpoch then some (toLE 2 s.sec.epoch)
  else if k = Key.acceptFromEpoch then some (toLE 2 s.sec.acceptFrom)
  else if k = Key.imageLoadStatus then some (toLE 4 (s.sec.loadState <<< 30 + s.sec.loadReason <<< 24 + s.sec.loadBytes))
  else none

/-- Power and temperatures. -/
def reportPower (s : State) (k : Nat) : Option Bytes :=
  if k = Key.powerState then some (toLE 1 (powerCode s))
  else if k = Key.inputVoltageMv then some (toLE 4 s.power.inputMv)
  else if k = Key.inputPowerW then some (toLE 2 s.power.inputW)
  else if k = Key.clusterClockMhzDie0 then some (toLE 2 (((s.power.dies[0]?).map (·.mhz)).getD 0))
  else if k = Key.clusterClockMhzDie1 then some (toLE 2 (((s.power.dies[1]?).map (·.mhz)).getD 0))
  else if k = Key.hbmTemperatures then some ((s.power.hbmStacks.map fun x => temp16 x.temp).flatten)
  else if k = Key.dieTemperatures then some ((s.power.dies.map fun x => temp16 x.temp).flatten ++ temp16 s.power.hubTemp)
  else if k = Key.hbmThrottleState then some ((s.power.hbmStacks.map fun x => toLE 1 x.state).flatten)
  else if k = Key.coolantInletTemperature then some (toLE 4 (unsignedOf 32 s.power.coolant))
  else if k = Key.holdupEnergyMj then some (toLE 2 s.power.holdupMj)
  else if k = Key.holdupWeak then some (toLE 1 (b2n s.power.holdupWeak))
  else if k = Key.lastResetCause then some (toLE 1 s.power.cause)
  else if k = Key.startUpTimeMs then some (toLE 4 s.power.startMs)
  else if k = Key.moduleDegraded then some (toLE 1 (b2n s.power.degraded))
  else none

/-- The black box, diagnostics and commit. -/
def reportDiag (s : State) (k : Nat) : Option Bytes :=
  if k = Key.blackboxHeadSequence then some (toLE 8 s.box.head)
  else if k = Key.blackboxOldestSequence then some (toLE 8 (oldestSequence s.box))
  else if k = Key.blackboxHeadDigest then some (headDigest s.box)
  else if k = Key.blackboxState then some (toLE 1 (b2n s.box.fault))
  else if k = Key.errorClassCounts then some ((s.box.classes.map (toLE 8)).flatten)
  else if k = Key.diagnosticState then some (toLE 1 s.box.diag)
  else if k = Key.commitSequence then some (toLE 8 s.dap.sequence)
  else if k = Key.committedConfigDigest then some (configDigest s)
  else if k = Key.lastApplyTime then some (toLE 8 s.dap.lastTime)
  else if k = Key.lastApplyResult then some (toLE 1 s.dap.lastResult)
  else if k = Key.stagingState then some (stagingState s)
  else if k = Key.commitGroupTable then some groupTable
  else none

/-- A report of the module. -/
def report (s : State) (k : Nat) : Option Bytes :=
  ((((reportComm s k).orElse fun _ => reportMem s k).orElse fun _ => reportSec s k).orElse fun _ => reportPower s k).orElse fun _ => reportDiag s k

/-- What an entry reads as: a stored value, a report, a fixed value, or a counter. BLACKBOX_WINDOW depends on the session that reads
it. -/
def entryValue (s : State) (d : DictEntry) : Bytes :=
  match d.access with
  | .rw | .rws | .adm => storedValue s d
  | .ro | .wo => (report s d.key).getD (if d.lo = d.hi then toLE (typeSize d.type) d.dflt else toLE (typeSize d.type) (counter s d.key))

/-! ## Ranges (16 R367, R368) -/

/-- Entries that hold exactly 16 bytes: the addresses of sub-ports and of the management port (14 R341, 16 R389). -/
def addressKey (k : Nat) : Bool := (Key.portAddress ≤ k && k < Key.portAddress + 12) || k == Key.mgmtAddress || k == Key.mgmtGateway

/-- Rules of TG_CONTROL (12 R290), apart from its START. -/
def tgControlOk (v : Nat) : Bool :=
  v / 2 ^ 25 % 64 == 0 && v / 512 % 32 == 0 && 1 ≤ v / 65536 % 256 && v / 65536 % 256 ≤ 5 && v / 16384 % 4 != 3 && (v % 512 < 384 || v % 512 == 0x1FF)

/-- Rules of FTG_CONTROL (13 R314), apart from its START. -/
def ftgControlOk (v : Nat) : Bool :=
  v / 2 ^ 26 % 32 == 0 && v / 64 % 1024 == 0 && 1 ≤ v / 65536 % 256 && v / 65536 % 256 ≤ 5 && v / 2 ^ 24 % 4 != 3 && (v % 64 < 32 || v % 64 == 0x3F)

/-- A value lies in its entry's own range. -/
def inRange (d : DictEntry) (v : Bytes) : Bool :=
  if d.type = 9 then v.length ≤ d.hi && v.all fun c => 0x20 ≤ c.toNat && c.toNat ≤ 0x7E
  else if d.type = 10 then v.length ≤ d.hi && (!addressKey d.key || v.length == 16) && (d.key != Key.imageBlock || 8 ≤ v.length)
  else if d.type = 5 then decide (signedOf 32 d.lo ≤ signedOf 32 (leNat v) ∧ signedOf 32 (leNat v) ≤ signedOf 32 d.hi)
  else if d.type = 6 then bits (leNat v) 30 23 != 0xFF
  else
    let n := leNat v
    d.lo ≤ n && n ≤ d.hi &&
      (if d.key = Key.autoMergeAppend ∨ d.key = Key.autoMergeTombstones then n == 0 || 1024 ≤ n
       else if d.key = Key.tgControl then tgControlOk n
       else if d.key = Key.ftgControl then ftgControlOk n
       else true)

/-- A DESCRIBE descriptor (16 R377). DEDUCED (log entry 43). -/
def descriptorOf (d : DictEntry) : Bytes :=
  let access := match d.access with | .ro => 1 | .rw => 2 | .rws => 3 | .wo => 4 | .adm => 5
  zeros 15 ++ toLE 1 d.type ++ toLE 1 access ++ toLE 1 d.role ++ toLE 2 d.group ++ toLE 4 d.len ++ toLE 8 d.dflt ++ toLE 8 d.lo ++ toLE 8 d.hi

end Sys2Proof.Machine
end

