-- ==== Sys2Proof/Machine/Commit.lean ====
section
/-! DEFINITION. Staged sets: the check of a commit, and what an apply does (16 R378-R383; 02 R40, 09 R186 R192 R203, 12 R269, 14 R319, 16
R388, 18 R434). -/

namespace Sys2Proof.Machine

/-- The session with this number. -/
def findSession (s : State) (id : Nat) : Option Session := s.dap.sessions.find? (·.id == id)

/-- One session changed by `f`. -/
def updSession (id : Nat) (f : Session → Session) (s : State) : State :=
  { s with dap := { s.dap with sessions := mapIf (fun x => x.id == id) f s.dap.sessions } }

/-! ## COMMIT_CHECK (R380) -/

/-- The staged value of an entry. -/
def stagedOf (x : Session) (k : Nat) : Option Staged := x.staged.find? (·.key == k)

/-- The value that a check uses: the staged one, or the live one (R378). -/
def checkedValue (s : State) (x : Session) (k : Nat) : Bytes := ((stagedOf x k).map (·.value)).getD (setting s k)

/-- That value as a number. -/
def checkedNat (s : State) (x : Session) (k : Nat) : Nat := leNat (checkedValue s x k)

/-- An IPv6 address as a number, its first byte the highest. -/
def addressNat (b : Bytes) : Nat := b.foldl (fun n c => n * 256 + c.toNat) 0

/-- The rule that is checked at an entry (09 R186, 12 R269, 16 R388, 18 R434): the offset in its value at which it fails. DEDUCED (log entry 44). -/
def ruleFail (s : State) (x : Session) (k : Nat) : Option Nat :=
  let n := checkedNat s x
  if k = Key.installationDescriptor then
    descriptorFail (checkedValue s x k) identityDigest (if (liveDesc s).isEmpty then none else some (descSequence (liveDesc s)))
  else if k = Key.treePinBanks then require (1 + n Key.treePinBanks + n Key.scratchBankCount ≤ 38) 0
  else if k = Key.mgmtAddress then require (n Key.mgmtAddressMode != 0 || n Key.mgmtAddress != 0) 0
  else if k = Key.mgmtGateway then
    let shift := 128 - n Key.mgmtPrefixLength
    let gateway := addressNat (checkedValue s x Key.mgmtGateway)
    require (n Key.mgmtAddressMode != 0 || gateway == 0 || gateway >>> shift == addressNat (checkedValue s x Key.mgmtAddress) >>> shift) 0
  else if k = Key.hbmThrottle2C then require (n Key.hbmThrottle1C + 3 ≤ n Key.hbmThrottle2C) 0
  else if k = Key.hbmCriticalC then require (n Key.hbmThrottle2C + 3 ≤ n Key.hbmCriticalC) 0
  else none

/-- The check of one entry: an unclosed value, its range, then the rule that is checked there. -/
def storedFail (s : State) (x : Session) (d : DictEntry) : Option Nat :=
  if (stagedOf x d.key).any (fun v => !v.closed) then some 0
  else if inRange d (checkedValue s x d.key) = false ∧ d.key ≠ Key.installationDescriptor then some 0
  else ruleFail s x d.key

/-- Entries of the groups that a session owns, ascending. -/
def ownedEntries (x : Session) : List DictEntry := Dict.table.filter fun d => x.groups.contains d.group

/-- The first failure of a session's check: the entry, and the offset in its value. DEDUCED (log entry 44). -/
def commitFail (s : State) (x : Session) : Option (DictEntry × Nat) :=
  (ownedEntries x).findSome? fun d => (storedFail s x d).map fun o => (d, o)

/-! ## The work after the switch (R381 step 5) -/

/-- Check 12 again for every plan that is bound (02 R40), against the HBM that all else leaves. DEDUCED (log entry 20). -/
def recheckPlans (s : State) : State :=
  let left := fun p : Plan => 1024 * hbmCapacityKib s - (heldHbm s - planHbm p)
  let still := fun p : Plan => (checkBinding s p.kind p.target p.bytes (left p / 1048576)).isNone
  { s with ahp := { s.ahp with plans := mapIf (fun p => p.bound && !still p) (fun p => { p with bound := false }) s.ahp.plans } }

/-- The owner of a bucket under a map. -/
def bucketOwner (m : ShardMap) (b : Nat) : Nat := m.owners.getD (m.buckets.getD b 0) 0xFFFF

/-- The move that runs goes on where its bucket still goes to the same module; another one ends, and its bucket starts again. -/
def keepMove (m : ShardMap) (x : Shard) : Option Move :=
  (x.move.filter fun v => bucketOwner m v.bucket == v.target).map fun v => { v with targetShard := m.buckets.getD v.bucket 0 }

/-- The buckets of a collection under a new map (09 R203): a bucket stays with its live owner until its move, and this module moves those
that it holds. -/
def remapShard (self : Nat) (c : Coll) (old new : ShardMap) (x : Shard) : Shard :=
  let away := (List.range 4096).filter fun b => liveOwnerOf c old b != bucketOwner new b
  let move := keepMove new x
  let moving := (move.map (·.bucket)).toList
  { x with
    move := move
    liveOwner := away.map fun b => (b, liveOwnerOf c old b)
    toMove := away.filter fun b => liveOwnerOf c old b == self && !moving.contains b }

/-- The highest epoch that a new keeper finds granted on any owner (09 R192): its own highest, or a higher one that another owner reports
(notes/assumptions/8.md). DESIGN CHOICE (log entry 8); DEDUCED (log entry 29). -/
def keeperStart (s : State) (c : Coll) : Nat := max c.epoch (freeOf s % (1 <<< 64))

/-- A grant that a keeper gives up is void: its owner is told. -/
def voidGrant (coll : Nat) (s : State) (g : Grant) : State :=
  if g.owner = moduleIndex s then voidTag coll g.tag s else sendSpp g.owner Spp.epochGrant (grantPayload coll 1 g.tag 0) s

/-- A collection gets a new keeper (09 R192): every grant of the old one that was not stamped is void and counted, and the new one starts above
the highest epoch granted. Units that wait for an epoch ask the new keeper. DEDUCED (log entry 29). -/
def newKeeper (c : Coll) (old new : ShardMap) (x : Shard) (s : State) : State :=
  if old.keeper = new.keeper then s
  else
    let void := if old.keeper = moduleIndex s then x.grants.filter (·.state == .granted) else []
    let s1 := void.foldl (voidGrant c.id) (bumpBy Key.epochsVoided void.length (updShard c.id (fun y => { y with grants := [] }) s))
    let s2 := if isKeeper s1 new then
        useFree (updShard c.id (fun y => { y with nextEpoch := keeperStart s1 c + 1, stableSent := 0 }) s1)
      else s1
    let asks := s2.search.units.filter fun u => u.coll == c.id && u.phase == .logged && !((x.move.bind (·.cutover)).any (·.1 == u.tag))
    asks.foldl (fun u w => askEpoch w new u) s2

/-- A collection under a new descriptor. -/
def remapColl (before : State) (s : State) (c : Coll) : State :=
  match shardMapOf s c.id with
  | none => updColl c.id (fun k => { k with shard := none }) s
  | some new =>
    match c.shard, shardMapOf before c.id with
    | some x, some old => newKeeper c old new x (updShard c.id (fun _ => remapShard (moduleIndex s) c old new x) s)
    | _, _ => updColl c.id (fun k => { k with shard := some (newShard s k.epoch) }) s

/-- A group has other members under the new descriptor. -/
def groupChanged (before s : State) (g : Nat) : Bool := groupMembers (liveDesc before) g != groupMembers (liveDesc s) g

/-- A new descriptor is live (01 R15; 09 R192, R203; 11 R264, R265): members declared failed or degraded are forgotten for groups that it
changes. SPP connections that are open stay so, also where it names one module alone. DESIGN CHOICE (log entry 70). -/
def newDescriptor (before s : State) : State :=
  let s1 := s.search.colls.foldl (remapColl before) s
  { s1 with mem := { s1.mem with
    failed := s1.mem.failed.filter fun f => !groupChanged before s f.1
    degraded := s1.mem.degraded.filter fun g => !groupChanged before s g } }

/-- The sub-ports of a port in its mode, links down. -/
def portSubs (s : State) (port : Nat) : List SubPort :=
  (List.range (subPorts (portMode s port))).map fun i => { port := port, sub := i, up := false, downSince := s.now, pauses := [] }

/-- A port whose mode changed drops its links, and its connections close (14 R319). DEDUCED (log entry 44). -/
def newPortMode (before : State) (s : State) (port : Nat) : State :=
  if portMode before port = portMode s port then s
  else
    let s1 := closeConns ((s.net.conns.filter (·.port == port)).map (·.qpn)) s
    { s1 with net := { s1.net with subs := s1.net.subs.filter (·.port < port) ++ portSubs s1 port ++ s1.net.subs.filter (port < ·.port) } }

/-- What the groups' rules place after the switch; check 12 is repeated at every boundary (02 R40), and a new layout of the
shared store writes back and invalidates the lines that leave it (12 R270). DEDUCED (log entry 44). -/
def afterSwitch (groups : List Nat) (before s : State) : State :=
  let s1 := if groups.contains 1 then newDescriptor before s else s
  let s2 := recheckPlans (if groups.contains 2 then reshapeCache s1 else s1)
  if groups.contains 3 then (List.range 4).foldl (newPortMode before) s2 else s2

/-! ## Applies (R379, R381) -/

/-- The staged set of a session ends: its groups are released. -/
def releaseStaged (x : Session) : Session := { x with staged := [], groups := [], phase := .empty }

/-- Admission that an apply closed opens again, the apply ends, and the next closes admission for its groups. -/
def nextApply (s : State) : State :=
  let rest := s.dap.applies.drop 1
  let groups := ((rest.head?).bind fun a => (findSession s a.session).map (·.groups)).getD []
  { s with ahp := { s.ahp with closed := groups }, dap := { s.dap with applies := rest }, power := { s.power with idleSince := s.now } }

/-- A session that closed while it was APPLYING is gone now (R379). -/
def dropGone (id : Nat) (s : State) : State := { s with dap := { s.dap with sessions := s.dap.sessions.filter fun x => !(x.id == id && x.gone) } }

/-- LAST_APPLY_RESULT. -/
def setLastResult (r : Nat) (s : State) : State := { s with dap := { s.dap with lastResult := r } }

/-- The new values of every owned group are live from one instant (R381 step 4). -/
def switchValues (x : Session) (s : State) : State :=
  let s1 := x.staged.foldl (fun u v => setSetting v.key v.value u) s
  { s1 with dap := { s1.dap with sequence := s1.dap.sequence + 1, lastTime := s1.now, lastResult := 0 } }

/-- Every engine of the owned groups has reached its boundary (R382): for SHARED_LAYOUT no running command holds a plan scratchpad bank
(12 R270). DEDUCED (log entries 20, 44). -/
def atBoundary (s : State) (x : Session) : Bool := !x.groups.contains 2 || banksHeld s == 0

/-- The deadline of an apply (R381). -/
def applyDeadline (s : State) (a : Apply) : Nat := a.received + settingNat s Key.commitApplyTimeoutMs * 1000000

/-- The running apply, and its session. -/
def runningApply (s : State) : Option (Apply × Session) := (s.dap.applies.head?).bind fun a => (findSession s a.session).map fun x => (a, x)

end Sys2Proof.Machine
end

