-- ==== Sys2Proof/Machine/Dap.lean ====
section
/-! DEFINITION. DAP: frames and items, and what the operations do (16 R369-R383, R386, R387). -/

namespace Sys2Proof.Machine

/-! ## Frames and items (R370, R372) -/

/-- The command that serves a frame: its operation, or the entry with a behaviour of its own that it writes or reads. DESIGN CHOICE (log entry 42). -/
inductive DapRow
  | read | write | stage | readStaged | describe | commitCheck | commitApply | commitAbort
  | tgWriteRead | tgReadOnly | tgWriteOnly | ftgWriteRead | ftgReadVerify | ftgEraseTest
  | roleRecord | factoryReset | imageBegin | imageBlock | imageFinish | imageAbandon | imageMarkPending | imageClearPending
  | imageActivate | moduleReset | diagnosticMode | blackboxReadFrom | blackboxWindow
  deriving DecidableEq, Repr

/-- An item of a request. -/
structure DapItem where
  off : Nat                     -- frame offset of its header
  key : Nat                     -- index × 256 + subindex
  type : Nat
  last : Bool
  len : Nat
  seg : Nat
  value : Bytes
  deriving DecidableEq, Repr

/-- What a reply holds beside what it echoes. -/
structure DapReply where
  status : Nat
  offset : Nat
  inValue : Bool
  count : Nat
  payload : Bytes
  deriving DecidableEq, Repr

/-- ENTRY_RESULT codes (R373). -/
abbrev Er.noSuchEntry : Nat := 1
/-- ACCESS -/
abbrev Er.access : Nat := 2
/-- ROLE -/
abbrev Er.role : Nat := 3
/-- TYPE_MISMATCH -/
abbrev Er.typeMismatch : Nat := 4
/-- OUT_OF_RANGE -/
abbrev Er.outOfRange : Nat := 5
/-- STAGED_ONLY -/
abbrev Er.stagedOnly : Nat := 6
/-- STAGING_BUSY -/
abbrev Er.stagingBusy : Nat := 7
/-- SEGMENT -/
abbrev Er.segment : Nat := 8
/-- NOT_ATTEMPTED -/
abbrev Er.notAttempted : Nat := 9
/-- NOT_AVAILABLE -/
abbrev Er.notAvailable : Nat := 10
/-- CHECK_FAILED -/
abbrev Er.checkFailed : Nat := 11

/-- OP of a frame. -/
def dapOp (b : Bytes) : Nat := u8At b 8

/-- REQUEST_ID of a frame. -/
def dapId (b : Bytes) : Nat := u32At b 20

/-- A value follows each item of this operation. -/
def carriesValue (op : Nat) : Bool := op == 2 || op == 3

/-- Bytes of an item at an offset. -/
def itemSize (b : Bytes) (op off : Nat) : Nat := 16 + (if carriesValue op then roundUp 8 (u32At b (off + 8)) else 0)

/-- The item at an offset. -/
def itemAt (b : Bytes) (op off : Nat) : DapItem where
  off := off
  key := u16At b off * 256 + u8At b (off + 2)
  type := u8At b (off + 3)
  last := bit (u8At b (off + 5)) 0
  len := u32At b (off + 8)
  seg := u32At b (off + 12)
  value := if carriesValue op then slice b (off + 16) (u32At b (off + 8)) else []

/-- `n` items from an offset. -/
def itemsGo (b : Bytes) (op : Nat) : Nat → Nat → List DapItem
  | 0, _ => []
  | n + 1, off => itemAt b op off :: itemsGo b op n (off + itemSize b op off)

/-- The items of a frame. -/
def frameItems (b : Bytes) : List DapItem := itemsGo b (dapOp b) (u16At b 18) 32

/-- Where `n` items from an offset are malformed. DEDUCED (log entry 43). -/
def itemsFail (b : Bytes) (op : Nat) : Nat → Nat → Option Nat
  | 0, off => require (off == b.length) 24
  | n + 1, off =>
    (firstFail [
      require (off + 16 ≤ b.length) 18,
      require (carriesValue op || u8At b (off + 3) == 0) (off + 3),
      require (u8At b (off + 4) == 0) (off + 4),
      require (leAt b (off + 5) 3 < 2) (off + 5),
      require (off + itemSize b op off ≤ b.length) (off + 8),
      (if carriesValue op then padding b (off + 16 + u32At b (off + 8)) (itemSize b op off - 16 - u32At b (off + 8)) else none)]).orElse
    fun _ => itemsFail b op n (off + itemSize b op off)

/-- Where a frame is malformed (R370, R386), after its length. DEDUCED (log entry 43). -/
def frameFail (b : Bytes) : Option Nat :=
  firstFail [
    require (u32At b 28 == crc32c (slice b 0 28)) 28,
    reserved b 4 2,
    require (u8At b 6 == 1) 6,
    require (1 ≤ dapOp b && dapOp b ≤ 8) 8,
    require (leAt b 9 3 == 0) 9,
    reserved b 12 4,
    reserved b 16 2,
    require (dapOp b < 6 || u16At b 18 == 0) 18,
    require (u32At b 24 % 8 == 0 && u32At b 24 ≤ 1248) 24,
    itemsFail b (dapOp b) (u16At b 18) 32]

/-- The STATUS and offset of a frame that fails R370 (R373). DEDUCED (log entry 43). -/
def frameStatus (b : Bytes) : Option (Nat × Nat) :=
  if u32At b 0 ≠ 0x50444C41 then some (Status.invalidField, 0)
  else if u32At b 24 + 32 ≠ b.length then some (Status.lengthMismatch, 0)
  else (frameFail b).map fun o => (Status.invalidField, o)

/-! ## Replies -/

/-- The bytes of a reply (R370). -/
def replyBytes (op id : Nat) (r : DapReply) : Bytes :=
  let head := toLE 4 0x50444C41 ++ zeros 2 ++ toLE 1 1 ++ zeros 1 ++ toLE 1 op ++ toLE 1 (1 + 2 * b2n r.inValue) ++ zeros 2 ++ toLE 4 r.offset ++
    toLE 2 r.status ++ toLE 2 r.count ++ toLE 4 id ++ toLE 4 r.payload.length
  head ++ toLE 4 (crc32c head) ++ r.payload

/-- A reply with a status and no item. -/
def plainReply (status offset : Nat) : DapReply := { status := status, offset := offset, inValue := false, count := 0, payload := [] }

/-- One reply item (R372). -/
def replyItem (key type result : Nat) (last : Bool) (seg : Nat) (value : Bytes) : Bytes :=
  toLE 2 (key / 256) ++ toLE 1 key ++ toLE 1 type ++ toLE 1 result ++ toLE 1 (b2n last) ++ zeros 2 ++ toLE 4 value.length ++ toLE 4 seg ++ padTo 8 value

/-- The apply record (R383). -/
def applyRecord (result time groups : Nat) (s : State) : Bytes :=
  toLE 1 result ++ zeros 1 ++ toLE 2 groups ++ zeros 4 ++ toLE 8 s.dap.sequence ++ toLE 8 time ++ toLE 8 (leNat ((configDigest s).take 8))

/-- A reply goes to its session, and is kept among its last 16 (R375). Another status than SUCCESS counts (R373). DEDUCED (log entry 43). -/
def dapAnswer (id op rid : Nat) (r : DapReply) (s : State) : State :=
  let s1 := if r.status = Status.success then s else bump Key.dapFramesRejected s
  match findSession s1 id with
  | none => s1
  | some x =>
    if x.gone then s1
    else
      let bytes := replyBytes op rid r
      let kept := x.kept ++ [{ requestId := rid, reply := bytes }]
      emit (.dapReply id bytes) (updSession id (fun y => { y with kept := kept.drop (kept.length - 16), outstanding := y.outstanding.filter (· ≠ rid) }) s1)

/-! ## What serves in recovery mode (R387) -/

/-- Entries served in recovery mode. DEDUCED (log entry 62). -/
def servedInRecovery (k : Nat) : Bool :=
  (0x100000 ≤ k && k < 0x110000) || (0x500001 ≤ k && k ≤ 0x500004) || (0x501001 ≤ k && k ≤ 0x501006) || (0x501101 ≤ k && k ≤ 0x501104) || k / 256 == 0x7060

/-- An entry cannot be reached in the present mode. DEDUCED (log entry 62). -/
def unavailable (s : State) (d : DictEntry) (write : Bool) : Bool :=
  s.power.state == .recovery && !(servedInRecovery d.key && (!write || d.access == .wo))

/-! ## READ, READ_STAGED and DESCRIBE (R374, R376-R378) -/

/-- The role that may read an entry (R368, 19 R447); none may read a WO entry. -/
def readRole (d : DictEntry) : Option Nat :=
  match d.access with
  | .ro => some (if d.role = 3 then 3 else 1)
  | .rw | .rws => some 1
  | .adm => some 3
  | .wo => none

/-- The check of a read item, as its ENTRY_RESULT. DEDUCED (log entry 43). -/
def readCheck (s : State) (x : Session) (op : Nat) (it : DapItem) : Nat :=
  match dictEntry it.key with
  | none => Er.noSuchEntry
  | some d =>
    if unavailable s d false ∨ (op = 4 ∧ s.power.state = .recovery) then Er.notAvailable
    else if op = 5 then 0
    else match readRole d with
      | none => Er.access
      | some r => if x.level < r then Er.role else 0

/-- Records of the black box from the session's pointer (19 R447). -/
def blackboxWindow (s : State) (x : Session) : Bytes := (recordsFrom s.box (max x.readFrom (oldestSequence s.box)) 16).flatten

/-- An entry with the default that it has here: that of 0x1002:01 is the running bundle's version (00 R2). -/
def liveEntry (s : State) (d : DictEntry) : DictEntry :=
  if d.key = Key.firmwareBundleVersion then { d with dflt := leNat (entryValue s d) } else d

/-- The value that a read item returns a part of. -/
def readValue (s : State) (x : Session) (op : Nat) (d : DictEntry) : Bytes :=
  if op = 5 then descriptorOf (liveEntry s d)
  else if d.key = Key.blackboxWindow then blackboxWindow s x
  else if op = 4 then ((stagedOf x d.key).map (·.value)).getD (entryValue s d)
  else entryValue s d

/-- The ENTRY_RESULT and the part of the value that a read item returns (R376). A fixed-size value is returned whole. DEDUCED (log entry 43). -/
def readPart (s : State) (x : Session) (op : Nat) (d : DictEntry) (it : DapItem) : Nat × Bytes × Bool :=
  let v := readValue s x op d
  if op = 5 then (0, v, true)
  else if d.type < 9 then (if it.seg = 0 then (0, v, true) else (Er.segment, [], false))
  else if v.length < it.seg then (Er.segment, [], false)
  else
    let n := min (min it.len 1024) (v.length - it.seg)
    (0, slice v it.seg n, it.seg + n == v.length)

/-- The session's pointer advances past the last whole record returned (19 R447). DEDUCED (log entry 60). -/
def advanceWindow (d : DictEntry) (op : Nat) (it : DapItem) (n : Nat) (s : State) (x : Session) : State :=
  if d.key = Key.blackboxWindow ∧ op ≠ 5 then
    updSession x.id (fun y => { y with readFrom := max x.readFrom (oldestSequence s.box) + (if n = 0 then 0 else (it.seg + n) / 64) }) s
  else s

/-- Read items in order: the first failing item's offset, the reply items, and the state. `room` is what the values of the reply may
still hold. DEDUCED (log entry 43). -/
def readItems (id op : Nat) : List DapItem → Nat → State → Option Nat × Bytes × State
  | [], _, s => (none, [], s)
  | it :: r, room, s =>
    match findSession s id with
    | none => (none, [], s)
    | some x =>
      let d := dictEntry it.key
      let bad := readCheck s x op it
      let part := match d with
        | some e => if bad = 0 then readPart s x op e it else (bad, [], false)
        | none => (bad, [], false)
      let need := roundUp 8 part.2.1.length
      let res : Nat × Bytes × Bool := if part.1 = 0 ∧ room < need then (Er.segment, [], false) else part
      let type := (d.map (·.type)).getD 0
      let s1 := match d with
        | some e => if res.1 = 0 then advanceWindow e op it res.2.1.length s x else s
        | none => s
      let rest := readItems id op r (room - roundUp 8 res.2.1.length) s1
      ((if res.1 = 0 then none else some it.off).orElse fun _ => rest.1,
        replyItem it.key type res.1 res.2.2 (if res.1 = 0 then it.seg else 0) res.2.1 ++ rest.2.1, rest.2.2)

/-- The reply to a frame whose items have results: INVALID_FIELD at the first that failed (R373). -/
def itemReply (bad : Option Nat) (count : Nat) (payload : Bytes) : DapReply :=
  match bad with
  | none => { status := Status.success, offset := 0, inValue := false, count := count, payload := payload }
  | some o => { status := Status.invalidField, offset := o, inValue := false, count := count, payload := payload }

/-- A read frame: every item at one instant. -/
def dapRead (id : Nat) (b : Bytes) (s : State) : State :=
  let items := frameItems b
  let out := readItems id (dapOp b) items (1248 - 16 * items.length) s
  dapAnswer id (dapOp b) (dapId b) (itemReply out.1 items.length out.2.1) out.2.2

/-! ## The checks of a WRITE (R374, R376, and the rules of each entry) -/

/-- The last value that a frame writes to an entry, or its live one (06 R127). -/
def afterFrame (s : State) (items : List DapItem) (k : Nat) : Nat := leNat (((items.reverse.find? (·.key == k)).map (·.value)).getD (setting s k))

/-- The module may load images now (17 R404). -/
def mayLoad (s : State) : Bool := s.power.state == .p0 || s.power.state == .recovery

/-- ACTION, KIND and SLOT of IMAGE_LOAD_CONTROL. -/
def ilAction (v : Nat) : Nat := v / 2 ^ 24 % 256
/-- KIND -/
def ilKind (v : Nat) : Nat := v / 65536 % 256
/-- SLOT -/
def ilSlot (v : Nat) : Nat := v / 256 % 256

/-- This session's load is open. -/
def ownLoad (s : State) (id : Nat) : Bool := s.sec.load.any (·.session == id)

/-- Another session's load is open. -/
def otherLoad (s : State) (id : Nat) : Bool := s.sec.load.any (·.session != id)

/-- IMAGE_LOAD_CONTROL takes a value (17 R404): FINISH and ABANDON need the session's own open load of that kind, and MARK_PENDING a valid
image. DEDUCED (log entry 53). -/
def loadControlOk (s : State) (id v : Nat) : Bool :=
  let a := ilAction v
  let k := ilKind v
  mayLoad s && !otherLoad s id && v % 256 == 0 && 1 ≤ a && a ≤ 5 && 1 ≤ k && k ≤ 5 && (if a = 4 then ilSlot v ≤ 1 else ilSlot v == 0) &&
    (if a = 2 ∨ a = 3 then s.sec.load.any (·.kind == k) else true) &&
    (if a = 4 then k ≤ 4 && imageReason s k (slotImage s k (ilSlot v)) == 0 else if a = 5 then k ≤ 4 else true)

/-- The rule of an entry that reads the state, beyond its range (06 R127, 12 R289, 13 R314, 17 R404 R410 R416, 19 R448). DEDUCED (log entries 44, 53). -/
def writeRule (s : State) (id : Nat) (items : List DapItem) (k : Nat) (v : Bytes) : Bool :=
  let n := leNat v
  if k = Key.tgControl ∨ k = Key.ftgControl then n < 2 ^ 31 || s.box.diag == 2
  else if k = Key.autoMergeAppend then n ≤ afterFrame s items Key.appendListLimit
  else if k = Key.appendListLimit then afterFrame s items Key.autoMergeAppend ≤ n
  else if k = Key.roleTable then false
  else if k = Key.roleRecord then (roleRequestFail s false v).isNone
  else if k = Key.factoryReset then n == identityDigest % (1 <<< 32)
  else if k = Key.imageLoadControl then loadControlOk s id n
  else if k = Key.imageBlock then mayLoad s && ownLoad s id && leAt v 4 4 == 0
  else if k = Key.diagnosticMode then s.box.diag == 0
  else true

/-- The check of a WRITE item, as its ENTRY_RESULT. DEDUCED (log entry 44). -/
def writeCheck (s : State) (x : Session) (items : List DapItem) (it : DapItem) : Nat :=
  match dictEntry it.key with
  | none => Er.noSuchEntry
  | some d =>
    if unavailable s d true then Er.notAvailable
    else if d.access = .ro then Er.access
    else if d.access = .rws then Er.stagedOnly
    else if x.level < d.role then Er.role
    else if it.type ≠ d.type then Er.typeMismatch
    else if it.seg ≠ 0 ∨ it.last = false ∨ 1024 < it.len ∨ (if d.type < 9 then it.len ≠ typeSize d.type else d.hi < it.len) then Er.segment
    else if inRange d it.value = false ∨ writeRule s x.id items it.key it.value = false then Er.outOfRange
    else 0

/-- Results of the items of a frame that acts on all or none: the items after a failing one are not attempted. DEDUCED (log entry 43). -/
def resultsGo (check : DapItem → Nat) : List DapItem → List (DapItem × Nat)
  | [] => []
  | it :: r => if check it = 0 then (it, 0) :: resultsGo check r else (it, check it) :: r.map fun i => (i, Er.notAttempted)

/-- The reply items of a frame without values. -/
def resultItems (l : List (DapItem × Nat)) : Bytes := (l.map fun p => replyItem p.1.key p.1.type p.2 false 0 []).flatten

/-- The offset of the first item that failed. -/
def firstFailed (l : List (DapItem × Nat)) : Option Nat := (l.find? (·.2 != 0)).map (·.1.off)

/-! ## The effects of a WRITE -/

/-- A generator run starts (12 R289, 13 R314); `pins` counts begin at zero. A run that reads only compares with what the last WRITE_ONLY run with its seed wrote to
the channel (12 R291). DEDUCED (log entry 46). -/
def startGen (pins direction : Nat) (x : TgSpan) (g : TestGen) : TestGen where
  state := 1
  failed := 0
  errors := 0
  pins := List.replicate pins 0
  written := if direction = 2 then g.written.filter (fun w => !(w.channel == x.channel && w.seed == x.seed)) ++ [x] else g.written
  run := if direction = 1 then (g.written.find? fun w => (w.channel == x.channel || w.channel == 0x1FF) && w.seed == x.seed) else some x

/-- What a run of the HBM generator covers: TG_BYTES rounded up to whole pages, or the whole channel (12 R289). -/
def tgSpan (v : Nat) (s : State) : TgSpan :=
  let bytes := settingNat s Key.tgBytes
  { channel := v % 512, pattern := v / 65536 % 256, seed := settingNat s Key.tgSeed, pages := if bytes = 0 then channelPages else ceilDiv bytes 2048 }

/-- A write of TG_CONTROL: START reads 0 and starts the run (12 R290). What a run writes replaces the contents of HBM (19 R448). DEDUCED (log entries 44, 46). -/
def writeTg (v : Nat) (s : State) : State :=
  let s1 := setSetting Key.tgControl (toLE 4 (v % 2 ^ 31)) s
  let direction := v / 16384 % 4
  if v < 2 ^ 31 then s1
  else { s1 with hbm := { s1.hbm with
    tg := startGen 72 direction (tgSpan v s1) s1.hbm.tg
    tiles := if direction = 1 then s1.hbm.tiles else [] } }

/-- A write of FTG_CONTROL (13 R314). DEDUCED (log entries 44, 46). -/
def writeFtg (v : Nat) (s : State) : State :=
  let s1 := setSetting Key.ftgControl (toLE 4 (v % 2 ^ 31)) s
  if v < 2 ^ 31 then s1
  else { s1 with cold := { s1.cold with ftg := startGen 0 0 { channel := v % 64, pattern := 0, seed := settingNat s1 Key.ftgSeed, pages := 0 } s1.cold.ftg } }

/-- A write of IMAGE_LOAD_CONTROL (17 R404). -/
def writeLoadControl (id v : Nat) (s : State) : State :=
  match ilAction v with
  | 1 => imageBegin id (ilKind v) s
  | 2 => imageFinish s
  | 3 => imageAbandon s
  | 4 => setPending (ilKind v) (some (ilSlot v)) s
  | 5 => setPending (ilKind v) none s
  | _ => s

/-- A write of ROLE_RECORD (17 R410); LIST changes nothing. DEDUCED (log entry 52). -/
def writeRole (b : Bytes) (s : State) : State := if (roleRequestFail s false b).isNone then applyRole b s else s

/-- A write of DIAGNOSTIC_MODE (19 R448): admission closes and the module waits to be idle. DEDUCED (log entry 61). -/
def writeDiagnostic (id : Nat) (frame : Bytes) (s : State) : State :=
  { s with
    ahp := { s.ahp with admissionOpen := false }
    box := { s.box with diag := 1 }
    dap := { s.dap with diagRequest := some { session := id, since := s.now, frame := frame } } }

/-- The effect of one checked item. -/
def writeEffect (id : Nat) (frame : Bytes) (s : State) (it : DapItem) : State :=
  let n := leNat it.value
  if it.key = Key.tgControl then writeTg n s
  else if it.key = Key.ftgControl then writeFtg n s
  else if it.key = Key.roleRecord then writeRole it.value s
  else if it.key = Key.factoryReset then beginReset 4 (factoryErase (logEvent Ev.factoryReset Ev.info 0 [] s))
  else if it.key = Key.imageLoadControl then writeLoadControl id n s
  else if it.key = Key.imageBlock then imageBlock it.value s
  else if it.key = Key.imageActivate then beginReset 3 s
  else if it.key = Key.moduleReset then beginReset 2 s
  else if it.key = Key.diagnosticMode then writeDiagnostic id frame s
  else if it.key = Key.blackboxReadFrom then updSession id (fun x => { x with readFrom := n }) s
  else setSetting it.key it.value s

/-- A WRITE frame (R374): all items or none. The reply of a DIAGNOSTIC_MODE write waits; roles that a ROLE_RECORD took away close their
sessions after the reply (17 R410). -/
def dapWrite (id : Nat) (b : Bytes) (s : State) : State :=
  match findSession s id with
  | none => s
  | some x =>
    let items := frameItems b
    let res := resultsGo (writeCheck s x items) items
    let reply := itemReply (firstFailed res) items.length (resultItems res)
    if (firstFailed res).isSome then dapAnswer id 2 (dapId b) reply s
    else
      let s1 := items.foldl (writeEffect id b) s
      if items.any (·.key == Key.diagnosticMode) then updSession id (fun y => { y with outstanding := y.outstanding ++ [dapId b] }) s1
      else
        let s2 := dapAnswer id 2 (dapId b) reply s1
        if items.any (·.key == Key.roleRecord) then closeStale s2 else s2

/-! ## STAGE (R376, R378) -/

/-- Another session owns a commit group. -/
def groupBusy (s : State) (id g : Nat) : Bool := s.dap.sessions.any fun x => x.id != id && x.groups.contains g

/-- Whether a segment follows what is staged of its entry (R376). -/
def segmentOk (x : Session) (d : DictEntry) (it : DapItem) : Bool :=
  if d.type < 9 then it.seg == 0 && it.last && it.len == typeSize d.type
  else it.len ≤ 1024 && it.seg + it.len ≤ d.hi &&
    (it.seg == 0 || (match stagedOf x d.key with | none => false | some v => !v.closed && v.value.length == it.seg))

/-- The value with a segment. -/
def withSegment (x : Session) (it : DapItem) : Staged :=
  let before := if it.seg = 0 then [] else ((stagedOf x it.key).map (·.value)).getD []
  { key := it.key, value := before ++ it.value, closed := it.last }

/-- The session with a value staged, keys ascending; it owns the value's group. -/
def putStaged (v : Staged) (g : Nat) (x : Session) : Session :=
  { x with
    staged := insertBy (fun a b => a.key ≤ b.key) v (x.staged.filter (·.key ≠ v.key))
    groups := if x.groups.contains g then x.groups else insertBy (· ≤ ·) g x.groups
    phase := .staged }

/-- The check of a STAGE item, as its ENTRY_RESULT. DEDUCED (log entry 44). -/
def stageCheck (s : State) (x : Session) (it : DapItem) : Nat :=
  match dictEntry it.key with
  | none => Er.noSuchEntry
  | some d =>
    if d.access ≠ .rws then Er.access
    else if x.level < d.role then Er.role
    else if it.type ≠ d.type then Er.typeMismatch
    else if groupBusy s x.id d.group then Er.stagingBusy
    else if segmentOk x d it = false then Er.segment
    else if it.last ∧ inRange d (withSegment x it).value = false ∧ d.key ≠ Key.installationDescriptor then Er.outOfRange
    else 0

/-- STAGE items in order: their results, and the session that they leave. -/
def stageGo (s : State) : List DapItem → Session → List (DapItem × Nat) × Session
  | [], x => ([], x)
  | it :: r, x =>
    let c := stageCheck s x it
    if c = 0 then
      let rest := stageGo s r (putStaged (withSegment x it) (((dictEntry it.key).map (·.group)).getD 0) x)
      ((it, 0) :: rest.1, rest.2)
    else ((it, c) :: r.map fun i => (i, Er.notAttempted), x)

/-- A STAGE frame (R374, R378, R379). -/
def dapStage (id : Nat) (b : Bytes) (s : State) : State :=
  match findSession s id with
  | none => s
  | some x =>
    if x.phase = .applying then dapAnswer id 3 (dapId b) (plainReply Status.invalidField 8) s
    else
      let items := frameItems b
      let out := stageGo s items x
      let reply := itemReply (firstFailed out.1) items.length (resultItems out.1)
      let s1 := if (firstFailed out.1).isSome then s else updSession id (fun _ => out.2) s
      dapAnswer id 3 (dapId b) reply s1

/-! ## COMMIT_CHECK, COMMIT_APPLY, COMMIT_ABORT (R379-R383) -/

/-- The reply to a check that fails (R380). -/
def checkFailReply (s : State) (x : Session) (bad : DictEntry × Nat) : DapReply where
  status := Status.invalidField
  offset := bad.2
  inValue := true
  count := 1
  payload := applyRecord 1 0 x.groups.length s ++ replyItem bad.1.key bad.1.type Er.checkFailed false 0 []

/-- A reply with an apply record and SUCCESS. -/
def recordReply (result time groups : Nat) (s : State) : DapReply :=
  { status := Status.success, offset := 0, inValue := false, count := 0, payload := applyRecord result time groups s }

/-- A COMMIT_CHECK frame. DEDUCED (log entry 44). -/
def dapCheck (id : Nat) (b : Bytes) (s : State) : State :=
  match findSession s id with
  | none => s
  | some x =>
    if x.phase ≠ .staged ∧ x.phase ≠ .checked then dapAnswer id 6 (dapId b) (plainReply Status.invalidField 8) s
    else match commitFail s x with
      | some bad => dapAnswer id 6 (dapId b) (checkFailReply s x bad)
          (bump Key.commitCheckFailures (updSession id (fun y => { y with phase := .staged }) s))
      | none => dapAnswer id 6 (dapId b) (recordReply 4 0 x.groups.length s) (updSession id (fun y => { y with phase := .checked }) s)

/-- A COMMIT_APPLY frame: the apply runs, or waits for the one that runs (R381). DEDUCED (log entry 44). -/
def dapApply (id : Nat) (b : Bytes) (s : State) : State :=
  match findSession s id with
  | none => s
  | some x =>
    match x.phase with
    | .empty | .applying => dapAnswer id 7 (dapId b) (plainReply Status.invalidField 8) s
    | .staged =>
      let s1 := setLastResult 3 s
      dapAnswer id 7 (dapId b) (recordReply 3 0 x.groups.length s1) s1
    | .checked =>
      let s1 := updSession id (fun y => { y with phase := .applying, outstanding := y.outstanding ++ [dapId b] }) s
      { s1 with
        dap := { s1.dap with applies := s1.dap.applies ++ [{ session := id, requestId := dapId b, received := s1.now }] }
        ahp := { s1.ahp with closed := if s1.dap.applies.isEmpty then x.groups else s1.ahp.closed } }

/-- A COMMIT_ABORT frame (R379). -/
def dapAbort (id : Nat) (b : Bytes) (s : State) : State :=
  match findSession s id with
  | none => s
  | some x =>
    if x.phase = .staged ∨ x.phase = .checked then
      dapAnswer id 8 (dapId b) (plainReply Status.success 0) (updSession id releaseStaged s)
    else dapAnswer id 8 (dapId b) (plainReply Status.invalidField 8) s

/-- COMMIT_BOUNDARY_REACHED (R381): the check again, the switch, the work after it, and the reply. DEDUCED (log entry 44). -/
def execCommitBoundaryReached (t : Nat) (s : State) : Res :=
  let s0 := tick t s
  match runningApply s0 with
  | none => .next s0
  | some (a, x) =>
    if atBoundary s0 x = false ∨ applyDeadline s0 a < s0.now then .next s0
    else match commitFail s0 x with
      | some bad =>
        let s1 := bump Key.commitCheckFailures (setLastResult 1 (updSession x.id (fun y => { y with phase := .staged }) s0))
        .next (dropGone x.id (dapAnswer x.id 7 a.requestId (checkFailReply s1 x bad) (nextApply s1)))
      | none =>
        let s1 := afterSwitch x.groups s0 (switchValues x s0)
        let s2 := nextApply (updSession x.id releaseStaged s1)
        let s3 := dropGone x.id (dapAnswer x.id 7 a.requestId (recordReply 0 s0.now x.groups.length s2) s2)
        .next (if x.groups.contains 5 then ((s3.dap.sessions.filter (·.mgmt)).map (·.id)).foldl (fun u i => closeSession i u) s3 else s3)

/-- COMMIT_APPLY_TIMEOUT (R381): nothing changes. DEDUCED (log entry 44). -/
def execCommitApplyTimeout (t : Nat) (s : State) : Res :=
  let s0 := tick t s
  match runningApply s0 with
  | none => .next s0
  | some (a, x) =>
    if s0.now < applyDeadline s0 a then .next s0
    else
      let s1 := bump Key.commitApplyTimeouts (setLastResult 2 (updSession x.id (fun y => { y with phase := .staged }) s0))
      .next (dropGone x.id (dapAnswer x.id 7 a.requestId (recordReply 2 0 x.groups.length s1) (nextApply s1)))

/-! ## A frame (R369-R375) -/

/-- The service core answers DAP in P0 to P2, and on the management port in recovery mode (R387, 17 R402). DEDUCED (log entry 62). -/
def dapServes (s : State) (mgmt : Bool) : Bool := netUp s || (s.power.state == .recovery && mgmt)

/-- The lowest role of an operation (R371). -/
def opRole (op : Nat) : Nat := if op = 1 ∨ op = 2 ∨ op = 5 then 1 else 2

/-- A request that passed R370 is carried out. DEDUCED (log entry 62). -/
def dapPerform (id : Nat) (b : Bytes) (x : Session) (s : State) : State :=
  let op := dapOp b
  if x.level < opRole op then dapAnswer id op (dapId b) (plainReply Status.accessDenied 0) s
  else if s.power.state = .recovery ∧ (op = 3 ∨ op = 6 ∨ op = 7) then dapAnswer id op (dapId b) (plainReply Status.notReady 0) s
  else match op with
    | 1 | 4 | 5 => dapRead id b s
    | 2 => dapWrite id b s
    | 3 => dapStage id b s
    | 6 => dapCheck id b s
    | 7 => dapApply id b s
    | _ => dapAbort id b s

/-- A request by its REQUEST_ID (R375): a kept reply answers it again; one in progress, an older one, and one beyond 16 outstanding are
dropped. -/
def dapRequest (id : Nat) (b : Bytes) (x : Session) (s : State) : State :=
  match x.kept.find? (·.requestId == dapId b) with
  | some k => emit (.dapReply id k.reply) s
  | none =>
    if x.outstanding.contains (dapId b) ∨ x.highest.any (fun h => dapId b ≤ h) ∨ 16 ≤ x.outstanding.length then s
    else
      let s1 := bump Key.dapFrames (updSession id (fun y => { y with highest := some (dapId b) }) s)
      dapPerform id b x s1

/-- A DAP frame of a session. DEDUCED (log entry 43). -/
def dapFrame (id : Nat) (b : Bytes) (s : State) : State :=
  match findSession s id with
  | none => s
  | some x =>
    if x.gone ∨ dapServes s x.mgmt = false then s
    else match frameStatus b with
      | some (st, off) => emit (.dapReply id (replyBytes (dapOp b) (dapId b) (plainReply st off))) (bump Key.dapFramesRejected s)
      | none => dapRequest id b x (updSession id (fun y => { y with lastFrame := s.now }) s)

/-! ## Which command serves a frame -/

/-- The behaviour of its own that a WRITE item asks for. DESIGN CHOICE (log entry 42). -/
def writeRow (it : DapItem) : Option DapRow :=
  let n := leNat it.value
  if it.key = Key.tgControl then (if n < 2 ^ 31 then none
    else [some DapRow.tgWriteRead, some .tgReadOnly, some .tgWriteOnly, none].getD (n / 16384 % 4) none)
  else if it.key = Key.ftgControl then (if n < 2 ^ 31 then none
    else [some DapRow.ftgWriteRead, some .ftgReadVerify, some .ftgEraseTest, none].getD (n / 2 ^ 24 % 4) none)
  else if it.key = Key.roleRecord then some .roleRecord
  else if it.key = Key.factoryReset then some .factoryReset
  else if it.key = Key.imageLoadControl then
    [none, some DapRow.imageBegin, some .imageFinish, some .imageAbandon, some .imageMarkPending, some .imageClearPending].getD (ilAction n) none
  else if it.key = Key.imageBlock then some .imageBlock
  else if it.key = Key.imageActivate then some .imageActivate
  else if it.key = Key.moduleReset then some .moduleReset
  else if it.key = Key.diagnosticMode then some .diagnosticMode
  else if it.key = Key.blackboxReadFrom then some .blackboxReadFrom
  else none

/-- The command that serves a frame; a frame of no operation is READ's. DESIGN CHOICE (log entry 42). -/
def rowOf (b : Bytes) : DapRow :=
  match dapOp b with
  | 1 => if (frameItems b).any (·.key == Key.blackboxWindow) then .blackboxWindow else .read
  | 2 => ((frameItems b).findSome? writeRow).getD .write
  | 3 => .stage
  | 4 => .readStaged
  | 5 => .describe
  | 6 => .commitCheck
  | 7 => .commitApply
  | 8 => .commitAbort
  | _ => .read

/-- A command with a DAP frame: the frame, where the command serves it (notes/assumptions/42.md). DESIGN CHOICE (log entry 42). -/
def dapCommand (row : DapRow) (id : Nat) (b : Bytes) (t : Nat) (s : State) : State :=
  if rowOf b = row then dapFrame id b (tick t s) else tick t s

end Sys2Proof.Machine
end

