-- ==== Sys2Proof/Machine/Manage.lean ====
section
/-! DEFINITION. The commands of DAP: one for each operation and for each register with a behaviour of its own, the handshake, the close of
a session, and the entry into diagnostic mode (16 R369-R387; 12 R289; 13 R314; 17 R404-R416; 18 R430; 19 R447 R448). -/

namespace Sys2Proof.Machine

/-- READ (R374): the entries of a frame at one instant. -/
def execRead (session : Nat) (frame : Bytes) (t : Nat) (s : State) : Res := .next (dapCommand .read session frame t s)

/-- WRITE (R374): values of registers without a behaviour of their own. -/
def execWrite (session : Nat) (frame : Bytes) (t : Nat) (s : State) : Res := .next (dapCommand .write session frame t s)

/-- STAGE (R378): values staged, their groups owned. -/
def execStage (session : Nat) (frame : Bytes) (t : Nat) (s : State) : Res := .next (dapCommand .stage session frame t s)

/-- READ_STAGED (R378): the session's staged values, the live ones where nothing is staged. -/
def execReadStaged (session : Nat) (frame : Bytes) (t : Nat) (s : State) : Res := .next (dapCommand .readStaged session frame t s)

/-- DESCRIBE (R377). -/
def execDescribe (session : Nat) (frame : Bytes) (t : Nat) (s : State) : Res := .next (dapCommand .describe session frame t s)

/-- COMMIT_CHECK (R380). -/
def execCommitCheck (session : Nat) (frame : Bytes) (t : Nat) (s : State) : Res := .next (dapCommand .commitCheck session frame t s)

/-- COMMIT_APPLY (R381): admission to the engines of the owned groups closes. -/
def execCommitApply (session : Nat) (frame : Bytes) (t : Nat) (s : State) : Res := .next (dapCommand .commitApply session frame t s)

/-- COMMIT_ABORT (R379). -/
def execCommitAbort (session : Nat) (frame : Bytes) (t : Nat) (s : State) : Res := .next (dapCommand .commitAbort session frame t s)

/-- TG_WRITE_READ (12 R289): a START with DIRECTION WRITE_READ. -/
def execTgWriteRead (session : Nat) (frame : Bytes) (t : Nat) (s : State) : Res := .next (dapCommand .tgWriteRead session frame t s)

/-- TG_READ_ONLY (12 R289). -/
def execTgReadOnly (session : Nat) (frame : Bytes) (t : Nat) (s : State) : Res := .next (dapCommand .tgReadOnly session frame t s)

/-- TG_WRITE_ONLY (12 R289). -/
def execTgWriteOnly (session : Nat) (frame : Bytes) (t : Nat) (s : State) : Res := .next (dapCommand .tgWriteOnly session frame t s)

/-- FTG_WRITE_READ (13 R314): a START with MODE WRITE_READ. -/
def execFtgWriteRead (session : Nat) (frame : Bytes) (t : Nat) (s : State) : Res := .next (dapCommand .ftgWriteRead session frame t s)

/-- FTG_READ_VERIFY (13 R314). -/
def execFtgReadVerify (session : Nat) (frame : Bytes) (t : Nat) (s : State) : Res := .next (dapCommand .ftgReadVerify session frame t s)

/-- FTG_ERASE_TEST (13 R314). -/
def execFtgEraseTest (session : Nat) (frame : Bytes) (t : Nat) (s : State) : Res := .next (dapCommand .ftgEraseTest session frame t s)

/-- ROLE_RECORD (17 R410). -/
def execRoleRecord (session : Nat) (frame : Bytes) (t : Nat) (s : State) : Res := .next (dapCommand .roleRecord session frame t s)

/-- FACTORY_RESET (17 R416). -/
def execFactoryReset (session : Nat) (frame : Bytes) (t : Nat) (s : State) : Res := .next (dapCommand .factoryReset session frame t s)

/-- IMAGE_BEGIN (17 R404). -/
def execImageBegin (session : Nat) (frame : Bytes) (t : Nat) (s : State) : Res := .next (dapCommand .imageBegin session frame t s)

/-- IMAGE_BLOCK (17 R404). -/
def execImageBlock (session : Nat) (frame : Bytes) (t : Nat) (s : State) : Res := .next (dapCommand .imageBlock session frame t s)

/-- IMAGE_FINISH (17 R404). -/
def execImageFinish (session : Nat) (frame : Bytes) (t : Nat) (s : State) : Res := .next (dapCommand .imageFinish session frame t s)

/-- IMAGE_ABANDON (17 R404). -/
def execImageAbandon (session : Nat) (frame : Bytes) (t : Nat) (s : State) : Res := .next (dapCommand .imageAbandon session frame t s)

/-- IMAGE_MARK_PENDING (17 R404). -/
def execImageMarkPending (session : Nat) (frame : Bytes) (t : Nat) (s : State) : Res := .next (dapCommand .imageMarkPending session frame t s)

/-- IMAGE_CLEAR_PENDING (17 R404). -/
def execImageClearPending (session : Nat) (frame : Bytes) (t : Nat) (s : State) : Res := .next (dapCommand .imageClearPending session frame t s)

/-- IMAGE_ACTIVATE (17 R404). -/
def execImageActivate (session : Nat) (frame : Bytes) (t : Nat) (s : State) : Res := .next (dapCommand .imageActivate session frame t s)

/-- MODULE_RESET (18 R430). -/
def execModuleReset (session : Nat) (frame : Bytes) (t : Nat) (s : State) : Res := .next (dapCommand .moduleReset session frame t s)

/-- DIAGNOSTIC_MODE (19 R448). -/
def execDiagnosticMode (session : Nat) (frame : Bytes) (t : Nat) (s : State) : Res := .next (dapCommand .diagnosticMode session frame t s)

/-- BLACKBOX_READ_FROM (19 R447). -/
def execBlackboxReadFrom (session : Nat) (frame : Bytes) (t : Nat) (s : State) : Res := .next (dapCommand .blackboxReadFrom session frame t s)

/-- BLACKBOX_WINDOW (19 R447). -/
def execBlackboxWindow (session : Nat) (frame : Bytes) (t : Nat) (s : State) : Res := .next (dapCommand .blackboxWindow session frame t s)

/-! ## Sessions (R369, 17 R410) -/

/-- The lowest session number that is not in use. DEDUCED (log entry 43). -/
def freeSession (s : State) : Nat := (((List.range 64).map (· + 1)).find? fun i => !(s.dap.sessions.any (·.id == i))).getD 65

/-- A new session. -/
def newSession (s : State) (mgmt : Bool) (r : Role) : Session where
  id := freeSession s
  mgmt := mgmt
  level := r.dap
  role := r.id
  lastFrame := s.now
  staged := []
  groups := []
  phase := .empty
  kept := []
  outstanding := []
  highest := none
  readFrom := 0
  gone := false

/-- The first session on the management port of an UNCLAIMED module claims it: its key becomes role 1 with DAP level 3 (17 R410). DEDUCED (log entry 52). -/
def claimRole (key : Bytes) (s : State) : State :=
  let r : Role := { id := 1, key := key, ahp := 0, dap := 3 }
  logEvent Ev.roleClaimed Ev.info 1 ((sm3 key).take 8) { s with sec := { s.sec with roles := [r] } }

/-- The session opens, or is refused and counted (R369). -/
def openSession (mgmt : Bool) (role : Option Role) (s : State) : State :=
  match role with
  | none => bump Key.dapSessionsRefused s
  | some r =>
    if r.dap = 0 ∨ settingNat s Key.dapSessionLimit ≤ (s.dap.sessions.filter (!·.gone)).length then bump Key.dapSessionsRefused s
    else { s with dap := { s.dap with sessions := s.dap.sessions ++ [newSession s mgmt r] } }

/-- DAP_HANDSHAKE (R369): a DTLS handshake whose client certificate has been verified, or not. DEDUCED (log entry 51). -/
def execDapHandshake (mgmt : Bool) (certificate : Bytes) (t : Nat) (s : State) : Res :=
  let s0 := tick t s
  if dapServes s0 mgmt = false then .next s0
  else
    let s1 := if mgmt then { s0 with net := { s0.net with mgmtUp := true } } else s0
    match Config.certKey certificate with
    | none => .next (bump Key.dapSessionsRefused s1)
    | some key =>
      let s2 := if mgmt ∧ s1.sec.roles.isEmpty then claimRole key s1 else s1
      .next (openSession mgmt (s2.sec.roles.find? (·.key == key)) s2)

/-- DAP_IDLE_TIMEOUT (R369). -/
def execDapIdleTimeout (session t : Nat) (s : State) : Res :=
  let s0 := tick t s
  match findSession s0 session with
  | none => .next s0
  | some x => .next (if x.lastFrame + settingNat s0 Key.dapIdleTimeoutS * 1000000000 ≤ s0.now then closeSession session s0 else s0)

/-- DAP_SESSION_CLOSE (R378). -/
def execDapSessionClose (session : Nat) (s : State) : Res := .next (closeSession session s)

/-! ## Diagnostic mode (19 R448) -/

/-- The reply to the DIAGNOSTIC_MODE write that waited; `ok` tells whether the mode was entered. DEDUCED (log entry 61). -/
def diagReply (w : DiagWait) (ok : Bool) (s : State) : State :=
  let items := (frameItems w.frame).map fun it => (it, if it.key = Key.diagnosticMode ∧ ok = false then Er.outOfRange else 0)
  dapAnswer w.session 2 (dapId w.frame) (itemReply (firstFailed items) items.length (resultItems items)) s

/-- The write that waits is no longer in progress. -/
def diagDone (w : DiagWait) (s : State) : State :=
  updSession w.session (fun x => { x with outstanding := x.outstanding.filter (· ≠ dapId w.frame) }) { s with dap := { s.dap with diagRequest := none } }

/-- Bytes 0 to 7 of the digest of a session's key. DEDUCED (log entry 61). -/
def sessionKey8 (s : State) (id : Nat) : Bytes :=
  (((findSession s id).bind fun x => s.sec.roles.find? (·.id == x.role)).map fun r => (sm3 r.key).take 8).getD (zeros 8)

/-- The module enters diagnostic mode. DEDUCED (log entry 61). -/
def enterDiagnostic (w : DiagWait) (s : State) : State :=
  let s1 := logEvent Ev.diagnosticEntered Ev.info 0 (sessionKey8 s w.session) s
  let s2 := (s1.net.conns.filter fun c => c.proto == 1 || c.proto == 2).foldl (fun u c => disconnect c.qpn u) s1
  { s2 with box := { s2.box with diag := 2 }, ahp := { s2.ahp with admissionOpen := true } }

/-- DIAGNOSTIC_MODE_ENTERED (19 R448): the module is idle, or has not become idle in 10 s. DEDUCED (log entry 61). -/
def execDiagnosticModeEntered (t : Nat) (s : State) : Res :=
  let s0 := tick t s
  match s0.dap.diagRequest with
  | none => .next s0
  | some w =>
    if idle (diagDone w s0) then .next (diagReply w true (diagDone w (enterDiagnostic w s0)))
    else if w.since + 10000000000 ≤ s0.now then
      .next (diagReply w false (diagDone w { s0 with box := { s0.box with diag := 0 }, ahp := { s0.ahp with admissionOpen := true } }))
    else .next s0

end Sys2Proof.Machine
end

