-- ==== Sys2Proof/Machine/Pages.lean ====
section
/-! DEFINITION. The events of the window: the read of a promoted page completes, and space is freed for a request that waits (13 R311,
R312). -/

namespace Sys2Proof.Machine

/-- Every memory-layer command that waits for pages goes on where it can. -/
def resumeAll (s : State) : State :=
  let s1 := s.mem.fwds.foldl (fun u f => resumeFwd f u) s
  let s2 := s1.mem.bwds.foldl (fun u b => resumeBwd b u) s1
  s2.mem.upds.foldl (fun u x => resumeUpd x u) s2

/-- The read of a promoting copy has completed; of an uncorrectable one every holder meets uncorrectable data, and it is ABSENT once
nobody holds it. -/
def completeRead (page : Nat) (bad : Bool) (s : State) : State :=
  let done := fun c : Copy => { c with state := .resident, bad := bad }
  let copies := mapIf (fun c => c.page == page && c.state == .promoting) done s.cold.copies
  { s with cold := { s.cold with copies := copies.filter fun c => !(c.bad && c.holders.isEmpty) } }

/-- PROMOTION_READ_COMPLETE (R311). -/
def execPromotionReadComplete (page : Nat) (bad : Bool) (s : State) : Res := .next (resumeAll (completeRead page bad s))

/-- WINDOW_SPACE_FREED (R312): the first request that waits for space of the region takes its round at once, where there is room now. -/
def execWindowSpaceFreed (region capacity : Nat) (s : State) : Res :=
  match s.cold.waits.find? fun w => w.region == region && w.capacity == capacity with
  | none => .next s
  | some w =>
    if hasRoom s region capacity w.pages then
      .next (resumeAll (grantPages w.seq region capacity w.pinned w.pages
        { s with cold := { s.cold with waits := s.cold.waits.eraseP fun x => x.region == region && x.capacity == capacity } }))
    else .next s

end Sys2Proof.Machine
end

