-- ==== Sys2Proof/Machine/Patrol.lean ====
section
/-! DEFINITION. The patrol of the cold tier (13 R302). -/

namespace Sys2Proof.Machine

/-- COLD_PATROL_DAYS in nanoseconds. -/
def patrolPeriod (s : State) : Nat := settingNat s Key.coldPatrolDays * 86400000000000

/-- A patrol period that has ended starts again. -/
def patrolStart (s : State) : State :=
  if s.cold.patrolFrom + patrolPeriod s ≤ patrolTime s then { s with cold := { s.cold with patrolFrom := patrolTime s, patrolled := 0 } } else s

/-- PATROL (R302): the queued blocks are refreshed, with a program of each page that they hold, and a written page is read: each once in
COLD_PATROL_DAYS days. DEDUCED (log entry 41). -/
def execPatrol (reads : PatrolReads) (t : Nat) (s : State) : Res :=
  let s0 := tick t s
  if backgroundRuns s0 = false then .next s0
  else
    let s1 := if s0.cold.refresh.isEmpty then s0 else coldProgram (4096 * reads.pages) { s0 with cold := { s0.cold with refresh := [] } }
    let s2 := patrolStart s1
    if s2.cold.patrolled < coldPages s2 then .next (pageRead reads.read { s2 with cold := { s2.cold with patrolled := s2.cold.patrolled + 1 } }) else .next s2

end Sys2Proof.Machine
end

