-- ==== Sys2Proof/Machine/Queries.lean ====
section
/-! DEFINITION. The query record: its fields, its check, its filter, its digest, and the replay record (07 R130-R135, R158-R160; 09
R196, R197). -/

namespace Sys2Proof.Machine

/-! ## Fields (R130, R131) -/

namespace Qr

/-- EPOCH. -/
def epoch (b : Bytes) : Nat := u64At b 8
/-- REPLAY_LENGTH. -/
def replayLength (b : Bytes) : Nat := u32At b 16
/-- K. -/
def k (b : Bytes) : Nat := u32At b 20
/-- SCAN_KEEP. -/
def scanKeep (b : Bytes) : Nat := u32At b 24
/-- RERANK_COUNT. -/
def rerank (b : Bytes) : Nat := u32At b 28
/-- PROBE_COUNT. -/
def probeCount (b : Bytes) : Nat := u32At b 32
/-- PROBE_BUDGET. -/
def probeBudget (b : Bytes) : Nat := u32At b 36
/-- BEAM_WIDTH. -/
def beamWidth (b : Bytes) : Nat := u16At b 40
/-- FILTER_COUNT. -/
def filterCount (b : Bytes) : Nat := u8At b 42
/-- MODE: 1 BOUNDED, 2 EXACT. -/
def mode (b : Bytes) : Nat := u8At b 43
/-- QUERY_FORMAT. -/
def format (b : Bytes) : Nat := u8At b 44
/-- SCAN_CODES: 1 BINARY, 2 PQ. -/
def scanCodes (b : Bytes) : Nat := u8At b 45
/-- REQUEST_DIGEST. -/
def wantsDigest (b : Bytes) : Bool := bit (u8At b 46) 0
/-- DEADLINE_US. -/
def deadlineUs (b : Bytes) : Nat := u32At b 48
/-- Where the binary code starts. -/
def codeAt (b : Bytes) : Nat := 64 + 32 * filterCount b
/-- Where the query vector starts. -/
def vectorAt (sch b : Bytes) : Nat := roundUp 16 (codeAt b + Sch.codeBytes sch)
/-- Format of the query vector. -/
def fmt (b : Bytes) : Fmt := (Fmt.ofCode (format b)).getD .fp32
/-- Bytes of the query vector. -/
def vectorBytes (sch b : Bytes) : Nat := if format b = 0 then 0 else elemBytes (fmt b) (Sch.dim sch)
/-- Where the vector ends, or the code where there is none. -/
def textEnd (sch b : Bytes) : Nat := if format b = 0 then codeAt b + Sch.codeBytes sch else vectorAt sch b + vectorBytes sch b
/-- Where the replay record starts. -/
def replayAt (sch b : Bytes) : Nat := roundUp 16 (textEnd sch b)
/-- The binary code. -/
def code (sch b : Bytes) : Bytes := slice b (codeAt b) (Sch.codeBytes sch)
/-- The query vector in FP32 (05 R97). -/
def values (sch b : Bytes) : List Num :=
  if format b = 0 then [] else (List.range (Sch.dim sch)).map fun i => r32 ((fmt b).value (elemAt (fmt b) (b.drop (vectorAt sch b)) i))

end Qr

/-! ## The filter (R134, R135) -/

/-- One filter clause. -/
structure Clause where
  field : Nat
  test : Nat                    -- 1 EQUAL, 2 RANGE, 3 MASK_ANY, 4 MASK_ALL
  negate : Bool
  a : Nat
  b : Nat
  deriving DecidableEq, Repr

/-- The clause at an offset. -/
def clauseAt (b : Bytes) (o : Nat) : Clause where
  field := u8At b o
  test := u8At b (o + 1)
  negate := bit (u8At b (o + 2)) 0
  a := u64At b (o + 16)
  b := u64At b (o + 24)

/-- `n` clauses from an offset on. -/
def clausesAt (b : Bytes) (off n : Nat) : List Clause := (List.range n).map fun i => clauseAt b (off + 32 * i)

/-- The tests that a field type allows (03 R50). -/
def testAllowed (type test : Nat) : Bool :=
  match test with
  | 1 => type != 7
  | 2 => type != 8
  | 3 | 4 => [3, 4, 8].contains type
  | _ => false

/-- A number that rises with a field value in the order of its type (R135, 08 R179). -/
def typeKey (type v : Nat) : Nat :=
  match type with
  | 5 => (v + 0x80000000) % (1 <<< 32)
  | 6 => (v + 0x8000000000000000) % (1 <<< 64)
  | 7 => scoreKey (if v = 0x80000000 then 0 else v)
  | _ => v

/-- The failure of the clause at an offset. -/
def clauseFail (sch b : Bytes) (o : Nat) : Option Nat :=
  let c := clauseAt b o
  let type := Sch.fieldType sch c.field
  let fits := fun v => decide (v < 1 <<< (8 * fieldSize type)) && !(type == 7 && Fmt.fp32.nonFinite v)
  firstFail [
    require (c.field < Sch.attrCount sch) o,
    require (testAllowed type c.test) (o + 1),
    require (leAt b (o + 2) 14 < 2) (o + 2),
    require (fits c.a) (o + 16),
    require (if c.test = 2 then fits c.b && typeKey type c.a ≤ typeKey type c.b else c.b == 0) (o + 24)]

/-- Field `i` of an attribute record. -/
def fieldValue (sch attr : Bytes) (i : Nat) : Nat := leAt attr ((fieldOffsets sch).getD i 0) (fieldSize (Sch.fieldType sch i))

/-- A clause passes. -/
def clausePasses (sch attr : Bytes) (c : Clause) : Bool :=
  let v := fieldValue sch attr c.field
  let key := typeKey (Sch.fieldType sch c.field)
  let hit := match c.test with
    | 1 => v == c.a
    | 2 => key c.a ≤ key v && key v ≤ key c.b
    | 3 => v &&& c.a != 0
    | _ => v &&& c.a == c.a
  hit != c.negate

/-- A row passes every clause. -/
def passes (sch : Bytes) (cs : List Clause) (r : Row) : Bool := cs.all (clausePasses sch r.attr)

/-! ## The digest (R160) -/

/-- The query record with the fields that the digest leaves out set to 0. -/
def digestText (sch b : Bytes) : Bytes :=
  let t := b.take (Qr.textEnd sch b)
  putBytes (putBytes (putBytes (putBytes (putBytes t 60 (zeros 4)) 48 (zeros 4)) 46 (zeros 1)) 43 (zeros 1)) 4 (zeros 16)

/-- The whole digest of a query. -/
def queryDigest (sch b : Bytes) : Bytes := sm3 (digestText sch b)

/-! ## The replay record (R158, R159) -/

/-- A skip entry. -/
def skipEntry (shard part : Nat) : Nat := shard <<< 48 + part

/-- The header of a replay record with its entries. -/
def replayBytes (entries : List Nat) (epoch plan digest stages : Nat) : Bytes :=
  padTo 16 (withCrc (toLE 4 0x50524C41 ++ toLE 4 entries.length ++ toLE 8 epoch ++ toLE 8 plan ++ toLE 8 digest ++ toLE 1 stages ++ zeros 27) ++
    (entries.map (toLE 8 ·)).flatten)

/-- The entries of the replay record at an offset. -/
def replayEntries (b : Bytes) (o : Nat) : List Nat := (List.range (u32At b (o + 4))).map fun i => u64At b (o + 64 + 8 * i)

/-- What a query is checked against. -/
structure QueryCtx where
  schema : Bytes
  stages : List Nat             -- STAGE_CODEs of its plan
  plan : Nat                    -- PLAN_ID
  beamLimit : Nat
  budgetLimit : Nat
  digests : Bool                -- REQUEST_DIGEST is known to the command's minor version (00 R5)
  held : List Nat               -- epochs that the query may name
  low : Nat                     -- on a sharded collection every epoch from `low` to `high` is held too (R191)
  high : Nat
  shards : Option Nat           -- SHARD_COUNT where the module coordinates the query
  shard : Nat                   -- the only SHARD of its entries otherwise
  parts : Nat                   -- partition count of the tree version current at EPOCH
  deriving DecidableEq, Repr

/-- The query may name this epoch (06 R125). -/
def QueryCtx.holds (x : QueryCtx) (e : Nat) : Bool := e == 0xFFFFFFFFFFFFFFFF || x.held.contains e || (x.low ≤ e && e < x.high)

/-- The failure of one skip entry, with the one before it (R160, R197). DEDUCED (log entry 18). -/
def entryFail (x : QueryCtx) (b : Bytes) (o : Nat) (prev : Option Nat) : Option Nat :=
  let part := u32At b o
  firstFail [
    require (match x.shards with
      | some _ => part < 16777216 || part == 0xFFFFFFFD || part == 0xFFFFFFFE || part == 0xFFFFFFFF
      | none => part < x.parts) o,
    require (match prev with | none => true | some p => p < u64At b o) o,
    reserved b (o + 4) 2,
    require (match x.shards with | some n => u16At b (o + 6) < n | none => u16At b (o + 6) == x.shard) (o + 6)]

/-- The failure of the entries from number `i` on. -/
def entriesFail (x : QueryCtx) (b : Bytes) (base : Nat) : Nat → Nat → Option Nat → Option Nat
  | 0, _, _ => none
  | n + 1, i, prev =>
    match entryFail x b (base + 8 * i) prev with
    | some e => some e
    | none => entriesFail x b base n (i + 1) (some (u64At b (base + 8 * i)))

/-- The failure of the replay record at `o`, of a query that starts at `q` (R160). DEDUCED (log entry 18). -/
def replayFail (x : QueryCtx) (query b : Bytes) (o : Nat) : Option Nat :=
  let len := Qr.replayLength query
  let n := u32At b (o + 4)
  firstFail [
    require (u32At b o == 0x50524C41) o,
    require (u32At b (o + 60) == crc32c (slice b o 60)) (o + 60),
    require (roundUp 16 (64 + 8 * n) == len) (o + 4),
    require (u64At b (o + 8) == Qr.epoch query) (o + 8),
    require (u64At b (o + 16) == x.plan) (o + 16),
    require (u64At b (o + 24) == u64At (queryDigest x.schema query) 0) (o + 24),
    require (u8At b (o + 32) < 4) (o + 32),
    reserved b (o + 33) 27,
    entriesFail x b (o + 64) n 0 none,
    padding b (o + 64 + 8 * n) (len - 64 - 8 * n)]

/-! ## The check (R132, R133) -/

/-- Offsets are from the start of the query record. The failure of a query of a collection as a status and an offset. DEDUCED (log entry 18). -/
def queryFail (x : QueryCtx) (b : Bytes) : Option (Nat × Nat) :=
  let sch := x.schema
  let ham := Sch.distance sch == 1
  if u32At b 0 ≠ 0x59514C41 then some (Status.invalidField, 0)
  else if u32At b 4 ≠ b.length then some (Status.lengthMismatch, 0)
  else if u32At b 60 ≠ crc32c (slice b 0 60) then some (Status.invalidField, 60)
  else if u32At b 4 % 16 ≠ 0 then some (Status.invalidField, 4)
  else if x.holds (Qr.epoch b) = false then some (Status.epochUnavailable, 0)
  else
    let k := Qr.k b
    let keep := Qr.scanKeep b
    let rr := Qr.rerank b
    let rl := Qr.replayLength b
    let f := Qr.format b
    let pq := Qr.scanCodes b == 2
    (firstFail [
      require (rl == 0 || (64 ≤ rl && rl % 16 == 0)) 16,
      require (k ≤ 65536) 20,
      require (if ham then keep == 0 else k ≤ keep && keep ≤ 65536) 24,
      require (rr == 0 || (k ≤ rr && rr ≤ 65536 && (ham || (rr ≤ keep && x.stages.contains 0x06)))) 28,
      require (Qr.probeBudget b ≤ x.budgetLimit && (Qr.probeCount b == 0) == (Qr.probeBudget b == 0) && Qr.probeCount b ≤ Qr.probeBudget b) 36,
      require (1 ≤ Qr.beamWidth b && Qr.beamWidth b ≤ x.beamLimit) 40,
      require (Qr.filterCount b ≤ 8) 42,
      require (1 ≤ Qr.mode b && Qr.mode b ≤ 2) 43,
      require ((if ham then f == 0 else 1 ≤ f && f ≤ 5) &&
        b.length == (if rl = 0 then roundUp 16 (Qr.textEnd sch b) else Qr.replayAt sch b + rl)) 44,
      require ((Qr.scanCodes b == 1 || (pq && ham && Sch.pqBits sch != 0)) &&
        (!ham || rr == 0 || (pq && x.stages.contains 0x06)) && (!pq || x.stages.contains 0x04)) 45,
      require (leAt b 46 2 < 2 && (x.digests || !Qr.wantsDigest b)) 46,
      require (1 ≤ Qr.deadlineUs b && Qr.deadlineUs b ≤ 60000000) 48,
      reserved b 52 8,
      firstFail ((List.range (Qr.filterCount b)).map fun i => clauseFail sch b (64 + 32 * i)),
      (if f = 0 then none else nonFiniteAt b (Qr.fmt b) (Qr.vectorAt sch b) (Sch.dim sch)),
      padding b (Qr.codeAt b + Sch.codeBytes sch) (Qr.vectorAt sch b - Qr.codeAt b - Sch.codeBytes sch),
      padding b (Qr.textEnd sch b) (Qr.replayAt sch b - Qr.textEnd sch b),
      (if rl = 0 then none else replayFail x b b (Qr.replayAt sch b))]).map fun o => (Status.invalidField, o)

/-! ## What a query takes from its record -/

/-- The entries and the stages of its replay record. -/
def replayOf (sch b : Bytes) : Option (List Nat × Nat) :=
  if Qr.replayLength b = 0 then none else some (replayEntries b (Qr.replayAt sch b), u8At b (Qr.replayAt sch b + 32))

/-- The part of a host's query that goes to one shard: its own entries, and its markers as stages (09 R193, R197). -/
def shardRecord (sch b : Bytes) (epoch shard plan : Nat) : Bytes :=
  let at_ := Qr.replayAt sch b
  let text := putBytes (b.take at_) 8 (toLE 8 epoch)
  match replayOf sch b with
  | none => putBytes text 60 (toLE 4 (crc32c (slice text 0 60)))
  | some r =>
    let mine := r.1.filter fun e => e >>> 48 == shard
    let stages := flagIf (mine.any fun e => e % (1 <<< 32) == 0xFFFFFFFD) 1 + flagIf (mine.any fun e => e % (1 <<< 32) == 0xFFFFFFFE) 2
    let rep := replayBytes (mine.filter fun e => e % (1 <<< 32) < 16777216) epoch plan (u64At b (at_ + 24)) stages
    let sized := putBytes (putBytes text 4 (toLE 4 (at_ + rep.length))) 16 (toLE 4 rep.length)
    putBytes sized 60 (toLE 4 (crc32c (slice sized 0 60))) ++ rep

end Sys2Proof.Machine
end

