-- ==== Sys2Proof/Machine/Probing.lean ====
section
/-! DEFINITION. The stages of a query up to final selection: the beam walk, probe rounds, Sloe passes, the append-list pass, the ADC scan,
cuts and re-rank, and the two cut instants (07 R139-R157, R162; 03 R48; 05 R95-R97). -/

namespace Sys2Proof.Machine

/-! ## What a query reads -/

/-- The clauses of a query; a count over a column has those of its request (08 R177). -/
def clausesOf (q : Query) : List Clause :=
  match q.origin with
  | .column _ => clausesAt q.request 64 (u8At q.request 43)
  | _ => clausesAt q.record 64 (Qr.filterCount q.record)

/-- A query counts a column. -/
def isColumn (q : Query) : Bool := match q.origin with | .column _ => true | _ => false

/-- Its scan scores PQ codes (HAMMING with SCAN_CODES PQ). -/
def pqScan (sch : Bytes) (q : Query) : Bool := Sch.distance sch == 1 && Qr.scanCodes q.record == 2

/-- Rows of a list that are live at E and pass the filter. -/
def matching (c : Coll) (q : Query) (rows : List Row) : List Row := rows.filter fun r => rowLive c q.epoch r && passes c.schema (clausesOf q) r

/-- The partitions that the query reads. -/
def partsOf (c : Coll) (q : Query) : List (List Row) := ((treeAt c q.epoch).map (·.parts)).getD []

/-- The rows of one of them. -/
def partRows (c : Coll) (q : Query) (part : Nat) : List Row := (partsOf c q).getD part []

/-! ## Scores (R145) -/

/-- The Hamming distance of a row as a score (05 R95). -/
def hammingScore (code : Bytes) (r : Row) : Nat := canonScore (.fin false (hamming code r.code) 0)

/-- The exact score of a row (05 R97). -/
def rowScore (sch : Bytes) (q : Query) (r : Row) : Nat :=
  if Sch.distance sch = 1 then hammingScore (Qr.code sch q.record) r
  else canonScore (exactScore (Sch.distance sch) .fp32 .fp32 (Qr.values sch q.record) (fullValues sch r.full))

/-- A query's asymmetric-distance table with the scale and offset of its scores (03 R48, 04 R82). -/
structure AdcTable where
  rows : List (List Nat)
  delta : Num
  offset : Num
  deriving DecidableEq, Repr

/-- The table of a query against a codebook. -/
def adcTableOf (sch book : Bytes) (q : Query) : AdcTable :=
  let words := (List.range (Sch.pqM sch)).map fun j => (j, codeWords sch book j)
  if Sch.distance sch = 1 then
    let sub := fun j => slice (Qr.code sch q.record) (j * (Sch.subSize sch / 8)) (Sch.subSize sch / 8)
    { rows := words.map fun w => w.2.map (hamming (sub w.1)), delta := .fin false 1 0, offset := .zero }
  else
    let v := (Qr.values sch q.record).map (narrowVal .bf16)
    let n := Sch.subSize sch
    let d := words.map fun w => w.2.map fun x => exactScore (Sch.distance sch) .bf16 .bf16 ((v.drop (w.1 * n)).take n) (bf16Values x n)
    let t := adcTable d
    { rows := t.1, delta := t.2.1, offset := t.2.2 }

/-- The ADC score of a row, and whether its sum saturated (05 R96). -/
def adcRow (sch : Bytes) (t : AdcTable) (r : Row) : Nat × Bool :=
  let sum := sumOf (((List.range t.rows.length).zip t.rows).map fun p => p.2.getD (pqIndex (Sch.pqBits sch) r.pq p.1) 0)
  let s := adcSum16 sum
  (if Sch.distance sch = 1 then canonScore (.fin false s.1 0) else canonScore (adcScore s.1 t.delta t.offset), s.2)

/-- A candidate. -/
def candOf (score stage shard part : Nat) (r : Row) : Cand := { score := score, id := r.id, stage := stage, shard := shard, part := part }

/-- ACC_SATURATED and ADC_SUM_SATURATIONS of `n` saturated candidates. -/
def noteSaturated (key n : Nat) (s : State) : State :=
  if n = 0 then s else bumpBy Key.adcSumSaturations n (updQuery key (fun q => { q with saturated := true }) s)

/-! ## Probes (R140-R142) -/

/-- The row groups of a partition of `n` rows. -/
def rowGroups (sch : Bytes) (n : Nat) : List (Nat × Nat) :=
  (List.range (ceilDiv n 4096)).flatMap fun i =>
    (List.range (ceilDiv (min 4096 (n - 4096 * i)) (groupRows sch))).map fun g => (i, g)

/-- Partitions that the replay record of a query lists for its shard. -/
def listedParts (q : Query) : List Nat := ((q.replay.map (·.1)).getD []).map (· % (1 <<< 32))

/-- A partition is issued. One that is listed, and one without rows, is complete at once. -/
def freshProbe (c : Coll) (q : Query) (part : Nat) : Probe where
  part := part
  groups := []
  matched := 0
  damaged := false
  complete := (listedParts q).contains part || (partRows c q part).isEmpty

/-- The next positions of the probe list are issued, up to `upTo`. -/
def issue (c : Coll) (upTo : Nat) (q : Query) : Query :=
  let n := min upTo q.probeList.length
  { q with probes := q.probes ++ ((q.probeList.take n).drop q.taken).map (freshProbe c q), taken := n }

/-- The match count. -/
def matchCount (q : Query) : Nat := q.appendMatch + sumOf (q.probes.map (·.matched))

/-- The cut of a binary scan (R143): SCAN_KEEP, or K where final selection cuts. -/
def scanCutCount (sch : Bytes) (q : Query) : Nat := if Sch.distance sch = 1 then Qr.k q.record else Qr.scanKeep q.record

/-- RADIUS_UPDATE (R143): once the selection unit holds as many candidates as the cut keeps, the engines get the largest score that it can still
keep. A query that scans PQ codes has no radius. -/
def lowerRadius (sch : Bytes) (q : Query) : Query :=
  let n := scanCutCount sch q
  match (selectK n q.cands).list.getLast? with
  | some x => if pqScan sch q = false ∧ 0 < n ∧ n ≤ q.cands.length ∧ scoreKey x.score < scoreKey q.radius then { q with radius := x.score } else q
  | none => q

/-- The candidates of a completed partition with their saturated sums. An engine forwards no row above the radius. -/
def partCands (c : Coll) (q : Query) (shard part : Nat) (rows : List Row) : List Cand × Nat :=
  let code := Qr.code c.schema q.record
  if isColumn q then ([], 0)
  else if pqScan c.schema q then
    let t := adcTableOf c.schema (((treeAt c q.epoch).map (·.codebook)).getD []) q
    let scored := rows.map fun r => (adcRow c.schema t r, r)
    (scored.map fun p => candOf p.1.1 2 shard part p.2, (scored.filter (·.1.2)).length)
  else
    let all := rows.map fun r => candOf (hammingScore code r) (if Sch.distance c.schema = 1 then 3 else 1) shard part r
    (all.filter fun x => scoreKey x.score ≤ scoreKey q.radius, 0)

/-- A partition of a query is complete: its matches and candidates join the query, unless its data is uncorrectable (R162). -/
def completeProbe (c : Coll) (key shard : Nat) (p : Probe) (s : State) : State :=
  match findQuery s key with
  | none => s
  | some q =>
    let put := fun (p' : Probe) (q : Query) => { q with probes := mapIf (fun x => x.part == p.part) (fun _ => p') q.probes }
    if p.damaged then updQuery key (fun x => put { p with complete := true } { x with media := x.media ++ [p.part] }) s
    else
      let rows := matching c q (partRows c q p.part)
      let r := partCands c q shard p.part rows
      noteSaturated key r.2 (updQuery key (fun x => lowerRadius c.schema (put { p with complete := true, matched := rows.length } { x with cands := x.cands ++ r.1 })) s)

/-- One query of a Sloe pass: the pass adds row groups to the partition; the last completes it. From T_SC on none completes (R154). DESIGN CHOICE (log entry 17). -/
def passFor (c : Coll) (part stripe : Nat) (groups : List Nat) (s : State) (key : Nat) : State :=
  match findQuery s key with
  | none => s
  | some q =>
    match q.probes.find? (fun p => p.part == part && !p.complete) with
    | none => s
    | some p =>
      if q.phase ≠ .scanning ∨ q.coll ≠ c.id ∨ (q.exact = false ∧ q.tsc ≤ s.now) then s
      else
        let all := rowGroups c.schema (partRows c q part).length
        let seen := dedup (p.groups ++ (groups.map fun g => (stripe, g)).filter all.contains)
        let p' := { p with groups := seen, damaged := p.damaged || partHurt c q.order part || partHurt c q.order treeMark || q.media.contains part }
        if all.length ≤ seen.length then completeProbe c key (ownShardNo s c.id) p' s
        else updQuery key (fun x => { x with probes := mapIf (fun y => y.part == part) (fun _ => p') x.probes }) s

/-- SLOE_PASS (R142): an engine scans those of the row groups of a stripe that lie on its own channel, for at most 64 queries; `bursts` are those with errors
that it reads there. The engine of a channel that is out of service is off (12 R287), and a stripe that is not back in HBM after a
reset is not scanned (13 R313). It reads past the caches (12 R271). -/
def execSloePass (engine coll part stripe : Nat) (groups queries : List Nat) (bursts : List Scrub) (s : State) : Res :=
  let s0 := placeTiles s
  match findColl s0 coll with
  | none => .next s
  | some c0 =>
    if 384 ≤ engine ∨ 64 < queries.length ∨ c0.unrestored.contains part then .next s
    else
      let s1 := readBursts (bursts.filter (·.channel == engine)) (bypassRead (· == .partition coll part) s0)
      let mine := groups.filter fun g => engineOf s1 coll part stripe g == some engine
      match findColl s1 coll with
      | none => .next s1
      | some c => .next (queries.foldl (passFor c part stripe mine) s1)

/-! ## The append-list pass (R150) -/

/-- The append-list pass of a query: matches, Hamming candidates, and the candidates with exact scores. DESIGN CHOICE (log entry 17). -/
def appendPass (c : Coll) (shard : Nat) (q : Query) (s : State) : State :=
  if partHurt c q.order 0xFFFFFFFF then updQuery q.key (fun x => { x with media := x.media ++ [0xFFFFFFFF] }) s
  else
    let rows := matching c q (appendAt c q.epoch)
    if isColumn q then updQuery q.key (fun x => { x with appendMatch := rows.length }) s
    else
      let ham := Sch.distance c.schema == 1
      let code := Qr.code c.schema q.record
      let bins := rows.map fun r => candOf (hammingScore code r) (if ham then 3 else 1) shard 0xFFFFFFFF r
      if ham then updQuery q.key (fun x => { x with appendMatch := rows.length, appendBin := bins, appendCands := bins }) s
      else
        let kept := (selectK (Qr.scanKeep q.record) bins).list
        let exact := kept.filterMap fun b => (rows.find? (·.id == b.id)).map fun r => candOf (rowScore c.schema q r) 3 shard 0xFFFFFFFF r
        countPasses (Qr.scanKeep q.record) (updQuery q.key (fun x => { x with appendMatch := rows.length, appendBin := kept, appendCands := exact }) s)

/-! ## The path after the scan (R129, R146-R149, R155) -/

/-- T_LS of a query is past. -/
def lateNow (s : State) (q : Query) : Bool := !q.exact && q.tls ≤ s.now

/-- The replay record lists a stage, by its bit in SKIPPED_STAGES. -/
def replaySkips (q : Query) (bit_ : Nat) : Bool := match q.replay with | some r => bit r.2 bit_ | none => false

/-- An intermediate cut to `n` (R146). -/
def cutTo (key n : Nat) (s : State) : State := countPasses n (updQuery key (fun q => { q with cands := (selectK n q.cands).list }) s)

/-- max(K, RERANK_COUNT). -/
def lateCut (q : Query) : Nat := max (Qr.k q.record) (Qr.rerank q.record)

/-- Stage 5 is next, or it is skipped, or the path has none. -/
def toRerank (key : Nat) (s : State) : State :=
  match findQuery s key with
  | none => s
  | some q =>
    if Qr.rerank q.record = 0 then updQuery key (fun x => { x with phase := .final }) s
    else if replaySkips q 1 || lateNow s q then updQuery key (fun x => { x with phase := .final, stages := x.stages ||| 2 }) s
    else updQuery key (fun x => { x with phase := .rerank }) s

/-- Stage 3 is skipped: stage 4 cuts the survivors by their BINARY scores. -/
def skipAdc (key : Nat) (s : State) : State :=
  match findQuery s key with
  | none => s
  | some q => toRerank key (cutTo key (lateCut q) (updQuery key (fun x => { x with stages := x.stages ||| 1 }) s))

/-- Stages 1 and 2 and the append-list pass have ended. DESIGN CHOICE (log entry 17). -/
def afterScan (key : Nat) (s : State) : State :=
  match findQuery s key with
  | none => s
  | some q =>
    match findColl s q.coll with
    | none => s
    | some c =>
      let sch := c.schema
      if isColumn q then updQuery key (fun x => { x with phase := .final }) s
      else if Sch.distance sch = 1 then
        if pqScan sch q then toRerank key (cutTo key (lateCut q) s) else updQuery key (fun x => { x with phase := .final }) s
      else
        let s1 := cutTo key (Qr.scanKeep q.record) s
        if q.adc then (if replaySkips q 0 || lateNow s q then skipAdc key s1 else updQuery key (fun x => { x with phase := .adc }) s1)
        else toRerank key (cutTo key (lateCut q) s1)

/-- Every issued partition is complete. -/
def roundDone (q : Query) : Bool := q.probes.all (·.complete)

/-- The match count is below K and positions are left. -/
def mustWiden (q : Query) : Bool := !isColumn q && matchCount q < Qr.k q.record && q.taken < q.probeList.length

/-- A pinned level of the collection is being restored from the cold tier (12 R275). -/
def levelLost (s : State) (coll : Nat) : Bool := s.hbm.hurt.any (·.obj == .level coll)

/-- PROBE_ROUND (R140): the probe widens, or the scan ends; it waits for a tree level that is being restored (12 R275). From T_SC on no partition is issued; SCAN_CUT decides then. DESIGN CHOICE (log entry 17). -/
def execProbeRound (key : Nat) (s : State) : Res :=
  match findQuery s key with
  | none => .next s
  | some q =>
    match findColl s q.coll with
    | none => .next s
    | some c =>
      if q.phase ≠ .scanning ∨ roundDone q = false ∨ levelLost s q.coll then .next s
      else if mustWiden q then
        if !q.exact && q.tsc ≤ s.now then .next s
        else .next (bump Key.wideningRounds (updQuery key (issue c (q.taken + Qr.probeCount q.record)) s))
      else .next (afterScan key s)

/-! ## The cut instants (R153-R157) -/

/-- The cut of a scan: what is not complete is withdrawn, and the skipped set is formed (R154). -/
def scanCut (q : Query) : Query :=
  let open_ := (q.probes.filter (!·.complete)).map (·.part)
  let kept := { q with probes := q.probes.filter (·.complete) }
  { kept with skips := open_ ++ (if matchCount kept < Qr.k q.record then q.probeList.drop q.taken else []) }

/-- SCAN_CUT (R154): a bounded query still in stage 1 or 2 at T_SC. DESIGN CHOICE (log entry 17). -/
def execScanCut (key t : Nat) (s : State) : Res :=
  let s0 := tick t s
  match findQuery s0 key with
  | none => .next s0
  | some q =>
    .next (if q.phase = .scanning ∧ q.exact = false ∧ q.tsc ≤ s0.now then afterScan key (updQuery key scanCut s0) else s0)

/-- LATE_STAGE_CUT (R155): stages 3 and 5 that are not complete at T_LS are skipped whole. -/
def lateStage (key : Nat) (s : State) : State :=
  match findQuery s key with
  | none => s
  | some q =>
    match q.phase with
    | .adc => skipAdc key s
    | .rerank => updQuery key (fun x => { x with phase := .final, stages := x.stages ||| 2 }) s
    | _ => s

/-- LATE_STAGE_CUT. DESIGN CHOICE (log entry 17). -/
def execLateStageCut (key t : Nat) (s : State) : Res :=
  let s0 := tick t s
  match findQuery s0 key with
  | none => .next s0
  | some q => .next (if lateNow s0 q then lateStage key s0 else s0)

/-- ADC_SCAN (R147): the survivors are scored from their PQ codes and cut. An end after T_LS comes too late. DESIGN CHOICE (log entry 17). -/
def execAdcScan (key : Nat) (s : State) : Res :=
  match findQuery s key with
  | none => .next s
  | some q =>
    match findColl s q.coll with
    | none => .next s
    | some c =>
      if q.phase ≠ .adc then .next s
      else if !q.exact && q.tls < s.now then .next (lateStage key s)
      else
        let t := adcTableOf c.schema (((treeAt c q.epoch).map (·.codebook)).getD []) q
        let scored := q.cands.filterMap fun x => ((partRows c q x.part).find? (·.id == x.id)).map fun r => (adcRow c.schema t r, candOf 0 2 x.shard x.part r)
        let cands := scored.map fun p => { p.2 with score := p.1.1 }
        let s1 := noteSaturated key (scored.filter (·.1.2)).length (updQuery key (fun x => { x with cands := cands, binaryScores := false }) s)
        .next (toRerank key (cutTo key (lateCut q) s1))

/-- RERANK (R149): every candidate is scored exactly; one whose full vector is uncorrectable is dropped (R162), as are those of
pages known to be lost (13 R303). DESIGN CHOICE (log entry 17). -/
def execRerank (key : Nat) (reads : RerankReads) (s : State) : Res :=
  let s := if (findQuery s key).any (·.phase == .rerank) then readBursts reads.bursts s else s
  match findQuery s key with
  | none => .next s
  | some q =>
    match findColl s q.coll with
    | none => .next s
    | some c =>
      if q.phase ≠ .rerank then .next s
      else if !q.exact && q.tls < s.now then .next (lateStage key s)
      else
        let parts := ((treeAt c q.epoch).map (·.parts)).getD []
        let pageGone := fun x : Cand => !Sch.pinFull c.schema && pagesLost s 1 c.id (vectorLpns c.id c.schema (parts.getD x.part []) x.id)
        let isGone := fun x : Cand => reads.lost.contains x.id || partHurt c q.order (fullMark + x.part) || pageGone x
        let kept := q.cands.filter fun x => !isGone x
        let gone := (q.cands.filter isGone).map (·.part)
        let cands := kept.filterMap fun x => ((partRows c q x.part).find? (·.id == x.id)).map fun r => candOf (rowScore c.schema q r) 3 x.shard x.part r
        .next (updQuery key (fun x => { x with phase := .final, cands := cands, media := x.media ++ gone, binaryScores := false }) s)

/-- A query waits for data. -/
def waitsForData (q : Query) : Bool := q.phase == .scanning || q.phase == .rerank || q.phase == .adc

/-- QUERY_STALL (R157): a query without cut instants still waits for data at its deadline instant; its own shard's wait counts for a
coordinator's query. -/
def execQueryStall (key t : Nat) (s : State) : Res :=
  let s0 := tick t s
  match findQuery s0 key with
  | none => .next s0
  | some q =>
    let waits := waitsForData q || (q.phase == .shards && s0.search.queries.any fun x => selfOf key x && waitsForData x)
    .next (if q.exact ∧ q.stalled = false ∧ q.deadline ≠ 0 ∧ q.deadline ≤ s0.now ∧ waits then
        bump Key.queryStalls (updQuery key (fun x => { x with stalled := true }) s0)
      else s0)

end Sys2Proof.Machine
end

