-- ==== Sys2Proof/Machine/Results.lean ====
section
/-! DEFINITION. Final selection, the result set, the count table, a shard's reply, and the coordinator's merge (03 R55 R56; 07 R151 R152
R158 R161 R162; 08 R177-R179; 09 R194-R197 R201; 17 R415). -/

namespace Sys2Proof.Machine

/-- What a query has found. -/
structure Found where
  list : PList
  degraded : Bool
  replay : Bytes                -- the replay record, empty unless degraded
  media : List Nat              -- entries of the affected-media list, ascending
  deriving DecidableEq, Repr

/-! ## The union (R151) -/

/-- The cluster that holds a query: which one it is changes no result (R173). DESIGN CHOICE (log entry 17). -/
def clusterOf (q : Query) : Nat := q.key % 32

/-- The partial lists of a query of this module's own rows: the cluster's list over the tree path's candidates, and the list of the append
pass (08 R170). -/
def ownParts (shard : Nat) (q : Query) : List (Source × Bytes) :=
  let k := Qr.k q.record
  let part := fun src l => (src, plistBytes src shard (selectK k l))
  [part (.cluster (clusterOf q)) q.cands, part .append (if q.binaryScores then q.appendBin else q.appendCands)]

/-- The selection of K from the union of the tree path's candidates and the append candidates (R151): the merge of their partial lists. -/
def ownList (shard : Nat) (q : Query) : PList :=
  let k := Qr.k q.record
  (mergeLists ((ownParts shard q).filterMap fun p => parsePlist p.1 p.2 k shard) k).1

/-- Affected-media entries of a query that this module scanned. DEDUCED (log entry 66). -/
def mediaOf (shard : Nat) (q : Query) : List Nat := sortOn id (dedup (q.media.map (skipEntry shard)))

/-- The replay record of a query that this module scanned (R158, R160); a replayed one returns its own. -/
def replayOut (sch : Bytes) (shard : Nat) (q : Query) : Bytes :=
  if q.replay.isSome then slice q.record (Qr.replayAt sch q.record) (Qr.replayLength q.record)
  else if q.skips.isEmpty && q.stages == 0 then []
  else replayBytes (sortOn id (dedup (q.skips.map (skipEntry shard)))) q.epoch q.plan (u64At (queryDigest sch q.record) 0) q.stages

/-- What a query of this module's own rows has found. -/
def ownFound (sch : Bytes) (shard : Nat) (q : Query) : Found where
  list := ownList shard q
  degraded := q.replay.isSome || !q.skips.isEmpty || q.stages != 0
  replay := replayOut sch shard q
  media := mediaOf shard q

/-- SKIPPED_PARTITIONS and SKIPPED_STAGES of a query that is not a replay (R164). -/
def countSkips (q : Query) (s : State) : State :=
  if q.replay.isSome then s
  else bumpBy Key.skippedStages (q.stages % 2 + q.stages / 2 % 2) (bumpBy Key.skippedPartitions (dedup q.skips).length s)

/-! ## The coordinator (09 R194-R197) -/

/-- Entries of the whole result's replay record. -/
def shardSkips (q : Query) : List Nat :=
  sortOn id (dedup (q.shards.flatMap fun w => if w.skipped then [skipEntry w.shard 0xFFFFFFFF] else w.skips))

/-- Lists in ascending shard, an empty one for each skipped shard. -/
def shardLists (q : Query) : List PList :=
  (sortOn (·.shard) q.shards).map fun w =>
    match w.list with
    | some l => if w.skipped then { list := [], ties := 0, k := Qr.k q.record } else { list := l.1, ties := l.2.1, k := l.2.2 }
    | none => { list := [], ties := 0, k := Qr.k q.record }

/-- Whether a shard's part makes the result degraded. -/
def shardDegraded (w : ShardWait) : Bool := w.skipped || w.degraded

/-- What a coordinator's query has found, and the copies that its merge dropped. -/
def mergedFound (sch : Bytes) (q : Query) : Found × Nat :=
  let m := coordinatorMerge (shardLists q) (Qr.k q.record)
  let degraded := q.replay.isSome || q.shards.any shardDegraded
  let stages := (q.shards.map (·.stages)).foldl (· ||| ·) 0
  let replay :=
    if q.replay.isSome then slice q.record (Qr.replayAt sch q.record) (Qr.replayLength q.record)
    else if degraded then replayBytes (shardSkips q) q.epoch q.plan (u64At (queryDigest sch q.record) 0) stages
    else []
  ({ list := m.1, degraded := degraded, replay := replay, media := sortOn id (dedup (q.shards.flatMap (·.media))) }, m.2)

/-! ## The result set (03 R55) -/

/-- The filter left fewer than K entries (R161). -/
def exhausted (q : Query) (f : Found) : Bool := Qr.filterCount q.record != 0 && f.list.list.length < Qr.k q.record

/-- The result set to the start of its digest part. -/
def resultBody (q : Query) (f : Found) (digestLen : Nat) : Bytes :=
  let media := (f.media.map (toLE 8 ·)).flatten
  let flags := flagIf f.degraded 1 + flagIf (exhausted q f) 2 + flagIf (!f.media.isEmpty) 4
  let body := toLE 4 0x53524C41 ++ zeros 8 ++ toLE 4 digestLen ++ toLE 8 q.plan ++ toLE 4 media.length ++ toLE 4 flags ++ toLE 4 f.replay.length ++
    toLE 4 f.list.ties ++ toLE 4 f.list.list.length ++ toLE 4 (Qr.k q.record) ++ toLE 8 q.epoch ++ toLE 8 q.tag ++
    recordsBytes f.list.list (Qr.k q.record) ++ f.replay ++ media
  if digestLen = 0 then body else padTo 16 body

/-- The signed digest part without its signature (17 R415). -/
def digestHead (s : State) (sch : Bytes) (q : Query) (body : Bytes) : Bytes :=
  toLE 4 0x44534C41 ++ toLE 4 160 ++ toLE 8 s.now ++ toLE 8 s.sec.signCount ++ toLE 8 identityDigest ++ queryDigest sch q.record ++ sm3 body

/-- The whole result set. -/
def resultSet (s : State) (sch : Bytes) (q : Query) (f : Found) : Bytes :=
  if Qr.wantsDigest q.record then
    let body := resultBody q f 160
    let head := digestHead s sch q body
    body ++ head ++ signBytes s head
  else resultBody q f 0

/-- Completion flags of a query. -/
def resultFlags (q : Query) (f : Found) : Nat :=
  flagIf q.saturated Cflag.accSaturated + flagIf f.degraded Cflag.degraded + flagIf (!f.media.isEmpty) Cflag.incomplete +
    flagIf (exhausted q f) Cflag.filterExhausted

/-- A query ends: what it needed may be released. -/
def dropQuery (q : Query) (s : State) : State :=
  settle q.coll { s with search := { s.search with queries := s.search.queries.filter (·.key ≠ q.key) } }

/-- Status of a result (R152). DEDUCED (log entry 66). -/
def mediaStatus (media : List Nat) : Nat := if media.isEmpty then Status.success else Status.incompleteMedia

/-- The counters of a result set that is written (R161, R164; 17 R415). -/
def countResult (q : Query) (f : Found) (s : State) : State :=
  let s1 := bump Key.queriesCompleted s
  let s2 := if f.degraded then bump Key.degradedResults s1 else s1
  let s3 := if exhausted q f then bump Key.filterExhaustedResults s2 else s2
  if Qr.wantsDigest q.record then bump Key.signedDigests (signed s3) else s3

/-- The command of a query. -/
def queryCmd (s : State) (q : Query) : Option Cmd :=
  match q.origin with
  | .search n => findCmd s n
  | .count n => findCmd s n
  | .column n => findCmd s n
  | _ => none

/-- An output that is too long for the host's buffer writes nothing (15 R360). DEDUCED (log entry 18). -/
def tooLong (c : Cmd) (n : Nat) (s : State) : State := finish c.seq { status := Status.lengthMismatch, info := n } [] s

/-- A SEARCH ends with its result set (R152). DEDUCED (log entry 18). -/
def deliverSearch (c : Cmd) (sch : Bytes) (q : Query) (f : Found) (s : State) : State :=
  let out := resultSet s sch q f
  if c.entry.outLen < out.length then tooLong c out.length s
  else finish c.seq { status := mediaStatus f.media, info := q.epoch, flags := resultFlags q f, outBytes := out.length } out (countResult q f s)

/-! ## The count table (08 R177-R179) -/

/-- A field value as it is counted: −0 and +0 are one value. -/
def countedValue (type v : Nat) : Nat := if type = 7 ∧ v = 0x80000000 then 0 else v

/-- Each distinct value with the number of rows that hold it, in the order of its type. -/
def tally (type : Nat) (vs : List Nat) : List (Nat × Nat) :=
  (sortOn (fun v => typeKey type v) (dedup vs)).map fun v => (v, (vs.filter (· == v)).length)

/-- Rows of a column at E: those of the complete partitions and of the append list that pass (R177). -/
def columnRows (c : Coll) (q : Query) : List Row :=
  let parts := (q.probes.filter fun p => p.complete && !p.damaged).flatMap fun p => matching c q (partRows c q p.part)
  parts ++ (if q.media.contains 0xFFFFFFFF then [] else matching c q (appendAt c q.epoch))

/-- Values of the identifiers of a result. Those of rows that another shard returned are carried by no message: each is the open value
that the row's place gives, one and the same at one epoch (R18; notes/assumptions/8.md). DESIGN CHOICE (log entry 8); DEDUCED (log entry 65). -/
def resultValues (c : Coll) (q : Query) (field : Nat) (l : List Cand) : List Nat :=
  let type := Sch.fieldType c.schema field
  l.map fun x => countedValue type (match (liveRows c q.epoch).find? (·.id == x.id) with
    | some row => fieldValue c.schema row.attr field
    | none => Config.remoteValue c.id q.epoch x.id field % (1 <<< (8 * fieldSize type)))

/-- The count table. -/
def countTable (type limit epoch : Nat) (vs media : List Nat) : Bytes :=
  let all := tally type vs
  let kept := all.take limit
  let list := (media.map (toLE 8 ·)).flatten
  let flags := flagIf (limit < all.length) 1 + flagIf (!media.isEmpty) 2
  toLE 4 0x54434C41 ++ toLE 4 (64 + 16 * kept.length + list.length) ++ zeros 24 ++ toLE 3 flags ++ toLE 1 type ++ toLE 4 kept.length ++
    toLE 8 all.length ++ toLE 8 vs.length ++ toLE 8 epoch ++ (kept.map fun p => toLE 8 p.1 ++ toLE 8 p.2).flatten ++ list

/-- FIELD_INDEX and MAX_VALUES of a request. -/
def countField (q : Query) : Nat := u8At q.request 42
/-- MAX_VALUES. -/
def countLimit (q : Query) : Nat := u32At q.request 44

/-- UNIQUE_COUNT_TRUNCATIONS. -/
def countTruncated (type : Nat) (q : Query) (vs : List Nat) (s : State) : State :=
  if countLimit q < (tally type vs).length then bump Key.uniqueCountTruncations s else s

/-- A count over a column ends. -/
def deliverColumn (cmd : Cmd) (c : Coll) (q : Query) (s : State) : State :=
  let type := Sch.fieldType c.schema (countField q)
  let vs := (columnRows c q).map fun r => countedValue type (fieldValue c.schema r.attr (countField q))
  let media := mediaOf (ownShardNo s c.id) q
  let out := countTable type (countLimit q) q.epoch vs media
  if cmd.entry.outLen < out.length then tooLong cmd out.length s
  else finish cmd.seq { status := mediaStatus media, info := q.epoch, flags := flagIf (!media.isEmpty) Cflag.incomplete, outBytes := out.length } out
    (countTruncated type q vs s)

/-- A count over a result ends: the result set first, the table from the next multiple of 64 (15 R360). -/
def deliverCount (cmd : Cmd) (c : Coll) (q : Query) (f : Found) (s : State) : State :=
  let set := resultSet s c.schema q f
  let type := Sch.fieldType c.schema (countField q)
  let vs := resultValues c q (countField q) f.list.list
  let out := padTo 64 set ++ countTable type (countLimit q) q.epoch vs f.media
  if cmd.entry.outLen < out.length then tooLong cmd out.length s
  else finish cmd.seq { status := mediaStatus f.media, info := q.epoch, flags := resultFlags q f, outBytes := out.length } out
    (countTruncated type q vs (countResult q f s))

/-! ## A shard's reply (09 R199) -/

/-- The header of a reply. -/
def replyHeader (qid shard status offset epoch flags partial_ replay media : Nat) : Bytes :=
  withCrc (toLE 4 0x52534C41 ++ zeros 8 ++ toLE 4 flags ++ zeros 8 ++ toLE 4 offset ++ toLE 2 status ++ toLE 2 shard ++ toLE 8 qid ++ toLE 8 epoch ++
    toLE 4 media ++ toLE 4 replay ++ toLE 4 partial_)

/-- A reply without a list. -/
def errorReply (qid shard status offset epoch : Nat) : Bytes := replyHeader qid shard status offset epoch 0 0 0 0

/-- The reply with a shard's list. -/
def listReply (qid shard epoch : Nat) (missed : Bool) (f : Found) : Bytes :=
  let list := plistBytes .shard shard f.list
  let media := (f.media.map (toLE 8 ·)).flatten
  let flags := flagIf missed 1 + flagIf f.degraded 2 + flagIf (!f.media.isEmpty) 4
  replyHeader qid shard (mediaStatus f.media) 0 epoch flags list.length f.replay.length media.length ++ list ++ f.replay ++ media

/-- A shard's part of a coordinator's query, from what the shard found (R194, R196). -/
def waitOf (f : Found) (w : ShardWait) : ShardWait :=
  let stages := if f.replay.isEmpty then 0 else u8At f.replay 32
  { w with
    list := some (f.list.list.map (fun x => { x with shard := w.shard }), f.list.ties, f.list.k)
    degraded := f.degraded
    skips := (if f.replay.isEmpty then [] else replayEntries f.replay 0) ++
      (if bit stages 0 then [skipEntry w.shard 0xFFFFFFFD] else []) ++ (if bit stages 1 then [skipEntry w.shard 0xFFFFFFFE] else [])
    stages := stages
    media := f.media
    replied := true }

/-- The coordinator's query with the part of one shard. -/
def takePart (key shard : Nat) (g : ShardWait → ShardWait) (s : State) : State :=
  updQuery key (fun q => { q with shards := mapIf (fun w => w.shard == shard) g q.shards }) s

/-- Offset of a replay entry of a shard in the host's record, for the offset at which the shard failed (R197). -/
def hostOffset (sch : Bytes) (q : Query) (shard off : Nat) : Nat :=
  let at_ := Qr.replayAt sch q.record
  if q.replay.isNone || off < at_ + 64 then off
  else
    let all := (q.replay.map (·.1)).getD []
    let mine := ((List.range all.length).zip all).filter fun p => p.2 >>> 48 == shard && p.2 % (1 <<< 32) < 16777216
    match mine[(off - at_ - 64) / 8]? with
    | some p => at_ + 64 + 8 * p.1
    | none => off

/-- Where the attached query record of a command starts in its input. -/
def recordBase (q : Query) : Nat := match q.origin with | .count _ => 64 | _ => 0

/-- Every shard has replied or is skipped: the query ends with the status of the lowest failing shard, or goes to its merge (R202). -/
def concludeShards (key : Nat) (s : State) : State :=
  match findQuery s key with
  | none => s
  | some q =>
    if q.phase ≠ .shards || !(q.shards.all fun w => w.replied || w.skipped) then s
    else
      match (sortOn (·.shard) q.shards).find? fun w => w.replied && !w.skipped && w.list.isNone with
      | none => updQuery key (fun x => { x with phase := .final }) s
      | some w =>
        let s1 := dropQuery q s
        match queryCmd s1 q, findColl s1 q.coll with
        | some c, some k =>
          if w.status = Status.invalidField then failPayload c.seq (recordBase q + hostOffset k.schema q w.shard w.offset) s1 else fail c.seq w.status s1
        | some c, none => fail c.seq w.status s1
        | none, _ => s1

/-! ## FINAL_SELECTION (R151) -/

/-- This module's own shard list joins its coordinator's query; one that ends after T_SH does not (R194, R201). -/
def takeOwn (parent shard : Nat) (f : Found) (s : State) : State :=
  match findQuery s parent with
  | none => s
  | some q => if q.exact = false ∧ q.tsh < s.now then s else concludeShards parent (takePart parent shard (waitOf f) s)

/-- The result of a query goes where its origin says. -/
def finishQuery (c : Coll) (q : Query) (f : Found) (s : State) : State :=
  let shard := ownShardNo s c.id
  match q.origin with
  | .search _ => match queryCmd s q with | some cmd => deliverSearch cmd c.schema q f s | none => s
  | .count _ => match queryCmd s q with | some cmd => deliverCount cmd c q f s | none => s
  | .column _ => match queryCmd s q with | some cmd => deliverColumn cmd c q s | none => s
  | .peer m qid => sendSpp m Spp.shardSearchReply (listReply qid shard q.epoch (q.deadline != 0 && q.deadline < s.now) f) s
  | .self parent => takeOwn parent shard f s

/-- FINAL_SELECTION (R151, 09 R194): K entries are selected, or the shards' lists merged, and the result is written. DESIGN CHOICE (log entry 17). -/
def execFinalSelection (key t : Nat) (s : State) : Res :=
  let s0 := tick t s
  match findQuery s0 key with
  | none => .next s0
  | some q =>
    match findColl s0 q.coll with
    | none => .next s0
    | some c =>
      if q.phase ≠ .final then .next s0
      else if isColumn q then .next (finishQuery c q (ownFound c.schema 0 q) (dropQuery q s0))
      else if q.shards.isEmpty then
        let s1 := countSkips q (countPasses (Qr.k q.record) (dropQuery q s0))
        .next (finishQuery c q (ownFound c.schema (ownShardNo s0 c.id) q) s1)
      else
        let m := mergedFound c.schema q
        .next (finishQuery c q m.1 (bumpBy Key.deduplicatedEntries m.2 (dropQuery q s0)))

end Sys2Proof.Machine
end

