-- ==== Sys2Proof/Machine/Search.lean ====
section
/-! DEFINITION. SEARCH, UNIQUE_COUNT, and the messages and cuts of a sharded query (07 R130-R138, R153; 08 R175-R177; 09 R193-R202; 15
R356, R360). -/

namespace Sys2Proof.Machine

/-! ## A query starts -/

/-- A query of this module's own rows, before its first round. -/
structure Start where
  origin : QFrom
  plan : Nat
  stages : List Nat             -- STAGE_CODEs of its plan
  tag : Nat
  order : Nat                   -- its command's place in the order of admission
  record : Bytes
  request : Bytes
  epoch : Nat
  deadline : Nat
  cutBase : Nat                 -- the instant that its cut instants count back from: the deadline instant, or T_SH
  finishUs : Nat                -- FINISH_RESERVE_US
  adcUs : Nat                   -- ADC_RESERVE_US
  deriving DecidableEq, Repr

/-- The query that starts. -/
def newQuery (key : Nat) (c : Coll) (a : Start) : Query :=
  let sch := c.schema
  let replay := replayOf sch a.record
  let column := match a.origin with | .column _ => true | _ => false
  { key := key
    origin := a.origin
    coll := c.id
    plan := a.plan
    tag := a.tag
    record := a.record
    request := a.request
    epoch := a.epoch
    deadline := a.deadline
    order := a.order
    exact := column || Qr.mode a.record == 2 || replay.isSome
    replay := replay
    tsc := a.cutBase - 1000 * (a.finishUs + a.adcUs)
    tls := a.cutBase - 1000 * a.finishUs
    adc := Sch.distance sch != 1 && Sch.pqBits sch != 0 && a.stages.contains 0x04
    phase := .scanning
    probeList := (match treeAt c a.epoch with
      | none => []
      | some t =>
        if column then List.range t.parts.length
        else probeListOf sch t (Qr.code sch a.record) (Qr.values sch a.record) (Qr.beamWidth a.record) (Qr.probeBudget a.record))
    taken := 0
    probes := []
    radius := canonScore (.fin false (Sch.codeWidth sch) 0)
    appendCands := []
    appendBin := []
    appendMatch := 0
    cands := []
    binaryScores := Sch.distance sch != 1
    skips := []
    stages := 0
    media := []
    saturated := false
    stalled := false
    shards := []
    tsh := 0
    shardSince := 0 }

/-- The query is held, its beam walk and its append-list pass run, and its first round is issued; one past T_SC meets the scan cut at once
(R138-R140, R150, R153). The partitions of round 0 that it could not complete are skipped, as R19 wants of an undegraded result.
DESIGN CHOICE (log entry 17). -/
def startQuery (c : Coll) (a : Start) (s : State) : State :=
  let key := s.search.nextQuery
  let q := newQuery key c a
  let s1 := appendPass c (ownShardNo s c.id) q { s with search := { s.search with queries := s.search.queries ++ [q], nextQuery := key + 1 } }
  let s2 := updQuery key (issue c (if isColumn q then q.probeList.length else Qr.probeCount a.record)) s1
  if !q.exact && q.tsc ≤ s.now then afterScan key (updQuery key scanCut s2) else s2

/-! ## The fan-out (09 R193, R197, R199) -/

/-- Low 64 bits of the digest of the module's shard map of a collection. -/
def shardMapDigest (s : State) (coll : Nat) : Option Nat :=
  let d := liveDesc s
  if d.isEmpty then none
  else ((mapOffsets d (descMaps d) (mapsAt d)).find? fun o => u32At d (o + 16) == coll).map fun o => sm3Low64 (slice d o (u32At d (o + 4)))

/-- A SHARD_SEARCH_REQ. -/
def requestPayload (s : State) (coll shard qid plan epoch deadline : Nat) (record : Bytes) : Bytes :=
  withCrc (toLE 4 0x51534C41 ++ zeros 4 ++ toLE 2 (moduleIndex s) ++ toLE 2 shard ++ toLE 4 coll ++ toLE 8 ((shardMapDigest s coll).getD 0) ++
    toLE 8 qid ++ toLE 8 plan ++ toLE 8 epoch ++ toLE 8 deadline ++ toLE 4 record.length) ++ record

/-- A shard that a coordinator waits for. -/
def newWait (shard owner : Nat) (listed : Bool) : ShardWait where
  shard := shard
  owner := owner
  list := none
  degraded := false
  skips := []
  stages := 0
  media := []
  status := 0
  offset := 0
  skipped := listed
  replied := false

/-- A shard's answer is a status without a list (R202). -/
def failWait (status offset : Nat) (w : ShardWait) : ShardWait := { w with status := status, offset := offset, replied := true }

/-- What a module checks a query record of one of its shards against. -/
def ownerCtx (c : Coll) (p : Plan) (epoch shard : Nat) : QueryCtx where
  schema := c.schema
  stages := stagesOf p.bytes
  plan := p.planId
  beamLimit := 1024
  budgetLimit := 65536
  digests := true
  held := [epoch]
  low := 0
  high := 0
  shards := none
  shard := shard
  parts := ((treeAt c epoch).map (·.parts.length)).getD 0

/-- A shard's query as its owner starts it. -/
def shardStart (origin : QFrom) (p : Plan) (order : Nat) (record : Bytes) (epoch deadline cutBase finishUs adcUs : Nat) : Start where
  origin := origin
  order := order
  plan := p.planId
  stages := stagesOf p.bytes
  tag := 0
  record := record
  request := []
  epoch := epoch
  deadline := deadline
  cutBase := cutBase
  finishUs := finishUs
  adcUs := adcUs

/-- The request of one shard goes out, or this module's own shard starts. -/
def askShard (c : Coll) (p : Plan) (q : Query) (finishUs adcUs : Nat) (s : State) (w : ShardWait) : State :=
  if w.skipped then s
  else
    let record := shardRecord c.schema q.record q.epoch w.shard q.plan
    let limit := if q.exact then 0xFFFFFFFFFFFFFFFF else q.tsh
    let s1 := bump Key.shardRequestsSent s
    if w.owner ≠ moduleIndex s then
      sendSpp w.owner Spp.shardSearchReq (requestPayload s c.id w.shard (queryId s q.key) q.plan q.epoch limit record) s1
    else
      match queryFail (ownerCtx c p q.epoch w.shard) record with
      | some x => takePart q.key w.shard (failWait Status.invalidField x.2) s1
      | none => startQuery c (shardStart (.self q.key) p q.order record q.epoch 0 limit finishUs adcUs) s1

/-- A coordinator's query: it fans out to the owner of every shard that its replay record does not list whole. -/
def startShards (c : Coll) (p : Plan) (m : ShardMap) (a : Start) (tsh : Nat) (s : State) : State :=
  let key := s.search.nextQuery
  let listed := ((replayOf c.schema a.record).map (·.1)).getD []
  let waits := ((List.range m.owners.length).zip m.owners).map fun o => newWait o.1 o.2 (listed.contains (skipEntry o.1 0xFFFFFFFF))
  let q := { newQuery key c a with phase := .shards, probeList := [], shards := waits, tsh := tsh, shardSince := s.now }
  let s1 := { s with search := { s.search with queries := s.search.queries ++ [q], nextQuery := key + 1 } }
  concludeShards key (waits.foldl (askShard c p q a.finishUs a.adcUs) s1)

/-! ## SEARCH -/

/-- What a command's query record is checked against. -/
def commandCtx (s : State) (cmd : Cmd) (c : Coll) (p : Plan) (epoch : Nat) : QueryCtx where
  schema := c.schema
  stages := stagesOf p.bytes
  plan := p.planId
  beamLimit := cmdSetting cmd Key.beamWidthLimit
  budgetLimit := cmdSetting cmd Key.probeBudgetLimit
  digests := 2 ≤ minorOf s cmd
  held := cmd.epoch :: cmd.held
  low := (c.shard.map (·.holdFrom)).getD 0
  high := if c.shard.isSome then cmd.epoch else 0
  shards := (shardMapOf s c.id).map (·.owners.length)
  shard := 0
  parts := ((treeAt c epoch).map (·.parts.length)).getD 0

/-- The epoch that a command's query runs at. -/
def queryEpoch (cmd : Cmd) (record : Bytes) : Nat := if Qr.epoch record = 0xFFFFFFFFFFFFFFFF then cmd.epoch else Qr.epoch record

/-- Smallest output of a query (15 R360). -/
def minOutput (record : Bytes) : Nat :=
  if Qr.k record = 0 then 0 else 64 + 16 * Qr.k record + (if Qr.wantsDigest record then 256 else 0)

/-- A failure of a query record of a command, which starts at `base` of its input. -/
def queryRefused (seq base : Nat) (f : Nat × Nat) (s : State) : State :=
  if f.1 = Status.invalidField then failPayload seq (base + f.2) s else fail seq f.1 s

/-- The query of a checked command starts, here or on every shard. -/
def runQuery (cmd : Cmd) (c : Coll) (p : Plan) (origin : QFrom) (record request : Bytes) (s : State) : State :=
  let deadline := cmd.arrived + 1000 * Qr.deadlineUs record
  let a : Start := {
    origin := origin
    plan := p.planId
    stages := stagesOf p.bytes
    tag := cmd.entry.arg1
    order := cmd.order
    record := record
    request := request
    epoch := queryEpoch cmd record
    deadline := deadline
    cutBase := deadline
    finishUs := cmdSetting cmd Key.finishReserveUs
    adcUs := cmdSetting cmd Key.adcReserveUs }
  let s1 := updCmd cmd.seq (fun d => { d with deadline := deadline }) (startStream cmd.seq s)
  match shardMapOf s c.id with
  | none => startQuery c a s1
  | some m => startShards c p m a (deadline - 1000 * cmdSetting cmd Key.mergeReserveUs) s1

/-- A query without the rows that lost words held: their partitions contribute nothing and are listed (R162, 12 R275). DEDUCED (log entry 64). -/
def loseRows (media : List Nat) (q : Query) : Query :=
  let keep := fun c : Cand => !media.contains c.part
  { q with
    media := q.media ++ media
    probes := mapIf (fun p => media.contains p.part) (fun p => { p with damaged := true, matched := 0 }) q.probes
    cands := q.cands.filter keep
    appendBin := q.appendBin.filter keep
    appendCands := q.appendCands.filter keep
    appendMatch := if media.contains 0xFFFFFFFF then 0 else q.appendMatch }

/-- The queries of a command lose those rows, the module's own shard query of it among them. -/
def loseQueryRows (seq : Nat) (media : List Nat) (s : State) : State :=
  if media = [] then s
  else
    let mine := s.search.queries.filter (queryOf seq)
    { s with search := { s.search with
        queries := mapIf (fun q => queryOf seq q || mine.any fun m => selfOf m.key q) (loseRows media) s.search.queries } }

/-- The record of an admitted SEARCH is checked, and the query starts. One with K 0 runs nothing and writes nothing; its deadline holds for
its completion all the same (R156). -/
def searchNow (seq : Nat) (cmd : Cmd) (input : Bytes) (s : State) : State :=
  match findColl s cmd.entry.target, cmd.plan with
  | some c, some p =>
    match queryFail (commandCtx s cmd c p (queryEpoch cmd input)) input with
    | some f => queryRefused seq 0 f s
    | none =>
      if Qr.k input = 0 then
        succeed seq (queryEpoch cmd input) [] (updCmd seq (fun d => { d with deadline := cmd.arrived + 1000 * Qr.deadlineUs input }) s)
      else if cmd.entry.outLen < minOutput input then failEntry seq 56 s
      else match allTilesFail (livePlan s p) with
        | some x => failTile seq x s
        | none => runQuery cmd c p (.search seq) input [] s
  | none, _ => fail seq Status.collectionNotFound s
  | some _, none => fail seq Status.planNotBound s

/-- SEARCH (R129-R138), with what the SRAM code and the check codes find meanwhile (12 R275, 19 R437). DEDUCED (log entry 64). -/
def execSearch (seq : Nat) (input : Bytes) (upsets : Upsets) (t : Nat) (s : State) : Res :=
  let s0 := tick t s
  match admittedCmd s0 seq 0x2A with
  | none => .next s0
  | some cmd =>
    if wrongTransfer cmd input then .next (fail seq Status.lengthMismatch s0)
    else
    let s0 := takeBanks cmd s0
    if awaitsBanks s0 seq then .next s0
    else
      let s1 := guarded upsets s0
      match upsets.codes.second with
      | some m => .next (codeFails cmd m s1)
      | none => .next (loseQueryRows seq (lostMedia s1 upsets) (searchNow seq cmd input s1))

/-! ## UNIQUE_COUNT (08 R175-R177) -/

/-- The failure of a request as a status and an offset. DEDUCED (log entry 18). -/
def countFail (x : QueryCtx) (b : Bytes) : Option (Nat × Nat) :=
  let column := u8At b 41 == 1
  let n := u8At b 43
  if u32At b 0 ≠ 0x43554C41 then some (Status.invalidField, 0)
  else if u32At b 4 ≠ b.length then some (Status.lengthMismatch, 0)
  else if u32At b 60 ≠ crc32c (slice b 0 60) then some (Status.invalidField, 60)
  else
    let inv := fun o : Option Nat => o.map fun o => (Status.invalidField, o)
    firstFail [
      inv (firstFail [
        reserved b 8 33,
        require (1 ≤ u8At b 41 && u8At b 41 ≤ 2) 41,
        require (u8At b 42 < Sch.attrCount x.schema) 42,
        require (if column then n ≤ 8 && b.length == 64 + 32 * n else n == 0) 43,
        require (u32At b 44 ≤ 1048576) 44]),
      (if column then (if x.holds (u64At b 48) then none else some (Status.epochUnavailable, 0)) else inv (require (u64At b 48 == 0) 48)),
      inv (reserved b 56 4),
      (if column then inv (firstFail ((List.range n).map fun i => clauseFail x.schema b (64 + 32 * i)))
       else (queryFail x (b.drop 64)).map fun f =>
         if f.1 = Status.lengthMismatch then (Status.invalidField, 68) else if f.1 = Status.invalidField then (f.1, 64 + f.2) else f)]

/-- The query of a count over a column: every partition, in MODE EXACT, without a deadline. -/
def columnStart (cmd : Cmd) (p : Plan) (request : Bytes) (epoch : Nat) : Start where
  origin := .column cmd.seq
  plan := p.planId
  stages := stagesOf p.bytes
  tag := cmd.entry.arg1
  order := cmd.order
  record := []
  request := request
  epoch := epoch
  deadline := 0
  cutBase := 0
  finishUs := 0
  adcUs := 0

/-- The epoch of the rows that a request counts. -/
def countEpoch (cmd : Cmd) (b : Bytes) : Nat :=
  if u8At b 41 = 1 then (if u64At b 48 = 0xFFFFFFFFFFFFFFFF then cmd.epoch else u64At b 48) else queryEpoch cmd (b.drop 64)

/-- The table of a result without rows: the attached query asks for none. Its deadline holds for the completion all the same (R156). -/
def emptyCount (cmd : Cmd) (c : Coll) (b : Bytes) (s : State) : State :=
  let s0 := updCmd cmd.seq (fun d => { d with deadline := cmd.arrived + 1000 * Qr.deadlineUs (b.drop 64) }) s
  let out := countTable (Sch.fieldType c.schema (u8At b 42)) (u32At b 44) (countEpoch cmd b) [] []
  succeed cmd.seq (countEpoch cmd b) out s0

/-- The request of an admitted UNIQUE_COUNT is checked, and its query starts. -/
def countNow (seq : Nat) (cmd : Cmd) (input : Bytes) (s : State) : State :=
  match findColl s cmd.entry.target, cmd.plan with
  | some c, some p =>
    match countFail (commandCtx s cmd c p (countEpoch cmd input)) input with
    | some f => queryRefused seq 0 f s
    | none =>
      let limit := u32At input 44
      let record := input.drop 64
      let column := u8At input 41 == 1
      if limit = 0 then succeed seq (countEpoch cmd input) [] s
      else if cmd.entry.outLen < (if column then 0 else minOutput record) + 64 + 16 * limit then failEntry seq 56 s
      else if !column && Qr.k record == 0 then emptyCount cmd c input s
      else match allTilesFail (livePlan s p) with
        | some x => failTile seq x s
        | none =>
          if column then startQuery c (columnStart cmd p input (countEpoch cmd input)) (startStream seq s)
          else runQuery cmd c p (.count seq) record input s
  | none, _ => fail seq Status.collectionNotFound s
  | some _, none => fail seq Status.planNotBound s

/-- UNIQUE_COUNT (R175-R177), with what the codes find meanwhile (12 R275, R285; 19 R437). DEDUCED (log entry 64). -/
def execUniqueCount (run : CmdRun) (input : Bytes) (t : Nat) (s : State) : Res :=
  let s0 := tick t s
  match admittedCmd s0 run.seq 0x2B with
  | none => .next s0
  | some cmd =>
    if wrongTransfer cmd input then .next (fail run.seq Status.lengthMismatch s0)
    else
    let s0 := takeBanks cmd s0
    if awaitsBanks s0 run.seq then .next s0
    else
      let s1 := guarded run.upsets s0
      match run.upsets.codes.second with
      | some m => .next (codeFails cmd m s1)
      | none => .next (loseQueryRows run.seq (lostMedia s1 run.upsets) (countNow run.seq cmd input s1))

/-! ## An owner (09 R193, R202) -/

/-- A request is well formed. -/
def requestFormed (peer : Nat) (b : Bytes) : Bool :=
  64 ≤ b.length && u32At b 0 == 0x51534C41 && u32At b 4 == 0 && u32At b 60 == crc32c (slice b 0 60) && b.length == 64 + u32At b 56 && u16At b 8 == peer

/-- The epoch is held on a shard: a snapshot, or one that it still keeps (R191). -/
def shardHolds (c : Coll) (e : Nat) : Bool :=
  c.snapshots.contains e || (match c.shard with | none => e == c.epoch | some x => x.holdFrom ≤ e && e ≤ c.epoch)

/-- A query record with an element that is not finite: as part of a message it is malformed (03 R43, 14 R336). -/
def queryMalformed (sch b : Bytes) : Bool := Qr.format b != 0 && (nonFiniteAt b (Qr.fmt b) (Qr.vectorAt sch b) (Sch.dim sch)).isSome

/-- SHARD_SEARCH_REQ (R193, R202): the owner runs the record at E, or answers with a status. -/
def execShardSearchReq (peer : Nat) (payload : Bytes) (t : Nat) (s : State) : Res :=
  let s0 := tick t s
  if requestFormed peer payload = false then .next (malformed s0)
  else
    let coll := u32At payload 12
    let shard := u16At payload 10
    let qid := u64At payload 24
    let epoch := u64At payload 40
    let limit := u64At payload 48
    let record := payload.drop 64
    let refuse := fun st off => sendSpp peer Spp.shardSearchReply (errorReply qid shard st off epoch) s0
    if shardMapDigest s0 coll ≠ some (u64At payload 16) then .next (refuse Status.shardMapMismatch 0)
    else match findColl s0 coll with
      | none => .next (refuse Status.collectionNotFound 0)
      | some c =>
        if c.deleting then .next (refuse Status.collectionNotFound 0)
        else if ownShardNo s0 coll ≠ shard then .next (malformed s0)
        else if shardHolds c epoch = false then .next (refuse Status.epochUnavailable 0)
        else match s0.ahp.plans.find? fun p => p.kind == 1 && p.target == coll && p.planId == u64At payload 32 && p.bound with
          | none => .next (refuse Status.planNotBound 0)
          | some p =>
            if queryMalformed c.schema record then .next (malformed s0)
            else match queryFail (ownerCtx c p epoch shard) record with
            | some f => .next (refuse Status.invalidField (if f.1 = Status.invalidField then f.2 else if f.1 = Status.epochUnavailable then 8 else 4))
            | none =>
              let due := if limit = 0xFFFFFFFFFFFFFFFF then 0 else limit
              .next (startQuery c (shardStart (.peer peer qid) p s0.ahp.nextOrder record epoch due limit (settingNat s0 Key.finishReserveUs) (settingNat s0 Key.adcReserveUs)) s0)

/-- SHARD_CANCEL (R198, R200): the owner stops the query and sends no reply. -/
def execShardCancel (peer : Nat) (payload : Bytes) (s : State) : Res :=
  if payload.length ≠ 16 ∨ u16At payload 14 ≠ 0 then .next (malformed s)
  else
    let mine := fun q : Query => q.origin == .peer peer (u64At payload 0) && q.coll == u32At payload 8
    .next ((s.search.queries.filter mine).foldl (fun u q => dropQuery q u) s)

/-! ## The coordinator (09 R194, R201) -/

/-- The statuses of a reply (R199, R202). -/
def replyStatuses : List Nat :=
  [Status.success, Status.incompleteMedia, Status.shardMapMismatch, Status.epochUnavailable, Status.planNotBound, Status.invalidField, Status.collectionNotFound]

/-- A reply is well formed but for its list: a replay record only with DEGRADED, a media list only with INCOMPLETE (R199). -/
def replyFormed (b : Bytes) : Bool :=
  64 ≤ b.length && u32At b 0 == 0x52534C41 && u32At b 60 == crc32c (slice b 0 60) && leAt b 4 8 == 0 && leAt b 12 12 < 8 &&
    replyStatuses.contains (u16At b 28) && b.length == 64 + u32At b 56 + u32At b 52 + u32At b 48 && u32At b 48 % 8 == 0 &&
    (bit (u8At b 12) 1 || u32At b 52 == 0) && (bit (u8At b 12) 2 || u32At b 48 == 0)

/-- What a reply with a list says (R199). -/
def replyFound (b : Bytes) (l : PList) : Found :=
  let n := u32At b 56
  let rl := u32At b 52
  { list := l
    degraded := bit (u8At b 12) 1
    replay := slice b (64 + n) rl
    media := (List.range (u32At b 48 / 8)).map fun i => u64At b (64 + n + rl + 8 * i) }

/-- The replay record of a reply holds as many entries as its length allows. -/
def replyReplayFormed (b : Bytes) : Bool :=
  let o := 64 + u32At b 56
  u32At b 52 == 0 || (64 ≤ u32At b 52 && u32At b o == 0x50524C41 && roundUp 16 (64 + 8 * u32At b (o + 4)) == u32At b 52)

/-- SHARD_SEARCH_REPLY (R194, R201): the coordinator takes the shard's list; a late or second reply is dropped and counted. -/
def execShardSearchReply (peer : Nat) (payload : Bytes) (t : Nat) (s : State) : Res :=
  let s0 := tick t s
  if replyFormed payload = false ∨ replyReplayFormed payload = false then .next (malformed s0)
  else
    let shard := u16At payload 30
    let status := u16At payload 28
    match s0.search.queries.find? fun q => q.phase == .shards && queryId s0 q.key == u64At payload 32 with
    | none => .next (bump Key.lateShardReplies s0)
    | some q =>
      match q.shards.find? fun w => w.shard == shard && w.owner == peer with
      | none => .next (malformed s0)
      | some w =>
        if u64At payload 40 ≠ q.epoch then .next (malformed s0)
        else if w.replied ∨ w.skipped ∨ (q.exact = false ∧ q.tsh < s0.now) then .next (bump Key.lateShardReplies s0)
        else if status ≠ Status.success ∧ status ≠ Status.incompleteMedia then
          .next (concludeShards q.key (takePart q.key shard (failWait status (u32At payload 24)) s0))
        else
          match parsePlist .shard (slice payload 64 (u32At payload 56)) (Qr.k q.record) shard with
          | none => .next (malformed s0)
          | some l => .next (concludeShards q.key (takePart q.key shard (waitOf (replyFound payload l)) s0))

/-- The shards that have not replied are skipped and told to stop. -/
def skipShard (q : Query) (s : State) (w : ShardWait) : State :=
  let s1 := bump Key.shardsSkipped (takePart q.key w.shard (fun x => { x with skipped := true }) s)
  if w.owner ≠ moduleIndex s then sendSpp w.owner Spp.shardCancel (toLE 8 (queryId s q.key) ++ toLE 4 q.coll ++ toLE 2 w.shard ++ zeros 2) s1
  else (s1.search.queries.filter (selfOf q.key)).foldl (fun u x => dropQuery x u) s1

/-- SHARD_CUT (R201): T_SH of a bounded query. -/
def execShardCut (key t : Nat) (s : State) : Res :=
  let s0 := tick t s
  match findQuery s0 key with
  | none => .next s0
  | some q =>
    if q.phase ≠ .shards ∨ q.exact ∨ s0.now < q.tsh then .next s0
    else .next (concludeShards key ((q.shards.filter fun w => !(w.replied || w.skipped)).foldl (skipShard q) s0))

/-- A shard's owner cannot be reached any more: its connection is gone, and nothing waits for one. -/
def ownerLost (s : State) (w : ShardWait) : Bool :=
  !w.replied && !w.skipped && w.owner != moduleIndex s && (sppConn s w.owner).isNone && !(s.net.waits.any (·.peer == w.owner))

/-- SHARD_TIMEOUT (R201): a query without cut instants lacks a reply SHARD_TIMEOUT_US after its fan-out, or has lost an owner. -/
def execShardTimeout (key t : Nat) (s : State) : Res :=
  let s0 := tick t s
  match findQuery s0 key with
  | none => .next s0
  | some q =>
    match queryCmd s0 q with
    | none => .next s0
    | some c =>
      let due := q.shardSince + 1000 * cmdSetting c Key.shardTimeoutUs ≤ s0.now || q.shards.any (ownerLost s0)
      if q.phase = .shards ∧ q.exact ∧ due then
        let s1 := (s0.search.queries.filter (selfOf key)).foldl (fun u x => dropQuery x u) s0
        .next (fail c.seq Status.shardUnavailable (bump Key.shardUnavailableResults (dropQuery q s1)))
      else .next s0

end Sys2Proof.Machine
end

