-- ==== Sys2Proof/Machine/StartUp.lean ====
section
/-! DEFINITION. Start-up (18 R430-R432; 12 R287; 16 R384; 17 R393 R394 R401-R403; 20 R453 R456 R458). -/

namespace Sys2Proof.Machine

/-! ## Before step 2 -/

/-- Write units that may still become durable (R430). -/
def unitsWriting (s : State) : Bool := s.search.units.any fun u => u.phase == .writing

/-- Instants of trips on the time base that starts at 0 in step 1 (14 R340): `ms` lies between the last instant of the old base and `t`. DEDUCED (log entry 57). -/
def rebaseTrips (s : State) (ms t : Nat) : List Int := s.power.trips.map fun x => x - (s.now : Int) - (ms : Int) * 1000000 + (t : Int)

/-- The module goes down for a reset that is under way, or comes up from P4 (R428, R430); none where neither applies. DEDUCED (log entry 57). -/
def beginStart (facts : StartFacts) (t : Nat) (s : State) : Option State :=
  match s.power.resetting with
  | some (cause, start) =>
    let s0 := tick t s
    if unitsWriting s0 ∧ s0.now < start + 100000000 then none else some (powerDown cause s0)
  | none =>
    if s.power.state = .p4 ∧ s.power.tripAt = none ∧ (s.power.tripHold = false ∨ facts.inputAbsent = true) then
      some { s with
        now := t
        power := { s.power with
          trips := rebaseTrips s facts.ms t
          tripHold := false
          cause := if s.power.tripHold then 0 else s.power.cause } }
    else none

/-- Counters that are stored and count over the life of the module (17 R417, 18 R435). -/
def lifeCounter (k : Nat) : Bool := k / 256 == 0x7053 || k == Key.powerFails || k == Key.thermalTrips

/-- What counts from start-up begins again (16 R384; 19 R442 R449). DEDUCED (log entry 57). -/
def restartCounts (s : State) : State :=
  { s with
    counters := s.counters.filter fun c => lifeCounter c.1
    box := { s.box with classes := List.replicate 8 0, fault := false, diag := 0, recent := [], restarts := [] } }

/-- Records of the configuration flash whose signature fails (17 R393). DEDUCED (log entry 53). -/
def badRecords (offsets : List Nat) (s : State) : State :=
  offsets.foldl (fun u o => logEvent Ev.configRecordInvalid Ev.warning 0 (toLE 4 o) u) s

/-- Recovery mode (17 R402): 1 no bundle, 2 HBM channels, 3 cold-tier map. DEDUCED (log entry 53). -/
def recover (cause : Nat) (s : State) : State :=
  logEvent Ev.recoveryMode Ev.fatal 0 (toLE 1 cause) { s with power := { s.power with state := .recovery, pwrEn := true } }

/-! ## Step 5 (12 R287) -/

/-- Channels that are out of service from this start-up on: those out already, marked, with four retired banks, or failing now. -/
def channelsOut (s : State) (failed : List Nat) : List Nat :=
  (List.range 384).filter fun c => s.hbm.mappedOut.contains c || s.hbm.marked.contains c || failed.contains c || decide (4 ≤ channelRetired s c)

/-- HBM after training: nothing is marked or fenced, and every stack and die runs at full rate. DEDUCED (log entry 57). -/
def trainHbm (failed : List Nat) (s : State) : State :=
  { s with
    hbm := { s.hbm with mappedOut := channelsOut s failed, marked := [], fenced := [], skips := startSkips s }
    power := { s.power with
      degraded := false
      capSince := none
      hbmStacks := s.power.hbmStacks.map fun x => { x with state := 0, coolSince := none }
      dies := s.power.dies.map fun x => { x with step := 0, coolSince := none, cap := 0, mhz := 1200 } } }

/-! ## Step 6 (16 R384) -/

/-- A stored value passes its entry's checks. -/
def storedOk (k : Nat) (v : Bytes) : Bool :=
  match dictEntry k with
  | none => true
  | some d => if k = Key.installationDescriptor then (descriptorFail v identityDigest none).isNone else inRange d v

/-- Stored values that fail their checks are replaced by the default, and a record names each. DEDUCED (log entry 57). -/
def restoreSettings (s : State) : State :=
  let bad := (s.settings.filter fun p => !storedOk p.1 p.2).map (·.1)
  bad.foldl (fun u k => logEvent Ev.dictionaryValueReset Ev.warning 0 (toLE 2 (k / 256) ++ toLE 1 k) u)
    { s with settings := s.settings.filter fun p => storedOk p.1 p.2 }

/-! ## Step 7 (14 R317; 20 R453 R456 R458) -/

/-- The connector, the hold-up bank and the cages. -/
def readBoard (facts : StartFacts) (s : State) : State :=
  let s1 := { s with
    net := { s.net with subs := ((List.range 4).map (portSubs s)).flatten, mgmtUp := true }
    power := { s.power with
      slotId := facts.slotId
      holdupMj := facts.holdupMj
      holdupWeak := decide (facts.holdupMj < 6000)
      pwrEn := true } }
  ((List.range 4).zip facts.plugs).foldl (fun u p => setCage p.1 (mediumOf p.2) u) s1

/-! ## Steps 8 and 9 -/

/-- Collections and heads whose deletion had taken effect are gone. -/
def dropDeleted (s : State) : State :=
  let s1 := ((s.search.colls.filter (·.deleting)).map (·.id)).foldl (fun u i => removeObject 1 i u) s
  ((s1.mem.heads.filter (·.deleting)).map (·.id)).foldl (fun u i => removeObject 2 i u) s1

/-- An owner asks the keeper about every unit that it had logged and that is not stamped (09 R192). -/
def askAgain (s : State) : State :=
  (s.search.units.filter (·.phase == .logged)).foldl (fun u w => match shardMapOf u w.coll with | some m => askEpoch w m u | none => u) s

/-- Collections and heads are open again (R432). -/
def reopen (s : State) : State :=
  let s1 := dropDeleted s
  askAgain (bumpBy Key.reopenedObjects (s1.search.colls.length + s1.mem.heads.length) s1)

/-- Start-up is complete (R431): the bundle is good, the module runs in P0 and takes commands. DEDUCED (log entry 57). -/
def completeStart (slots ms : Nat) (s : State) : State :=
  let s1 := bundleGood slots s
  let s2 := { s1 with
    ahp := { s1.ahp with admissionOpen := true }
    sec := { s1.sec with bootCount := s1.sec.bootCount + 1 }
    power := { s1.power with state := .p0, startMs := ms, idleSince := s1.now } }
  reopen (logEvent Ev.startUpComplete Ev.info 0 (toLE 4 ms ++ toLE 1 s2.power.cause ++ toLE 1 s2.sec.bootResult) s2)

/-- Steps 3 to 9. DEDUCED (log entry 57). -/
def bootBundle (facts : StartFacts) (s : State) : State :=
  match selectBundle s with
  | (s1, none) => recover 1 { s1 with sec := { s1.sec with measure := extend 0 Config.romDigest.toList (List.replicate 8 (zeros 32)) } }
  | (s1, some slots) =>
    let s2 := trainHbm facts.failedChannels { s1 with sec := { s1.sec with measure := measureBoot s1 (bundleImages s1 slots) } }
    if (channelsInService s2).length < 192 then recover 2 s2
    else if facts.mapReadable = false then recover 3 s2
    else completeStart slots facts.ms (readBoard facts (restoreSettings s2))

/-- START_UP (R431): from P4, or for a reset that is under way. Without a seed the ROM stops (17 R394). DEDUCED (log entry 57). -/
def execStartUp (facts : StartFacts) (t : Nat) (s : State) : Res :=
  match beginStart facts t s with
  | none => .next (tick t s)
  | some s0 =>
    if facts.pufOk = false then .next { s0 with power := { s0.power with state := .idFault, pwrEn := true } }
    else .next (bootBundle facts (badRecords facts.badRecords (restartCounts s0)))

end Sys2Proof.Machine
end

