-- ==== Sys2Proof/Machine/Dispatch.lean ====
section
/-! DEFINITION. The dispatch: one arm for each constructor of Instr, a direct call of its meaning. -/

namespace Sys2Proof.Machine

def exec (i : Instr) (s : State) : Host.Outcome State Fault Refusal :=
  match i with
  | .queueCreate qp entry => Sys2Proof.Machine.execQueueCreate qp entry s
  | .queueReset seq headers => Sys2Proof.Machine.execQueueReset seq headers s
  | .logRead seq => Sys2Proof.Machine.execLogRead seq s
  | .attest seq => Sys2Proof.Machine.execAttest seq s
  | .roleManage seq input => Sys2Proof.Machine.execRoleManage seq input s
  | .loadPlan seq input codes => Sys2Proof.Machine.execLoadPlan seq input codes s
  | .unloadPlan seq => Sys2Proof.Machine.execUnloadPlan seq s
  | .createCollection seq input => Sys2Proof.Machine.execCreateCollection seq input s
  | .deleteCollection seq => Sys2Proof.Machine.execDeleteCollection seq s
  | .dataKeyDestroy kind id => Sys2Proof.Machine.execDataKeyDestroy kind id s
  | .collectionInfo seq => Sys2Proof.Machine.execCollectionInfo seq s
  | .snapshotCollection seq others t => Sys2Proof.Machine.execSnapshotCollection seq others t s
  | .releaseSnapshot seq => Sys2Proof.Machine.execReleaseSnapshot seq s
  | .insert seq input => Sys2Proof.Machine.execInsert seq input s
  | .delete seq input => Sys2Proof.Machine.execDelete seq input s
  | .merge seq => Sys2Proof.Machine.execMerge seq s
  | .buildIndex run => Sys2Proof.Machine.execBuildIndex run s
  | .loadIndex seq input => Sys2Proof.Machine.execLoadIndex seq input s
  | .search seq input upsets t => Sys2Proof.Machine.execSearch seq input upsets t s
  | .uniqueCount run input t => Sys2Proof.Machine.execUniqueCount run input t s
  | .createMemoryHead seq input => Sys2Proof.Machine.execCreateMemoryHead seq input s
  | .deleteMemoryHead seq => Sys2Proof.Machine.execDeleteMemoryHead seq s
  | .headTensorWrite seq input => Sys2Proof.Machine.execHeadTensorWrite seq input s
  | .memlayerFwd seq input upsets t => Sys2Proof.Machine.execMemlayerFwd seq input upsets t s
  | .memlayerBwd run input t => Sys2Proof.Machine.execMemlayerBwd run input t s
  | .memlayerUpdate run input t => Sys2Proof.Machine.execMemlayerUpdate run input t s
  | .commandDispatch t => Sys2Proof.Machine.execCommandDispatch t s
  | .commandAdmit seq => Sys2Proof.Machine.execCommandAdmit seq s
  | .sloePass engine coll part stripe groups queries bursts => Sys2Proof.Machine.execSloePass engine coll part stripe groups queries bursts s
  | .probeRound key => Sys2Proof.Machine.execProbeRound key s
  | .adcScan key => Sys2Proof.Machine.execAdcScan key s
  | .rerank key reads => Sys2Proof.Machine.execRerank key reads s
  | .finalSelection key t => Sys2Proof.Machine.execFinalSelection key t s
  | .scanCut key t => Sys2Proof.Machine.execScanCut key t s
  | .lateStageCut key t => Sys2Proof.Machine.execLateStageCut key t s
  | .queryStall key t => Sys2Proof.Machine.execQueryStall key t s
  | .completionSend seq t => Sys2Proof.Machine.execCompletionSend seq t s
  | .unitCommit tag t => Sys2Proof.Machine.execUnitCommit tag t s
  | .appendRoomResume coll => Sys2Proof.Machine.execAppendRoomResume coll s
  | .autoMergeStart coll => Sys2Proof.Machine.execAutoMergeStart coll s
  | .shardSearchReq peer payload t => Sys2Proof.Machine.execShardSearchReq peer payload t s
  | .shardSearchReply peer payload t => Sys2Proof.Machine.execShardSearchReply peer payload t s
  | .shardCancel peer payload => Sys2Proof.Machine.execShardCancel peer payload s
  | .shardCut key t => Sys2Proof.Machine.execShardCut key t s
  | .shardTimeout key t => Sys2Proof.Machine.execShardTimeout key t s
  | .rowForward peer payload t => Sys2Proof.Machine.execRowForward peer payload t s
  | .rowResult peer payload t => Sys2Proof.Machine.execRowResult peer payload t s
  | .epochAlloc peer payload t => Sys2Proof.Machine.execEpochAlloc peer payload t s
  | .epochGrant peer payload t => Sys2Proof.Machine.execEpochGrant peer payload t s
  | .epochStamped peer payload t => Sys2Proof.Machine.execEpochStamped peer payload t s
  | .epochStable peer payload t => Sys2Proof.Machine.execEpochStable peer payload t s
  | .epochVoid coll epoch t => Sys2Proof.Machine.execEpochVoid coll epoch t s
  | .bucketMoveStart coll => Sys2Proof.Machine.execBucketMoveStart coll s
  | .bucketCopy peer payload t => Sys2Proof.Machine.execBucketCopy peer payload t s
  | .bucketCutover peer payload t => Sys2Proof.Machine.execBucketCutover peer payload t s
  | .memfwdPartial peer payload t => Sys2Proof.Machine.execMemfwdPartial peer payload t s
  | .memfwdDone peer payload t => Sys2Proof.Machine.execMemfwdDone peer payload t s
  | .memfwdRepeat peer payload t => Sys2Proof.Machine.execMemfwdRepeat peer payload t s
  | .memfwdAbort peer payload t => Sys2Proof.Machine.execMemfwdAbort peer payload t s
  | .fwdExchangeTimeout seq t => Sys2Proof.Machine.execFwdExchangeTimeout seq t s
  | .membwdDw peer payload t => Sys2Proof.Machine.execMembwdDw peer payload t s
  | .membwdDone peer payload t => Sys2Proof.Machine.execMembwdDone peer payload t s
  | .membwdRepeat peer payload t => Sys2Proof.Machine.execMembwdRepeat peer payload t s
  | .membwdAbort peer payload t => Sys2Proof.Machine.execMembwdAbort peer payload t s
  | .bwdExchangeTimeout seq t => Sys2Proof.Machine.execBwdExchangeTimeout seq t s
  | .stashHoldRelease seq t => Sys2Proof.Machine.execStashHoldRelease seq t s
  | .stashWaitTimeout seq t => Sys2Proof.Machine.execStashWaitTimeout seq t s
  | .reduceAmax peer payload t => Sys2Proof.Machine.execReduceAmax peer payload t s
  | .reducePartial peer payload t => Sys2Proof.Machine.execReducePartial peer payload t s
  | .reduceResult peer payload t => Sys2Proof.Machine.execReduceResult peer payload t s
  | .reduceSample peer payload t => Sys2Proof.Machine.execReduceSample peer payload t s
  | .reduceRepeat peer payload t => Sys2Proof.Machine.execReduceRepeat peer payload t s
  | .reduceTimeout seq t => Sys2Proof.Machine.execReduceTimeout seq t s
  | .updateVerdict peer payload t => Sys2Proof.Machine.execUpdateVerdict peer payload t s
  | .memberFailed peer payload t => Sys2Proof.Machine.execMemberFailed peer payload t s
  | .memberDegraded peer payload => Sys2Proof.Machine.execMemberDegraded peer payload s
  | .stackDrainComplete stack => Sys2Proof.Machine.execStackDrainComplete stack s
  | .scratchBanksGranted => Sys2Proof.Machine.execScratchBanksGranted s
  | .scrubPass scrub t => Sys2Proof.Machine.execScrubPass scrub t s
  | .tileRelocation tile channel bank whole row => Sys2Proof.Machine.execTileRelocation tile channel bank whole row s
  | .relocationSwitch tile => Sys2Proof.Machine.execRelocationSwitch tile s
  | .mediaRecovery channel slot => Sys2Proof.Machine.execMediaRecovery channel slot s
  | .tgWriteRead session frame t => Sys2Proof.Machine.execTgWriteRead session frame t s
  | .tgReadOnly session frame t => Sys2Proof.Machine.execTgReadOnly session frame t s
  | .tgWriteOnly session frame t => Sys2Proof.Machine.execTgWriteOnly session frame t s
  | .tgRunComplete pins corrected uncorrectable => Sys2Proof.Machine.execTgRunComplete pins corrected uncorrectable s
  | .ftgWriteRead session frame t => Sys2Proof.Machine.execFtgWriteRead session frame t s
  | .ftgReadVerify session frame t => Sys2Proof.Machine.execFtgReadVerify session frame t s
  | .ftgEraseTest session frame t => Sys2Proof.Machine.execFtgEraseTest session frame t s
  | .ftgRunComplete dies errors retries rebuilds lost => Sys2Proof.Machine.execFtgRunComplete dies errors retries rebuilds lost s
  | .flashReadComplete read t => Sys2Proof.Machine.execFlashReadComplete read t s
  | .patrol reads t => Sys2Proof.Machine.execPatrol reads t s
  | .garbageCollection pages sparePct => Sys2Proof.Machine.execGarbageCollection pages sparePct s
  | .dieRebuild channel die pages sparePct => Sys2Proof.Machine.execDieRebuild channel die pages sparePct s
  | .promotionReadComplete page bad => Sys2Proof.Machine.execPromotionReadComplete page bad s
  | .windowSpaceFreed region capacity => Sys2Proof.Machine.execWindowSpaceFreed region capacity s
  | .frameReceive port sub frame t => Sys2Proof.Machine.execFrameReceive port sub frame t s
  | .connectionRequest port sub remote mtu peer reply t => Sys2Proof.Machine.execConnectionRequest port sub remote mtu peer reply t s
  | .sppConnectionOpen peer t => Sys2Proof.Machine.execSppConnectionOpen peer t s
  | .sppIdleClose qpn t => Sys2Proof.Machine.execSppIdleClose qpn t s
  | .linkKeyA qpn payload t => Sys2Proof.Machine.execLinkKeyA qpn payload t s
  | .linkKeyB qpn payload t => Sys2Proof.Machine.execLinkKeyB qpn payload t s
  | .linkKeyC qpn payload t => Sys2Proof.Machine.execLinkKeyC qpn payload t s
  | .linkRekey qpn => Sys2Proof.Machine.execLinkRekey qpn s
  | .hello qpn payload t => Sys2Proof.Machine.execHello qpn payload t s
  | .helloReply qpn payload t => Sys2Proof.Machine.execHelloReply qpn payload t s
  | .credit qpn payload t => Sys2Proof.Machine.execCredit qpn payload t s
  | .creditReturnTimeout qpn t => Sys2Proof.Machine.execCreditReturnTimeout qpn t s
  | .ackTimeout qpn t => Sys2Proof.Machine.execAckTimeout qpn t s
  | .sppSuspendExpiry qpn t => Sys2Proof.Machine.execSppSuspendExpiry qpn t s
  | .pfcPause port sub priority paused t => Sys2Proof.Machine.execPfcPause port sub priority paused t s
  | .pfcStorm port sub priority t => Sys2Proof.Machine.execPfcStorm port sub priority t s
  | .pfcStormEnd port sub priority t => Sys2Proof.Machine.execPfcStormEnd port sub priority t s
  | .cnpReceive qpn t => Sys2Proof.Machine.execCnpReceive qpn t s
  | .rpRecovery qpn t => Sys2Proof.Machine.execRpRecovery qpn t s
  | .linkTraining port sub trained t => Sys2Proof.Machine.execLinkTraining port sub trained t s
  | .cageInsert port plug t => Sys2Proof.Machine.execCageInsert port plug t s
  | .ptpMessage sync t => Sys2Proof.Machine.execPtpMessage sync t s
  | .ptpSyncLoss t => Sys2Proof.Machine.execPtpSyncLoss t s
  | .dapHandshake mgmt certificate t => Sys2Proof.Machine.execDapHandshake mgmt certificate t s
  | .dapIdleTimeout session t => Sys2Proof.Machine.execDapIdleTimeout session t s
  | .read session frame t => Sys2Proof.Machine.execRead session frame t s
  | .write session frame t => Sys2Proof.Machine.execWrite session frame t s
  | .stage session frame t => Sys2Proof.Machine.execStage session frame t s
  | .readStaged session frame t => Sys2Proof.Machine.execReadStaged session frame t s
  | .describe session frame t => Sys2Proof.Machine.execDescribe session frame t s
  | .commitCheck session frame t => Sys2Proof.Machine.execCommitCheck session frame t s
  | .commitApply session frame t => Sys2Proof.Machine.execCommitApply session frame t s
  | .commitBoundaryReached t => Sys2Proof.Machine.execCommitBoundaryReached t s
  | .commitApplyTimeout t => Sys2Proof.Machine.execCommitApplyTimeout t s
  | .commitAbort session frame t => Sys2Proof.Machine.execCommitAbort session frame t s
  | .roleRecord session frame t => Sys2Proof.Machine.execRoleRecord session frame t s
  | .factoryReset session frame t => Sys2Proof.Machine.execFactoryReset session frame t s
  | .imageBegin session frame t => Sys2Proof.Machine.execImageBegin session frame t s
  | .imageBlock session frame t => Sys2Proof.Machine.execImageBlock session frame t s
  | .imageFinish session frame t => Sys2Proof.Machine.execImageFinish session frame t s
  | .imageAbandon session frame t => Sys2Proof.Machine.execImageAbandon session frame t s
  | .imageMarkPending session frame t => Sys2Proof.Machine.execImageMarkPending session frame t s
  | .imageClearPending session frame t => Sys2Proof.Machine.execImageClearPending session frame t s
  | .imageActivate session frame t => Sys2Proof.Machine.execImageActivate session frame t s
  | .moduleReset session frame t => Sys2Proof.Machine.execModuleReset session frame t s
  | .diagnosticMode session frame t => Sys2Proof.Machine.execDiagnosticMode session frame t s
  | .diagnosticModeEntered t => Sys2Proof.Machine.execDiagnosticModeEntered t s
  | .blackboxReadFrom session frame t => Sys2Proof.Machine.execBlackboxReadFrom session frame t s
  | .blackboxWindow session frame t => Sys2Proof.Machine.execBlackboxWindow session frame t s
  | .blackboxAppend readBack t => Sys2Proof.Machine.execBlackboxAppend readBack t s
  | .blackboxCoalesced event unit key t => Sys2Proof.Machine.execBlackboxCoalesced event unit key t s
  | .p2Entry t => Sys2Proof.Machine.execP2Entry t s
  | .p3Entry t => Sys2Proof.Machine.execP3Entry t s
  | .entryAbandon t => Sys2Proof.Machine.execEntryAbandon t s
  | .wake t => Sys2Proof.Machine.execWake t s
  | .clusterClockGate cluster => Sys2Proof.Machine.execClusterClockGate cluster s
  | .powerFailSignal inputMv t => Sys2Proof.Machine.execPowerFailSignal inputMv t s
  | .pwrEnFall t => Sys2Proof.Machine.execPwrEnFall t s
  | .startUp facts t => Sys2Proof.Machine.execStartUp facts t s
  | .sensorReading sensors t => Sys2Proof.Machine.execSensorReading sensors t s
  | .tripRestart t => Sys2Proof.Machine.execTripRestart t s
  | .heartbeatTimeout core t => Sys2Proof.Machine.execHeartbeatTimeout core t s
  | .bothCoresSilent t => Sys2Proof.Machine.execBothCoresSilent t s
  | .linkDown port sub management t => Sys2Proof.Machine.execLinkDown port sub management t s
  | .plugInRemoved port t => Sys2Proof.Machine.execPlugInRemoved port t s
  | .plugInHighAlarm port t => Sys2Proof.Machine.execPlugInHighAlarm port t s
  | .disconnectRequest qpn t => Sys2Proof.Machine.execDisconnectRequest qpn t s
  | .connectionRequestRepeat peer t => Sys2Proof.Machine.execConnectionRequestRepeat peer t s
  | .epochHoldExpiry coll t => Sys2Proof.Machine.execEpochHoldExpiry coll t s
  | .stableIntervalExpiry coll t => Sys2Proof.Machine.execStableIntervalExpiry coll t s
  | .keeperUnreachableTimeout seq t => Sys2Proof.Machine.execKeeperUnreachableTimeout seq t s
  | .dapSessionClose session => Sys2Proof.Machine.execDapSessionClose session s

end Sys2Proof.Machine
end

