-- ==== Sys2Proof/Safety.lean ====
section
/-! DEFINITION. What the claims are stated in: a step that goes on, and the invariant of the model's tables. -/

namespace Sys2Proof.Machine

/-- The step answers a next state. -/
def Safe (s : State) : Prop := ∃ s', step s = .next s'

/-- The sparse tables are in their one canonical form: equal contents are equal data. -/
def State.Canonical (s : State) : Prop :=
  Table.wf (fun _ => 0) s.counters = true ∧ Table.wf settingDefault s.settings = true

/-- The invariant that every command keeps: the tables are canonical, every counter fits its U64 entry, the fixed tables have their
fixed sizes, at most 256 events wait (19 R442), and the black box holds the last records of its ring (19 R439). -/
def State.Inv (s : State) : Prop :=
  s.Canonical ∧ (∀ p ∈ s.counters, p.2 < 2 ^ 64) ∧ s.box.classes.length = 8 ∧ s.box.queue.length ≤ 256 ∧
    s.power.hbmStacks.length = 12 ∧ s.power.dies.length = 2 ∧ s.ahp.last.length = 4 ∧ s.sec.measure.length = 8 ∧
    s.box.records.length = min (s.box.head + 1) ringSlots

/-- What the codes find while a command runs lies in cluster memory alone. -/
def Upsets.calm (x : Upsets) : Bool := x.bursts.isEmpty && x.words.all (·.unit < 32)

/-- The commands that hand a DAP frame to the module. -/
def isDapFrame : Instr → Bool
  | .read _ _ _ => true
  | .write _ _ _ => true
  | .stage _ _ _ => true
  | .readStaged _ _ _ => true
  | .describe _ _ _ => true
  | .commitCheck _ _ _ => true
  | .commitApply _ _ _ => true
  | .commitAbort _ _ _ => true
  | .tgWriteRead _ _ _ => true
  | .tgReadOnly _ _ _ => true
  | .tgWriteOnly _ _ _ => true
  | .ftgWriteRead _ _ _ => true
  | .ftgReadVerify _ _ _ => true
  | .ftgEraseTest _ _ _ => true
  | .roleRecord _ _ _ => true
  | .factoryReset _ _ _ => true
  | .imageBegin _ _ _ => true
  | .imageBlock _ _ _ => true
  | .imageFinish _ _ _ => true
  | .imageAbandon _ _ _ => true
  | .imageMarkPending _ _ _ => true
  | .imageClearPending _ _ _ => true
  | .imageActivate _ _ _ => true
  | .moduleReset _ _ _ => true
  | .diagnosticMode _ _ _ => true
  | .blackboxReadFrom _ _ _ => true
  | .blackboxWindow _ _ _ => true
  | _ => false

/-- The commands under which dictionary values may change: a DAP frame, the boundary of an apply, and start-up. -/
def mayConfigure : Instr → Bool
  | .commitBoundaryReached _ => true
  | .startUp _ _ => true
  | c => isDapFrame c

/-- The commands under which the roles may change. -/
def mayChangeRoles : Instr → Bool
  | .roleManage _ _ => true
  | .dapHandshake _ _ _ => true
  | c => isDapFrame c

/-- The commands under which the measurement registers may change: an image load, start-up, and the loss of power. -/
def mayMeasure : Instr → Bool
  | .startUp _ _ => true
  | .powerFailSignal _ _ => true
  | .pwrEnFall _ => true
  | .sensorReading _ _ => true
  | c => isDapFrame c

/-- The commands under which the service core appends to the black box. -/
def mayAppend : Instr → Bool
  | .blackboxAppend _ _ => true
  | .startUp _ _ => true
  | .powerFailSignal _ _ => true
  | .pwrEnFall _ => true
  | .sensorReading _ _ => true
  | _ => false

/-- The attachment's own timers, pauses and repeats: they change the attachment and the time alone. -/
def netRow : Instr → Bool
  | .connectionRequest _ _ _ _ _ _ _ => true
  | .connectionRequestRepeat _ _ => true
  | .linkRekey _ => true
  | .creditReturnTimeout _ _ => true
  | .sppSuspendExpiry _ _ => true
  | .pfcPause _ _ _ _ _ => true
  | .pfcStormEnd _ _ _ _ => true
  | .cnpReceive _ _ => true
  | .rpRecovery _ _ => true
  | .linkTraining _ _ _ _ => true
  | .ptpSyncLoss _ => true
  | _ => false

/-- Events of the attachment that the black box takes. -/
def netEventRow : Instr → Bool
  | .pfcStorm _ _ _ _ => true
  | .cageInsert _ _ _ => true
  | .plugInRemoved _ _ => true
  | .plugInHighAlarm _ _ => true
  | _ => false

/-- Bank grants and copies of rows: HBM alone. -/
def hbmRow : Instr → Bool
  | .scratchBanksGranted => true
  | .tileRelocation _ _ _ _ _ => true
  | _ => false

/-- The cold tier's background work and its test run. -/
def coldEventRow : Instr → Bool
  | .garbageCollection _ _ => true
  | .dieRebuild _ _ _ _ => true
  | .ftgRunComplete _ _ _ _ _ => true
  | _ => false

/-- Clock gates, a wake and a restart after a trip: power control and the time. -/
def powerRow : Instr → Bool
  | .clusterClockGate _ => true
  | .wake _ => true
  | .tripRestart _ => true
  | _ => false

/-- The entry to P2 and its end. -/
def powerEventRow : Instr → Bool
  | .p2Entry _ => true
  | .entryAbandon _ => true
  | _ => false

/-- The end of a management session. -/
def sessionRow : Instr → Bool
  | .dapSessionClose _ => true
  | .dapIdleTimeout _ _ => true
  | _ => false

/-- The black box's own writer. -/
def boxRow : Instr → Bool
  | .blackboxAppend _ _ => true
  | .blackboxCoalesced _ _ _ _ => true
  | _ => false

/-- The passes, stages and cuts of a query; those that read HBM, where every burst is whole. -/
def searchRow : Instr → Bool
  | .sloePass _ _ _ _ _ _ bursts => bursts.isEmpty
  | .probeRound _ => true
  | .adcScan _ => true
  | .rerank _ reads => reads.bursts.isEmpty
  | .shardCancel _ _ => true
  | .scanCut _ _ => true
  | .lateStageCut _ _ => true
  | .queryStall _ _ => true
  | _ => false

/-- The shard messages that an owner or a keeper serves. -/
def searchNetRow : Instr → Bool
  | .epochAlloc _ _ _ => true
  | .epochStamped _ _ _ => true
  | .epochStable _ _ _ => true
  | .rowForward _ _ _ => true
  | .bucketCopy _ _ _ => true
  | .bucketCutover _ _ _ => true
  | .shardSearchReq _ _ _ => true
  | .epochHoldExpiry _ _ => true
  | .stableIntervalExpiry _ _ => true
  | _ => false

/-- The commands that start or end work on a collection. -/
def collectionRow : Instr → Bool
  | .insert _ _ => true
  | .delete _ _ => true
  | .merge _ => true
  | .buildIndex run => run.upsets == Upsets.quiet
  | .loadIndex _ _ => true
  | .deleteCollection _ => true
  | .releaseSnapshot _ => true
  | .appendRoomResume _ => true
  | _ => false

/-- LOAD_PLAN and COLLECTION_INFO. -/
def planRow : Instr → Bool
  | .loadPlan _ _ _ => true
  | .collectionInfo _ => true
  | _ => false

/-- The commands and messages of the memory layer; a command, where the codes find nothing beyond cluster memory. -/
def layerRow : Instr → Bool
  | .memlayerFwd _ _ upsets _ => upsets.calm
  | .stashHoldRelease _ _ => true
  | .stashWaitTimeout _ _ => true
  | .memfwdPartial _ _ _ => true
  | .memfwdDone _ _ _ => true
  | .memfwdRepeat _ _ _ => true
  | .memfwdAbort _ _ _ => true
  | .fwdExchangeTimeout _ _ => true
  | .memlayerBwd run _ _ => run.upsets.calm
  | .membwdDw _ _ _ => true
  | .membwdDone _ _ _ => true
  | .membwdRepeat _ _ _ => true
  | .membwdAbort _ _ _ => true
  | .bwdExchangeTimeout _ _ => true
  | .memlayerUpdate run _ _ => run.upsets.calm
  | .reduceAmax _ _ _ => true
  | .reducePartial _ _ _ => true
  | .reduceResult _ _ _ => true
  | .reduceSample _ _ _ => true
  | .reduceRepeat _ _ _ => true
  | .updateVerdict _ _ _ => true
  | .reduceTimeout _ _ => true
  | .memberFailed _ _ _ => true
  | .memberDegraded _ _ => true
  | _ => false

/-- The completion that waits to be sent for a command (15 R353). -/
def ready (s : State) (seq : Nat) : Option Comp := (findCmd s seq).bind (·.comp)

/-- A DAP frame that passes R370 of a session that the module serves, with a new REQUEST_ID (16 R375), a role that may ask for it
(16 R371), and, in recovery mode, an operation that is served there (16 R387). -/
def dapNew (s : State) (id : Nat) (b : Bytes) : Bool :=
  match findSession s id with
  | none => false
  | some x => !x.gone && dapServes s x.mgmt && (frameStatus b).isNone && !(x.kept.any fun k => k.requestId == dapId b) &&
      !x.outstanding.contains (dapId b) && !(x.highest.any fun h => dapId b ≤ h) && x.outstanding.length < 16 &&
      opRole (dapOp b) ≤ x.level && !(s.power.state == .recovery && [3, 6, 7].contains (dapOp b))

/-- The state in which such a frame is carried out: it counts, and its session notes its time and its REQUEST_ID. -/
def dapAccepted (id : Nat) (b : Bytes) (s : State) : State :=
  bump Key.dapFrames (updSession id (fun y => { y with highest := some (dapId b) }) (updSession id (fun y => { y with lastFrame := s.now }) s))

/-- The reply that a session keeps as its newest (16 R375). -/
def lastReply (s : State) (id : Nat) : Option Bytes := (findSession s id).bind fun x => x.kept.getLast?.map (·.reply)

end Sys2Proof.Machine
end

