-- ==== Sys2Proof/Certificates/Slice0/Obligations.lean ====
section
/-! DEFINITION. The statements for the provers, each about the machine and none about a program. -/

open Sys2Proof Sys2Proof.Machine

/-- The block takes the command at the front of its queue and does what exec says with the rest of the queue; with no command it idles (the model's choice,
notes/assumptions/1.md). -/
def Obligations.BlockRunsTheCommandInFront : Prop :=
  (∀ (c : Instr) (q : List Instr) (s : State), s.pending = c :: q → step s = exec c { s with pending := q }) ∧
  (∀ s : State, s.pending = [] → step s = .next s)

/-- R441 R408 R366: Reset leaves what the spec gives it: no command, no dictionary value but the defaults, no collection, head, connection, session or role, the
black box with record 0 alone, in P0 with every part at rest; and the invariant holds. -/
def Obligations.ResetHoldsTheInvariant : Prop :=
  (State.reset.Inv ∧ State.reset.pending = [] ∧ State.reset.settings = [] ∧ State.reset.counters = [] ∧ State.reset.search.colls = [] ∧ State.reset.mem.heads = [] ∧
     State.reset.net.conns = [] ∧ State.reset.dap.sessions = [] ∧ State.reset.sec.roles = [] ∧ State.reset.ahp.cmds = [] ∧ State.reset.power.state = .p0)

/-- R436 R438 R439 R403: Every command of a state that has the invariant goes on, leaves the other waiting commands as they are, and keeps the invariant. -/
def Obligations.EveryStepKeepsTheInvariant : Prop :=
  (∀ s : State, s.Inv → ∃ u, step s = .next u ∧ u.Inv ∧ u.pending = s.pending.tail) ∧
  (∀ (c : Instr) (s : State), s.Inv → ∃ u, exec c s = .next u ∧ u.Inv ∧ u.pending = s.pending)

/-- R374 R381 R403 R410: No command changes the dictionary values, the roles or the measurement registers but those that the spec gives that effect. -/
def Obligations.ConfigurationIsProtected : Prop :=
  (∀ (c : Instr) (s u : State), s.Inv → exec c s = .next u →
     (mayConfigure c = false → u.settings = s.settings) ∧ (mayChangeRoles c = false → u.sec.roles = s.sec.roles) ∧
     (mayMeasure c = false → u.sec.measure = s.sec.measure))

/-- R444: No AHP command, DAP item or image load writes to the black box or erases it; what is appended follows what the ring held. -/
def Obligations.BlackBoxIsOnlyAppended : Prop :=
  (∀ (c : Instr) (s u : State), s.Inv → exec c s = .next u →
     (mayAppend c = false → u.box.records = s.box.records ∧ u.box.head = s.box.head) ∧
     (mayAppend c = true → ∃ new : List Bytes, u.box.records = inRing (s.box.records ++ new) ∧ u.box.head = s.box.head + new.length))

/-- R287 R302 R326 R369 R419 R421 R442: The frame of the commands of the attachment, the memories, power control, the sessions and the black box: each changes the
parts of its own domain, and where it counts or reports, the counters, the free values that they use and the black box; every other part of the state is as it
was. A grant of banks does so where no forward waits for them, a relocation where no channel is fenced (on a fenced one it may hurt what collections, queries, plans and heads
hold), and a wake changes the attachment's time base only from P3. -/
def Obligations.DomainsKeepToThemselves : Prop :=
  (∀ (c : Instr) (s u : State), exec c s = .next u →
     (netRow c = true → u = { s with net := u.net, now := u.now }) ∧
     (netEventRow c = true → u = { s with net := u.net, now := u.now, counters := u.counters, free := u.free, box := u.box }) ∧
     (hbmRow c = true → s.hbm.fenced = [] → s.mem.fwds.all (·.phase != .banks) = true → u = { s with hbm := u.hbm }) ∧
     (∀ tile channel bank whole row, c = .tileRelocation tile channel bank whole row → u = { s with hbm := u.hbm, ahp := u.ahp, search := u.search, mem := u.mem }) ∧
     (coldEventRow c = true → u = { s with cold := u.cold, counters := u.counters, free := u.free, box := u.box }) ∧
     (powerRow c = true → u = { s with power := u.power, now := u.now, net := u.net } ∧ (s.power.state ≠ .p3 → u.net = s.net)) ∧
     (powerEventRow c = true → u = { s with power := u.power, now := u.now, counters := u.counters, free := u.free, box := u.box }) ∧
     (sessionRow c = true → u = { s with dap := u.dap, sec := u.sec, now := u.now }) ∧
     (boxRow c = true → u = { s with box := u.box, counters := u.counters, free := u.free, now := u.now }))

/-- R121 R124 R142 R154 R155 R190 R203: The frame of the commands of collections and queries: a query's passes, stages and cuts change the search part and what HBM's caches
and allocator hold, and, where a channel is fenced, what it hurts of plans, commands and heads; what serves another shard may also send; what starts or ends work on a
collection, a plan or a report touches neither the memory heads nor the management side, the security state, the dictionary or the black box, but that LOAD_PLAN records a
check code that differs. -/
def Obligations.QueriesAndCollectionsKeepToThemselves : Prop :=
  (∀ (c : Instr) (s u : State), exec c s = .next u →
     (searchRow c = true →
       u = { s with search := u.search, hbm := u.hbm, ahp := u.ahp, mem := u.mem, now := u.now, counters := u.counters, free := u.free, box := u.box } ∧
       (s.hbm.fenced = [] → u.ahp = s.ahp ∧ u.mem = s.mem)) ∧
     (searchNetRow c = true → u = { s with search := u.search, net := u.net, now := u.now, counters := u.counters, free := u.free, box := u.box }) ∧
     (collectionRow c = true →
       u = { s with ahp := u.ahp, search := u.search, net := u.net, hbm := u.hbm, cold := u.cold, power := u.power, counters := u.counters }) ∧
     (planRow c = true → u = { s with ahp := u.ahp, net := u.net, hbm := u.hbm, cold := u.cold, power := u.power, counters := u.counters, free := u.free, box := u.box }))

/-- R217 R236 R260: The commands and messages of the memory layer leave the management protocol, the dictionary values and the waiting commands as they are, and the
collections with their queries where no channel is fenced; a command does so where it meets no data in HBM beyond correction. -/
def Obligations.MemoryLayersLeaveTheCollectionsAlone : Prop :=
  (∀ (c : Instr) (s u : State), layerRow c = true → exec c s = .next u →
     (s.hbm.fenced = [] → u.search = s.search) ∧ u.dap = s.dap ∧ u.settings = s.settings ∧ u.pending = s.pending)

/-- R88: A sum of one term is the term; a sum of more adds the sum of the left part, which holds the largest power of two below the number of terms, to the sum of
the rest. -/
def Obligations.SumsFollowTheTree : Prop :=
  (∀ (add : Machine.Num → Machine.Num → Machine.Num) (l : List Machine.Num), (∀ x, l = [x] → tree add l = x) ∧
     (2 ≤ l.length → ∃ k, 2 ^ k < l.length ∧ l.length ≤ 2 * 2 ^ k ∧ tree add l = add (tree add (l.take (2 ^ k))) (tree add (l.drop (2 ^ k)))))

/-- R46: Code bit i is bit i mod 64 of the little-endian word i div 64, which is bit i mod 8 of byte i div 8, and the distance of two codes is the number of bits in
which they differ. -/
def Obligations.HammingDistanceCountsBits : Prop :=
  (∀ (a : Bytes) (i : Nat), bitOf a i = (leAt a (8 * (i / 64)) 8).testBit (i % 64)) ∧
  (∀ a b : Bytes, a.length = b.length → hamming a b = ((List.range (8 * a.length)).filter fun i => bitOf a i != bitOf b i).length)

/-- R146: A cut to n keeps the first n candidates in ascending (score, identifier), drops the others without a count of ties, and passes a list of n or fewer whole.
The identifier that marks an empty position is no candidate. -/
def Obligations.CutsKeepTheFirstCandidates : Prop :=
  (∀ (key n : Nat) (q : Query) (s : State), findQuery s key = some q →
     ∃ l : List Cand, l.Perm (q.cands.filter fun x => x.id ≠ fillId) ∧ l.Pairwise (fun a b => scoreKey a.score < scoreKey b.score ∨ (scoreKey a.score = scoreKey b.score ∧ a.id ≤ b.id)) ∧
       findQuery (cutTo key n s) key = some { q with cands := l.take n })

/-- R157: An exact query takes no cut instant: at the scan cut, the late-stage cut and the shard cut only the time passes; one that waits for data at its deadline
counts once in QUERY_STALLS. -/
def Obligations.ExactQueriesTakeNoCut : Prop :=
  (∀ (key t : Nat) (q : Query) (s : State), findQuery s key = some q → q.exact = true →
     exec (.scanCut key t) s = .next (tick t s) ∧ exec (.lateStageCut key t) s = .next (tick t s) ∧ exec (.shardCut key t) s = .next (tick t s) ∧
     (q.stalled = false → q.deadline ≠ 0 → q.deadline ≤ max s.now t → waitsForData q = true →
       exec (.queryStall key t) s = .next (bump Key.queryStalls (updQuery key (fun x => { x with stalled := true }) (tick t s)))) ∧
     (q.stalled = true → exec (.queryStall key t) s = .next (tick t s)))

/-- R323 R325 R423: A connection request is accepted where there is room, or an idle SPP connection that closes makes it, its MTU is one of the three, and no connection
to its sender exists or is being asked for by the module of lower index, and rejected else; a copy on another port than that of the rule only wakes the module; the reply to the module's own request completes it; the module asks a peer for a connection on the port that the
rule selects; and it asks again on port 0 what is not answered within 2 ms. -/
def Obligations.ConnectionsAreMade : Prop :=
  (∀ (port sub remote mtu peer t : Nat) (s : State), netUp (tick t s) = true → linkUp (tick t s) port sub = true →
    (strayRequest (tick t s) port sub peer = true → exec (.connectionRequest port sub remote mtu peer false t) s = .next (tick t s)) ∧
    (strayRequest (tick t s) port sub peer = false →
      let v := makeConnRoom port (tick t s)
      ∃ u, exec (.connectionRequest port sub remote mtu peer false t) s = .next u ∧
        if connRoom v port = true ∧ (mtu = 1024 ∨ mtu = 2048 ∨ mtu = 4096) ∧
            (peer = 0xFFFF ∨ (peerConn (tick t s) peer = false ∧ ¬(s.net.requests.any (·.peer == peer) = true ∧ moduleIndex (tick t s) < peer))) then
          u.net.conns = v.net.conns ++ [newConn v port sub remote mtu peer false] ∧
            u.net.nextQpn = v.net.nextQpn + 1 ∧ u.net.out = v.net.out ++ [.cmReply v.net.nextQpn]
        else u.net.conns = s.net.conns ∧ u.net.out = s.net.out ++ [.cmReject remote])) ∧
  (∀ (port sub remote mtu peer t : Nat) (s : State), netUp (tick t s) = true → linkUp (tick t s) port sub = true →
    s.net.requests.any (·.peer == peer) = true →
    ∃ u, exec (.connectionRequest port sub remote mtu peer true t) s = .next u ∧
      u.net.conns = mapIf (fun c => c.qpn == s.net.nextQpn) (sentOn (max s.now t) (packetsOf mtu (64 + Config.identityCertificate.length)))
        (s.net.conns ++ [newConn (tick t s) port sub remote mtu peer true]) ∧
      u.net.out = s.net.out ++ [.keyA s.net.nextQpn] ∧ u.net.requests.any (·.peer == peer) = false) ∧
  (∀ (peer port t : Nat) (s : State), netUp (tick t s) = true → installMode (tick t s) = 2 → peer ≠ moduleIndex (tick t s) →
    peer < moduleCount (tick t s) → peerConn (tick t s) peer = false → (tick t s).net.requests.any (·.peer == peer) = false →
    peerPort (tick t s) peer = some port → connRoom (tick t s) port = true →
    ∃ u, exec (.sppConnectionOpen peer t) s = .next u ∧
      u.net.requests = s.net.requests ++ [{ peer := peer, since := max s.now t, repeated := false }] ∧
      u.net.out = s.net.out ++ [.cmRequest peer false]) ∧
  (∀ (peer t : Nat) (s : State), s.net.requests.any (fun r => r.peer == peer && !r.repeated && r.since + 2000000 ≤ max s.now t) = true →
    ∃ u, exec (.connectionRequestRepeat peer t) s = .next u ∧ u.net.out = s.net.out ++ [.cmRequest peer true] ∧
      u.net.requests.any (fun r => r.peer == peer && !r.repeated) = false)

/-- R328 R330 R331 R332: The LINK_KEY messages, each in the one state that waits for it, and the change of keys. The handshake opens a connection with the chosen
minor version, or refuses and closes it. -/
def Obligations.KeysAndHandshakeOpenConnections : Prop :=
  (∀ (qpn t : Nat) (payload : Bytes) (s : State) (c : Conn), findConn (tick t s) qpn = some c →
    (c.phase = .established ∨ c.phase = .keying) → c.initiator = false → c.keyStep = 0 →
    ∃ u, exec (.linkKeyA qpn payload t) s = .next u ∧
      match (Config.certKey (keyCert payload)).bind (keyParty (tick t s) c) with
      | some d => findConn u qpn = some (sentOn (max s.now t) (packetsOf d.mtu (96 + Config.identityCertificate.length))
            { d with phase := .keying, keyStep := 1, lastTraffic := max s.now t }) ∧
          u.net.out = s.net.out ++ [.keyB qpn]
      | none => findConn u qpn = none) ∧
  (∀ (qpn t : Nat) (payload : Bytes) (s : State) (c : Conn), findConn (tick t s) qpn = some c →
    c.phase = .keying → c.initiator = true → c.keyStep = 0 →
    ∃ u, exec (.linkKeyB qpn payload t) s = .next u ∧
      match (Config.certKey ((keyCert payload).take (payload.length - 96))).bind (fun k => (keyParty (tick t s) c k).map fun d => (k, d)) with
      | some (k, _) => if Config.confirms k payload then
          (findConn u qpn).map (fun x => (x.phase, x.keyStep)) = some (.negotiating, 2) ∧ .keyC qpn ∈ u.net.out
          else findConn u qpn = none
      | none => findConn u qpn = none) ∧
  (∀ (qpn t : Nat) (payload : Bytes) (s : State) (c : Conn), findConn (tick t s) qpn = some c →
    c.phase = .keying → c.initiator = false → c.keyStep = 1 →
    ∃ u, exec (.linkKeyC qpn payload t) s = .next u ∧
      if Config.confirms c.key payload then (findConn u qpn).map (fun x => (x.phase, x.keyStep)) = some (.negotiating, 2)
      else findConn u qpn = none) ∧
  (∀ (qpn : Nat) (s : State) (c : Conn), findConn s qpn = some c → settingNat s Key.linkRekeyPackets ≤ c.txPackets →
    ∃ u, exec (.linkRekey qpn) s = .next u ∧ findConn u qpn = some { c with txPackets := 0, txPhase := !c.txPhase }) ∧
  (∀ (qpn t : Nat) (payload : Bytes) (s : State) (c : Conn), findConn (tick t s) qpn = some c → c.phase = .negotiating →
    ¬(c.peer ≠ 0xFFFF ∧ c.peer < moduleIndex (tick t s)) →
    ∃ u, exec (.hello qpn payload t) s = .next u ∧
      if helloResult (tick t s) c payload = 0 then
        (findConn u qpn).map (fun x => (x.phase, x.proto, x.major, x.minor)) =
          some (.open_, u8At payload 4, 1, min (ownMinor (u8At payload 4)) (u8At payload 7))
      else findConn u qpn = none) ∧
  (∀ (qpn t : Nat) (payload : Bytes) (s : State) (c : Conn), findConn (tick t s) qpn = some c → c.phase = .negotiating →
    (c.peer ≠ 0xFFFF ∧ c.peer < moduleIndex (tick t s)) → helloFormed 0x52484C41 true payload = true →
    ∃ u, exec (.helloReply qpn payload t) s = .next u ∧
      if replyAccepts c payload = true then
        (findConn u qpn).map (fun x => (x.phase, x.proto, x.major, x.minor)) = some (.open_, 2, 1, u8At payload 7)
      else findConn u qpn = none)

/-- R324 R325 R335 R337 R338: A CREDIT frame grants what it names; credit that is owed goes back in a CREDIT frame; a suspended connection resumes with the credits it
started with; unacknowledged packets are sent again until RETRY_COUNT is exhausted and the connection closes; an idle SPP connection closes with a disconnect
request; and a disconnect request of the other end closes the connection, its queue and the queue's commands. -/
def Obligations.CreditAndTimersOfConnections : Prop :=
  (∀ (qpn t : Nat) (b : Bytes) (s : State) (c : Conn), findConn (tick t s) qpn = some c → c.phase = .open_ → c.proto = 2 →
    u16At b 6 = 1 → sppFormed c b = true → u8At b 8 = c.major → u8At b 9 = c.minor → s.net.waits = [] →
    ∃ u, exec (.credit qpn b t) s = .next u ∧ findConn u qpn = some { c with
      rxSeq := c.rxSeq + 1, lastTraffic := (tick t s).now, creditMsgs := c.creditMsgs + u16At b 10, creditBytes := c.creditBytes + u32At b 12 }) ∧
  (∀ (qpn t : Nat) (s : State) (c : Conn), findConn (tick t s) qpn = some c → c.phase = .open_ → c.proto = 2 → c.owedMsgs ≠ 0 →
    ∃ u, exec (.creditReturnTimeout qpn t) s = .next u ∧ u.net.out = s.net.out ++ [.credit qpn] ∧
      findConn u qpn = some (sentOn (max s.now t) (packetsOf c.mtu 32) { c with
        txSeq := c.txSeq + 1, heldMsgs := c.heldMsgs + c.owedMsgs, heldBytes := c.heldBytes + c.owedBytes, owedMsgs := 0, owedBytes := 0 })) ∧
  (∀ (qpn t : Nat) (s : State) (c : Conn), findConn (tick t s) qpn = some c → c.phase = .suspended → c.proto = 2 →
    c.suspendedAt + settingNat (tick t s) Key.sppSuspendMs * 1000000 ≤ (tick t s).now → s.net.waits = [] →
    ∃ u, exec (.sppSuspendExpiry qpn t) s = .next u ∧ findConn u qpn = some { c with
      phase := .open_, creditMsgs := c.startMsgs, creditBytes := c.startBytes, heldMsgs := c.grantMsgs, heldBytes := c.grantBytes,
      owedMsgs := 0, owedBytes := 0, rnr := [] }) ∧
  (∀ (qpn t : Nat) (s : State) (c : Conn), findConn (tick t s) qpn = some c →
    (c.unacked = 0 ∨ max s.now t < c.sentAt + ackTimeout (tick t s) → exec (.ackTimeout qpn t) s = .next (tick t s)) ∧
    (c.unacked ≠ 0 → c.sentAt + ackTimeout (tick t s) ≤ max s.now t →
      ∃ u, exec (.ackTimeout qpn t) s = .next u ∧
        if settingNat (tick t s) Key.retryCount ≤ c.retries then findConn u qpn = none
        else u.net.out = s.net.out ++ [.resend qpn] ∧ findConn u qpn = some { sendAgain (max s.now t) c with retries := c.retries + 1 })) ∧
  (∀ (qpn t : Nat) (s : State) (c : Conn), findConn (tick t s) qpn = some c → c.proto = 2 →
    c.lastTraffic + settingNat (tick t s) Key.sppIdleCloseS * 1000000000 ≤ (tick t s).now → s.net.waits.any (·.peer == c.peer) = false →
    ∃ u, exec (.sppIdleClose qpn t) s = .next u ∧ findConn u qpn = none ∧ .cmDisconnect qpn ∈ u.net.out) ∧
  (∀ (qpn t : Nat) (s : State), ∃ u, exec (.disconnectRequest qpn t) s = .next (resumeLayers u) ∧ findConn u qpn = none ∧
    ∀ q, queueOfConn (tick t s) qpn = some q → (findConn (tick t s) qpn).isSome = true →
      (∀ c ∈ u.ahp.cmds, c.queue ≠ q.qid) ∧ ∀ p ∈ u.ahp.queues, p.qid ≠ q.qid)

/-- R321 R322 R323 R330 R336: What becomes of a frame: one with a bad check, with IPv4 options or of no accepted kind is counted and dropped; a packet that does not
authenticate is counted and dropped, and the 16th in a row closes the connection; an operation that the module never accepts is answered with a NAK and closes the
connection; a SEND in its order is acknowledged, and its entry enters the queue; one ahead of its order is answered with a sequence NAK, one behind it is acknowledged
again, and one that finds no receive buffer is answered with RNR. An uncorrectable word of the memory that held a connection's state or packets closes it. -/
def Obligations.FramesAreReceived : Prop :=
  (∀ (port sub q t : Nat) (s : State), netUp (tick t s) = true →
    ∃ u, exec (.frameReceive port sub (.memoryWord (some q)) t) s = .next u ∧ findConn u q = none) ∧
  (∀ (port sub t : Nat) (s : State), netUp (tick t s) = true → linkUp (tick t s) port sub = true → s.Canonical →
     (counter s Key.icrcDrops + 1 < 2 ^ 64 → ∃ u, exec (.frameReceive port sub .badFcs t) s = .next u ∧ counter u Key.icrcDrops = counter s Key.icrcDrops + 1) ∧
     (counter s Key.ipv4OptionDrops + 1 < 2 ^ 64 →
       ∃ u, exec (.frameReceive port sub .ipv4Options t) s = .next u ∧ counter u Key.ipv4OptionDrops = counter s Key.ipv4OptionDrops + 1) ∧
     (counter s Key.unacceptedFrames + 1 < 2 ^ 64 →
       ∃ u, exec (.frameReceive port sub .unaccepted t) s = .next u ∧ counter u Key.unacceptedFrames = counter s Key.unacceptedFrames + 1) ∧
     (∀ (p : Packet) (c : Conn), findConn (tick t s) p.qpn = some c → c.phase = .open_ → c.proto = 1 → p.authentic = true →
       p.op = .send → p.psn = c.psn → p.ce = false → bufferPosted (tick t s) c = true →
       ∀ (q : Queue) (r : OpRow), queueOfConn (tick t s) c.qpn = some q →
       checkEntry (tick t s) (rekeyed p c) (some q) p.payload = .ok r → r.op ≠ 0x01 →
       ∃ u, exec (.frameReceive port sub (.roce p) t) s = .next u ∧ .ack c.qpn ∈ u.net.out ∧
         ∃ d, u.ahp.cmds = s.ahp.cmds ++ [d] ∧ d.entry = parseEntry p.payload ∧ d.queue = q.qid ∧ d.phase = .received ∧ d.arrived = max s.now t) ∧
     (∀ (p : Packet) (c : Conn), findConn (tick t s) p.qpn = some c → p.ce = false →
       (p.authentic = false → c.phase ≠ .established → c.phase ≠ .keying →
         (16 ≤ c.authRun + 1 → ∃ u, exec (.frameReceive port sub (.roce p) t) s = .next u ∧ findConn u p.qpn = none) ∧
         (c.authRun + 1 < 16 → counter s Key.authFailures + 1 < 2 ^ 64 → ∃ u, exec (.frameReceive port sub (.roce p) t) s = .next u ∧
           counter u Key.authFailures = counter s Key.authFailures + 1 ∧ findConn u p.qpn = some { c with authRun := c.authRun + 1 } ∧ u.ahp = s.ahp)) ∧
       (p.authentic = true → ∀ k, badOp p.op = some k →
         ∃ v, exec (.frameReceive port sub (.roce p) t) s = .next (bump Key.unsupportedOpcodeNaks (closeConn p.qpn v)) ∧
           v.net.out = s.net.out ++ [.nak p.qpn k] ∧ findConn (closeConn p.qpn v) p.qpn = none) ∧
       (p.authentic = true → p.op = .send → (p.psn + 16777216 - c.psn) % 16777216 ≠ 0 →
         ∃ u, exec (.frameReceive port sub (.roce p) t) s = .next u ∧ findConn u p.qpn = some (rekeyed p c) ∧ u.ahp = s.ahp ∧
           u.net.out = s.net.out ++ [if (p.psn + 16777216 - c.psn) % 16777216 < 8388608 then .nak p.qpn 1 else .ack p.qpn]) ∧
       (p.authentic = true → p.op = .send → p.psn = c.psn → bufferPosted (tick t s) c = false →
         ∃ u, exec (.frameReceive port sub (.roce p) t) s = .next u ∧ u.net.out = s.net.out ++ [.nak p.qpn 4] ∧ u.ahp.cmds = s.ahp.cmds)))

/-- R326: PFC pause, storm and the end of a storm. -/
def Obligations.PfcPausesAndStorms : Prop :=
  (∀ (port sub priority t : Nat) (s : State) (x : SubPort), netUp (tick t s) = true → bit (settingNat (tick t s) Key.pfcEnableMask) priority = true →
    findSub s port sub = some x → pauseOf x priority = none →
    ∃ u, exec (.pfcPause port sub priority true t) s = .next u ∧
      findSub u port sub = some { x with pauses := x.pauses ++ [{ prio := priority, since := max s.now t, last := max s.now t, storm := false }] }) ∧
  (∀ (port sub priority t : Nat) (s : State) (x : SubPort) (p : Pause), findSub s port sub = some x → pauseOf x priority = some p →
    p.storm = false → p.since + settingNat (tick t s) Key.pfcStormMs * 1000000 ≤ max s.now t → s.Canonical → counter s Key.pfcStorms + 1 < 2 ^ 64 →
    ∃ u, exec (.pfcStorm port sub priority t) s = .next u ∧ counter u Key.pfcStorms = counter s Key.pfcStorms + 1 ∧
      ∀ y, findSub u port sub = some y → (pauseOf y priority).map (·.storm) = some true) ∧
  (∀ (port sub priority t : Nat) (s : State) (x : SubPort) (p : Pause), findSub s port sub = some x → pauseOf x priority = some p →
    p.storm = true → p.last + 100000000 ≤ max s.now t →
    ∃ u, exec (.pfcStormEnd port sub priority t) s = .next u ∧ ∀ y, findSub u port sub = some y → pauseOf y priority = none)

/-- R327: A congestion notification cuts the sending rate, and each recovery period raises it. -/
def Obligations.SendingRateFollowsCongestion : Prop :=
  (∀ (qpn t : Nat) (s : State) (c : Conn), findConn s qpn = some c →
    ∃ u, exec (.cnpReceive qpn t) s = .next u ∧ findConn u qpn = some { c with
      rt := c.rc, rc := clampRate (tick t s) c.port (c.rc * (1 - c.alpha / 2)),
      alpha := (1 - rpGain (tick t s)) * c.alpha + rpGain (tick t s), periods := 0, rpAt := max s.now t }) ∧
  (∀ (qpn t : Nat) (s : State) (c : Conn), findConn s qpn = some c →
    ∃ u, exec (.rpRecovery qpn t) s = .next u ∧ findConn u qpn = some (
      if c.rpAt + settingUs (tick t s) Key.rpRecoveryUs ≤ max s.now t then { c with
        alpha := (1 - rpGain (tick t s)) * c.alpha, rc := clampRate (tick t s) c.port ((c.rc + c.rt) / 2),
        rt := if 5 ≤ c.periods then c.rt + settingNat (tick t s) Key.rpAiMbps else c.rt, periods := c.periods + 1,
        rpAt := c.rpAt + settingUs (tick t s) Key.rpRecoveryUs }
      else c)) ∧
  (∀ (s : State) (port : Nat) (r : Rat), 100 ≤ clampRate s port r ∧ (100 ≤ (subRate s port : Rat) → clampRate s port r ≤ subRate s port))

/-- R318 R338 R456: A link trains where its cage holds a usable medium, and may go down; when it has stayed down through the retries its connections close. A cage
takes the medium of the plug-in that is put into it and is empty without one, a usable plug-in that grows too hot is refused and counted, and each of these drops
the cage's links. -/
def Obligations.LinksAndCages : Prop :=
  (∀ (port sub t : Nat) (s : State) (x : SubPort), netUp (tick t s) = true → (cageMedium s port = 1 ∨ cageMedium s port = 2) →
    findSub s port sub = some x → x.up = false →
    ∃ u, exec (.linkTraining port sub true t) s = .next u ∧ findSub u port sub = some { x with up := true, pauses := [] }) ∧
  (∀ (port sub t : Nat) (s : State) (x : SubPort), findSub s port sub = some x → x.up = true →
    ∃ u, exec (.linkDown port sub false t) s = .next u ∧ findSub u port sub = some { x with up := false, downSince := max s.now t, pauses := [] } ∧
      u.net.conns = s.net.conns) ∧
  (∀ (port sub t : Nat) (s : State) (x : SubPort), findSub s port sub = some x → x.up = false →
    x.downSince + (settingNat s Key.retryCount + 1) * (4096 * 2 ^ settingNat s Key.ackTimeoutExp) ≤ max s.now t →
    ∃ u, exec (.linkDown port sub false t) s = .next u ∧ ∀ c ∈ u.net.conns, ¬(c.port = port ∧ c.sub = sub)) ∧
  (∀ (port sub t : Nat) (s : State), ∃ u, exec (.linkDown port sub true t) s = .next u ∧ u.net.mgmtUp = false) ∧
  (∀ (port t : Nat) (plug : PlugIn) (s : State), netUp (tick t s) = true → port < s.net.cages.length →
    ∃ u, exec (.cageInsert port plug t) s = .next u ∧ cageMedium u port = mediumOf plug ∧ ∀ sub, linkUp u port sub = false) ∧
  (∀ (port t : Nat) (s : State), port < s.net.cages.length →
    ∃ u, exec (.plugInRemoved port t) s = .next u ∧ cageMedium u port = 0 ∧ ∀ sub, linkUp u port sub = false) ∧
  (∀ (port t : Nat) (s : State), port < s.net.cages.length → (cageMedium s port = 1 ∨ cageMedium s port = 2) → s.Canonical →
    counter s Key.cageModulesRefused + 1 < 2 ^ 64 →
    ∃ u, exec (.plugInHighAlarm port t) s = .next u ∧ cageMedium u port = 3 ∧ (∀ sub, linkUp u port sub = false) ∧
      counter u Key.cageModulesRefused = counter s Key.cageModulesRefused + 1)

/-- R339 R340: The first lock steps the time base to the master's time and moves the deadline and cut instants of the queries in flight by the step; from then on
the time base is not stepped, and the offset decides between LOCKED and HOLDOVER; a master behind the time base is not followed before a lock, nor in HOLDOVER with
an offset above 1 µs; and 3 s without sync is HOLDOVER, or FREE_RUNNING before the first lock. -/
def Obligations.TimeBaseFollowsPtp : Prop :=
  (∀ (sync : PtpSync) (t : Nat) (s : State), netUp (tick t s) = true → s.net.locked = false → max s.now t ≤ sync.masterTime →
    ∃ u, exec (.ptpMessage sync t) s = .next u ∧ u.now = sync.masterTime ∧ u.net.locked = true ∧ u.net.timeState = 1 ∧ u.net.offset = sync.offset ∧
      u.search.queries.length = s.search.queries.length ∧
      ∀ q ∈ s.search.queries, ∃ r ∈ u.search.queries, r.key = q.key ∧ (q.deadline ≠ 0 → r.deadline = q.deadline + (sync.masterTime - max s.now t)) ∧
        (q.tsc ≠ 0 → r.tsc = q.tsc + (sync.masterTime - max s.now t)) ∧ (q.tls ≠ 0 → r.tls = q.tls + (sync.masterTime - max s.now t)) ∧
        (q.tsh ≠ 0 → r.tsh = q.tsh + (sync.masterTime - max s.now t))) ∧
  (∀ (sync : PtpSync) (t : Nat) (s : State), netUp (tick t s) = true →
    (s.net.locked = false ∧ sync.masterTime < max s.now t) ∨ (s.net.locked = true ∧ s.net.timeState ≠ 1 ∧ sync.masterTime < max s.now t ∧ 1000 < sync.offset.natAbs) →
    exec (.ptpMessage sync t) s = .next (tick t s)) ∧
  (∀ (sync : PtpSync) (t : Nat) (s : State), netUp (tick t s) = true → s.net.locked = true →
    ¬(s.net.timeState ≠ 1 ∧ sync.masterTime < max s.now t ∧ 1000 < sync.offset.natAbs) →
    ∃ u, exec (.ptpMessage sync t) s = .next u ∧ u.now = max s.now t ∧ u.net.offset = sync.offset ∧
      u.net.timeState = if sync.offset.natAbs ≤ 1000 then 1 else 2) ∧
  (∀ (t : Nat) (s : State), s.net.lastSync + 3000000000 ≤ max s.now t →
    ∃ u, exec (.ptpSyncLoss t) s = .next u ∧ u.net.timeState = if s.net.locked then 2 else 0)

/-- R280 R282 R283 R284 R287: A burst that the patrol reads with more than three bad symbols cannot be corrected and counts; it and a corrected burst with two or three
bad symbols each count as a failure of the row's bank; one bad symbol counts against the row until ROW_CE_THRESHOLD passes. Memory that failed leaves use: a tile in it
gets a new allocation, and once the copy is complete and its units are recovered its readers switch to it, while a tile that fits nowhere stays recorded; and the
channels of a critical stack are marked and fenced when its last memory-layer command has completed. -/
def Obligations.FailingMemoryLeavesUse : Prop :=
  (∀ (x : Scrub) (t : Nat) (s : State), s.power.state = .p0 → s.hbm.mappedOut.contains x.channel = false → s.hbm.fenced.contains x.channel = false →
     x.silent = false → (slotAt (tick t s) x.channel x.bank x.row x.burst).isSome = true → isRetired s x.channel x.bank (some x.row) = false →
     s.hbm.fenced = [] →
     (3 < (badSymbols s x).length → s.Canonical → counter s Key.hbmUncorrectableBursts + 1 < 2 ^ 64 →
       ∃ u, exec (.scrubPass x t) s = .next u ∧ (bankRec u x.channel x.bank).fails = (bankRec s x.channel x.bank).fails + 1 ∧
         counter u Key.hbmUncorrectableBursts = counter s Key.hbmUncorrectableBursts + 1) ∧
     (2 ≤ (badSymbols s x).length → (badSymbols s x).length ≤ 3 →
       ∃ u, exec (.scrubPass x t) s = .next u ∧ (bankRec u x.channel x.bank).fails = (bankRec s x.channel x.bank).fails + 1) ∧
     ((badSymbols s x).length = 1 → rowPasses (tick t s) x < settingNat s Key.rowCeThreshold → 0 < rowPasses (tick t s) x →
       ∃ u, exec (.scrubPass x t) s = .next u ∧ u.hbm.banks = s.hbm.banks ∧
         { channel := x.channel, bank := x.bank, row := x.row, passes := rowPasses (tick t s) x, last := scrubPassNo (tick t s) } ∈ u.hbm.ce) ∧
     (x.symbols = [] → exec (.scrubPass x t) s = .next (placeTiles (tick t s)))) ∧
  (∀ (channel bank : Nat) (whole : Bool) (row : Nat) (x : HbmTile) (s : State), isRetired (placeTiles s) channel bank (retiredPart whole row) = true →
    (placeTiles s).hbm.tiles.find? (·.id == x.id) = some x → tileIn (placeTiles s) x channel bank (retiredPart whole row) = true →
    (placeTiles s).hbm.relocs.any (·.tile == x.id) = false → writerAtWork (placeTiles s) x.obj = false →
    ∃ u, exec (.tileRelocation x.id channel bank whole row) s = .next u ∧ u.hbm.tiles = (placeTiles s).hbm.tiles ∧
      match allocate (placeTiles s) x.placement x.depth x.groups with
      | some runs => u.hbm.relocs = (placeTiles s).hbm.relocs ++ [{ tile := x.id, channel := channel, bank := bank, runs := runs }] ∧
          u.hbm.stuck = (placeTiles s).hbm.stuck
      | none => u.hbm.relocs = (placeTiles s).hbm.relocs ∧ { channel := channel, bank := bank, row := retiredPart whole row } ∈ u.hbm.stuck) ∧
  (∀ (r : Reloc) (x : HbmTile) (s : State), s.hbm.relocs.find? (·.tile == x.id) = some r → s.hbm.tiles.find? (·.id == x.id) = some x →
    ((s.hbm.hurt.filter fun h => x.runs.any (runHolds s x.placement h.channel h.slot)).all (·.recovered) = true →
      Table.wf (fun _ => 0) s.counters = true → counter s Key.tilesRelocated + 1 < 2 ^ 64 →
      ∃ u y, exec (.relocationSwitch x.id) s = .next u ∧ u.hbm.relocs = s.hbm.relocs.filter (·.tile ≠ x.id) ∧
        u.hbm.tiles.find? (·.id == x.id) = some y ∧ y.runs = r.runs ∧ y.obj = x.obj ∧ { runs := x.runs, order := s.ahp.nextOrder } ∈ y.old ∧
        counter u Key.tilesRelocated = counter s Key.tilesRelocated + 1) ∧
    ((s.hbm.hurt.filter fun h => x.runs.any (runHolds s x.placement h.channel h.slot)).all (·.recovered) = false →
      exec (.relocationSwitch x.id) s = .next s)) ∧
  (∀ (stack : Nat) (s : State), s.power.draining.contains stack = true → memoryCmds s = [] →
    ∃ u, exec (.stackDrainComplete stack) s = .next u ∧ u.power.degraded = true ∧ stack ∉ u.power.draining ∧
      ∀ c ∈ stackChannels stack, c ∈ u.hbm.fenced ∧ c ∈ u.hbm.marked)

/-- R273 R285 R286 R287 R291: A unit that is recovered serves its object again once no other unit of it is hurt, for the commands admitted from then on; in a tile that is
being relocated its new copy is good and the object follows at the switch, and a unit on a fenced channel or in retired memory waits. A command that waits for scratch
banks takes them, first come first served, when enough are free; the run of the traffic generator ends with its counts. -/
def Obligations.MediaServeAgain : Prop :=
  (∀ (channel slot : Nat) (h : Hurt) (s : State), s.hbm.hurt.find? (fun x => x.channel == channel && x.slot == slot && !x.recovered) = some h →
    (sramObject h.obj = false → s.hbm.fenced.contains channel = false → ((hbmTileAt s channel slot).any fun t => s.hbm.relocs.any (·.tile == t.id)) = false →
      slotRetired s channel slot = false → Table.wf (fun _ => 0) s.counters = true → counter s Key.mediaRecoveries + 1 < 2 ^ 64 →
      ∃ u, exec (.mediaRecovery channel slot) s = .next u ∧
        u.hbm.hurt = s.hbm.hurt.filter (fun x => !(x.channel == channel && x.slot == slot)) ∧
        counter u Key.mediaRecoveries = counter s Key.mediaRecoveries + 1 ∧
        (∀ coll part c, h.obj = .partition coll part → u.hbm.hurt.any (fun x => x.obj == .partition coll part) = false →
          findColl s coll = some c → ∃ d, findColl u coll = some d ∧ d.damaged = c.damaged.filter (· ≠ part) ∧
            d.healed = c.healed ++ [(part, s.ahp.nextOrder)])) ∧
    (sramObject h.obj = false → s.hbm.fenced.contains channel = false → ((hbmTileAt s channel slot).any fun t => s.hbm.relocs.any (·.tile == t.id)) = true →
      Table.wf (fun _ => 0) s.counters = true → counter s Key.mediaRecoveries + 1 < 2 ^ 64 →
      ∃ u, exec (.mediaRecovery channel slot) s = .next u ∧ { h with recovered := true } ∈ u.hbm.hurt ∧ u.search = s.search ∧ u.mem = s.mem ∧
        counter u Key.mediaRecoveries = counter s Key.mediaRecoveries + 1) ∧
    (sramObject h.obj = false → s.hbm.fenced.contains channel = true ∨
        (((hbmTileAt s channel slot).any fun t => s.hbm.relocs.any (·.tile == t.id)) = false ∧ slotRetired s channel slot = true) →
      exec (.mediaRecovery channel slot) s = .next s)) ∧
  (∀ (w : BankHold) (r : List BankHold) (s : State), s.hbm.waiters = w :: r →
    (w.banks ≤ banksFree s → ∃ u, exec .scratchBanksGranted s = .next (runBanked w.seq u) ∧ u.hbm.holds = s.hbm.holds ++ [w] ∧ u.hbm.waiters = r ∧
      banksFree u + w.banks = banksFree s ∧ u = { s with hbm := u.hbm } ∧
      ((findFwd s w.seq).any (·.phase == .banks) = false → exec .scratchBanksGranted s = .next u)) ∧
    (banksFree s < w.banks → exec .scratchBanksGranted s = .next s)) ∧
  (∀ (pins : List Nat) (corrected uncorrectable : Nat) (s : State), s.hbm.tg.state = 1 →
    let most := fun n k : Nat => if s.hbm.tg.run.isNone then n else min n k
    ∃ u, exec (.tgRunComplete pins corrected uncorrectable) s = .next u ∧
      u.hbm.tg.errors = (if tgRaw s then sumOf (pins.map (most · (8 * tgBursts s)))
        else most corrected (tgBursts s - most uncorrectable (tgBursts s)) + most uncorrectable (tgBursts s)) ∧
      u.hbm.tg.state = (if u.hbm.tg.errors = 0 then 2 else 3) ∧
      u.hbm.tg.pins = (if tgRaw s then pins.map (most · (8 * tgBursts s)) else List.replicate 72 0) ∧
      u.hbm.tg.failed = (u.hbm.tg.pins.filter (· ≠ 0)).length)

/-- R297 R302 R303 R304 R315: What a page read of the cold tier leaves: a lost page is recorded unless a copy holds its data or it is a parity page, a page of a die that
failed is rebuilt from its parity group, a page read with too many bit errors has its block queued for refresh, and a die that failed is queued for rebuild; the last
page of a partition that was being restored makes it readable. The patrol works in P0: it refreshes the queued blocks, with the programs that this takes, and reads one
page more while the period has pages left. Garbage collection and the rebuild of a failed die program pages, and the spare share they leave makes the tier read-only
when none is left; the flash traffic generator ends its run with PASS exactly when no page failed. -/
def Obligations.ColdTierKeepsItsPages : Prop :=
  (∀ (r : FlashRead) (t : Nat) (s : State), flashRuns (tick t s) = true → ∃ u, exec (.flashReadComplete r t) s = .next u ∧
      (r.result = .lost → r.copyHeld = false → r.channel ≠ parityChannel r.group →
        { kind := r.kind, owner := r.owner, lpn := r.lpn } ∈ u.cold.lost ∧ u.cold.programs = s.cold.programs) ∧
      (r.result = .lost → r.copyHeld = true ∨ r.channel = parityChannel r.group → u.cold.lost = s.cold.lost ∧ u.cold.programs = s.cold.programs + 4096) ∧
      (r.result ≠ .lost → s.cold.deadDies.contains (r.channel, r.die) = true ∨ r.result = .rebuilt →
        u.cold.lost = s.cold.lost ∧ u.cold.programs = s.cold.programs + 4096 ∧
        (s.Canonical → counter s Key.coldParityRebuilds + 1 < 2 ^ 64 → counter u Key.coldParityRebuilds = counter s Key.coldParityRebuilds + 1)) ∧
      (r.result = .first ∨ r.result = .retried → s.cold.deadDies.contains (r.channel, r.die) = false →
        u.cold.lost = s.cold.lost ∧ u.cold.programs = s.cold.programs) ∧
      (r.refresh = true → (r.channel, r.block) ∈ u.cold.refresh) ∧
      (∀ d, r.dieFailed = some d → (r.channel, d) ∈ u.cold.deadDies) ∧
      (∀ coll part c, r.use = .restore coll part → findColl s coll = some c → ∃ d, findColl u coll = some d ∧
        d.unrestored = c.unrestored.filter (· ≠ part) ∧ (r.result = .lost → r.copyHeld = false → part ∈ d.damaged))) ∧
  (∀ (r : FlashRead) (t : Nat) (s : State), flashRuns (tick t s) = false → exec (.flashReadComplete r t) s = .next (tick t s)) ∧
  (∀ (r : FlashRead) (pages t : Nat) (s : State), s.power.state = .p0 → ∃ u, exec (.patrol ⟨r, pages⟩ t) s = .next u ∧
      (r.refresh = false → u.cold.refresh = []) ∧
      (readResult r s = .first ∨ readResult r s = .retried →
        u.cold.programs = s.cold.programs + (if s.cold.refresh = [] then 0 else 4096 * pages)) ∧
      ((patrolStart (tick t s)).cold.patrolled < coldPages (tick t s) →
        u.cold.patrolled = (patrolStart (tick t s)).cold.patrolled + 1 ∧
        (r.refresh = true → u.cold.refresh = [(r.channel, r.block)]) ∧
        (r.result = .lost → r.copyHeld = false → r.channel ≠ parityChannel r.group → { kind := r.kind, owner := r.owner, lpn := r.lpn } ∈ u.cold.lost)) ∧
      (coldPages (tick t s) ≤ (patrolStart (tick t s)).cold.patrolled → u.cold.refresh = [] ∧ u.cold.lost = s.cold.lost)) ∧
  (∀ (pages spare : Nat) (s : State), s.power.state = .p0 → ∃ u, exec (.garbageCollection pages spare) s = .next u ∧
      u.cold.programs = s.cold.programs + 4096 * pages ∧ u.cold.sparePct = spare ∧
      u.cold.readOnly = (s.cold.readOnly || spare == 0)) ∧
  (∀ (channel die pages spare : Nat) (s : State), s.power.state = .p0 → s.cold.deadDies.contains (channel, die) = true →
    ∃ u, exec (.dieRebuild channel die pages spare) s = .next u ∧ (channel, die) ∉ u.cold.deadDies ∧
      u.cold.programs = s.cold.programs + 4096 * pages ∧ u.cold.sparePct = spare ∧ u.cold.readOnly = (s.cold.readOnly || spare == 0)) ∧
  (∀ (dies errors retries rebuilds : Nat) (lost : List LostRead) (s : State), s.cold.ftg.state = 1 →
    ∃ u, exec (.ftgRunComplete dies errors retries rebuilds lost) s = .next u ∧
      u.cold.ftg.state = (if errors = 0 ∧ lost = [] then 2 else 3) ∧ u.cold.ftg.errors = errors ∧ u.cold.ftg.failed = dies ∧
      (bits (settingNat s Key.ftgControl) 25 24 = 1 → ∀ p ∈ lost, p.page ∈ u.cold.lost))

/-- R311 R312: A promotion that completes leaves its copy resident (or gone, when bad with no holder), and the commands that waited for it go on. The first request that
waits for space of a region of the window takes it at once when copies enough may be evicted, and gets a reference to every page it asked for; else it waits on. -/
def Obligations.WindowServesItsPages : Prop :=
  (∀ (page : Nat) (bad : Bool) (s : State), ∃ u, exec (.promotionReadComplete page bad) s = .next (resumeAll u) ∧
      (∀ c ∈ u.cold.copies, c.page = page → c.state = .resident) ∧
      (∀ c ∈ s.cold.copies, c.page = page → c.state = .promoting → bad = false ∨ c.holders ≠ [] →
        { c with state := .resident, bad := bad } ∈ u.cold.copies)) ∧
  (∀ (region capacity : Nat) (w : SpaceWait) (s : State),
    s.cold.waits.find? (fun w => w.region == region && w.capacity == capacity) = some w →
    hasRoom s region capacity w.pages = true →
    ∃ u, exec (.windowSpaceFreed region capacity) s = .next (resumeAll u) ∧
      u.cold.waits = s.cold.waits.eraseP (fun x => x.region == region && x.capacity == capacity) ∧
      (∀ p ∈ w.pages, ∃ c ∈ u.cold.copies, c.page = p ∧ w.seq ∈ c.holders)) ∧
  (∀ (region capacity : Nat) (w : SpaceWait) (s : State),
    s.cold.waits.find? (fun w => w.region == region && w.capacity == capacity) = some w → hasRoom s region capacity w.pages = false →
    exec (.windowSpaceFreed region capacity) s = .next s)

/-- R342 R346: A checked QUEUE_CREATE makes the queue of the lowest free index of its port with its depth and class; an entry that fails a check is answered at
once, counts in ENTRIES_REJECTED and leaves the queues and commands as they are. -/
def Obligations.SubmissionEntriesAreChecked : Prop :=
  (∀ (qp n : Nat) (b : Bytes) (s : State) (c : Conn) (r : OpRow), findConn s qp = some c → c.phase = .open_ → c.proto = 1 →
    u8At b 0 = 0x01 → checkEntry s c (queueOfConn s c.qpn) b = .ok r → freeQueueIndex s c.port = some n →
    ∃ u, exec (.queueCreate qp b) s = .next u ∧
      (∃ q ∈ u.ahp.queues, q.qid = 1024 * c.port + n ∧ q.conn = c.qpn ∧ q.depth = u64At b 12 % 65536 ∧ q.cls = bits (u64At b 12) 23 16) ∧
      u.net.out = s.net.out ++ [.completion c.qpn (completionBytes (u32At b 4) { status := Status.success, info := 1024 * c.port + n })] ∧
      u.ahp.cmds = s.ahp.cmds) ∧
  (∀ (qp : Nat) (b : Bytes) (s : State) (c : Conn) (x : Comp), findConn s qp = some c → c.phase = .open_ → c.proto = 1 →
    u8At b 0 = 0x01 → checkEntry s c (queueOfConn s c.qpn) b = .bad x →
    Table.wf (fun _ => 0) s.counters = true → counter s Key.entriesRejected + 1 < 2 ^ 64 →
    ∃ u, exec (.queueCreate qp b) s = .next u ∧ u.ahp = s.ahp ∧ counter u Key.entriesRejected = counter s Key.entriesRejected + 1 ∧
      u.net.out = s.net.out ++ [.completion c.qpn (completionBytes (receivedId b) x)])

/-- R336 R352 R353 R354 R462: A dispatch slot takes the command that the arbiter names, once; a dispatched command that nothing holds and whose target and plan can be
named is admitted with the present epoch of its collection and the dictionary's present values, and one whose target or plan cannot be named completes with the
status that says so; a completion that may be sent goes out and ends its command, with the flags of its tiles and of its deadline. QUEUE_RESET ends the
commands of its queue that were outstanding at its dispatch; it reports their number, and its completion follows theirs, unless it was itself among them. A
command whose input is longer or shorter than announced ends with LENGTH_MISMATCH and changes no collection and no head. -/
def Obligations.CommandsRunFromDispatchToCompletion : Prop :=
  (∀ (cls t : Nat) (q : Queue) (c : Cmd) (used : List Nat) (s : State), frontOpen (tick t s) = true →
    nextDispatch (tick t s) = (some (cls, q, c), used) → findCmd s c.seq = some c → c.internal = false →
    ∃ v, exec (.commandDispatch t) s = .next (dispatchCmd c (max s.now t) v) ∧ v.ahp.used = used ∧ v.ahp.last = modAt (fun _ => some q.qid) cls s.ahp.last ∧
      v = { tick t s with ahp := v.ahp } ∧ v.ahp.cmds = s.ahp.cmds ∧
      (targetPending v c = false → ∀ st, targetFail v c = some st ∨ (targetFail v c = none ∧ planFail v c = some st) →
        ready (dispatchCmd c (max s.now t) v) c.seq = some { status := st }) ∧
      (targetPending v c = true ∨ (targetFail v c = none ∧ planFail v c = none) → holdEnded v { c with phase := .dispatched } = false →
        ∃ d, findCmd (dispatchCmd c (max s.now t) v) c.seq = some d ∧ d.phase = .dispatched ∧ d.dispatchedAt = max s.now t ∧ d.entry = c.entry ∧
          (c.entry.inLen ≠ 0 → .xrdy (connOf v c) (xrdyBytes c (max s.now t)) ∈ (dispatchCmd c (max s.now t) v).net.out))) ∧
  (∀ (seq : Nat) (c : Cmd) (s : State), findCmd s seq = some c → c.phase = .dispatched → holdEnded s c = true → s.ahp.admissionOpen = true →
    (targetFail s c = none → planFail s c = none → (memoryLayer c.entry.opcode && s.power.degraded) = false →
      ∃ u d, exec (.commandAdmit seq) s = .next (atAdmission d u) ∧ findCmd u seq = some d ∧ d.phase = .admitted ∧ d.order = s.ahp.nextOrder ∧
        d.epoch = ((findColl s c.entry.target).map (·.epoch)).getD 0 ∧ d.config = s.settings ∧ d.entry = c.entry ∧ u.ahp.nextOrder = s.ahp.nextOrder + 1 ∧
        u.search = s.search ∧
        ([0x02, 0x04, 0x11, 0x21, 0x22, 0x23, 0x24, 0x31].contains c.entry.opcode = false → exec (.commandAdmit seq) s = .next u)) ∧
    (c.internal = false → ∀ st, targetFail s c = some st ∨ (targetFail s c = none ∧ planFail s c = some st) →
      ∃ u, exec (.commandAdmit seq) s = .next u ∧ ready u seq = some { status := st } ∧ u.search = s.search ∧ u.mem = s.mem) ∧
    (c.internal = false → targetFail s c = none → planFail s c = none → (memoryLayer c.entry.opcode && s.power.degraded) = true →
      ∃ u, exec (.commandAdmit seq) s = .next u ∧ ready u seq = some { status := Status.moduleDegraded } ∧ u.mem = s.mem)) ∧
  (∀ (seq t : Nat) (c : Cmd) (x : Comp) (s : State), findCmd s seq = some c → c.comp = some x → maySend s c = true → s.power.state ≠ .p4 →
    s.Canonical → counter s Key.commandsCompleted + 1 < 2 ^ 64 →
    ∃ u, exec (.completionSend seq t) s = .next (resumeLayers (afterCompletion c.entry u)) ∧ findCmd u seq = none ∧
      counter u Key.commandsCompleted = counter s Key.commandsCompleted + 1 ∧
      u.net.out = s.net.out ++ [.completion (connOf s c) (completionBytes c.entry.cmdId
        { x with flags := (x.flags ||| c.tileFlags) + (if c.deadline ≠ 0 ∧ c.deadline < max s.now t then Cflag.deadlineMissed else 0) })]) ∧
  (∀ (seq : Nat) (headers : List HeaderRead) (c : Cmd) (s : State), admittedCmd s seq 0x02 = some c → c.internal = false → resetPending s c = false →
     let ended := (endable s (c.entry.target % 65536)).filter (·.seq < u64At c.report 0)
     (ended.any (·.seq == seq) = false →
       ∃ u d, exec (.queueReset seq headers) s = .next (resumeLayers u) ∧ findCmd u seq = some d ∧
         d.comp = some { status := Status.success, info := ended.length } ∧ d.waitsFor = (ended.filter (·.seq ≠ seq)).map (·.seq)) ∧
     (ended.any (·.seq == seq) = true →
       ∃ u, exec (.queueReset seq headers) s = .next (resumeLayers u) ∧ findCmd u seq = none)) ∧
  (∀ (seq : Nat) (c : Cmd) (s : State), findCmd s seq = some c → c.phase = .dispatched → holdEnded s c = true → s.ahp.admissionOpen = true →
    c.entry.opcode = 0x02 → targetFail s c = none →
    ∃ u d, exec (.commandAdmit seq) s = .next u ∧ findCmd u seq = some d ∧ d.phase = .admitted ∧ d.report = toLE 8 s.ahp.nextSeq) ∧
  (∀ (seq t : Nat) (b : Bytes) (c : Cmd) (s : State), admittedCmd s seq c.entry.opcode = some c → c.internal = false → b.length ≠ c.entry.inLen →
    ∀ x ∈ [(0x06, Instr.roleManage seq b), (0x10, .loadPlan seq b CodeChecks.match_), (0x20, .createCollection seq b), (0x25, .insert seq b),
        (0x26, .delete seq b), (0x29, .loadIndex seq b), (0x2A, .search seq b Upsets.quiet t), (0x2B, .uniqueCount ⟨seq, Upsets.quiet⟩ b t),
        (0x30, .createMemoryHead seq b), (0x33, .memlayerFwd seq b Upsets.quiet t), (0x34, .memlayerBwd ⟨seq, Upsets.quiet⟩ b t),
        (0x35, .memlayerUpdate ⟨seq, Upsets.quiet⟩ b t)], c.entry.opcode = x.1 →
      ∃ u, exec x.2 s = .next u ∧ ready u seq = some { status := Status.lengthMismatch } ∧ u.search = s.search ∧ u.mem = s.mem)

/-- R126 R356 R413 R445 R462: LOG_READ, ATTEST and COLLECTION_INFO end with SUCCESS, write what they report to the command's output, and leave the search state, the
black box and the settings as they are; LOG_READ reads the records, and COLLECTION_INFO takes its report, at the admission. -/
def Obligations.ReportsAreWritten : Prop :=
  (∀ (seq : Nat) (c : Cmd) (s : State), findCmd s seq = some c → c.phase = .dispatched → holdEnded s c = true → s.ahp.admissionOpen = true →
    c.entry.opcode = 0x04 → targetFail s c = none →
    let first := max c.entry.arg0 (oldestSequence s.box)
    let n := min (c.entry.arg1 % 2 ^ 32) (s.box.head + 1 - first)
    ∃ u d, exec (.commandAdmit seq) s = .next u ∧ findCmd u seq = some d ∧ d.phase = .admitted ∧
      d.report = (recordsFrom s.box first n).flatten ++ logTrailer s (if n = 0 then 0 else first) n c.dispatchedAt) ∧
  (∀ (seq : Nat) (c : Cmd) (s : State), admittedCmd s seq 0x04 = some c → c.internal = false →
    ∃ u n, exec (.logRead seq) s = .next u ∧ n = (if c.entry.arg1 % 2 ^ 32 = 0 then 0 else (c.report.length - 192) / 64) ∧
      (ready u seq).map (fun x => (x.status, x.info)) = some (Status.success, n) ∧ u.box = s.box ∧ u.search = s.search ∧ u.settings = s.settings ∧
      (c.entry.arg1 % 2 ^ 32 ≠ 0 →
        u.net.out = s.net.out ++ [.write (connOf s c) c.entry.outAddr c.entry.outKey (c.report ++ signBytes s c.report)])) ∧
  (∀ (seq : Nat) (c : Cmd) (s : State), admittedCmd s seq 0x05 = some c → c.internal = false →
    Table.wf (fun _ => 0) s.counters = true → counter s Key.attestations + 1 < 2 ^ 64 →
    ∃ u b, exec (.attest seq) s = .next u ∧ (ready u seq).map (fun x => (x.status, x.info)) = some (Status.success, b.length) ∧
      counter u Key.attestations = counter s Key.attestations + 1 ∧ u.box = s.box ∧ u.search = s.search ∧ u.settings = s.settings ∧
      u.net.out = s.net.out ++ [.write (connOf s c) c.entry.outAddr c.entry.outKey b] ∧ reportBody s c <+: b) ∧
  (∀ (seq : Nat) (c : Cmd) (k : Coll) (s : State), findCmd s seq = some c → c.phase = .dispatched → holdEnded s c = true → s.ahp.admissionOpen = true →
    c.entry.opcode = 0x22 → targetFail s c = none → findColl s c.entry.target = some k →
    ∃ u d, exec (.commandAdmit seq) s = .next u ∧ findCmd u seq = some d ∧ d.phase = .admitted ∧ d.epoch = k.epoch ∧ d.report = collInfo s k ∧ u.search = s.search) ∧
  (∀ (seq : Nat) (c : Cmd) (s : State), admittedCmd s seq 0x22 = some c → c.internal = false →
    ∃ u, exec (.collectionInfo seq) s = .next u ∧
      (ready u seq).map (fun x => (x.status, x.info)) = some (Status.success, c.epoch) ∧
      (c.report ≠ [] → u.net.out = s.net.out ++ [.write (connOf s c) c.entry.outAddr c.entry.outKey c.report]) ∧
      u.box = s.box ∧ u.search = s.search ∧ u.settings = s.settings ∧ u.counters = s.counters)

/-- R39 R358 R410 R411 R412: A role request that passes its checks takes effect on the roles; one that fails changes none. LOAD_PLAN leaves exactly one plan of its name
on the target, the checked one; a plan that fails a check, whose target cannot be named, or for which MAX_PLANS leaves no place changes none and completes with the
status and the offset that say so. UNLOAD_PLAN leaves no plan of its name from its admission on, and answers PLAN_NOT_BOUND where there was none. -/
def Obligations.RolesAndPlansAreManaged : Prop :=
  (∀ (seq : Nat) (b : Bytes) (c : Cmd) (s : State), admittedCmd s seq 0x06 = some c → c.internal = false → b.length = c.entry.inLen →
     (roleRequestFail s true b = none → ∃ u, exec (.roleManage seq b) s = .next u ∧ u.sec.roles = rolesAfter s b ∧
       (ready u seq).map (fun x => (x.status, x.info)) = some (Status.success, 0)) ∧
     (∀ st off, roleRequestFail s true b = some (st, off) → ∃ u, exec (.roleManage seq b) s = .next u ∧ u.sec = s.sec ∧ u.search = s.search ∧
       (ready u seq).map (·.status) = some st)) ∧
  (∀ (seq : Nat) (b : Bytes) (c : Cmd) (s : State), admittedCmd s seq 0x10 = some c → c.internal = false → b.length = c.entry.inLen → planFailAt b = none →
    targetVisible s c (planKind b == 2, c.entry.target) = true → checkBinding s (planKind b) c.entry.target b (freeHbm s / 1048576) = none →
    ¬(settingNat s Key.maxPlans ≤ s.ahp.plans.length ∧ s.ahp.plans.any (samePlan (planKind b) c.entry.target (planIdOf b)) = false) →
    ∃ u p, exec (.loadPlan seq b CodeChecks.match_) s = .next u ∧ u.ahp.plans.filter (samePlan (planKind b) c.entry.target (planIdOf b)) = [p] ∧
      p.bytes = b ∧ p.bound = true ∧ ready u seq = some { status := Status.success, info := planIdOf b }) ∧
  (∀ (seq o : Nat) (b : Bytes) (c : Cmd) (s : State), admittedCmd s seq 0x10 = some c → c.internal = false → b.length = c.entry.inLen → planFailAt b = some o →
    ∃ u, exec (.loadPlan seq b CodeChecks.match_) s = .next u ∧ u.ahp.plans = s.ahp.plans ∧
      ready u seq = some { status := Status.invalidPlan, source := .payload, offset := o }) ∧
  (∀ (seq : Nat) (b : Bytes) (c : Cmd) (s : State), admittedCmd s seq 0x10 = some c → c.internal = false → b.length = c.entry.inLen → planFailAt b = none →
    (targetVisible s c (planKind b == 2, c.entry.target) = false → ∃ u, exec (.loadPlan seq b CodeChecks.match_) s = .next u ∧ u.ahp.plans = s.ahp.plans ∧
      ready u seq = some { status := if planKind b = 2 then Status.headNotFound else Status.collectionNotFound }) ∧
    (∀ o, targetVisible s c (planKind b == 2, c.entry.target) = true → checkBinding s (planKind b) c.entry.target b (freeHbm s / 1048576) = some o →
      ∃ u, exec (.loadPlan seq b CodeChecks.match_) s = .next u ∧ u.ahp.plans = s.ahp.plans ∧
        ready u seq = some { status := Status.invalidPlan, source := .payload, offset := o }) ∧
    (targetVisible s c (planKind b == 2, c.entry.target) = true → checkBinding s (planKind b) c.entry.target b (freeHbm s / 1048576) = none →
      settingNat s Key.maxPlans ≤ s.ahp.plans.length → s.ahp.plans.any (samePlan (planKind b) c.entry.target (planIdOf b)) = false →
      ∃ u, exec (.loadPlan seq b CodeChecks.match_) s = .next u ∧ u.ahp.plans = s.ahp.plans ∧ ready u seq = some { status := Status.capacityExceeded })) ∧
  (∀ (seq : Nat) (c : Cmd) (s : State), findCmd s seq = some c → c.phase = .dispatched → holdEnded s c = true → s.ahp.admissionOpen = true →
    c.entry.opcode = 0x11 → targetFail s c = none →
    let mine := samePlan (if bit c.entry.arg2 0 then 2 else 1) c.entry.target c.entry.arg0
    ∃ u d, exec (.commandAdmit seq) s = .next u ∧ findCmd u seq = some d ∧ d.phase = .admitted ∧ u.ahp.plans = s.ahp.plans.filter (fun p => !mine p) ∧
      d.report = if s.ahp.plans.any mine then [1] else c.report) ∧
  (∀ (seq : Nat) (c : Cmd) (s : State), admittedCmd s seq 0x11 = some c → c.internal = false →
    ∃ u, exec (.unloadPlan seq) s = .next u ∧ u.ahp.plans = s.ahp.plans ∧
      ready u seq = some { status := if c.report = [] then Status.planNotBound else Status.success })

/-- R104 R105 R407 R462: A collection whose schema passes its checks is made empty at epoch 0 with its key and its digest chain, where the append reserve fits free HBM
(the model's choice, notes/assumptions/27.md); a deletion hides it from its admission on and works until nothing uses the collection, which then goes with its key. -/
def Obligations.CollectionsAreMadeAndDeleted : Prop :=
  (∀ (seq : Nat) (b : Bytes) (c : Cmd) (s : State), admittedCmd s seq 0x20 = some c → c.internal = false → b.length = c.entry.inLen → notOwner s c.entry.target = false →
    findColl s c.entry.target = none → s.search.colls.length < 4096 → schemaFail b = none → coldRefuses s (ceilDiv b.length 4096) = false →
    cmdSetting c Key.appendListLimit * appendEntryBytes b ≤ freeHbm s →
    ∃ u, exec (.createCollection seq b) s = .next u ∧
      findColl u c.entry.target = some (newColl s c.entry.target (roleOf s c) (cmdSetting c Key.appendListLimit) b) ∧
      { kind := 1, id := c.entry.target, digest := sm3 b } ∈ u.sec.chains ∧
      u.sec.keys.any (fun k => k.kind == 1 && k.id == c.entry.target) = true ∧ ready u seq = some { status := Status.success }) ∧
  (∀ (seq : Nat) (b : Bytes) (c : Cmd) (k : Coll) (s : State), admittedCmd s seq 0x20 = some c → c.internal = false → b.length = c.entry.inLen →
    notOwner s c.entry.target = false → findColl s c.entry.target = some k →
    ∃ u, exec (.createCollection seq b) s = .next u ∧ u.search = s.search ∧ ready u seq = some { status := Status.collectionExists }) ∧
  (∀ (seq : Nat) (b : Bytes) (c : Cmd) (s : State), admittedCmd s seq 0x20 = some c → c.internal = false → b.length = c.entry.inLen → notOwner s c.entry.target = false →
    findColl s c.entry.target = none → s.search.colls.length < 4096 → ∀ x, schemaFail b = some x →
    ∃ u, exec (.createCollection seq b) s = .next u ∧ u.search = s.search ∧ (ready u seq).map (·.status) = some x.1) ∧
  (∀ (seq : Nat) (c : Cmd) (k : Coll) (s : State), findCmd s seq = some c → c.phase = .dispatched → holdEnded s c = true → s.ahp.admissionOpen = true →
    c.entry.opcode = 0x21 → targetFail s c = none → findColl s c.entry.target = some k →
    ∃ u d, exec (.commandAdmit seq) s = .next u ∧ findColl u c.entry.target = some d ∧ d.deleting = true ∧ d.deleteSeq = some seq ∧
      d.owner = k.owner ∧ d.schema = k.schema ∧ collVisible u c.entry.target k.owner true = false) ∧
  (∀ (seq : Nat) (c : Cmd) (s : State), admittedCmd s seq 0x21 = some c →
    ∃ u, exec (.deleteCollection seq) s = .next u ∧ findCmd u seq = some { c with phase := .working } ∧ u.search = s.search) ∧
  (∀ (id : Nat) (k : Coll) (s : State), findColl s id = some k → k.deleting = true → objectInUse s 1 id k.deleteSeq = false →
    ∃ u, exec (.dataKeyDestroy 1 id) s = .next u ∧ findColl u id = none ∧ u.sec.keys.any (fun x => x.kind == 1 && x.id == id) = false)

/-- R125 R191 R462: At its admission a SNAPSHOT_COLLECTION holds the present epoch, where fewer than 16 are held; it completes with that epoch, with CAPACITY_EXCEEDED
where there was no place, and with SHARD_UNAVAILABLE and without its hold where another owner of a sharded collection did not hold it too. At its admission a
RELEASE_SNAPSHOT ends one hold of the epoch that it names; one of an epoch that is not held is turned away at ARG_0 (the model's choice,
notes/assumptions/22.md). -/
def Obligations.SnapshotsAreHeldAndReleased : Prop :=
  (∀ (seq : Nat) (c : Cmd) (k : Coll) (s : State), findCmd s seq = some c → c.phase = .dispatched → holdEnded s c = true → s.ahp.admissionOpen = true →
    targetFail s c = none → findColl s c.entry.target = some k → c.report = [] →
    (c.entry.opcode = 0x23 → ∃ u d, exec (.commandAdmit seq) s = .next u ∧ findCmd u seq = some d ∧ d.phase = .admitted ∧ d.epoch = k.epoch ∧
      (findColl u c.entry.target).map (·.snapshots) = some (if k.snapshots.length < 16 then k.snapshots ++ [k.epoch] else k.snapshots) ∧
      d.report = if k.snapshots.length < 16 then [1] else []) ∧
    (c.entry.opcode = 0x24 → ∃ u d, exec (.commandAdmit seq) s = .next u ∧ findCmd u seq = some d ∧ d.phase = .admitted ∧
      (findColl u c.entry.target).map (·.snapshots) = some (k.snapshots.erase c.entry.arg0) ∧
      d.report = if k.snapshots.contains c.entry.arg0 then [1] else [])) ∧
  (∀ (seq t : Nat) (others : Bool) (c : Cmd) (k : Coll) (s : State), admittedCmd s seq 0x23 = some c → c.internal = false →
    findColl s c.entry.target = some k →
    (c.report ≠ [] → k.shard = none ∨ others = true →
      ∃ u, exec (.snapshotCollection seq others t) s = .next u ∧ u.search = s.search ∧
        ready u seq = some { status := Status.success, info := c.epoch }) ∧
    (c.report ≠ [] → k.shard ≠ none → others = false →
      ∃ u, exec (.snapshotCollection seq others t) s = .next u ∧ (findColl u c.entry.target).map (·.snapshots) = some (k.snapshots.erase c.epoch) ∧
        ready u seq = some { status := Status.shardUnavailable }) ∧
    (c.report = [] → ∃ u, exec (.snapshotCollection seq others t) s = .next u ∧ u.search = s.search ∧
        ready u seq = some { status := Status.capacityExceeded })) ∧
  (∀ (seq : Nat) (c : Cmd) (s : State), admittedCmd s seq 0x24 = some c → c.internal = false →
    (c.report ≠ [] → ∃ u, exec (.releaseSnapshot seq) s = .next u ∧ u.search = s.search ∧ ready u seq = some { status := Status.success }) ∧
    (c.report = [] → ∃ u, exec (.releaseSnapshot seq) s = .next u ∧ u.search = s.search ∧
        ready u seq = some { status := Status.invalidField, source := .entry, offset := 12 }))

/-- R118 R119 R121 R188 R357 R359: An INSERT or DELETE that passes its checks starts with its first batch: as a unit here where every identifier of the batch is this
module's to own and there is room, as a unit that waits while there is none, and as a sub-batch that goes to another owner where all are that owner's. One whose batch can
never fit ends with the status that says so, one that holds nothing ends at once, a length that does not fit its count is LENGTH_MISMATCH, and a record that fails a check
is INVALID_FIELD at its offset. -/
def Obligations.InsertsAndDeletesStartTheirBatches : Prop :=
  (∀ (seq : Nat) (b : Bytes) (c : Cmd) (k : Coll) (rows : List Row) (rest : List (List Row)) (s : State),
    admittedCmd s seq 0x25 = some c → c.internal = false → b.length = c.entry.inLen → findColl s c.entry.target = some k → findIngest s seq = none →
    b.length = c.entry.arg1 % 2 ^ 32 * recordSize k.schema → c.entry.arg1 % 2 ^ 32 ≠ 0 →
    recordsFail k.schema b (c.entry.arg1 % 2 ^ 32) [] 0 = none →
    chunksOf (min 256 (65536 / recordSize k.schema)) (recordRows k.schema b (c.entry.arg1 % 2 ^ 32)) = rows :: rest →
    ((∀ m, shardMapOf s c.entry.target = some m → ∀ r ∈ rows, (routeOf k m r.id).2 = moduleIndex s) →
      (roomFor s k (cmdSetting c Key.appendListLimit) (cmdSetting c Key.autoMergeAppend) (.insert rows) = .yes →
        ∃ u, exec (.insert seq b) s = .next u ∧
          u.search.units = s.search.units ++ [newUnit s c.entry.target (.insert rows) (.command seq) .writing (cmdSetting c Key.appendListLimit, cmdSetting c Key.autoMergeAppend)] ∧
          (findIngest u seq).map (fun g => (g.rows, g.batch, g.committed)) = some (rest, rows.length, 0)) ∧
      (roomFor s k (cmdSetting c Key.appendListLimit) (cmdSetting c Key.autoMergeAppend) (.insert rows) = .wait →
        ∃ u, exec (.insert seq b) s = .next u ∧
          u.search.units = s.search.units ++ [newUnit s c.entry.target (.insert rows) (.command seq) .waits (cmdSetting c Key.appendListLimit, cmdSetting c Key.autoMergeAppend)]) ∧
      (roomFor s k (cmdSetting c Key.appendListLimit) (cmdSetting c Key.autoMergeAppend) (.insert rows) = .beyond →
        ∃ u, exec (.insert seq b) s = .next u ∧ (ready u seq).map (·.status) = some Status.capacityExceeded ∧ findIngest u seq = none) ∧
      (roomFor s k (cmdSetting c Key.appendListLimit) (cmdSetting c Key.autoMergeAppend) (.insert rows) = .full →
        ∃ u, exec (.insert seq b) s = .next u ∧ (ready u seq).map (·.status) = some Status.appendListFull ∧ findIngest u seq = none)) ∧
    (∀ m d, shardMapOf s c.entry.target = some m → d.2 ≠ moduleIndex s → (∀ r ∈ rows, routeOf k m r.id = d) →
      ∃ u, exec (.insert seq b) s = .next u ∧ u.search.units = s.search.units ∧
        (findIngest u seq).map (fun g => (g.rows, g.fwds.map fun f => (f.tag, f.shard, f.owner, f.count))) = some (rest, [(unitTag s, d.1, d.2, rows.length)]))) ∧
  (∀ (seq : Nat) (b : Bytes) (c : Cmd) (k : Coll) (s : State), admittedCmd s seq 0x25 = some c → c.internal = false → b.length = c.entry.inLen → findColl s c.entry.target = some k →
    (b.length ≠ c.entry.arg1 % 2 ^ 32 * recordSize k.schema → ∃ u, exec (.insert seq b) s = .next u ∧ u.search = s.search ∧
      ready u seq = some { status := Status.lengthMismatch }) ∧
    (b = [] → c.entry.arg1 % 2 ^ 32 = 0 → ∃ u, exec (.insert seq b) s = .next u ∧ u.search = s.search ∧ ready u seq = some { status := Status.success }) ∧
    (∀ off, b.length = c.entry.arg1 % 2 ^ 32 * recordSize k.schema → c.entry.arg1 % 2 ^ 32 ≠ 0 →
      recordsFail k.schema b (c.entry.arg1 % 2 ^ 32) [] 0 = some off → ∃ u, exec (.insert seq b) s = .next u ∧ u.search = s.search ∧
      ready u seq = some { status := Status.invalidField, source := .payload, offset := off })) ∧
  (∀ (seq : Nat) (b : Bytes) (c : Cmd) (k : Coll) (ids : List Nat) (rest : List (List Nat)) (s : State),
    admittedCmd s seq 0x26 = some c → c.internal = false → b.length = c.entry.inLen → findColl s c.entry.target = some k → findIngest s seq = none →
    b.length = 8 * (c.entry.arg1 % 2 ^ 32) → c.entry.arg1 % 2 ^ 32 ≠ 0 →
    chunksOf 8192 ((List.range (c.entry.arg1 % 2 ^ 32)).map fun i => u64At b (8 * i)) = ids :: rest →
    ((∀ m, shardMapOf s c.entry.target = some m → ∀ i ∈ ids, (routeOf k m i).2 = moduleIndex s) →
      (roomFor s k (cmdSetting c Key.appendListLimit) (cmdSetting c Key.autoMergeAppend) (.delete ids) = .yes →
        ∃ u, exec (.delete seq b) s = .next u ∧
          u.search.units = s.search.units ++ [newUnit s c.entry.target (.delete ids) (.command seq) .writing (cmdSetting c Key.appendListLimit, cmdSetting c Key.autoMergeAppend)] ∧
          (findIngest u seq).map (fun g => (g.ids, g.batch, g.committed)) = some (rest, ids.length, 0)) ∧
      (roomFor s k (cmdSetting c Key.appendListLimit) (cmdSetting c Key.autoMergeAppend) (.delete ids) = .wait →
        ∃ u, exec (.delete seq b) s = .next u ∧
          u.search.units = s.search.units ++ [newUnit s c.entry.target (.delete ids) (.command seq) .waits (cmdSetting c Key.appendListLimit, cmdSetting c Key.autoMergeAppend)]) ∧
      (roomFor s k (cmdSetting c Key.appendListLimit) (cmdSetting c Key.autoMergeAppend) (.delete ids) = .beyond →
        ∃ u, exec (.delete seq b) s = .next u ∧ (ready u seq).map (·.status) = some Status.capacityExceeded ∧ findIngest u seq = none) ∧
      (roomFor s k (cmdSetting c Key.appendListLimit) (cmdSetting c Key.autoMergeAppend) (.delete ids) = .full →
        ∃ u, exec (.delete seq b) s = .next u ∧ (ready u seq).map (·.status) = some Status.appendListFull ∧ findIngest u seq = none)) ∧
    (∀ m d, shardMapOf s c.entry.target = some m → d.2 ≠ moduleIndex s → (∀ i ∈ ids, routeOf k m i = d) →
      ∃ u, exec (.delete seq b) s = .next u ∧ u.search.units = s.search.units ∧
        (findIngest u seq).map (fun g => (g.ids, g.fwds.map fun f => (f.tag, f.shard, f.owner, f.count))) = some (rest, [(unitTag s, d.1, d.2, ids.length)]))) ∧
  (∀ (seq : Nat) (b : Bytes) (c : Cmd) (s : State), admittedCmd s seq 0x26 = some c → c.internal = false → b.length = c.entry.inLen →
    (b.length ≠ 8 * (c.entry.arg1 % 2 ^ 32) → ∃ u, exec (.delete seq b) s = .next u ∧ u.search = s.search ∧
      ready u seq = some { status := Status.lengthMismatch }) ∧
    (b = [] → c.entry.arg1 % 2 ^ 32 = 0 → ∃ u, exec (.delete seq b) s = .next u ∧ u.search = s.search ∧
      ready u seq = some { status := Status.success }))

/-- R117 R120 R284: A unit of an unsharded collection commits at the epoch after the collection's: what it inserts stands in the append list, what it deletes has its
tombstone, and its tree is the newest version. A unit of a sharded collection is logged and asks the keeper for its epoch, where this module is not the keeper itself. A
commit waits while a tile of its collection moves. -/
def Obligations.UnitsCommitAtTheNextEpoch : Prop :=
  (∀ (tag t : Nat) (x : CUnit) (c : Coll) (s : State), findUnit s tag = some x → x.phase = .writing → findColl s x.coll = some c →
     commitWaits (tick t s) c = false → (∀ b e r, x.body ≠ .takeOver b e r) →
     (shardMapOf s x.coll = none → ∃ u d, exec (.unitCommit tag t) s = .next u ∧ findColl u x.coll = some d ∧ d.epoch = c.epoch + 1 ∧
       (∀ rows, x.body = .insert rows → ∀ r ∈ rows, { row := { r with epoch := c.epoch + 1 }, foldedAt := none } ∈ d.append) ∧
       (∀ ids, x.body = .delete ids → ∀ i ∈ ids, (liveRows c c.epoch).any (·.id == i) = true →
         d.tombs.any (fun t => t.id == i && t.epoch == c.epoch + 1) = true) ∧
       (∀ tree cut folded, x.body = .version tree cut folded → d.trees.head? = some { tree with epoch := c.epoch + 1 })) ∧
     (∀ m, shardMapOf s x.coll = some m → isKeeper (tick t s) m = false → ∃ v, exec (.unitCommit tag t) s = .next (pumpMove x.coll
         (sendSpp m.keeper Spp.epochAlloc (toLE 4 x.coll ++ toLE 2 ((ownShard (tick t s) m).getD 0) ++ zeros 2 ++ toLE 8 x.tag) v)) ∧
       v = updUnit tag (fun y => { y with phase := .logged }) (tick t s))) ∧
  (∀ (tag t : Nat) (x : CUnit) (c : Coll) (s : State), findUnit s tag = some x → x.phase = .writing → findColl s x.coll = some c →
     commitWaits (tick t s) c = true → exec (.unitCommit tag t) s = .next (tick t s))

/-- R121 R123 R124: A batch that waits goes on when there is room for it, and waits on while there is none; a collection whose merge is due starts one by itself; and
MERGE folds what there is to fold into a new version, ends at once where there is nothing, and completes with CAPACITY_EXCEEDED where the version finds no place. -/
def Obligations.AppendListsAreFolded : Prop :=
  (∀ (coll : Nat) (x : CUnit) (c : Coll) (s : State), s.search.units.find? (fun u => u.coll == coll && u.phase == .waits) = some x →
    findColl s coll = some c →
    (roomFor s c x.limit x.auto x.body = .yes →
      ∃ u, exec (.appendRoomResume coll) s = .next u ∧ (findUnit u x.tag).map (·.phase) = some .writing ∧ u.search.colls = s.search.colls) ∧
    (roomFor s c x.limit x.auto x.body = .wait → exec (.appendRoomResume coll) s = .next s)) ∧
  (∀ (coll : Nat) (c : Coll) (s : State), findColl s coll = some c → c.trees ≠ [] → c.autoOff = false → c.deleting = false → mergeDue s c = true →
    (s.ahp.cmds.any fun d => d.internal && d.entry.target == coll) = false →
    ∃ u, exec (.autoMergeStart coll) s = .next u ∧ u.ahp.cmds.any (fun d => d.internal && d.entry.target == coll && d.entry.opcode == 0x27) = true ∧
      u.search = s.search) ∧
  (∀ (seq : Nat) (c : Cmd) (k : Coll) (s : State), admittedCmd s seq 0x27 = some c → c.internal = false → findColl s c.entry.target = some k →
    (planMerge k (buildCfg c) c.epoch (freeHbm s) = .nothing → ∃ u, exec (.merge seq) s = .next u ∧ u.search = s.search ∧
      ready u seq = some { status := Status.success, info := k.epoch }) ∧
    (planMerge k (buildCfg c) c.epoch (freeHbm s) = .full → ∃ u, exec (.merge seq) s = .next u ∧ u.search = s.search ∧
      ready u seq = some { status := Status.capacityExceeded }) ∧
    (∀ tree folded, planMerge k (buildCfg c) c.epoch (freeHbm s) = .version tree folded → coldRefuses s (versionPages k.schema tree) = false →
      ∃ u, exec (.merge seq) s = .next u ∧ (findColl u c.entry.target).bind (·.job) = some { seq := seq, kind := 1 } ∧
        u.search.units = s.search.units ++ [newUnit s c.entry.target (.version tree c.epoch folded) (.command seq) .writing (liveLimits s)]))

/-- R112 R115 R117: BUILD_INDEX and LOAD_INDEX write one new tree version of the vectors live at their epoch, as one unit that holds the collection's one structural
command: the hierarchical k-means of the vectors, or the tree of the image that passed its checks. A version that free HBM or the cold tier does not take completes with
CAPACITY_EXCEEDED, a build of no vectors ends at once, and an image that fails a check is turned away. -/
def Obligations.IndexesAreBuiltAndLoaded : Prop :=
  (∀ (seq : Nat) (c : Cmd) (k : Coll) (s : State), admittedCmd s seq 0x28 = some c → c.internal = false → awaitsBanks (takeBanks c s) seq = false →
    findColl s c.entry.target = some k → k.damaged = [] → (c.plan.bind fun p => allTilesFail (livePlan s p)) = none →
    (liveRows k c.epoch = [] → ∃ u, exec (.buildIndex ⟨seq, Upsets.quiet⟩) s = .next u ∧ u.search = s.search ∧
      ready u seq = some { status := Status.success, info := k.epoch }) ∧
    (liveRows k c.epoch ≠ [] → partitionCount k.schema (liveRows k c.epoch).length ≤ partitionLimit k.schema →
      coldRefuses s (versionPages k.schema (builtVersion c k)) = false → versionHbm k.schema (builtVersion c k) ≤ freeHbm s →
      ∃ u, exec (.buildIndex ⟨seq, Upsets.quiet⟩) s = .next u ∧ (findColl u c.entry.target).bind (·.job) = some { seq := seq, kind := 2 } ∧
        u.search.units = s.search.units ++ [newUnit s c.entry.target (.version (builtVersion c k) c.epoch (inputEntries k c.epoch)) (.command seq) .writing (liveLimits s)]) ∧
    (liveRows k c.epoch ≠ [] → partitionLimit k.schema < partitionCount k.schema (liveRows k c.epoch).length ∨
        coldRefuses s (versionPages k.schema (builtVersion c k)) = true ∨ freeHbm s < versionHbm k.schema (builtVersion c k) →
      ∃ u, exec (.buildIndex ⟨seq, Upsets.quiet⟩) s = .next u ∧ u.search = s.search ∧ ready u seq = some { status := Status.capacityExceeded })) ∧
  (∀ (seq : Nat) (b : Bytes) (c : Cmd) (k : Coll) (s : State), admittedCmd s seq 0x29 = some c → c.internal = false → b.length = c.entry.inLen → findColl s c.entry.target = some k →
    (imageFail k.schema b ((liveRows k c.epoch).map (·.id)) (heldBook k != []) = none →
      coldRefuses s (versionPages k.schema (imageTree k.schema b (liveRows k c.epoch) (heldBook k))) = false →
      versionHbm k.schema (imageTree k.schema b (liveRows k c.epoch) (heldBook k)) ≤ freeHbm s →
      ∃ u, exec (.loadIndex seq b) s = .next u ∧ (findColl u c.entry.target).bind (·.job) = some { seq := seq, kind := 3 } ∧
        u.search.units = s.search.units ++ [newUnit s c.entry.target (.version (imageTree k.schema b (liveRows k c.epoch) (heldBook k)) c.epoch (inputEntries k c.epoch))
          (.command seq) .writing (liveLimits s)]) ∧
    (∀ x, imageFail k.schema b ((liveRows k c.epoch).map (·.id)) (heldBook k != []) = some x →
      ∃ u, exec (.loadIndex seq b) s = .next u ∧ u.search = s.search ∧ (ready u seq).map (·.status) = some x.1))

/-- R133 R176 R193 R357 R360: A SEARCH and a UNIQUE_COUNT that pass their checks become a query on the epoch that they name, which on a sharded collection asks every
shard; one that asks for nothing ends at once with that epoch, one whose output buffer is too short is turned away at OUT_LENGTH, and a record that fails a check with the
status of its check. -/
def Obligations.QueriesStart : Prop :=
  (∀ (seq t : Nat) (b : Bytes) (cmd : Cmd) (c : Coll) (p : Plan) (s : State), admittedCmd s seq 0x2A = some cmd → cmd.internal = false → b.length = cmd.entry.inLen →
    awaitsBanks (takeBanks cmd (tick t s)) seq = false → findColl s cmd.entry.target = some c → cmd.plan = some p →
    (∀ x, queryFail (commandCtx (tick t s) cmd c p (queryEpoch cmd b)) b = some x →
      ∃ u, exec (.search seq b Upsets.quiet t) s = .next u ∧ u.search = s.search ∧ (ready u seq).map (·.status) = some x.1) ∧
    (queryFail (commandCtx (tick t s) cmd c p (queryEpoch cmd b)) b = none →
      (Qr.k b = 0 → ∃ u, exec (.search seq b Upsets.quiet t) s = .next u ∧ u.search = s.search ∧
        ready u seq = some { status := Status.success, info := queryEpoch cmd b }) ∧
      (Qr.k b ≠ 0 → cmd.entry.outLen < minOutput b → ∃ u, exec (.search seq b Upsets.quiet t) s = .next u ∧ u.search = s.search ∧
        ready u seq = some { status := Status.invalidField, source := .entry, offset := 56 }) ∧
      (Qr.k b ≠ 0 → minOutput b ≤ cmd.entry.outLen → allTilesFail (livePlan s p) = none → findQuery s s.search.nextQuery = none →
        (shardMapOf s c.id = none → ∃ u, exec (.search seq b Upsets.quiet t) s = .next u ∧
          (findQuery u s.search.nextQuery).map (fun q => (q.origin, q.coll, q.record, q.epoch, q.deadline, q.order)) =
            some (.search seq, c.id, b, queryEpoch cmd b, cmd.arrived + 1000 * Qr.deadlineUs b, cmd.order) ∧
          u.search.nextQuery = s.search.nextQuery + 1) ∧
        (∀ m, shardMapOf s c.id = some m → ∃ v q, exec (.search seq b Upsets.quiet t) s = .next (concludeShards s.search.nextQuery v) ∧
          findQuery v s.search.nextQuery = some q ∧ q.origin = .search seq ∧ q.phase = .shards ∧ q.epoch = queryEpoch cmd b ∧
          q.shards.map (fun w => (w.shard, w.owner)) = (List.range m.owners.length).zip m.owners ∧
          q.tsh = cmd.arrived + 1000 * Qr.deadlineUs b - 1000 * cmdSetting cmd Key.mergeReserveUs)))) ∧
  (∀ (seq t : Nat) (b : Bytes) (cmd : Cmd) (c : Coll) (p : Plan) (s : State), admittedCmd s seq 0x2B = some cmd → cmd.internal = false → b.length = cmd.entry.inLen →
    awaitsBanks (takeBanks cmd (tick t s)) seq = false → findColl s cmd.entry.target = some c → cmd.plan = some p →
    (∀ x, countFail (commandCtx (tick t s) cmd c p (countEpoch cmd b)) b = some x →
      ∃ u, exec (.uniqueCount ⟨seq, Upsets.quiet⟩ b t) s = .next u ∧ u.search = s.search ∧ (ready u seq).map (·.status) = some x.1) ∧
    (countFail (commandCtx (tick t s) cmd c p (countEpoch cmd b)) b = none →
      (u32At b 44 = 0 → ∃ u, exec (.uniqueCount ⟨seq, Upsets.quiet⟩ b t) s = .next u ∧ u.search = s.search ∧
        ready u seq = some { status := Status.success, info := countEpoch cmd b }) ∧
      (u32At b 44 ≠ 0 → cmd.entry.outLen < (if u8At b 41 = 1 then 0 else minOutput (b.drop 64)) + 64 + 16 * u32At b 44 →
        ∃ u, exec (.uniqueCount ⟨seq, Upsets.quiet⟩ b t) s = .next u ∧ u.search = s.search ∧
        ready u seq = some { status := Status.invalidField, source := .entry, offset := 56 }) ∧
      (u32At b 44 ≠ 0 → u8At b 41 ≠ 1 → Qr.k (b.drop 64) = 0 → 64 + 16 * u32At b 44 ≤ cmd.entry.outLen →
        ∃ u, exec (.uniqueCount ⟨seq, Upsets.quiet⟩ b t) s = .next u ∧ u.search = s.search ∧ (ready u seq).map (fun x => (x.status, x.info)) =
          some (Status.success, countEpoch cmd b) ∧ u.net.out = s.net.out ++ [.write (connOf s cmd) cmd.entry.outAddr cmd.entry.outKey
            (countTable (Sch.fieldType c.schema (u8At b 42)) (u32At b 44) (countEpoch cmd b) [] [])]) ∧
      (u32At b 44 ≠ 0 → u8At b 41 = 1 → 64 + 16 * u32At b 44 ≤ cmd.entry.outLen → allTilesFail (livePlan s p) = none → findQuery s s.search.nextQuery = none →
        ∃ u, exec (.uniqueCount ⟨seq, Upsets.quiet⟩ b t) s = .next u ∧
          (findQuery u s.search.nextQuery).map (fun q => (q.origin, q.coll, q.request, q.epoch)) = some (.column seq, c.id, b, countEpoch cmd b)) ∧
      (u32At b 44 ≠ 0 → u8At b 41 ≠ 1 → minOutput (b.drop 64) + 64 + 16 * u32At b 44 ≤ cmd.entry.outLen → Qr.k (b.drop 64) ≠ 0 →
        allTilesFail (livePlan s p) = none → shardMapOf s c.id = none → findQuery s s.search.nextQuery = none →
        ∃ u, exec (.uniqueCount ⟨seq, Upsets.quiet⟩ b t) s = .next u ∧
          (findQuery u s.search.nextQuery).map (fun q => (q.origin, q.coll, q.record, q.request)) = some (.count seq, c.id, b.drop 64, b))))

/-- R140 R141 R142 R154: A pass over row groups of a stripe counts, for those of them that lie on the engine's own channel, for each of its queries that still probes the
partition before T_SC; the probe is complete when all of the partition's groups are covered, and its matching rows and candidates then join the query. A round that is
complete widens while too few rows match and positions are left, and else the scan ends. -/
def Obligations.ProbesAreScannedInRounds : Prop :=
  (∀ (engine part stripe key : Nat) (groups queries : List Nat) (c : Coll) (q : Query) (p : Probe) (s : State),
    engine < 384 → queries.length ≤ 64 → queries.Nodup → key ∈ queries → findColl s c.id = some c → c.unrestored.contains part = false → s.hbm.fenced = [] →
    findQuery s key = some q → q.coll = c.id → q.phase = .scanning → q.probes.find? (·.part == part) = some p → p.complete = false →
    (q.exact = true ∨ s.now < q.tsc → ∃ u x, exec (.sloePass engine c.id part stripe groups queries []) s = .next u ∧ findQuery u key = some x ∧
      let mine := groups.filter fun g => engineOf (placeTiles s) c.id part stripe g == some engine
      let all := rowGroups c.schema (partRows c q part).length
      let seen := dedup (p.groups ++ (mine.map fun g => (stripe, g)).filter all.contains)
      (x.probes.find? (·.part == part)).map (·.complete) = some (decide (all.length ≤ seen.length)) ∧
      (all.length ≤ seen.length → (p.damaged || partHurt c q.order part || partHurt c q.order treeMark || q.media.contains part) = false →
        (x.probes.find? (·.part == part)).map (·.matched) = some (matching c q (partRows c q part)).length ∧
        x.cands = q.cands ++ (partCands c q (ownShardNo s c.id) part (matching c q (partRows c q part))).1) ∧
      (all.length ≤ seen.length → (p.damaged || partHurt c q.order part || partHurt c q.order treeMark || q.media.contains part) = true →
        x.media = q.media ++ [part] ∧ x.cands = q.cands)) ∧
    (q.exact = false → q.tsc ≤ s.now → ∃ u, exec (.sloePass engine c.id part stripe groups queries []) s = .next u ∧ findQuery u key = some q)) ∧
  (∀ (key : Nat) (c : Coll) (q : Query) (s : State), findQuery s key = some q → findColl s q.coll = some c → q.phase = .scanning → roundDone q = true →
    levelLost s q.coll = false →
    (mustWiden q = true → q.exact = true ∨ s.now < q.tsc → s.Canonical → counter s Key.wideningRounds + 1 < 2 ^ 64 →
      ∃ u, exec (.probeRound key) s = .next u ∧ counter u Key.wideningRounds = counter s Key.wideningRounds + 1 ∧
        (findQuery u key).map (fun x => (x.phase, x.taken, x.probes.map (·.part))) = some (.scanning, min (q.taken + Qr.probeCount q.record) q.probeList.length,
          q.probes.map (·.part) ++ (q.probeList.take (min (q.taken + Qr.probeCount q.record) q.probeList.length)).drop q.taken)) ∧
    (mustWiden q = false → ∃ u x, exec (.probeRound key) s = .next u ∧ findQuery u key = some x ∧ x.phase ≠ .scanning ∧ x.probes = q.probes))

/-- R145 R147 R149 R151 R152: Product quantization scores the kept candidates anew from their codes as stage 2 and cuts them to max(K, RERANK_COUNT); the re-ranking
scores its candidates exactly as stage 3, drops those whose full vector is lost and lists their partitions; and the final selection ends the query: a SEARCH with its
result set and the status, epoch and flags of the result, or with LENGTH_MISMATCH where the result set does not fit the buffer, a count with its table, and another
shard's query with its reply. -/
def Obligations.StagesScoreTheCandidates : Prop :=
  (∀ (key : Nat) (c : Coll) (q : Query) (s : State), findQuery s key = some q → findColl s q.coll = some c → q.phase = .adc → q.exact = true ∨ s.now ≤ q.tls →
    ∃ u x, exec (.adcScan key) s = .next u ∧ findQuery u key = some x ∧
      x.phase = (if Qr.rerank q.record = 0 ∨ replaySkips q 1 = true ∨ lateNow s q = true then .final else .rerank) ∧ x.binaryScores = false ∧
      x.cands.length ≤ lateCut q ∧ ∀ y ∈ x.cands, y.stage = 2 ∧ q.cands.any (fun z => z.id == y.id && z.part == y.part && z.shard == y.shard) = true ∧
        ∃ r, (partRows c q y.part).find? (·.id == y.id) = some r ∧
          y.score = (adcRow c.schema (adcTableOf c.schema (((treeAt c q.epoch).map (·.codebook)).getD []) q) r).1) ∧
  (∀ (key : Nat) (lost : List Nat) (c : Coll) (q : Query) (s : State), findQuery s key = some q → findColl s q.coll = some c → q.phase = .rerank →
    q.exact = true ∨ s.now ≤ q.tls →
    let gone := fun y : Cand => lost.contains y.id || partHurt c q.order (fullMark + y.part) ||
      (!Sch.pinFull c.schema && pagesLost s 1 c.id (vectorLpns c.id c.schema (partRows c q y.part) y.id))
    ∃ u x, exec (.rerank key ⟨lost, []⟩) s = .next u ∧ findQuery u key = some x ∧ x.phase = .final ∧
      (∀ y ∈ x.cands, y.stage = 3 ∧ q.cands.any (fun z => z.id == y.id && z.part == y.part && !gone z) = true ∧
        ∃ r, (partRows c q y.part).find? (·.id == y.id) = some r ∧ y.score = rowScore c.schema q r) ∧
      x.media = q.media ++ (q.cands.filter gone).map (·.part)) ∧
  (∀ (key t seq : Nat) (c : Coll) (q : Query) (cmd : Cmd) (s : State), findQuery s key = some q → findColl s q.coll = some c → q.phase = .final →
    q.origin = .search seq → findCmd s seq = some cmd → cmd.internal = false →
    let f := if q.shards.isEmpty then ownFound c.schema (ownShardNo (tick t s) c.id) q else (mergedFound c.schema q).1
    (Qr.wantsDigest q.record = false → (resultBody q f 0).length ≤ cmd.entry.outLen →
      ∃ u, exec (.finalSelection key t) s = .next u ∧ findQuery u key = none ∧
        ready u seq = some { status := mediaStatus f.media, info := q.epoch, flags := resultFlags q f, outBytes := (resultBody q f 0).length } ∧
        u.net.out = s.net.out ++ [.write (connOf s cmd) cmd.entry.outAddr cmd.entry.outKey (resultBody q f 0)]) ∧
    (Qr.wantsDigest q.record = false → cmd.entry.outLen < (resultBody q f 0).length →
      ∃ u, exec (.finalSelection key t) s = .next u ∧ findQuery u key = none ∧
        ready u seq = some { status := Status.lengthMismatch, info := (resultBody q f 0).length } ∧ u.net.out = s.net.out) ∧
    (Qr.wantsDigest q.record = true → ∃ u x, exec (.finalSelection key t) s = .next u ∧ findQuery u key = none ∧ ready u seq = some x ∧
      (x.status = Status.lengthMismatch ∨ (x.status = mediaStatus f.media ∧ x.info = q.epoch ∧ x.flags = resultFlags q f)))) ∧
  (∀ (key t seq : Nat) (c : Coll) (q : Query) (cmd : Cmd) (s : State), findQuery s key = some q → findColl s q.coll = some c → q.phase = .final →
    q.origin = .column seq → findCmd s seq = some cmd → cmd.internal = false →
    let out := countTable (Sch.fieldType c.schema (countField q)) (countLimit q) q.epoch
      ((columnRows c q).map fun r => countedValue (Sch.fieldType c.schema (countField q)) (fieldValue c.schema r.attr (countField q)))
      (mediaOf (ownShardNo (tick t s) c.id) q)
    out.length ≤ cmd.entry.outLen → ∃ u, exec (.finalSelection key t) s = .next u ∧ findQuery u key = none ∧
      (ready u seq).map (fun x => (x.status, x.info)) = some (mediaStatus (mediaOf (ownShardNo (tick t s) c.id) q), q.epoch) ∧
      u.net.out = s.net.out ++ [.write (connOf s cmd) cmd.entry.outAddr cmd.entry.outKey out]) ∧
  (∀ (key t peer qid : Nat) (c : Coll) (q : Query) (s : State), findQuery s key = some q → findColl s q.coll = some c → q.phase = .final →
    q.origin = .peer peer qid → q.shards = [] →
    ∃ v, exec (.finalSelection key t) s = .next (sendSpp peer Spp.shardSearchReply (listReply qid (ownShardNo (tick t s) c.id) q.epoch
      (q.deadline != 0 && q.deadline < max s.now t) (ownFound c.schema (ownShardNo (tick t s) c.id) q)) v) ∧ findQuery v key = none ∧ v.net = s.net)

/-- R154 R155 R157: At T_SC a query that is not exact goes on with its complete probes and lists the others as skipped, with the positions not issued where too few
rows match; at T_LS it skips the late stage it is in; an exact query whose deadline passes while it waits for data counts once in QUERY_STALLS. -/
def Obligations.DeadlinesCutQueries : Prop :=
  (∀ (key t : Nat) (c : Coll) (q : Query) (s : State), findQuery s key = some q → findColl s q.coll = some c → q.phase = .scanning → q.exact = false →
    q.tsc ≤ max s.now t →
    ∃ u x, exec (.scanCut key t) s = .next u ∧ findQuery u key = some x ∧ x.phase ≠ .scanning ∧ x.probes = q.probes.filter (·.complete) ∧
      x.skips = (q.probes.filter (!·.complete)).map (·.part) ++
        (if matchCount { q with probes := q.probes.filter (·.complete) } < Qr.k q.record then q.probeList.drop q.taken else [])) ∧
  (∀ (key t : Nat) (q : Query) (s : State), findQuery s key = some q → q.exact = false → q.tls ≤ max s.now t →
    (q.phase = .rerank → ∃ u, exec (.lateStageCut key t) s = .next u ∧
      (findQuery u key).map (fun x => (x.phase, x.stages, x.cands)) = some (.final, q.stages ||| 2, q.cands)) ∧
    (q.phase = .adc → ∃ u x, exec (.lateStageCut key t) s = .next u ∧ findQuery u key = some x ∧ x.stages.testBit 0 = true ∧
      x.phase = .final ∧ x.cands.length ≤ lateCut q ∧ ∀ y ∈ x.cands, y ∈ q.cands)) ∧
  (∀ (key t : Nat) (q : Query) (s : State), findQuery s key = some q → q.exact = true → q.stalled = false → q.deadline ≠ 0 → q.deadline ≤ max s.now t →
    waitsForData q = true → Table.wf (fun _ => 0) s.counters = true → counter s Key.queryStalls + 1 < 2 ^ 64 →
    ∃ u, exec (.queryStall key t) s = .next u ∧ findQuery u key = some { q with stalled := true } ∧
      counter u Key.queryStalls = counter s Key.queryStalls + 1)

/-- R206 R208 R361 R362 R363: A memory head whose descriptor passes its checks is made with no row written, where the cold tier takes its descriptor; one that fails a check
is turned away with that check's status and offset, and one of a held head with HEAD_EXISTS. A deletion hides the head from then on, unless another head reads its value
table. A tensor write waits while an earlier command needs the tensor or a tile of the head moves; a write of one unit stores its tile, or its rows (of the value table those
of this module's share), and completes with its bytes or the rows that it stored; the first failure of its entry or of its elements is answered. A longer write is cut into
units, and the next commit of its tag lands the next unit, of a tile before the bytes that it held; the last unit completes it. -/
def Obligations.HeadsAreMadeWrittenAndDeleted : Prop :=
  (∀ (seq : Nat) (b : Bytes) (c : Cmd) (s : State), admittedCmd s seq 0x30 = some c → c.internal = false → b.length = c.entry.inLen → findHead s c.entry.target = none →
    s.mem.heads.length < 1024 →
    (headFail s c.entry.target b = none → coldRefuses s (ceilDiv b.length 4096) = false →
      ∃ u, exec (.createMemoryHead seq b) s = .next u ∧ findHead u c.entry.target = some (newHead s c.entry.target (roleOf s c) b) ∧
        { kind := 2, id := c.entry.target, digest := sm3 b } ∈ u.sec.chains ∧ ready u seq = some { status := Status.success }) ∧
    (∀ x, headFail s c.entry.target b = some x → ∃ u, exec (.createMemoryHead seq b) s = .next u ∧ u.mem = s.mem ∧
      ready u seq = some (if x.1 = Status.invalidField then { status := x.1, source := .payload, offset := x.2 } else { status := x.1 }))) ∧
  (∀ (seq : Nat) (b : Bytes) (c : Cmd) (h : Head) (s : State), admittedCmd s seq 0x30 = some c → c.internal = false → b.length = c.entry.inLen → findHead s c.entry.target = some h →
    ∃ u, exec (.createMemoryHead seq b) s = .next u ∧ u.mem = s.mem ∧ ready u seq = some { status := Status.headExists }) ∧
  (∀ (seq : Nat) (c : Cmd) (h : Head) (s : State), findCmd s seq = some c → c.phase = .dispatched → holdEnded s c = true → s.ahp.admissionOpen = true →
    c.entry.opcode = 0x31 → targetFail s c = none → findHead s c.entry.target = some h →
    ∃ u d, exec (.commandAdmit seq) s = .next u ∧ findCmd u seq = some d ∧ d.phase = .admitted ∧
      if headIsSource s c.entry.target then u.mem = s.mem ∧ d.report = c.report
      else findHead u c.entry.target = some { h with deleting := true, deleteSeq := some seq } ∧ d.report = [1]) ∧
  (∀ (seq : Nat) (c : Cmd) (s : State), admittedCmd s seq 0x31 = some c → c.internal = false →
    ∃ u, exec (.deleteMemoryHead seq) s = .next u ∧ u.mem = s.mem ∧
      if c.report = [] then ready u seq = some { status := Status.invalidField, source := .entry, offset := 8 }
      else findCmd u seq = some { c with phase := .working }) ∧
  (∀ (seq : Nat) (b : Bytes) (c : Cmd) (h : Head) (s : State), admittedCmd s seq 0x32 = some c → c.internal = false → findHead s c.entry.target = some h →
    let waits := readersAhead s c (changedHeads s h c.entry.arg2) || writersAhead s c (changedHeads s h c.entry.arg2) ||
      (changedHeads s h c.entry.arg2).any (headMoves s)
    let n := b.length / Hd.rowBytes h.desc c.entry.arg2
    let mine := rowsStored s h c.entry.arg2 c.entry.arg0 n
    (waits = true → exec (.headTensorWrite seq b) s = .next s) ∧
    (∀ o, waits = false → tensorEntryFail h c.entry.arg2 c.entry.arg0 c.entry.inLen = some o →
      ∃ u, exec (.headTensorWrite seq b) s = .next u ∧ u.mem = s.mem ∧ ready u seq = some { status := Status.invalidField, source := .entry, offset := o }) ∧
    (waits = false → tensorEntryFail h c.entry.arg2 c.entry.arg0 c.entry.inLen = none → c.entry.inLen ≠ 0 → b.length = c.entry.inLen →
      coldRefuses s (ceilDiv b.length 4096) = false →
      (5 ≤ c.entry.arg2 → b.length ≤ 65536 → ∃ u, exec (.headTensorWrite seq b) s = .next u ∧ (findHead u h.id).map (headTile · c.entry.arg2) = some b ∧
        ready u seq = some { status := Status.success, info := b.length }) ∧
      (∀ o, c.entry.arg2 ≤ 4 → elementFail (Hd.fmt h.desc c.entry.arg2) (n * Hd.cols h.desc c.entry.arg2) b 0 = some o →
        ∃ u, exec (.headTensorWrite seq b) s = .next u ∧ u.mem = s.mem ∧ ready u seq = some { status := Status.invalidField, source := .payload, offset := o }) ∧
      (c.entry.arg2 ≤ 4 → elementFail (Hd.fmt h.desc c.entry.arg2) (n * Hd.cols h.desc c.entry.arg2) b 0 = none → b.length ≤ unitBytes h c.entry.arg2 →
        ∃ u, exec (.headTensorWrite seq b) s = .next u ∧ ready u seq = some { status := Status.success, info := mine.length } ∧
          ∀ i < n, (findHead u h.id).map (headRow · c.entry.arg2 (c.entry.arg0 + i)) =
            some (if i ∈ mine then slice b (Hd.rowBytes h.desc c.entry.arg2 * i) (Hd.rowBytes h.desc c.entry.arg2)
              else headRow h c.entry.arg2 (c.entry.arg0 + i))) ∧
      (5 ≤ c.entry.arg2 ∨ elementFail (Hd.fmt h.desc c.entry.arg2) (n * Hd.cols h.desc c.entry.arg2) b 0 = none → unitBytes h c.entry.arg2 < b.length →
        ∃ u, exec (.headTensorWrite seq b) s = .next u ∧ findCmd u seq = some { c with phase := .working } ∧ u.mem.heads = s.mem.heads ∧
          u.mem.writes = s.mem.writes ++ [{ tag := unitTag s, seq := c.seq, head := h.id, tensor := c.entry.arg2, first := c.entry.arg0, landed := [], stored := 0, units := chunksOf (unitBytes h c.entry.arg2) b }]))) ∧
  (∀ (tag t : Nat) (w : HeadWrite) (h : Head) (c : Cmd) (unit : Bytes) (rest : List Bytes) (s : State), findUnit s tag = none →
    s.mem.writes.find? (·.tag == tag) = some w → findHead s w.head = some h → w.units = unit :: rest → findCmd s w.seq = some c → c.internal = false →
    (headMoves s w.head = true → exec (.unitCommit tag t) s = .next (tick t s)) ∧
    (headMoves s w.head = false → 5 ≤ w.tensor →
      (rest ≠ [] → ∃ u, exec (.unitCommit tag t) s = .next u ∧
        (findHead u h.id).map (headTile · w.tensor) = some (w.landed ++ unit ++ (headTile h w.tensor).drop (w.landed ++ unit).length) ∧
        u.mem.writes = mapIf (·.tag == tag) (fun _ => { w with landed := w.landed ++ unit, units := rest }) s.mem.writes) ∧
      (rest = [] → ∃ u, exec (.unitCommit tag t) s = .next u ∧ (findHead u h.id).map (headTile · w.tensor) = some (w.landed ++ unit) ∧
        u.mem.writes = s.mem.writes.filter (·.tag ≠ tag) ∧ ready u w.seq = some { status := Status.success, info := (w.landed ++ unit).length })) ∧
    (headMoves s w.head = false → w.tensor ≤ 4 →
      let n := unit.length / Hd.rowBytes h.desc w.tensor
      let mine := rowsStored s h w.tensor w.first n
      ∃ u, exec (.unitCommit tag t) s = .next u ∧
        (∀ i < n, (findHead u h.id).map (headRow · w.tensor (w.first + i)) =
          some (if i ∈ mine then slice unit (Hd.rowBytes h.desc w.tensor * i) (Hd.rowBytes h.desc w.tensor) else headRow h w.tensor (w.first + i))) ∧
        (rest ≠ [] → u.mem.writes = mapIf (·.tag == tag) (fun _ => { w with first := w.first + n, stored := w.stored + mine.length, units := rest }) s.mem.writes) ∧
        (rest = [] → u.mem.writes = s.mem.writes.filter (·.tag ≠ tag) ∧ ready u w.seq = some { status := Status.success, info := w.stored + mine.length })))

/-- R214 R216 R232 R237 R240 R241 R252 R273 R357: A forward waits behind a held forward of its queue, earlier writes and the forwards of a lower STEP, and stalls while value
rows are not back; one whose input fails a check is answered with that check's status; one of no tokens ends at once; and one that passes its checks is held until its stash
fits, waits for its scratchpad banks, or runs its stages with its stash space reserved, and then takes the messages that came before it. A backward waits in the same way,
ends with STASH_NOT_FOUND without a stash that is ready, and else is noted with its step and runs on its stash. An update of a step with no backward ends at once, and
one that passes its checks closes the gradient step and runs. -/
def Obligations.MemoryLayerCommandsStart : Prop :=
  (∀ (seq t : Nat) (b : Bytes) (c : Cmd) (h : Head) (p : Plan) (s : State), admittedCmd s seq 0x33 = some c → c.internal = false → b.length = c.entry.inLen →
    findHead s c.entry.target = some h → c.plan = some p →
    let waits := heldAhead s c h || writersAhead s c [h.id, (sourceHead s h).id] || lowerStepAhead s h (Fw.step b)
    (waits = true → exec (.memlayerFwd seq b Upsets.quiet t) s = .next (seeForward c h b (tick t s))) ∧
    (waits = false → (h.restoring || (sourceHead s h).restoring) = true →
      exec (.memlayerFwd seq b Upsets.quiet t) s = .next (stallForward c (seeForward c h b (tick t s)))) ∧
    (waits = false → (h.restoring || (sourceHead s h).restoring) = false →
      (∀ x, layerFail s h = some x → ∃ u, exec (.memlayerFwd seq b Upsets.quiet t) s = .next u ∧ u.mem = s.mem ∧
        ready u seq = some { status := x.1, info := x.2 }) ∧
      (∀ x, layerFail s h = none → fwdFail h c.order b = some x → ∃ u, exec (.memlayerFwd seq b Upsets.quiet t) s = .next u ∧ u.mem = s.mem ∧
        ready u seq = some (if x.1 = Status.invalidField then { status := x.1, source := .payload, offset := x.2 } else { status := x.1 })) ∧
      (layerFail s h = none → fwdFail h c.order b = none → Fw.tokens b = 0 →
        ∃ u, exec (.memlayerFwd seq b Upsets.quiet t) s = .next u ∧ u.mem = s.mem ∧ ready u seq = some { status := Status.success }) ∧
      (layerFail s h = none → fwdFail h c.order b = none → Fw.tokens b ≠ 0 → fwdRefused (tick t s) c h p b = none → findFwd s seq = none →
        let recompute := Fw.stash b && (stashMode h.desc p (Fw.tokens b)).getD false
        let f := newFwd c p.planId h b recompute
        (Fw.stash b = false ∨ needFits (stashNeed h.desc (Fw.tokens b) recompute) (stashUsed h p.planId) (stashSpace p) = true →
          (awaitsBanks (takeBanks c s) seq = false →
            ∃ u d, exec (.memlayerFwd seq b Upsets.quiet t) s = .next (replayFwd seq (runForward seq u)) ∧ findFwd u seq = some f ∧
              findCmd u seq = some d ∧ d.phase = .working ∧
              (Fw.stash b = true → (findHead u h.id).map (·.stash) =
                some (h.stash.filter (fun e => !(e.step == Fw.step b && e.mb == Fw.mb b)) ++ [newStash h f 0]))) ∧
          (awaitsBanks (takeBanks c s) seq = true →
            ∃ u, exec (.memlayerFwd seq b Upsets.quiet t) s = .next (replayFwd seq u) ∧ findFwd u seq = some { f with phase := .banks } ∧
              u.hbm = (takeBanks c s).hbm)) ∧
        (Fw.stash b = true → needFits (stashNeed h.desc (Fw.tokens b) recompute) (stashUsed h p.planId) (stashSpace p) = false →
          ∃ u, exec (.memlayerFwd seq b Upsets.quiet t) s = .next (replayFwd seq u) ∧ findFwd u seq = some { f with phase := .held, since := max s.now t } ∧
            findHead u h.id = some (seeStep (Fw.step b) c.order h) ∧
            (s.Canonical → counter s Key.stashHolds + 1 < 2 ^ 64 → counter u Key.stashHolds = counter s Key.stashHolds + 1))))) ∧
  (∀ (seq t : Nat) (b : Bytes) (c : Cmd) (h : Head) (p : Plan) (s : State), admittedCmd s seq 0x34 = some c → c.internal = false → b.length = c.entry.inLen →
    findHead s c.entry.target = some h → c.plan = some p →
    (bwdWaits s c h (sourceHead s h) b = true → exec (.memlayerBwd ⟨seq, Upsets.quiet⟩ b t) s = .next (tick t s)) ∧
    (bwdWaits s c h (sourceHead s h) b = false → layerFail s h = none →
      (∀ x, bwdFail h c.order b = some x → ∃ u, exec (.memlayerBwd ⟨seq, Upsets.quiet⟩ b t) s = .next u ∧ u.mem = s.mem ∧
        ready u seq = some (if x.1 = Status.invalidField then { status := x.1, source := .payload, offset := x.2 } else { status := x.1 })) ∧
      (bwdFail h c.order b = none → Fw.tokens b = 0 →
        ∃ u, exec (.memlayerBwd ⟨seq, Upsets.quiet⟩ b t) s = .next u ∧ u.mem = s.mem ∧ ready u seq = some { status := Status.success }) ∧
      (bwdFail h c.order b = none → Fw.tokens b ≠ 0 → awaitsBanks (takeBanks c s) seq = true →
        exec (.memlayerBwd ⟨seq, Upsets.quiet⟩ b t) s = .next (takeBanks c (tick t s))) ∧
      (bwdFail h c.order b = none → Fw.tokens b ≠ 0 → awaitsBanks (takeBanks c s) seq = false →
        (∀ x, stashOf h (Fw.step b) (Fw.mb b) = some x → x.ready = false) →
        ∃ u, exec (.memlayerBwd ⟨seq, Upsets.quiet⟩ b t) s = .next u ∧ ready u seq = some { status := Status.stashNotFound }) ∧
      (bwdFail h c.order b = none → Fw.tokens b ≠ 0 → awaitsBanks (takeBanks c s) seq = false →
        ∀ x k, stashOf h (Fw.step b) (Fw.mb b) = some x → x.ready = true →
        let noted := updHead h.id (noteBwd c.order b) (takeBanks c (tick t s))
        let roomy := foldForRoom h p (Fw.step b) (ownedUses noted h x) noted
        findHead roomy h.id = some k → bwdRefused roomy c k p b = none →
        (stepOf k (Fw.step b)).any (fun y => y.noted.contains (c.order, Fw.mb b)) = true ∧
          exec (.memlayerBwd ⟨seq, Upsets.quiet⟩ b t) s = .next (replayBwd seq (runBackward seq k (sourceHead s h) p x
            (startStream seq { roomy with mem := { roomy.mem with bwds := roomy.mem.bwds ++ [newBwd c p.planId h b] } })))))) ∧
  (∀ (seq t : Nat) (b : Bytes) (c : Cmd) (h : Head) (p : Plan) (s : State), admittedCmd s seq 0x35 = some c → c.internal = false → b.length = c.entry.inLen →
    findHead s c.entry.target = some h → c.plan = some p →
    let ids := (tableHeads s h).map (·.id)
    let waits := heldAhead s c h || h.restoring || readersAhead s c ids || writersAhead s c ids || ids.any (headMoves s)
    (waits = true → exec (.memlayerUpdate ⟨seq, Upsets.quiet⟩ b t) s = .next (tick t s)) ∧
    (waits = false → layerFail s h = none →
      (∀ x, updFail s h b = some x → ∃ u, exec (.memlayerUpdate ⟨seq, Upsets.quiet⟩ b t) s = .next u ∧ u.mem = s.mem ∧
        (ready u seq).map (·.status) = some x.1) ∧
      (updFail s h b = none → stepBegun s h (Up.step b) = false →
        ∃ u, exec (.memlayerUpdate ⟨seq, Upsets.quiet⟩ b t) s = .next u ∧ u.mem = s.mem ∧ ready u seq = some { status := Status.success }) ∧
      (updFail s h b = none → stepBegun s h (Up.step b) = true → awaitsBanks (takeBanks c s) seq = true →
        exec (.memlayerUpdate ⟨seq, Upsets.quiet⟩ b t) s = .next (takeBanks c (tick t s))) ∧
      (updFail s h b = none → stepBegun s h (Up.step b) = true → awaitsBanks (takeBanks c s) seq = false →
        updRefused (takeBanks c (tick t s)) c h (livePlan s p) (gradientG h (Up.step b)) = none →
        let closed := if h.gradStep = some (Up.step b) then closeGrad h (takeBanks c (tick t s)) else takeBanks c (tick t s)
        ∃ k, findHead closed h.id = some k ∧ k.gradStep ≠ some (Up.step b) ∧
          exec (.memlayerUpdate ⟨seq, Upsets.quiet⟩ b t) s = .next (runUpdate seq k p b [] (startStream seq closed)))))

/-- R43 R199 R201 R202: A shard owner drops and counts a request that is not well formed, that names another shard, or whose query vector holds a value that is not finite; it
answers one that names another map, a collection that it has not, an epoch that it does not keep, a plan that is not bound, or a record that fails a check, with the status
that says so, and starts the query of one that fits. A cancel ends that query. -/
def Obligations.ShardOwnersServeRequests : Prop :=
  (∀ (peer t : Nat) (b : Bytes) (s : State), requestFormed peer b = false → Table.wf (fun _ => 0) s.counters = true →
    counter s Key.sppMalformedDrops + 1 < 2 ^ 64 →
    ∃ u, exec (.shardSearchReq peer b t) s = .next u ∧ counter u Key.sppMalformedDrops = counter s Key.sppMalformedDrops + 1 ∧ u.search = s.search ∧ u.net = s.net) ∧
  (∀ (peer t : Nat) (b : Bytes) (s : State), requestFormed peer b = true →
    let refused := fun st : Nat => sendSpp peer Spp.shardSearchReply (errorReply (u64At b 24) (u16At b 10) st 0 (u64At b 40)) (tick t s)
    (shardMapDigest (tick t s) (u32At b 12) ≠ some (u64At b 16) → exec (.shardSearchReq peer b t) s = .next (refused Status.shardMapMismatch)) ∧
    (shardMapDigest (tick t s) (u32At b 12) = some (u64At b 16) → (findColl s (u32At b 12)).all (·.deleting) = true → exec (.shardSearchReq peer b t) s = .next (refused Status.collectionNotFound)) ∧
    (∀ c, shardMapDigest (tick t s) (u32At b 12) = some (u64At b 16) → findColl s (u32At b 12) = some c → c.deleting = false →
      (ownShardNo (tick t s) (u32At b 12) ≠ u16At b 10 → exec (.shardSearchReq peer b t) s = .next (malformed (tick t s))) ∧
      (ownShardNo (tick t s) (u32At b 12) = u16At b 10 → shardHolds c (u64At b 40) = false → exec (.shardSearchReq peer b t) s = .next (refused Status.epochUnavailable)) ∧
      (ownShardNo (tick t s) (u32At b 12) = u16At b 10 → shardHolds c (u64At b 40) = true →
        s.ahp.plans.find? (fun p => p.kind == 1 && p.target == u32At b 12 && p.planId == u64At b 32 && p.bound) = none → exec (.shardSearchReq peer b t) s = .next (refused Status.planNotBound)) ∧
      (∀ p, ownShardNo (tick t s) (u32At b 12) = u16At b 10 → shardHolds c (u64At b 40) = true →
        s.ahp.plans.find? (fun p => p.kind == 1 && p.target == u32At b 12 && p.planId == u64At b 32 && p.bound) = some p →
        (queryMalformed c.schema (b.drop 64) = true → exec (.shardSearchReq peer b t) s = .next (malformed (tick t s))) ∧
        (∀ x, queryMalformed c.schema (b.drop 64) = false → queryFail (ownerCtx c p (u64At b 40) (u16At b 10)) (b.drop 64) = some x →
          exec (.shardSearchReq peer b t) s = .next (sendSpp peer Spp.shardSearchReply (errorReply (u64At b 24) (u16At b 10) Status.invalidField
            (if x.1 = Status.invalidField then x.2 else if x.1 = Status.epochUnavailable then 8 else 4) (u64At b 40)) (tick t s))) ∧
        (queryMalformed c.schema (b.drop 64) = false → queryFail (ownerCtx c p (u64At b 40) (u16At b 10)) (b.drop 64) = none → findQuery s s.search.nextQuery = none →
          ∃ u, exec (.shardSearchReq peer b t) s = .next u ∧
            (findQuery u s.search.nextQuery).map (fun q => (q.origin, q.coll, q.record, q.epoch, q.order)) =
              some (.peer peer (u64At b 24), c.id, b.drop 64, u64At b 40, s.ahp.nextOrder))))) ∧
  (∀ (peer : Nat) (b : Bytes) (s : State), b.length = 16 → u16At b 14 = 0 →
    ∃ u, exec (.shardCancel peer b) s = .next u ∧
      u.search.queries.any (fun q => q.origin == .peer peer (u64At b 0) && q.coll == u32At b 8) = false)

/-- R194 R199 R201 R202: The querying module takes each shard's list once; a shard's failure is kept for the end of the query, a late reply is dropped and counted, and one
for another epoch, or whose list is not well formed, is dropped as malformed. At T_SH it skips the shards that have not replied and counts them; an exact query that lacks a
reply for SHARD_TIMEOUT_US, or has lost an owner, ends with SHARD_UNAVAILABLE. -/
def Obligations.ShardRepliesAreGathered : Prop :=
  (∀ (peer t : Nat) (b : Bytes) (q : Query) (w : ShardWait) (s : State), replyFormed b = true → replyReplayFormed b = true →
    (tick t s).search.queries.find? (fun q => q.phase == .shards && queryId (tick t s) q.key == u64At b 32) = some q →
    findQuery s q.key = some q → q.shards.find? (fun w => w.shard == u16At b 30 && w.owner == peer) = some w →
    (u64At b 40 ≠ q.epoch → exec (.shardSearchReply peer b t) s = .next (malformed (tick t s))) ∧
    (u64At b 40 = q.epoch → (w.replied = true ∨ w.skipped = true ∨ (q.exact = false ∧ q.tsh < max s.now t)) → Table.wf (fun _ => 0) s.counters = true →
      counter s Key.lateShardReplies + 1 < 2 ^ 64 →
      ∃ u, exec (.shardSearchReply peer b t) s = .next u ∧ u.search = s.search ∧ counter u Key.lateShardReplies = counter s Key.lateShardReplies + 1) ∧
    (u64At b 40 = q.epoch → w.replied = false → w.skipped = false → (q.exact = true ∨ max s.now t ≤ q.tsh) →
      (u16At b 28 = Status.success ∨ u16At b 28 = Status.incompleteMedia →
        (∀ l, parsePlist .shard (slice b 64 (u32At b 56)) (Qr.k q.record) (u16At b 30) = some l →
          ∃ u, exec (.shardSearchReply peer b t) s = .next (concludeShards q.key u) ∧
            findQuery u q.key = some { q with shards := mapIf (fun w => w.shard == u16At b 30) (waitOf (replyFound b l)) q.shards }) ∧
        (parsePlist .shard (slice b 64 (u32At b 56)) (Qr.k q.record) (u16At b 30) = none →
          exec (.shardSearchReply peer b t) s = .next (malformed (tick t s)))) ∧
      (u16At b 28 ≠ Status.success → u16At b 28 ≠ Status.incompleteMedia →
        ∃ u, exec (.shardSearchReply peer b t) s = .next (concludeShards q.key u) ∧
          findQuery u q.key = some { q with shards := mapIf (fun w => w.shard == u16At b 30) (failWait (u16At b 28) (u32At b 24)) q.shards }))) ∧
  (∀ (key t : Nat) (q : Query) (s : State), findQuery s key = some q → q.phase = .shards → q.exact = false → q.tsh ≤ max s.now t →
    let u := (q.shards.filter fun w => !(w.replied || w.skipped)).foldl (skipShard q) (tick t s)
    exec (.shardCut key t) s = .next (concludeShards key u) ∧
      (∀ x, findQuery u key = some x → x.shards.all (fun w => w.replied || w.skipped) = true ∧ x.shards.map (·.owner) = q.shards.map (·.owner)) ∧
      (s.Canonical → counter s Key.shardsSkipped + q.shards.length < 2 ^ 64 →
        counter u Key.shardsSkipped = counter s Key.shardsSkipped + (q.shards.filter fun w => !(w.replied || w.skipped)).length)) ∧
  (∀ (key t seq : Nat) (q : Query) (c : Cmd) (s : State), findQuery s key = some q → q.phase = .shards → q.exact = true → q.origin = .search seq →
    findCmd s seq = some c → c.internal = false →
    q.shardSince + 1000 * cmdSetting c Key.shardTimeoutUs ≤ max s.now t ∨ q.shards.any (ownerLost (tick t s)) = true →
    ∃ u, exec (.shardTimeout key t) s = .next u ∧ findQuery u key = none ∧ ready u seq = some { status := Status.shardUnavailable })

/-- R43 R188 R200: Rows that another module sends to the owner of their buckets become a unit here, or wait for room; a part whose length does not fit or that holds a value
that is not finite is dropped as malformed, one that is here already changes nothing, a record that fails a check or a bucket that lies outside the shard is answered
INVALID_FIELD at its offset, and rows of a bucket that has moved with the owner's name. The result of a forwarded part counts once in its command: the batch commits with its
last part, a part that another module owns goes there, or commits here when it is this module, and any other status ends the command; a result that is not well formed is
dropped. -/
def Obligations.ForwardedRowsCommitAtTheirOwner : Prop :=
  (∀ (peer t : Nat) (b : Bytes) (c : Coll) (m : ShardMap) (s : State),
    ¬(b.length < 32 ∨ leAt b 5 3 ≠ 0 ∨ u32At b 28 ≠ 0 ∨ (u8At b 4 ≠ 1 ∧ u8At b 4 ≠ 2) ∨ u32At b 20 ≠ (b.drop 32).length ∨
      65536 < (b.drop 32).length ∨ u32At b 16 = 0 ∨ (if u8At b 4 = 1 then 256 else 8192) < u32At b 16) →
    findColl s (u32At b 0) = some c → shardMapOf (tick t s) (u32At b 0) = some m →
    let size := if u8At b 4 = 1 then recordSize c.schema else 8
    let ids := bodyIds size (u32At b 16) (b.drop 32)
    let bad := if u8At b 4 = 1 then recordsFail c.schema (b.drop 32) (u32At b 16) [] 0 else none
    let away := fun p : Nat × Nat => liveOwnerOf c m (bucketOf p.2) != moduleIndex (tick t s)
    ((b.drop 32).length ≠ size * u32At b 16 ∨ (u8At b 4 = 1 ∧ recordsMalformed c.schema (b.drop 32) (u32At b 16) = true) →
      exec (.rowForward peer b t) s = .next (malformed (tick t s))) ∧
    ((b.drop 32).length = size * u32At b 16 → (u8At b 4 = 1 → recordsMalformed c.schema (b.drop 32) (u32At b 16) = false) →
      (unitKnown s peer (u64At b 8) = true → exec (.rowForward peer b t) s = .next (tick t s)) ∧
      (unitKnown s peer (u64At b 8) = false →
        (∀ off, bad = some off → exec (.rowForward peer b t) s = .next (answerRows peer (u64At b 8) 0 0 Status.invalidField 0xFFFF off (tick t s))) ∧
        (∀ p, bad = none → ids.find? (fun p => m.buckets.getD (bucketOf p.2) 0 != u16At b 24) = some p →
          exec (.rowForward peer b t) s = .next (answerRows peer (u64At b 8) 0 0 Status.invalidField 0xFFFF p.1 (tick t s))) ∧
        (bad = none → ids.find? (fun p => m.buckets.getD (bucketOf p.2) 0 != u16At b 24) = none →
          (∀ p, ids.find? away = some p →
            exec (.rowForward peer b t) s = .next (answerRows peer (u64At b 8) 0 0 Status.notOwner (liveOwnerOf c m (bucketOf p.2)) 0 (tick t s))) ∧
          (ids.find? away = none →
            (roomFor (tick t s) c (liveLimits s).1 (liveLimits s).2 (bodyOf c.schema (u8At b 4) (u32At b 16) (b.drop 32)) = .yes →
              ∃ u, exec (.rowForward peer b t) s = .next u ∧ u.search.units = s.search.units ++
                [newUnit s c.id (bodyOf c.schema (u8At b 4) (u32At b 16) (b.drop 32)) (.peer peer (u64At b 8)) .writing (liveLimits s)]) ∧
            (roomFor (tick t s) c (liveLimits s).1 (liveLimits s).2 (bodyOf c.schema (u8At b 4) (u32At b 16) (b.drop 32)) = .wait →
              ∃ u, exec (.rowForward peer b t) s = .next u ∧ u.search.units = s.search.units ++
                [newUnit s c.id (bodyOf c.schema (u8At b 4) (u32At b 16) (b.drop 32)) (.peer peer (u64At b 8)) .waits (liveLimits s)])))))) ∧
  (∀ (peer t : Nat) (b : Bytes) (s : State), rowResultFormed b = false → exec (.rowResult peer b t) s = .next (malformed (tick t s))) ∧
  (∀ (peer t : Nat) (b : Bytes) (g : Ingest) (f : Fwd) (c : Cmd) (s : State), rowResultFormed b = true →
    s.search.ingests.find? (fun g => g.fwds.any (·.tag == u64At b 0)) = some g → g.fwds.find? (·.tag == u64At b 0) = some f →
    findIngest s g.seq = some g → findCmd s g.seq = some c → c.internal = false →
    let rest := g.fwds.filter (·.tag ≠ f.tag)
    let live := if g.insert then g.live else g.live + u32At b 16
    (u16At b 20 = Status.success → g.pending ≠ [] ∨ rest ≠ [] →
      ∃ u, exec (.rowResult peer b t) s = .next u ∧
        findIngest u g.seq = some { g with fwds := rest, lastEpoch := max g.lastEpoch (u64At b 8), live := live }) ∧
    (u16At b 20 = Status.success → g.pending = [] → rest = [] →
      exec (.rowResult peer b t) s = .next (nextBatch g.seq (updIngest g.seq (fun _ =>
        { g with fwds := [], lastEpoch := max g.lastEpoch (u64At b 8), live := live, committed := g.committed + g.batch, batch := 0 }) (tick t s)))) ∧
    (∀ k, u16At b 20 = Status.notOwner → findColl s g.coll = some k → u16At b 22 ≠ moduleIndex (tick t s) →
      ∃ u v, exec (.rowResult peer b t) s = .next (sendSpp (u16At b 22) Spp.rowForward v u) ∧
        findIngest u g.seq = some { g with fwds := mapIf (fun y => y.tag == f.tag) (fun _ => { f with owner := u16At b 22 }) g.fwds }) ∧
    (∀ k, u16At b 20 = Status.notOwner → findColl s g.coll = some k → u16At b 22 = moduleIndex (tick t s) →
      ∃ u, exec (.rowResult peer b t) s = .next (ownPart { g with fwds := rest } k
          (if g.insert then .insert (fwdRows g k.schema f) else .delete (fwdIds g f)) u) ∧ findIngest u g.seq = some { g with fwds := rest }) ∧
    (u16At b 20 ≠ Status.success → u16At b 20 ≠ Status.notOwner →
      ∃ u, exec (.rowResult peer b t) s = .next u ∧ (ready u g.seq).map (·.status) = some (u16At b 20) ∧ findIngest u g.seq = none))

/-- R189 R190 R192 R200: The keeper grants its epochs in order, one for each tag, each with the time by which it must be stamped, and answers a unit that asks again with what
it had. The stable epoch rises to the last of the first grants that are stamped or void, and a module learns it from the keeper. A unit that is granted its epoch is stamped
with it, one whose grant is void is taken off, and a grant with another RESULT is dropped as malformed. -/
def Obligations.EpochsAreGrantedInOrder : Prop :=
  (∀ (peer t : Nat) (b : Bytes) (m : ShardMap) (c : Coll) (x : Shard) (s : State), b.length = 16 → u16At b 6 = 0 →
    shardMapOf (tick t s) (u32At b 0) = some m → findColl s (u32At b 0) = some c → c.shard = some x → isKeeper (tick t s) m = true →
    (grantOf x (u64At b 8) = none → ∃ v d y, exec (.epochAlloc peer b t) s = .next (sendSpp peer Spp.epochGrant (grantPayload (u32At b 0) 0 (u64At b 8) x.nextEpoch) v) ∧
      findColl v (u32At b 0) = some d ∧ d.shard = some y ∧ y.nextEpoch = x.nextEpoch + 1 ∧
      y.grants = x.grants ++ [{ epoch := x.nextEpoch, tag := u64At b 8, owner := peer, state := .granted, at_ := max s.now t, due := max s.now t + settingUs s Key.shardTimeoutUs }]) ∧
    (∀ g, grantOf x (u64At b 8) = some g → exec (.epochAlloc peer b t) s =
      .next (sendSpp peer Spp.epochGrant (grantPayload (u32At b 0) (if g.state = .void then 1 else 0) (u64At b 8) (if g.state = .void then 0 else g.epoch)) (tick t s)))) ∧
  (∀ (peer t : Nat) (b : Bytes) (m : ShardMap) (c : Coll) (x : Shard) (s : State), b.length = 24 → u32At b 4 = 0 →
    shardMapOf (tick t s) (u32At b 0) = some m → findColl s (u32At b 0) = some c → c.shard = some x → isKeeper (tick t s) m = true →
    ∃ u, exec (.epochStamped peer b t) s = .next u ∧ (findColl u (u32At b 0)).map (·.epoch) = some (max c.epoch (stableOf c.epoch
      (mapIf (fun g => g.tag == u64At b 8 && g.epoch == u64At b 16 && g.state == .granted) (fun g => { g with state := .stamped }) x.grants)))) ∧
  (∀ (peer t : Nat) (b : Bytes) (m : ShardMap) (c : Coll) (s : State), b.length = 16 → u16At b 6 = 0 →
    shardMapOf (tick t s) (u32At b 0) = some m → findColl s (u32At b 0) = some c → isKeeper (tick t s) m = false → u16At b 4 = m.keeper →
    ∃ u, exec (.epochStable peer b t) s = .next u ∧ (findColl u (u32At b 0)).map (·.epoch) = some (max c.epoch (u64At b 8))) ∧
  (∀ (peer t : Nat) (b : Bytes) (m : ShardMap) (x : CUnit) (s : State), b.length = 24 → leAt b 5 3 = 0 →
    (1 < u8At b 4 → exec (.epochGrant peer b t) s = .next (malformed (tick t s))) ∧
    (u8At b 4 = 1 → shardMapOf (tick t s) (u32At b 0) = some m → m.keeper = peer →
      exec (.epochGrant peer b t) s = .next (pumpMove (u32At b 0) (voidTag (u32At b 0) (u64At b 8) (tick t s)))) ∧
    (∀ c rows, u8At b 4 = 0 → findUnit s (u64At b 8) = some x → shardMapOf (tick t s) (u32At b 0) = some m → x.coll = u32At b 0 → x.phase = .logged →
      m.keeper = peer → findColl s x.coll = some c → x.body = .insert rows →
      ∃ u d, exec (.epochGrant peer b t) s = .next u ∧ findColl u x.coll = some d ∧
        ∀ r ∈ rows, { row := { r with epoch := u64At b 16 }, foldedAt := none } ∈ d.append))

/-- R122 R189 R190 R191 R192 R205: What time does to epochs: the keeper voids a grant that is not stamped by its time, its own unit at once and another module's by a message,
and counts it; epochs that were learned stable long enough ago are held no longer, but the present one is; the keeper sends the stable epoch again; and a command whose keeper
or owner does not answer ends with SHARD_UNAVAILABLE and the count that has committed. -/
def Obligations.EpochsFollowTheirTimes : Prop :=
  (∀ (coll epoch t : Nat) (m : ShardMap) (c : Coll) (x : Shard) (g : Grant) (s : State), shardMapOf (tick t s) coll = some m → findColl s coll = some c →
    c.shard = some x → x.grants.find? (fun g => g.epoch == epoch && g.state == .granted) = some g → isKeeper (tick t s) m = true →
    (max s.now t < g.due → exec (.epochVoid coll epoch t) s = .next (tick t s)) ∧
    (g.due ≤ max s.now t → Table.wf (fun _ => 0) s.counters = true → counter s Key.epochsVoided + 1 < 2 ^ 64 →
      ∃ v d y, exec (.epochVoid coll epoch t) s = .next (raiseStable m coll (if g.owner = moduleIndex (tick t s) then voidTag coll g.tag v
          else sendSpp g.owner Spp.epochGrant (grantPayload coll 1 g.tag 0) v)) ∧
        counter v Key.epochsVoided = counter s Key.epochsVoided + 1 ∧ findColl v coll = some d ∧ d.shard = some y ∧
        y.grants = mapIf (fun h : Grant => h.epoch == epoch) (fun h => { h with state := .void }) x.grants)) ∧
  (∀ (coll t : Nat) (c : Coll) (x : Shard) (s : State), findColl s coll = some c → c.shard = some x →
    ∃ u d y, exec (.epochHoldExpiry coll t) s = .next u ∧ findColl u coll = some d ∧ d.shard = some y ∧ d.epoch = c.epoch ∧
      y.learned = x.learned.filter (fun p => !decide (p.2 + settingUs s Key.epochHoldUs ≤ max s.now t)) ∧ x.holdFrom ≤ y.holdFrom ∧
      y.holdFrom ≤ max x.holdFrom c.epoch ∧
      ∀ p ∈ x.learned, p.2 + settingUs s Key.epochHoldUs ≤ max s.now t → p.1 < c.epoch → p.1 < y.holdFrom) ∧
  (∀ (coll t : Nat) (m : ShardMap) (c : Coll) (x : Shard) (s : State), shardMapOf (tick t s) coll = some m → findColl s coll = some c → c.shard = some x →
    isKeeper (tick t s) m = true → x.stableSent < c.epoch → x.stableAt + settingUs s Key.stableIntervalUs ≤ max s.now t →
    exec (.stableIntervalExpiry coll t) s = .next (sendStable m coll c.epoch (tick t s)) ∧
    ∃ d y, findColl (sendStable m coll c.epoch (tick t s)) coll = some d ∧ d.shard = some y ∧ y.stableSent = c.epoch ∧ y.stableAt = max s.now t) ∧
  (∀ (seq t : Nat) (g : Ingest) (c : Cmd) (s : State), findIngest s seq = some g → findCmd s seq = some c → c.internal = false →
    ((s.search.units.any fun u => unitOf seq u && u.phase == .logged) || !g.fwds.isEmpty) = true →
    (max s.now t < g.since + settingUs s Key.shardTimeoutUs → exec (.keeperUnreachableTimeout seq t) s = .next (tick t s)) ∧
    (g.since + settingUs s Key.shardTimeoutUs ≤ max s.now t →
      ∃ u, exec (.keeperUnreachableTimeout seq t) s = .next u ∧ findIngest u seq = none ∧
        (ready u seq).map (fun x => (x.status, x.info)) = some (Status.shardUnavailable, if g.insert then g.committed else g.live)))

/-- R43 R203: A changed bucket starts to move with its live rows, and a move that has begun goes on; what its source sends becomes a unit at the target, and the cutover its last
one, at the epoch that it names; a message whose length does not fit or that holds a value that is not finite is dropped as malformed. -/
def Obligations.BucketsMove : Prop :=
  (∀ (coll : Nat) (c : Coll) (m : ShardMap) (x : Shard) (s : State), findColl s coll = some c → shardMapOf s coll = some m → c.shard = some x →
    (∀ b r, x.move = none → x.toMove = b :: r →
      ∃ v d y, exec (.bucketMoveStart coll) s = .next (pumpMove coll v) ∧ findColl v coll = some d ∧ d.shard = some y ∧ y.toMove = r ∧
        y.move = some { bucket := b, target := m.owners.getD (m.buckets.getD b 0) 0xFFFF, targetShard := m.buckets.getD b 0, unsent := (liveRows c (c.epoch + x.grants.length + x.nextEpoch)).filter (fun q => bucketOf q.id == b), unsentDel := [], sent := none, cutover := none }) ∧
    (x.move ≠ none → exec (.bucketMoveStart coll) s = .next (pumpMove coll s))) ∧
  (∀ (peer t : Nat) (b : Bytes) (c : Coll) (s : State), bucketFormed b 32 = true → findColl s (u32At b 0) = some c →
    let fits := (b.drop 32).length = (if u8At b 6 = 1 then recordSize c.schema else 8) * u32At b 16 ∧
      (u8At b 6 = 1 → recordsMalformed c.schema (b.drop 32) (u32At b 16) = false)
    (¬fits → exec (.bucketCopy peer b t) s = .next (malformed (tick t s))) ∧
    (fits → unitKnown s peer (u64At b 8) = false →
      (u32At b 16 = 0 → exec (.bucketCopy peer b t) s =
        .next (answerRows peer (u64At b 8) 0 0 Status.success 0xFFFF 0 (dropTaken c.id (u16At b 4) peer (tick t s)))) ∧
      (u32At b 16 ≠ 0 → (if u8At b 6 = 1 then recordsFail c.schema (b.drop 32) (u32At b 16) [] 0 else none) = none →
        roomFor (dropTaken c.id (u16At b 4) peer (tick t s)) c (liveLimits s).1 (liveLimits s).2 (bodyOf c.schema (u8At b 6) (u32At b 16) (b.drop 32)) = .yes →
        ∃ u, exec (.bucketCopy peer b t) s = .next u ∧ u.search.units = s.search.units ++
          [newUnit s c.id (bodyOf c.schema (u8At b 6) (u32At b 16) (b.drop 32)) (.peer peer (u64At b 8)) .writing (liveLimits s)]))) ∧
  (∀ (peer t : Nat) (b : Bytes) (c : Coll) (s : State), bucketFormed b 40 = true → findColl s (u32At b 0) = some c →
    let fits := (b.drop 40).length = recordSize c.schema * u32At b 16 ∧ recordsMalformed c.schema (b.drop 40) (u32At b 16) = false
    let body : UnitBody := .takeOver (u16At b 4) (u64At b 32) (recordRows c.schema (b.drop 40) (u32At b 16))
    (¬fits → exec (.bucketCutover peer b t) s = .next (malformed (tick t s))) ∧
    (fits → unitKnown s peer (u64At b 8) = false → recordsFail c.schema (b.drop 40) (u32At b 16) [] 0 = none →
      roomFor (dropTaken c.id (u16At b 4) peer (tick t s)) c (liveLimits s).1 (liveLimits s).2 body = .yes →
      ∃ u, exec (.bucketCutover peer b t) s = .next u ∧ u.search.units = s.search.units ++ [newUnit s c.id body (.peer peer (u64At b 8)) .writing (liveLimits s)]))

/-- R215 R229 R230 R231 R245: A member's partial rows join what the forward of their micro-batch has of it, its end is noted, its request to repeat starts a new attempt, and
its abort ends the forward; partial rows of another request end it with GROUP_MISMATCH, and the other members are told where it has not sent its own; what comes before its
command is kept, and what is not well formed is dropped. The same messages of a backward. -/
def Obligations.ExchangeMessagesAct : Prop :=
  (∀ (peer t : Nat) (b : Bytes) (f : MemFwd) (h : Head) (s : State), Part.formed Fw.partMagic b = true →
    s.mem.fwds.find? (fun f => f.head == Part.head b && f.step == Part.step b && f.mb == Part.mb b) = some f →
    findFwd s f.seq = some f → findHead s f.head = some h →
    let m := h.members.length
    let d := Hd.dv h.desc
    let base := 64 + roundUp 8 (ceilDiv (Part.span b) 8)
    let present := (List.range (Part.span b)).filter fun i => bitOf (b.drop 64) i
    let fits := h.members[Part.pos b]? = some peer ∧ Part.span b ≤ 65536 ∧ b.length = base + present.length * d * 4 ∧
      (List.range (8 * (base - 64))).any (fun i => decide (Part.span b ≤ i) && bitOf (b.drop 64) i) = false
    let rows := ((List.range present.length).zip present).map fun x =>
      (Part.first b + m * x.2, (List.range d).map fun k => u32At b (base + 4 * (d * x.1 + k)))
    (¬fits → exec (.memfwdPartial peer b t) s = .next (malformed (tick t s))) ∧
    (fits → Part.digest b = f.digest → Part.replica b = f.replica →
      ∃ u, exec (.memfwdPartial peer b t) s = .next (advanceFwds f.head u) ∧
        findFwd u f.seq = some { f with parts := setPart (Part.pos b) (joinPart b m (tokensOf (ownPos (tick t s) h) m f.tokens) rows) f.parts }) ∧
    (∀ c, fits → Part.digest b ≠ f.digest ∨ Part.replica b ≠ f.replica → findCmd s f.seq = some c → c.internal = false →
      ∃ u, exec (.memfwdPartial peer b t) s = .next u ∧ findFwd u f.seq = none ∧ ready u f.seq = some { status := Status.groupMismatch } ∧
        u = advanceFwds f.head (endMismatch f.seq (if f.phase = .exchange then dropEarly Fw.types f.head f.step f.mb (tick t s)
          else abortLocal h f (dropEarly Fw.types f.head f.step f.mb (tick t s)))))) ∧
  (∀ (peer t : Nat) (b : Bytes) (h : Head) (s : State), Part.formed Fw.partMagic b = true → findHead s (Part.head b) = some h →
    s.mem.fwds.find? (fun f => f.head == Part.head b && f.step == Part.step b && f.mb == Part.mb b) = none →
    ∃ u, exec (.memfwdPartial peer b t) s = .next u ∧ u.mem.early = s.mem.early ++ [{ peer := peer, type := Spp.memfwdPartial, payload := b }]) ∧
  (∀ (peer t : Nat) (b : Bytes) (s : State),
    (Part.formed Fw.partMagic b = false → exec (.memfwdPartial peer b t) s = .next (malformed (tick t s))) ∧
    (Part.formed Bw.partMagic b = false → exec (.membwdDw peer b t) s = .next (malformed (tick t s)))) ∧
  (∀ (peer t : Nat) (b : Bytes) (f : MemFwd) (h : Head) (s : State),
    s.mem.fwds.find? (fun f => f.head == Ctl.head b && f.step == Ctl.step b && f.mb == Ctl.mb b) = some f → findFwd s f.seq = some f →
    findHead s (Ctl.head b) = some h → h.members[Ctl.pos b]? = some peer →
    (Ctl.formed Spp.memfwdDone b = true → ∃ u, exec (.memfwdDone peer b t) s = .next (advanceFwds f.head u) ∧
      findFwd u f.seq = some { f with dones := if f.dones.contains (Ctl.pos b) then f.dones else f.dones ++ [Ctl.pos b] }) ∧
    (Ctl.formed Spp.memfwdRepeat b = true → f.attempt < Ctl.attempt b → ∃ u, exec (.memfwdRepeat peer b t) s = .next u ∧
      findFwd u f.seq = some { f with attempt := Ctl.attempt b, since := if f.phase = .exchange then max s.now t else f.since }) ∧
    (Ctl.formed Spp.memfwdRepeat b = true → Ctl.attempt b ≤ f.attempt → exec (.memfwdRepeat peer b t) s = .next (tick t s)) ∧
    (∀ c, Ctl.formed Spp.memfwdAbort b = true → findCmd s f.seq = some c → c.internal = false →
      ∃ u, exec (.memfwdAbort peer b t) s = .next (advanceFwds f.head u) ∧ findFwd u f.seq = none ∧
      ready u f.seq = some (if Ctl.valid b = true ∧ Ctl.digest b ≠ f.digest then { status := Status.groupMismatch }
        else { status := Status.groupUnavailable, info := 0xFFFF }))) ∧
  (∀ (peer t : Nat) (b : Bytes) (f : MemBwd) (h : Head) (s : State), Part.formed Bw.partMagic b = true →
    s.mem.bwds.find? (fun f => f.head == Part.head b && f.step == Part.step b && f.mb == Part.mb b) = some f → findBwd s f.seq = some f →
    findHead s f.head = some h → h.members[Part.pos b]? = some peer → Part.span b ≤ 65536 →
    let m := h.members.length
    (readDw (Part.span b) (Part.first b) m (b.drop 64) = none → exec (.membwdDw peer b t) s = .next (malformed (tick t s))) ∧
    (∀ rows, readDw (Part.span b) (Part.first b) m (b.drop 64) = some rows → Part.digest b = f.digest → Part.replica b = f.replica →
      ∃ u, exec (.membwdDw peer b t) s = .next (advanceBwds f.head u) ∧
        findBwd u f.seq = some { f with parts := setPart (Part.pos b) (joinPart b m (tokensOf (ownPos (tick t s) h) m f.tokens) rows) f.parts }) ∧
    (∀ rows c, readDw (Part.span b) (Part.first b) m (b.drop 64) = some rows → Part.digest b ≠ f.digest ∨ Part.replica b ≠ f.replica →
      findCmd s f.seq = some c → c.internal = false →
      ∃ u, exec (.membwdDw peer b t) s = .next (advanceBwds f.head u) ∧ findBwd u f.seq = none ∧ ready u f.seq = some { status := Status.groupMismatch })) ∧
  (∀ (peer t : Nat) (b : Bytes) (h : Head) (s : State), Part.formed Bw.partMagic b = true → findHead s (Part.head b) = some h →
    s.mem.bwds.find? (fun f => f.head == Part.head b && f.step == Part.step b && f.mb == Part.mb b) = none →
    ∃ u, exec (.membwdDw peer b t) s = .next u ∧ u.mem.early = s.mem.early ++ [{ peer := peer, type := Spp.membwdDw, payload := b }]) ∧
  (∀ (peer t : Nat) (b : Bytes) (f : MemBwd) (h : Head) (s : State),
    s.mem.bwds.find? (fun f => f.head == Ctl.head b && f.step == Ctl.step b && f.mb == Ctl.mb b) = some f → findBwd s f.seq = some f →
    findHead s (Ctl.head b) = some h → h.members[Ctl.pos b]? = some peer →
    (Ctl.formed Spp.membwdDone b = true → ∃ u, exec (.membwdDone peer b t) s = .next (advanceBwds f.head u) ∧
      findBwd u f.seq = some { f with dones := if f.dones.contains (Ctl.pos b) then f.dones else f.dones ++ [Ctl.pos b] }) ∧
    (Ctl.formed Spp.membwdRepeat b = true → f.attempt < Ctl.attempt b → ∃ u, exec (.membwdRepeat peer b t) s = .next u ∧
      findBwd u f.seq = some { f with attempt := Ctl.attempt b, since := if f.phase = .exchange then max s.now t else f.since }) ∧
    (Ctl.formed Spp.membwdRepeat b = true → Ctl.attempt b ≤ f.attempt → exec (.membwdRepeat peer b t) s = .next (tick t s)) ∧
    (∀ c, Ctl.formed Spp.membwdAbort b = true → findCmd s f.seq = some c → c.internal = false →
      ∃ u, exec (.membwdAbort peer b t) s = .next (advanceBwds f.head u) ∧ findBwd u f.seq = none ∧
      ready u f.seq = some (if Ctl.valid b = true ∧ Ctl.digest b ≠ f.digest then { status := Status.groupMismatch }
        else { status := Status.groupUnavailable, info := 0xFFFF })))

/-- R231 R241 R245 R264: The exchanges' timeouts ask again at most three times and then declare the first missing member failed; a held forward takes its stash space and goes
on to its scratchpad banks and its stages when its stash fits, is held on while it does not, and ends with STASH_FULL when it has waited too long. -/
def Obligations.ExchangesTimeOut : Prop :=
  (∀ (seq t p : Nat) (r : List Nat) (f : MemFwd) (h : Head) (s : State), findFwd s seq = some f → findHead s f.head = some h →
    missingParts (ownPos (tick t s) h) h.members.length f.parts = p :: r → f.phase = .exchange →
    (max s.now t < f.since + settingUs s Key.stepTimeoutUs → exec (.fwdExchangeTimeout seq t) s = .next (tick t s)) ∧
    (f.since + settingUs s Key.stepTimeoutUs ≤ max s.now t → f.attempt < 3 →
      ∃ u, exec (.fwdExchangeTimeout seq t) s = .next u ∧ findFwd u seq = some { f with attempt := f.attempt + 1, since := max s.now t }) ∧
    (f.since + settingUs s Key.stepTimeoutUs ≤ max s.now t → 3 ≤ f.attempt → ∃ u, exec (.fwdExchangeTimeout seq t) s = .next u ∧
      u.mem.lastFailed = h.members.getD p 0 ∧ u.mem.failed.any (·.1 == Hd.group h.desc) = true)) ∧
  (∀ (seq t p : Nat) (r : List Nat) (f : MemBwd) (h : Head) (s : State), findBwd s seq = some f → findHead s f.head = some h →
    missingParts (ownPos (tick t s) h) h.members.length f.parts = p :: r → f.phase = .exchange →
    (max s.now t < f.since + settingUs s Key.stepTimeoutUs → exec (.bwdExchangeTimeout seq t) s = .next (tick t s)) ∧
    (f.since + settingUs s Key.stepTimeoutUs ≤ max s.now t → f.attempt < 3 →
      ∃ u, exec (.bwdExchangeTimeout seq t) s = .next u ∧ findBwd u seq = some { f with attempt := f.attempt + 1, since := max s.now t }) ∧
    (f.since + settingUs s Key.stepTimeoutUs ≤ max s.now t → 3 ≤ f.attempt → ∃ u, exec (.bwdExchangeTimeout seq t) s = .next u ∧
      u.mem.lastFailed = h.members.getD p 0 ∧ u.mem.failed.any (·.1 == Hd.group h.desc) = true)) ∧
  (∀ (seq t : Nat) (f : MemFwd) (c : Cmd) (p : Plan) (h : Head) (s : State), findFwd s seq = some f → findCmd s seq = some c → c.internal = false →
    c.plan = some p → findHead s f.head = some h → f.phase = .held →
    let fits := needFits (stashNeed h.desc f.tokens f.recompute) (stashUsed h f.plan) (stashSpace p)
    (fits = false → exec (.stashHoldRelease seq t) s = .next (tick t s)) ∧
    (fits = true → f.stash = true →
      ∃ u, exec (.stashHoldRelease seq t) s = .next (bankForward seq u) ∧ findFwd u seq = some { f with phase := .waiting } ∧
        (findHead u h.id).map (·.stash) = some (h.stash.filter (fun e => !(e.step == f.step && e.mb == f.mb)) ++ [newStash h f 0])) ∧
    (max s.now t < f.since + settingUs s Key.stashWaitUs → exec (.stashWaitTimeout seq t) s = .next (tick t s)) ∧
    (f.since + settingUs s Key.stashWaitUs ≤ max s.now t → ∃ u, exec (.stashWaitTimeout seq t) s = .next (advanceFwds f.head u) ∧ findFwd u seq = none ∧
      ready u seq = some { status := Status.stashFull }))

/-- R215 R258 R260 R261 R262: A reduction message of the running attempt joins what its update has received and the update goes on: a maximum, the codes of a partial or a result, the
samples, or the verdict of a rank, of which the first counts; one of another request ends the update with GROUP_MISMATCH, one of an earlier attempt is dropped, one of a later
attempt is kept, and one that is not well formed or does not fit the reduction is dropped as malformed. -/
def Obligations.ReductionMessagesJoin : Prop :=
  (∀ (peer t : Nat) (b : Bytes) (u : Update) (s : State), s.mem.upds.find? (fun u => u.head == Red.head b && u.step == Red.step b) = some u →
     findUpd s u.seq = some u → Red.digest b = u.digest → Red.attempt b = u.attempt →
     (Red.formed Spp.reduceAmax b = true → redFits u peer Spp.reduceAmax b = true →
       (u.buckets.find? (·.idx == Red.bucket b)).isSome = true →
       ∃ v w x, exec (.reduceAmax peer b t) s = .next (advanceUpd attempts u.seq v) ∧ findUpd v u.seq = some w ∧
         w.buckets.find? (·.idx == Red.bucket b) = some x ∧ x.amax.any (·.1 == Red.rank b) = true ∧ (Red.ovf b = true → x.ovf = true)) ∧
     (Red.formed Spp.reducePartial b = true → redFits u peer Spp.reducePartial b = true → (u.buckets.find? (·.idx == Red.bucket b)).isSome = true →
       ∃ v w x, exec (.reducePartial peer b t) s = .next (advanceUpd attempts u.seq v) ∧ findUpd v u.seq = some w ∧
         w.buckets.find? (·.idx == Red.bucket b) = some x ∧ x.inbox.getLast? = some (readMsg Spp.reducePartial b)) ∧
     (Red.formed Spp.reduceResult b = true → redFits u peer Spp.reduceResult b = true → (u.buckets.find? (·.idx == Red.bucket b)).isSome = true →
       ∃ v w x, exec (.reduceResult peer b t) s = .next (advanceUpd attempts u.seq v) ∧ findUpd v u.seq = some w ∧
         w.buckets.find? (·.idx == Red.bucket b) = some x ∧ x.inbox.getLast? = some (readMsg Spp.reduceResult b)) ∧
     (Red.formed Spp.reduceSample b = true → redFits u peer Spp.reduceSample b = true →
       ∃ v w, exec (.reduceSample peer b t) s = .next (advanceUpd attempts u.seq v) ∧ findUpd v u.seq = some w ∧
         w.samples = (if u.samples.any (fun x => x.rank == Red.rank b && x.bucket == Red.bucket b) then u.samples
           else u.samples ++ [{ rank := Red.rank b, bucket := Red.bucket b, samples := readSamples b }])) ∧
     (Red.formed Spp.updateVerdict b = true → redFits u peer Spp.updateVerdict b = true →
       ∃ v w, exec (.updateVerdict peer b t) s = .next (advanceUpd attempts u.seq v) ∧ findUpd v u.seq = some w ∧
         w.verdicts = (if u.verdicts.any (·.1 == Red.rank b) then u.verdicts else u.verdicts ++ [(Red.rank b, u8At b 64)]))) ∧
  (∀ (peer t : Nat) (b : Bytes) (u : Update) (c : Cmd) (s : State), s.mem.upds.find? (fun u => u.head == Red.head b && u.step == Red.step b) = some u →
     findUpd s u.seq = some u → Red.formed Spp.reduceAmax b = true →
     (redFits u peer Spp.reduceAmax b = false → exec (.reduceAmax peer b t) s = .next (malformed (tick t s))) ∧
     (redFits u peer Spp.reduceAmax b = true → Red.digest b ≠ u.digest → findCmd s u.seq = some c → c.internal = false →
       ∃ v, exec (.reduceAmax peer b t) s = .next v ∧ findUpd v u.seq = none ∧ ready v u.seq = some { status := Status.groupMismatch }) ∧
     (redFits u peer Spp.reduceAmax b = true → Red.digest b = u.digest → Red.attempt b < u.attempt → exec (.reduceAmax peer b t) s = .next (tick t s)) ∧
     (∀ h, redFits u peer Spp.reduceAmax b = true → Red.digest b = u.digest → u.attempt < Red.attempt b → findHead s u.head = some h →
       ∃ v, exec (.reduceAmax peer b t) s = .next v ∧ v.mem.early = s.mem.early ++ [{ peer := peer, type := Spp.reduceAmax, payload := b }])) ∧
  (∀ (peer t : Nat) (b : Bytes) (s : State), Red.formed Spp.reduceAmax b = false → exec (.reduceAmax peer b t) s = .next (malformed (tick t s)))

/-- R9 R264 R265: A repeat message and a timeout start a new attempt, at most up to attempt 3, and then the lowest missing rank is declared failed; a failed
member makes its group unavailable, and a degraded one is noted; a notice with another cause, or with a stack that does not exist, is dropped as malformed. -/
def Obligations.ReductionsRepeatAndFail : Prop :=
  (∀ (peer t : Nat) (b : Bytes) (u : Update) (s : State), s.mem.upds.find? (fun u => u.head == Red.head b && u.step == Red.step b) = some u →
    findUpd s u.seq = some u → Red.formed Spp.reduceRepeat b = true → redFits u peer Spp.reduceRepeat b = true →
    (Red.digest b = u.digest → u.attempt < Red.attempt b →
      ∃ v, exec (.reduceRepeat peer b t) s = .next (advanceUpd attempts u.seq v) ∧
        (findUpd v u.seq).map (fun w => (w.attempt, w.since)) = some (Red.attempt b, max s.now t)) ∧
    (Red.digest b = u.digest → Red.attempt b ≤ u.attempt → exec (.reduceRepeat peer b t) s = .next (tick t s)) ∧
    (∀ c, Red.digest b ≠ u.digest → findCmd s u.seq = some c → c.internal = false →
      ∃ v, exec (.reduceRepeat peer b t) s = .next v ∧ findUpd v u.seq = none ∧ ready v u.seq = some { status := Status.groupMismatch })) ∧
  (∀ (seq t bucket rank : Nat) (rest : List (Nat × Nat)) (u : Update) (h : Head) (s : State), findUpd s seq = some u → findHead s u.head = some h →
    lacks u = (bucket, rank) :: rest →
    (max s.now t < u.since + settingUs s Key.stepTimeoutUs → exec (.reduceTimeout seq t) s = .next (tick t s)) ∧
    (u.since + settingUs s Key.stepTimeoutUs ≤ max s.now t → u.attempt < 3 → ∃ v, exec (.reduceTimeout seq t) s = .next (advanceUpd attempts seq v) ∧
      (findUpd v seq).map (fun w => (w.attempt, w.since)) = some (u.attempt + 1, max s.now t)) ∧
    (u.since + settingUs s Key.stepTimeoutUs ≤ max s.now t → 3 ≤ u.attempt → ∃ v, exec (.reduceTimeout seq t) s = .next v ∧
      v.mem.lastFailed = u.ring.getD ((rest.map (·.2)).foldl min rank) 0 ∧ v.mem.failed.any (·.1 == Hd.group h.desc) = true)) ∧
  (∀ (peer t : Nat) (b : Bytes) (s : State),
    (noticeFormed [1, 2, 3] 1 b = true → u16At b 16 ≠ 0xFFFF →
      ∃ u, exec (.memberFailed peer b t) s = .next u ∧ u.mem.failed.any (·.1 == u16At b 16) = true ∧ u.mem.heads.length = s.mem.heads.length) ∧
    (noticeFormed [1, 2, 3] 1 b = true → u16At b 16 = 0xFFFF → exec (.memberFailed peer b t) s = .next (tick t s)) ∧
    (noticeFormed [1, 2, 3] 1 b = false → exec (.memberFailed peer b t) s = .next (malformed (tick t s))) ∧
    (noticeFormed [4, 5] 12 b = true → u16At b 16 ≠ 0xFFFF →
      ∃ u, exec (.memberDegraded peer b) s = .next u ∧ u.mem.degraded.contains (u16At b 16) = true ∧ u.mem.failed = s.mem.failed ∧ u.search = s.search) ∧
    (noticeFormed [4, 5] 12 b = false → exec (.memberDegraded peer b) s = .next (malformed s)))

/-- R369 R379 R404 R408: A key that holds a DAP role opens a session of that level while sessions are left, the first key on the management port of a module without
roles claims it, and every other handshake leaves the sessions as they are; a session ends when it closes, or has been idle too long, and not before: one whose apply runs
is gone but goes on with it, and an image load of the session is given up. -/
def Obligations.DapSessionsOpenAndClose : Prop :=
  (∀ (mgmt : Bool) (cert : Bytes) (t : Nat) (s : State), dapServes (tick t s) mgmt = true →
    ∃ u, exec (.dapHandshake mgmt cert t) s = .next u ∧
      match Config.certKey cert with
      | none => u.dap.sessions = s.dap.sessions ∧ u.sec.roles = s.sec.roles
      | some key =>
        u.sec.roles = (if mgmt = true ∧ s.sec.roles = [] then [{ id := 1, key := key, ahp := 0, dap := 3 }] else s.sec.roles) ∧
        match u.sec.roles.find? (·.key == key) with
        | some r => if r.dap ≠ 0 ∧ (s.dap.sessions.filter (!·.gone)).length < settingNat s Key.dapSessionLimit then
            ∃ y, u.dap.sessions = s.dap.sessions ++ [y] ∧ y.level = r.dap ∧ y.role = r.id ∧ y.mgmt = mgmt ∧ y.phase = .empty ∧ y.lastFrame = max s.now t
          else u.dap.sessions = s.dap.sessions
        | none => u.dap.sessions = s.dap.sessions) ∧
  (∀ (id t : Nat) (x : Session) (s : State), findSession s id = some x →
    (x.lastFrame + settingNat s Key.dapIdleTimeoutS * 1000000000 ≤ max s.now t →
      ∃ u, exec (.dapIdleTimeout id t) s = .next u ∧ (∀ y ∈ u.dap.sessions, y.id = id → y.gone = true ∧ y.phase = .applying) ∧
        u.dap.sessions.filter (·.id ≠ id) = s.dap.sessions.filter (·.id ≠ id) ∧ u.sec.load = s.sec.load.filter (·.session ≠ id)) ∧
    (max s.now t < x.lastFrame + settingNat s Key.dapIdleTimeoutS * 1000000000 → exec (.dapIdleTimeout id t) s = .next (tick t s))) ∧
  (∀ (id : Nat) (s : State), ∃ u, exec (.dapSessionClose id) s = .next u ∧
    (∀ y ∈ u.dap.sessions, y.id = id → y.gone = true ∧ y.phase = .applying) ∧
    u.dap.sessions.filter (·.id ≠ id) = s.dap.sessions.filter (·.id ≠ id) ∧ u.sec.load = s.sec.load.filter (·.session ≠ id))

/-- R371 R372 R374 R375 R376: A READ, READ_STAGED, DESCRIBE or black-box frame that its session may send is answered with the results of its items in order, in one reply that the
session keeps, and changes no entry; a READ item of an entry of fixed size that its role may read returns the entry's value whole; and a frame given to another command than
its own does nothing but let time pass. -/
def Obligations.DapReadsAreAnswered : Prop :=
  (∀ (id t : Nat) (b : Bytes) (s : State), dapNew (tick t s) id b = true →
     let s1 := dapAccepted id b (tick t s)
     let n := (frameItems b).length
     let out := readItems id (dapOp b) (frameItems b) (1248 - 16 * n) s1
     let r := dapRead id b s1
     (rowOf b = .read → exec (.read id b t) s = .next r) ∧ (rowOf b = .readStaged → exec (.readStaged id b t) s = .next r) ∧
     (rowOf b = .describe → exec (.describe id b t) s = .next r) ∧ (rowOf b = .blackboxWindow → exec (.blackboxWindow id b t) s = .next r) ∧
     (rowOf b = .read ∨ rowOf b = .readStaged ∨ rowOf b = .describe ∨ rowOf b = .blackboxWindow →
       lastReply r id = some (replyBytes (dapOp b) (dapId b) (itemReply out.1 n out.2.1)) ∧ (findSession r id).bind (·.highest) = some (dapId b) ∧
       r.settings = s.settings ∧ r.sec = s.sec ∧ r.power = s.power ∧ r.box = s.box) ∧
     (∀ it d y, rowOf b = .read → frameItems b = [it] → dictEntry it.key = some d → findSession s1 id = some y → readCheck s1 y 1 it = 0 → d.type < 9 → it.seg = 0 →
       (entryValue s1 d).length ≤ 1232 →
       lastReply r id = some (replyBytes 1 (dapId b) { status := Status.success, offset := 0, inValue := false, count := 1, payload := replyItem it.key d.type 0 true 0 (entryValue s1 d) }))) ∧
  (∀ (id t : Nat) (b : Bytes) (s : State),
     (rowOf b ≠ .read → exec (.read id b t) s = .next (tick t s)) ∧ (rowOf b ≠ .readStaged → exec (.readStaged id b t) s = .next (tick t s)) ∧
     (rowOf b ≠ .describe → exec (.describe id b t) s = .next (tick t s)) ∧ (rowOf b ≠ .blackboxWindow → exec (.blackboxWindow id b t) s = .next (tick t s)) ∧
     (rowOf b ≠ .write → exec (.write id b t) s = .next (tick t s)) ∧ (rowOf b ≠ .stage → exec (.stage id b t) s = .next (tick t s)) ∧
     (rowOf b ≠ .commitApply → exec (.commitApply id b t) s = .next (tick t s)))

/-- R373 R374 R378: A checked WRITE item takes effect at once and is answered with SUCCESS, a checked STAGE item is held in the session, which then owns the item's commit group; and a
frame with an item that fails changes nothing of the module or of what is staged, and is answered INVALID_FIELD at the item. -/
def Obligations.DapWritesAndStages : Prop :=
  (∀ (id t : Nat) (b : Bytes) (it : DapItem) (y : Session) (s : State), dapNew (tick t s) id b = true →
     findSession (dapAccepted id b (tick t s)) id = some y → frameItems b = [it] →
     let e := writeCheck (dapAccepted id b (tick t s)) y [it] it
     let f := stageCheck (dapAccepted id b (tick t s)) y it
     let answer := fun (op code : Nat) => replyBytes op (dapId b) (itemReply (if code = 0 then none else some it.off) 1 (resultItems [(it, code)]))
     (rowOf b = .write → e = 0 → Table.wf settingDefault s.settings = true →
       ∃ u, exec (.write id b t) s = .next u ∧ lastReply u id = some (answer 2 0) ∧ (∀ k, k ≠ it.key → setting u k = setting s k) ∧
         if it.key = Key.tgControl ∨ it.key = Key.ftgControl then leNat (setting u it.key) = leNat it.value % 2 ^ 31 else setting u it.key = it.value) ∧
     (rowOf b = .write → e ≠ 0 →
       ∃ u, exec (.write id b t) s = .next u ∧ lastReply u id = some (answer 2 e) ∧ u.settings = s.settings ∧ u.sec = s.sec ∧ u.hbm = s.hbm ∧ u.cold = s.cold ∧
         u.power = s.power) ∧
     (∀ d, rowOf b = .stage → y.phase ≠ .applying → f = 0 → dictEntry it.key = some d →
       ∃ u z, exec (.stage id b t) s = .next u ∧ lastReply u id = some (answer 3 0) ∧ findSession u id = some z ∧ z.phase = .staged ∧
         z.groups.contains d.group = true ∧ stagedOf z it.key = some (withSegment y it) ∧ u.settings = s.settings) ∧
     (rowOf b = .stage → y.phase ≠ .applying → f ≠ 0 →
       ∃ u z, exec (.stage id b t) s = .next u ∧ lastReply u id = some (answer 3 f) ∧ findSession u id = some z ∧ z.phase = y.phase ∧
         z.groups = y.groups ∧ z.staged = y.staged ∧ u.settings = s.settings))

/-- R379 R380 R381 R383: A session's staged values are checked, applied at a boundary or dropped: the check leaves CHECKED or STAGED, an apply of a checked session waits for its
boundary and one of a staged session is answered NOT_CHECKED, the switch makes exactly the staged values live and counts the CONFIG_SEQUENCE, and a check that fails or a timeout
changes no entry. -/
def Obligations.StagedValuesAreCommitted : Prop :=
  (∀ (id t : Nat) (b : Bytes) (y : Session) (s : State), dapNew (tick t s) id b = true → findSession (dapAccepted id b (tick t s)) id = some y →
    (rowOf b = .commitCheck → y.phase = .staged ∨ y.phase = .checked → ∃ u z, exec (.commitCheck id b t) s = .next u ∧ findSession u id = some z ∧
      z.phase = (if (commitFail (dapAccepted id b (tick t s)) y).isSome then .staged else .checked) ∧ z.staged = y.staged ∧ u.settings = s.settings) ∧
    (rowOf b = .commitApply → y.phase = .checked → ∃ u z, exec (.commitApply id b t) s = .next u ∧ findSession u id = some z ∧ z.phase = .applying ∧
      z.outstanding = y.outstanding ++ [dapId b] ∧
      u.dap.applies = s.dap.applies ++ [{ session := id, requestId := dapId b, received := max s.now t }] ∧ u.settings = s.settings) ∧
    (rowOf b = .commitApply → y.phase = .staged → ∃ u z, exec (.commitApply id b t) s = .next u ∧ findSession u id = some z ∧ z.phase = .staged ∧
      u.dap.applies = s.dap.applies ∧ u.dap.lastResult = 3 ∧ u.settings = s.settings) ∧
    (rowOf b = .commitAbort → y.phase = .staged ∨ y.phase = .checked → ∃ u z, exec (.commitAbort id b t) s = .next u ∧ findSession u id = some z ∧
      z.phase = .empty ∧ z.staged = [] ∧ z.groups = [] ∧ u.settings = s.settings)) ∧
  (∀ (t : Nat) (a : Apply) (x : Session) (s : State), runningApply (tick t s) = some (a, x) →
    (atBoundary (tick t s) x = false → exec (.commitBoundaryReached t) s = .next (tick t s)) ∧
    (atBoundary (tick t s) x = true → max s.now t ≤ applyDeadline s a →
      (commitFail (tick t s) x = none → ∃ u, exec (.commitBoundaryReached t) s = .next u ∧ u.dap.sequence = s.dap.sequence + 1 ∧ u.dap.lastResult = 0 ∧
        u.dap.lastTime = max s.now t ∧ u.dap.applies = s.dap.applies.drop 1 ∧
        (Table.wf settingDefault s.settings = true → ∀ k, setting u k = ((x.staged.reverse.find? (·.key == k)).map (·.value)).getD (setting s k))) ∧
      (∀ bad, commitFail (tick t s) x = some bad → ∃ u, exec (.commitBoundaryReached t) s = .next u ∧ u.settings = s.settings ∧ u.dap.lastResult = 1 ∧
        u.dap.sequence = s.dap.sequence ∧ u.dap.applies = s.dap.applies.drop 1)) ∧
    (max s.now t < applyDeadline s a → exec (.commitApplyTimeout t) s = .next (tick t s)) ∧
    (applyDeadline s a ≤ max s.now t → ∃ u, exec (.commitApplyTimeout t) s = .next u ∧ u.settings = s.settings ∧ u.dap.lastResult = 2 ∧
      u.dap.sequence = s.dap.sequence ∧ u.dap.applies = s.dap.applies.drop 1))

/-- R289 R290 R291 R314: START of a traffic generator begins a run with clear counts, and reads 0: over the channel, the pattern, the seed and the whole pages that its entries
name; a run that only reads compares with what the last run with its seed wrote to the channel, where one did, and one that only writes is noted for that. -/
def Obligations.TrafficGeneratorsStart : Prop :=
  (∀ (id t : Nat) (b : Bytes) (it : DapItem) (y : Session) (s : State), dapNew (tick t s) id b = true →
     findSession (dapAccepted id b (tick t s)) id = some y → frameItems b = [it] → writeCheck (dapAccepted id b (tick t s)) y [it] it = 0 →
     Table.wf settingDefault s.settings = true →
     let bytes := settingNat s Key.tgBytes
     let span : TgSpan := { channel := leNat it.value % 512, pattern := leNat it.value / 65536 % 256, seed := settingNat s Key.tgSeed, pages := if bytes = 0 then channelPages else ceilDiv bytes 2048 }
     let clear := fun g : TestGen => g.state = 1 ∧ g.errors = 0 ∧ g.failed = 0
     (rowOf b = .tgWriteRead → ∃ u, exec (.tgWriteRead id b t) s = .next u ∧ clear u.hbm.tg ∧ u.hbm.tg.pins = List.replicate 72 0 ∧ u.hbm.tg.run = some span ∧
       leNat (setting u Key.tgControl) = leNat it.value % 2 ^ 31 ∧ u.cold = s.cold) ∧
     (rowOf b = .tgReadOnly → ∃ u, exec (.tgReadOnly id b t) s = .next u ∧ clear u.hbm.tg ∧ u.hbm.tg.pins = List.replicate 72 0 ∧
       u.hbm.tg.run = s.hbm.tg.written.find? (fun w => (w.channel == span.channel || w.channel == 0x1FF) && w.seed == span.seed) ∧
       leNat (setting u Key.tgControl) = leNat it.value % 2 ^ 31 ∧ u.cold = s.cold) ∧
     (rowOf b = .tgWriteOnly → ∃ u, exec (.tgWriteOnly id b t) s = .next u ∧ clear u.hbm.tg ∧ u.hbm.tg.run = some span ∧ span ∈ u.hbm.tg.written ∧
       leNat (setting u Key.tgControl) = leNat it.value % 2 ^ 31 ∧ u.cold = s.cold) ∧
     (rowOf b = .ftgWriteRead → ∃ u, exec (.ftgWriteRead id b t) s = .next u ∧ clear u.cold.ftg ∧
       leNat (setting u Key.ftgControl) = leNat it.value % 2 ^ 31 ∧ u.hbm = s.hbm) ∧
     (rowOf b = .ftgReadVerify → ∃ u, exec (.ftgReadVerify id b t) s = .next u ∧ clear u.cold.ftg ∧
       leNat (setting u Key.ftgControl) = leNat it.value % 2 ^ 31 ∧ u.hbm = s.hbm) ∧
     (rowOf b = .ftgEraseTest → ∃ u, exec (.ftgEraseTest id b t) s = .next u ∧ clear u.cold.ftg ∧
       leNat (setting u Key.ftgControl) = leNat it.value % 2 ^ 31 ∧ u.hbm = s.hbm))

/-- R404 R405: An image load opens, takes its blocks in order, is judged when it is finished, or is given up; marks of slots are set and cleared. -/
def Obligations.ImagesAreLoaded : Prop :=
  (∀ (id t : Nat) (b : Bytes) (it : DapItem) (y : Session) (s : State), dapNew (tick t s) id b = true →
     findSession (dapAccepted id b (tick t s)) id = some y → frameItems b = [it] → writeCheck (dapAccepted id b (tick t s)) y [it] it = 0 →
     (rowOf b = .imageBegin → ∃ u, exec (.imageBegin id b t) s = .next u ∧
       u.sec.load = some { session := id, kind := ilKind (leNat it.value), received := [] } ∧ u.sec.loadState = 1 ∧ u.sec.loadBytes = 0) ∧
     (∀ l, rowOf b = .imageBlock → s.sec.load = some l →
       (u32At it.value 0 = l.received.length → ∃ u, exec (.imageBlock id b t) s = .next u ∧
         u.sec.load = some { l with received := l.received ++ it.value.drop 8 } ∧ u.sec.loadState = s.sec.loadState) ∧
       (u32At it.value 0 ≠ l.received.length → ∃ u, exec (.imageBlock id b t) s = .next u ∧ u.sec.load = none ∧ u.sec.loadState = 3 ∧ u.sec.loadReason = 7)) ∧
     (∀ l, rowOf b = .imageFinish → s.sec.load = some l → ∃ u, exec (.imageFinish id b t) s = .next u ∧ u.sec.load = none ∧
       u.sec.loadReason = imageReason (dapAccepted id b (tick t s)) l.kind l.received ∧ u.sec.loadState = (if u.sec.loadReason = 0 then 2 else 3)) ∧
     (rowOf b = .imageAbandon → ∃ u, exec (.imageAbandon id b t) s = .next u ∧ u.sec.load = none ∧ u.sec.loadState = 0) ∧
     (rowOf b = .imageMarkPending → ∃ u, exec (.imageMarkPending id b t) s = .next u ∧ u.sec.pendMask = putBit s.sec.pendMask (ilKind (leNat it.value) - 1) true ∧
       u.sec.pendSlots = putBit s.sec.pendSlots (ilKind (leNat it.value) - 1) (ilSlot (leNat it.value) == 1)) ∧
     (rowOf b = .imageClearPending → ∃ u, exec (.imageClearPending id b t) s = .next u ∧
       u.sec.pendMask = putBit s.sec.pendMask (ilKind (leNat it.value) - 1) false))

/-- R404 R410 R416 R430 R447 R448: The other entries that act when they are written: roles, the factory reset, the activation of images, the reset, diagnostic mode,
and the place from which the black box is read. -/
def Obligations.ActingEntriesAct : Prop :=
  (∀ (id t : Nat) (b : Bytes) (it : DapItem) (y : Session) (s : State), dapNew (tick t s) id b = true →
    findSession (dapAccepted id b (tick t s)) id = some y → frameItems b = [it] → writeCheck (dapAccepted id b (tick t s)) y [it] it = 0 →
    (rowOf b = .roleRecord → ∃ u, exec (.roleRecord id b t) s = .next u ∧ u.sec.roles = rolesAfter s it.value) ∧
    (s.power.resetting = none → s.power.state ≠ .p4 → s.power.state ≠ .idFault →
      (rowOf b = .factoryReset → ∃ u, exec (.factoryReset id b t) s = .next u ∧ u.settings = [] ∧ u.sec.roles = [] ∧ u.search.colls = [] ∧ u.mem.heads = [] ∧
        u.power.resetting = some (4, max s.now t)) ∧
      (rowOf b = .imageActivate → ∃ u, exec (.imageActivate id b t) s = .next u ∧ u.power.resetting = some (3, max s.now t) ∧ u.ahp.admissionOpen = false) ∧
      (rowOf b = .moduleReset → ∃ u, exec (.moduleReset id b t) s = .next u ∧ u.power.resetting = some (2, max s.now t) ∧ u.ahp.admissionOpen = false)) ∧
    (rowOf b = .diagnosticMode → ∃ u, exec (.diagnosticMode id b t) s = .next u ∧ u.box.diag = 1 ∧ u.ahp.admissionOpen = false ∧
      u.dap.diagRequest = some { session := id, since := max s.now t, frame := b }) ∧
    (rowOf b = .blackboxReadFrom → ∃ u, exec (.blackboxReadFrom id b t) s = .next u ∧ (findSession u id).map (·.readFrom) = some (leNat it.value) ∧
      u.settings = s.settings)) ∧
  (∀ (t : Nat) (w : DiagWait) (s : State), s.dap.diagRequest = some w →
    (idle (diagDone w (tick t s)) = true → ∃ u, exec (.diagnosticModeEntered t) s = .next u ∧ u.box.diag = 2 ∧ u.ahp.admissionOpen = true ∧ u.dap.diagRequest = none) ∧
    (idle (diagDone w (tick t s)) = false → w.since + 10000000000 ≤ max s.now t →
      ∃ u, exec (.diagnosticModeEntered t) s = .next u ∧ u.box.diag = 0 ∧ u.ahp.admissionOpen = true ∧ u.dap.diagRequest = none))

/-- R28 R274 R419 R420 R421 R422: The module goes to P2 and P3 in two phases, turns back when work comes before the last step, and wakes to P0; in P3 the ports but port 0 stop and
the caches are written back and lost, and a wake from it starts the time base again from the always-on count, in HOLDOVER where it had been locked and in FREE_RUNNING where it had
not (the model's reading, notes/assumptions/50.md); the time in P2 and P3 does not count for the patrols; a cluster without work is gated. -/
def Obligations.PowerStatesFollowTheWork : Prop :=
  (∀ (t start : Nat) (s : State), s.power.entry = some (2, start) → start + 80000 ≤ max s.now t → stillIdle start (tick t s) = true →
    Table.wf (fun _ => 0) s.counters = true → counter s Key.p2Entries + 1 < 2 ^ 64 → ∃ u, exec (.p2Entry t) s = .next u ∧ u.power.state = .p2 ∧ u.power.entry = none ∧ u.power.p2Since = max s.now t ∧
      counter u Key.p2Entries = counter s Key.p2Entries + 1) ∧
  (∀ (t : Nat) (s : State), s.power.entry = none → s.power.state = .p0 → mayDeepen (tick t s) = true → 2 ≤ settingNat s Key.deepestState →
    idleStart s + settingNat s Key.p2IdleMs * 1000000 ≤ max s.now t → ∃ u, exec (.p2Entry t) s = .next u ∧ u.power.entry = some (2, max s.now t) ∧ u.power.state = .p0) ∧
  (∀ (t start : Nat) (s : State), s.power.entry = some (3, start) → start + 3000000 ≤ max s.now t → stillIdle start (tick t s) = true →
    ∃ u, exec (.p3Entry t) s = .next u ∧ u.power.state = .p3 ∧ u.power.entry = none ∧ (∀ x ∈ u.net.subs, x.port ≠ 0 → x.up = false) ∧ u.hbm.cache = []) ∧
  (∀ (t start : Nat) (s : State), stillIdle start (tick t s) = false → Table.wf (fun _ => 0) s.counters = true → counter s Key.entriesAbandoned + 1 < 2 ^ 64 →
    (s.power.entry = some (2, start) → start + 80000 ≤ max s.now t → ∃ u, exec (.p2Entry t) s = .next u ∧ u.power.state = .p0 ∧ u.power.entry = none ∧
      counter u Key.entriesAbandoned = counter s Key.entriesAbandoned + 1) ∧
    (s.power.entry = some (3, start) → start + 3000000 ≤ max s.now t → ∃ u, exec (.p3Entry t) s = .next u ∧ u.power.state = .p0 ∧ u.power.entry = none ∧
      u.power.suspended = s.power.suspended + (max s.now t - s.power.p2Since) ∧ counter u Key.entriesAbandoned = counter s Key.entriesAbandoned + 1)) ∧
  (∀ (t : Nat) (s : State), s.power.entry = none → s.power.state = .p2 → mayDeepen (tick t s) = true → settingNat s Key.deepestState = 3 →
    s.power.p2Since + settingNat s Key.p3IdleS * 1000000000 ≤ max s.now t → ∃ u, exec (.p3Entry t) s = .next u ∧ u.power.entry = some (3, max s.now t) ∧
      u.power.state = .p2) ∧
  (∀ (t k start : Nat) (s : State), s.power.entry = some (k, start) → max s.now t < start + lastStepAt k → Table.wf (fun _ => 0) s.counters = true →
    counter s Key.entriesAbandoned + 1 < 2 ^ 64 → ∃ u, exec (.entryAbandon t) s = .next u ∧ u.power.state = .p0 ∧ u.power.entry = none ∧
      counter u Key.entriesAbandoned = counter s Key.entriesAbandoned + 1) ∧
  (∀ (t : Nat) (s : State), (s.power.state = .p2 → s.power.entry = none → ∃ u, exec (.wake t) s = .next u ∧ u.power.state = .p0 ∧ u.power.idleSince = max s.now t ∧
      u.power.suspended = s.power.suspended + (max s.now t - s.power.p2Since) ∧ u.net = s.net) ∧
    (s.power.state = .p3 → ∃ u, exec (.wake t) s = .next u ∧ u.power.state = .p0 ∧ u.now = max s.now (t / 10 * 10) ∧ u.power.idleSince = u.now ∧
      u.power.suspended = s.power.suspended + (u.now - s.power.p2Since) ∧ u.net.timeState = (if s.net.locked then 2 else 0))) ∧
  (∀ (cluster : Nat) (s : State), cluster < 32 → ∃ u, exec (.clusterClockGate cluster) s = .next u ∧ u.power.gated.contains cluster = true ∧
    ∀ k, k ≠ cluster → u.power.gated.contains k = s.power.gated.contains k)

/-- R402 R428 R429 R430 R431: A power failure and a thermal trip end in P4 with nothing volatile left, a start-up ends in P0, in recovery mode or at an identity
fault, and a trip's restart waits five minutes. -/
def Obligations.PowerFailsTripsAndReturns : Prop :=
  (∀ (mv t : Nat) (s : State), s.power.state ≠ .p4 →
    (∃ u, exec (.powerFailSignal mv t) s = .next u ∧ u.power.state = .p4 ∧ u.power.cause = 1 ∧ u.ahp.cmds = [] ∧ u.net.conns = [] ∧ u.settings = s.settings) ∧
    (∃ u, exec (.pwrEnFall t) s = .next u ∧ u.power.state = .p4 ∧ u.power.cause = 1 ∧ u.ahp.cmds = [] ∧ u.net.conns = [] ∧ u.settings = s.settings)) ∧
  (∀ (x : Sensors) (t : Nat) (s : State), s.power.state ≠ .p4 →
    ((tripSensor x).isSome = true → ∃ u, exec (.sensorReading x t) s = .next u ∧ u.power.state = .p4 ∧ u.power.cause = 5 ∧ u.power.tripAt = some (max s.now t)) ∧
    (tripSensor x = none → s.power.state = .p0 ∨ s.power.state = .p2 → supervisorDown (tick t s) = false → ∃ u, exec (.sensorReading x t) s = .next u ∧
      u.power.hubTemp = x.hub ∧ u.power.coolant = x.coolant ∧ u.power.inputMv = x.inputMv ∧ u.power.inputW = x.inputW ∧ u.power.state = s.power.state)) ∧
  (∀ (f : StartFacts) (t : Nat) (v s : State), beginStart f t s = some v → ∃ u, exec (.startUp f t) s = .next u ∧
    (f.pufOk = false → u.power.state = .idFault) ∧ (f.pufOk = true → u.power.state = .p0 ∨ u.power.state = .recovery)) ∧
  (∀ (t a : Nat) (s : State), s.power.tripAt = some a → ∃ u, exec (.tripRestart t) s = .next u ∧
    u.power.tripAt = if a + 300000000000 ≤ max s.now t then none else some a)

/-- R275 R285 R437 R438 R439 R442: The oldest event becomes the next record of the ring once it reads back right, a record that reads back wrong twice is a fault,
an event like a recent one only counts, and what was counted becomes one event when its second is over. A control core without heartbeat restarts and is
counted; the third restart within a minute, and the silence of both cores, reset the module. A second mismatch of a check code resets the module with cause
SUPERVISOR, and the command is not acted on; words of SRAM beyond their code and first mismatches are counted; a search lists the partitions whose rows the lost
words held; a burst that a command reads and that cannot be corrected damages the partition that lies there until it is recovered. -/
def Obligations.BlackBoxAndControlCores : Prop :=
  (∀ (readBack : Bool) (t : Nat) (e : Event) (r : List Event) (s : State), s.box.queue = e :: r → serviceDown (tick t s) = false → s.box.fault = false →
    (s.box.recent.any (coalesces e) = false → readBack = true → ∃ u, exec (.blackboxAppend readBack t) s = .next u ∧ u.box.queue = r ∧ u.box.head = s.box.head + 1 ∧
      u.box.records.length = min (s.box.records.length + 1) ringSlots ∧ u.box.misread = false) ∧
    (s.box.recent.any (coalesces e) = false → readBack = false → ∃ u, exec (.blackboxAppend readBack t) s = .next u ∧ u.box.records = s.box.records ∧
      u.box.head = s.box.head ∧ u.box.misread = !s.box.misread ∧ u.box.fault = s.box.misread ∧ u.box.queue = if s.box.misread then r else e :: r) ∧
    (s.box.recent.any (coalesces e) = true → ∃ u, exec (.blackboxAppend readBack t) s = .next u ∧ u.box.queue = r ∧ u.box.records = s.box.records ∧
      u.box.head = s.box.head)) ∧
  (∀ (event unit key t : Nat) (s : State),
    let ended := fun r : Recent => r.event.code == event && r.event.unit == unit && u64At r.event.detail 0 == key && decide (r.event.time + 1000000000 ≤ max s.now t)
    ∃ u, exec (.blackboxCoalesced event unit key t) s = .next u ∧ u.box.recent.any ended = false ∧ u.box.records = s.box.records ∧
      (sumOf ((s.box.recent.filter ended).map (·.count)) ≠ 0 → s.box.queue.length < 256 → ∃ e, u.box.queue = s.box.queue ++ [e] ∧ e.code = Ev.coalesced ∧ e.unit = unit) ∧
      (sumOf ((s.box.recent.filter ended).map (·.count)) = 0 → u.box.queue = s.box.queue)) ∧
  (∀ (core t : Nat) (s : State), coresRun s = true → s.power.resetting = none →
    ∃ u, exec (.heartbeatTimeout core t) s = .next u ∧ u.box.restarts = s.box.restarts ++ [(core, max s.now t)] ∧
      u.power.resetting = (if 2 ≤ (s.box.restarts.filter fun r => r.1 == core && decide (max s.now t < r.2 + 60000000000)).length then some (6, max s.now t) else none) ∧
      (core = 0 → ∀ y ∈ u.dap.sessions, y.gone = true ∧ y.phase = .applying)) ∧
  (∀ (t : Nat) (s : State), coresRun s = true → s.power.resetting = none → ∃ u, exec (.bothCoresSilent t) s = .next u ∧
    u.power.resetting = some (6, max s.now t) ∧ u.ahp.admissionOpen = false) ∧
  (∀ (seq t : Nat) (b : Bytes) (x : Upsets) (m : CodeMismatch) (c : Cmd) (s : State), admittedCmd s seq 0x2A = some c → b.length = c.entry.inLen →
    awaitsBanks (takeBanks c (tick t s)) seq = false → x.codes.second = some m → x.bursts = [] →
    (∀ w ∈ x.words, (w.unit < 32 || bankRole s ((w.unit - 32) % 40) == .scratch) = true) → s.power.resetting = none → s.power.state = .p0 →
    Table.wf (fun _ => 0) s.counters = true → counter s Key.sramUncorrectable + x.words.length < 2 ^ 64 →
    counter s Key.checkCodeRetries + x.codes.retries < 2 ^ 64 →
    ∃ u, exec (.search seq b x t) s = .next u ∧ u.search = s.search ∧ u.ahp.cmds = s.ahp.cmds ∧ u.ahp.admissionOpen = false ∧
      u.power.resetting = some (6, max s.now t) ∧ counter u Key.sramUncorrectable = counter s Key.sramUncorrectable + x.words.length ∧
      counter u Key.checkCodeRetries = counter s Key.checkCodeRetries + x.codes.retries) ∧
  (∀ (seq : Nat) (b : Bytes) (x : CodeChecks) (m : CodeMismatch) (c : Cmd) (s : State), admittedCmd s seq 0x10 = some c → b.length = c.entry.inLen → x.second = some m →
    s.power.resetting = none → s.power.state = .p0 →
    ∃ u, exec (.loadPlan seq b x) s = .next u ∧ u.ahp.plans = s.ahp.plans ∧ u.ahp.cmds = s.ahp.cmds ∧ u.power.resetting = some (6, s.now)) ∧
  (∀ (seq t : Nat) (b : Bytes) (x : Upsets) (m : CodeMismatch) (c : Cmd) (h : Head) (p : Plan) (s : State), admittedCmd s seq 0x33 = some c → b.length = c.entry.inLen →
    findHead s c.entry.target = some h → c.plan = some p →
    (heldAhead s c h || writersAhead s c [h.id, (sourceHead s h).id] || lowerStepAhead s h (Fw.step b) || h.restoring || (sourceHead s h).restoring) = false →
    x.codes.second = some m → x.bursts = [] → (∀ w ∈ x.words, (w.unit < 32 || bankRole s ((w.unit - 32) % 40) == .scratch) = true) →
    s.power.resetting = none → s.power.state = .p0 →
    ∃ u, exec (.memlayerFwd seq b x t) s = .next u ∧ u.mem = (seeForward c h b (tick t s)).mem ∧ u.ahp.cmds = (endStall c (tick t s)).ahp.cmds ∧
      u.power.resetting = some (6, max s.now t)) ∧
  (∀ (seq t : Nat) (b : Bytes) (x : Upsets) (cmd : Cmd) (c : Coll) (p : Plan) (s : State), admittedCmd s seq 0x2A = some cmd → cmd.internal = false → b.length = cmd.entry.inLen →
    awaitsBanks (takeBanks cmd (tick t s)) seq = false → findColl s cmd.entry.target = some c → cmd.plan = some p → x.codes.second = none →
    x.bursts = [] → (∀ w ∈ x.words, (w.unit < 32 || bankRole s ((w.unit - 32) % 40) == .scratch) = true) →
    queryFail (commandCtx (tick t s) cmd c p (queryEpoch cmd b)) b = none → Qr.k b ≠ 0 → minOutput b ≤ cmd.entry.outLen →
    allTilesFail (livePlan s p) = none → shardMapOf s c.id = none → findQuery s s.search.nextQuery = none →
    ∃ u q, exec (.search seq b x t) s = .next u ∧ findQuery u s.search.nextQuery = some q ∧ q.origin = .search seq ∧
      ∀ w ∈ x.words, ∀ e ∈ w.media, e ∈ q.media) ∧
  (∀ (seq t part slot : Nat) (b : Bytes) (x : Upsets) (y : Scrub) (cmd : Cmd) (c : Coll) (s : State), admittedCmd s seq 0x2A = some cmd → b.length = cmd.entry.inLen →
    awaitsBanks (takeBanks cmd (tick t s)) seq = false → x.bursts = [y] → x.words = [] → x.codes.second.isSome = true → findColl s c.id = some c →
    let placed := placeTiles (takeBanks cmd (tick t s))
    placed.hbm.mappedOut.contains y.channel = false → y.silent = false → correctable placed y = false →
    slotAt placed y.channel y.bank y.row y.burst = some slot → objectAt placed y.channel slot = some (.partition c.id part) →
    ∃ u, exec (.search seq b x t) s = .next u ∧ (findColl u c.id).any (fun d => d.damaged.contains part) = true ∧
      u.hbm.hurt.any (fun h => h.channel == y.channel && h.slot == slot && h.obj == .partition c.id part) = true)
end

