-- ==== Sys2Proof/Laws/State.lean ====
section
/-! SUPPORT. What each plain update of the state leaves: one lemma for each field of State and each update that does not write it, and
the field that it does write. -/

set_option Elab.async false

namespace Sys2Proof.Laws

open Machine

variable (s : State)

@[simp] theorem tick_pending (t : Nat) : (tick t s).pending = s.pending := rfl
@[simp] theorem tick_free (t : Nat) : (tick t s).free = s.free := rfl
@[simp] theorem tick_counters (t : Nat) : (tick t s).counters = s.counters := rfl
@[simp] theorem tick_settings (t : Nat) : (tick t s).settings = s.settings := rfl
@[simp] theorem tick_ahp (t : Nat) : (tick t s).ahp = s.ahp := rfl
@[simp] theorem tick_search (t : Nat) : (tick t s).search = s.search := rfl
@[simp] theorem tick_mem (t : Nat) : (tick t s).mem = s.mem := rfl
@[simp] theorem tick_net (t : Nat) : (tick t s).net = s.net := rfl
@[simp] theorem tick_hbm (t : Nat) : (tick t s).hbm = s.hbm := rfl
@[simp] theorem tick_cold (t : Nat) : (tick t s).cold = s.cold := rfl
@[simp] theorem tick_dap (t : Nat) : (tick t s).dap = s.dap := rfl
@[simp] theorem tick_sec (t : Nat) : (tick t s).sec = s.sec := rfl
@[simp] theorem tick_power (t : Nat) : (tick t s).power = s.power := rfl
@[simp] theorem tick_box (t : Nat) : (tick t s).box = s.box := rfl

@[simp] theorem useFree_pending : (useFree s).pending = s.pending := rfl
@[simp] theorem useFree_now : (useFree s).now = s.now := rfl
@[simp] theorem useFree_counters : (useFree s).counters = s.counters := rfl
@[simp] theorem useFree_settings : (useFree s).settings = s.settings := rfl
@[simp] theorem useFree_ahp : (useFree s).ahp = s.ahp := rfl
@[simp] theorem useFree_search : (useFree s).search = s.search := rfl
@[simp] theorem useFree_mem : (useFree s).mem = s.mem := rfl
@[simp] theorem useFree_net : (useFree s).net = s.net := rfl
@[simp] theorem useFree_hbm : (useFree s).hbm = s.hbm := rfl
@[simp] theorem useFree_cold : (useFree s).cold = s.cold := rfl
@[simp] theorem useFree_dap : (useFree s).dap = s.dap := rfl
@[simp] theorem useFree_sec : (useFree s).sec = s.sec := rfl
@[simp] theorem useFree_power : (useFree s).power = s.power := rfl
@[simp] theorem useFree_box : (useFree s).box = s.box := rfl

@[simp] theorem raiseClass_pending (c : Nat) : (raiseClass c s).pending = s.pending := rfl
@[simp] theorem raiseClass_free (c : Nat) : (raiseClass c s).free = s.free := rfl
@[simp] theorem raiseClass_now (c : Nat) : (raiseClass c s).now = s.now := rfl
@[simp] theorem raiseClass_counters (c : Nat) : (raiseClass c s).counters = s.counters := rfl
@[simp] theorem raiseClass_settings (c : Nat) : (raiseClass c s).settings = s.settings := rfl
@[simp] theorem raiseClass_ahp (c : Nat) : (raiseClass c s).ahp = s.ahp := rfl
@[simp] theorem raiseClass_search (c : Nat) : (raiseClass c s).search = s.search := rfl
@[simp] theorem raiseClass_mem (c : Nat) : (raiseClass c s).mem = s.mem := rfl
@[simp] theorem raiseClass_net (c : Nat) : (raiseClass c s).net = s.net := rfl
@[simp] theorem raiseClass_hbm (c : Nat) : (raiseClass c s).hbm = s.hbm := rfl
@[simp] theorem raiseClass_cold (c : Nat) : (raiseClass c s).cold = s.cold := rfl
@[simp] theorem raiseClass_dap (c : Nat) : (raiseClass c s).dap = s.dap := rfl
@[simp] theorem raiseClass_sec (c : Nat) : (raiseClass c s).sec = s.sec := rfl
@[simp] theorem raiseClass_power (c : Nat) : (raiseClass c s).power = s.power := rfl

@[simp] theorem setCounter_pending (k v : Nat) : (setCounter k v s).pending = s.pending := rfl
@[simp] theorem setCounter_free (k v : Nat) : (setCounter k v s).free = s.free := rfl
@[simp] theorem setCounter_now (k v : Nat) : (setCounter k v s).now = s.now := rfl
@[simp] theorem setCounter_settings (k v : Nat) : (setCounter k v s).settings = s.settings := rfl
@[simp] theorem setCounter_ahp (k v : Nat) : (setCounter k v s).ahp = s.ahp := rfl
@[simp] theorem setCounter_search (k v : Nat) : (setCounter k v s).search = s.search := rfl
@[simp] theorem setCounter_mem (k v : Nat) : (setCounter k v s).mem = s.mem := rfl
@[simp] theorem setCounter_net (k v : Nat) : (setCounter k v s).net = s.net := rfl
@[simp] theorem setCounter_hbm (k v : Nat) : (setCounter k v s).hbm = s.hbm := rfl
@[simp] theorem setCounter_cold (k v : Nat) : (setCounter k v s).cold = s.cold := rfl
@[simp] theorem setCounter_dap (k v : Nat) : (setCounter k v s).dap = s.dap := rfl
@[simp] theorem setCounter_sec (k v : Nat) : (setCounter k v s).sec = s.sec := rfl
@[simp] theorem setCounter_power (k v : Nat) : (setCounter k v s).power = s.power := rfl
@[simp] theorem setCounter_box (k v : Nat) : (setCounter k v s).box = s.box := rfl

@[simp] theorem setSetting_pending (k : Nat) (v : Bytes) : (setSetting k v s).pending = s.pending := rfl
@[simp] theorem setSetting_free (k : Nat) (v : Bytes) : (setSetting k v s).free = s.free := rfl
@[simp] theorem setSetting_now (k : Nat) (v : Bytes) : (setSetting k v s).now = s.now := rfl
@[simp] theorem setSetting_counters (k : Nat) (v : Bytes) : (setSetting k v s).counters = s.counters := rfl
@[simp] theorem setSetting_ahp (k : Nat) (v : Bytes) : (setSetting k v s).ahp = s.ahp := rfl
@[simp] theorem setSetting_search (k : Nat) (v : Bytes) : (setSetting k v s).search = s.search := rfl
@[simp] theorem setSetting_mem (k : Nat) (v : Bytes) : (setSetting k v s).mem = s.mem := rfl
@[simp] theorem setSetting_net (k : Nat) (v : Bytes) : (setSetting k v s).net = s.net := rfl
@[simp] theorem setSetting_hbm (k : Nat) (v : Bytes) : (setSetting k v s).hbm = s.hbm := rfl
@[simp] theorem setSetting_cold (k : Nat) (v : Bytes) : (setSetting k v s).cold = s.cold := rfl
@[simp] theorem setSetting_dap (k : Nat) (v : Bytes) : (setSetting k v s).dap = s.dap := rfl
@[simp] theorem setSetting_sec (k : Nat) (v : Bytes) : (setSetting k v s).sec = s.sec := rfl
@[simp] theorem setSetting_power (k : Nat) (v : Bytes) : (setSetting k v s).power = s.power := rfl
@[simp] theorem setSetting_box (k : Nat) (v : Bytes) : (setSetting k v s).box = s.box := rfl

@[simp] theorem updCmd_pending (seq : Nat) (f : Cmd → Cmd) : (updCmd seq f s).pending = s.pending := rfl
@[simp] theorem updCmd_free (seq : Nat) (f : Cmd → Cmd) : (updCmd seq f s).free = s.free := rfl
@[simp] theorem updCmd_now (seq : Nat) (f : Cmd → Cmd) : (updCmd seq f s).now = s.now := rfl
@[simp] theorem updCmd_counters (seq : Nat) (f : Cmd → Cmd) : (updCmd seq f s).counters = s.counters := rfl
@[simp] theorem updCmd_settings (seq : Nat) (f : Cmd → Cmd) : (updCmd seq f s).settings = s.settings := rfl
@[simp] theorem updCmd_search (seq : Nat) (f : Cmd → Cmd) : (updCmd seq f s).search = s.search := rfl
@[simp] theorem updCmd_mem (seq : Nat) (f : Cmd → Cmd) : (updCmd seq f s).mem = s.mem := rfl
@[simp] theorem updCmd_net (seq : Nat) (f : Cmd → Cmd) : (updCmd seq f s).net = s.net := rfl
@[simp] theorem updCmd_hbm (seq : Nat) (f : Cmd → Cmd) : (updCmd seq f s).hbm = s.hbm := rfl
@[simp] theorem updCmd_cold (seq : Nat) (f : Cmd → Cmd) : (updCmd seq f s).cold = s.cold := rfl
@[simp] theorem updCmd_dap (seq : Nat) (f : Cmd → Cmd) : (updCmd seq f s).dap = s.dap := rfl
@[simp] theorem updCmd_sec (seq : Nat) (f : Cmd → Cmd) : (updCmd seq f s).sec = s.sec := rfl
@[simp] theorem updCmd_power (seq : Nat) (f : Cmd → Cmd) : (updCmd seq f s).power = s.power := rfl
@[simp] theorem updCmd_box (seq : Nat) (f : Cmd → Cmd) : (updCmd seq f s).box = s.box := rfl

@[simp] theorem updQueue_pending (qid : Nat) (f : Queue → Queue) : (updQueue qid f s).pending = s.pending := rfl
@[simp] theorem updQueue_free (qid : Nat) (f : Queue → Queue) : (updQueue qid f s).free = s.free := rfl
@[simp] theorem updQueue_now (qid : Nat) (f : Queue → Queue) : (updQueue qid f s).now = s.now := rfl
@[simp] theorem updQueue_counters (qid : Nat) (f : Queue → Queue) : (updQueue qid f s).counters = s.counters := rfl
@[simp] theorem updQueue_settings (qid : Nat) (f : Queue → Queue) : (updQueue qid f s).settings = s.settings := rfl
@[simp] theorem updQueue_search (qid : Nat) (f : Queue → Queue) : (updQueue qid f s).search = s.search := rfl
@[simp] theorem updQueue_mem (qid : Nat) (f : Queue → Queue) : (updQueue qid f s).mem = s.mem := rfl
@[simp] theorem updQueue_net (qid : Nat) (f : Queue → Queue) : (updQueue qid f s).net = s.net := rfl
@[simp] theorem updQueue_hbm (qid : Nat) (f : Queue → Queue) : (updQueue qid f s).hbm = s.hbm := rfl
@[simp] theorem updQueue_cold (qid : Nat) (f : Queue → Queue) : (updQueue qid f s).cold = s.cold := rfl
@[simp] theorem updQueue_dap (qid : Nat) (f : Queue → Queue) : (updQueue qid f s).dap = s.dap := rfl
@[simp] theorem updQueue_sec (qid : Nat) (f : Queue → Queue) : (updQueue qid f s).sec = s.sec := rfl
@[simp] theorem updQueue_power (qid : Nat) (f : Queue → Queue) : (updQueue qid f s).power = s.power := rfl
@[simp] theorem updQueue_box (qid : Nat) (f : Queue → Queue) : (updQueue qid f s).box = s.box := rfl

@[simp] theorem releaseCopies_pending (seq : Nat) : (releaseCopies seq s).pending = s.pending := rfl
@[simp] theorem releaseCopies_free (seq : Nat) : (releaseCopies seq s).free = s.free := rfl
@[simp] theorem releaseCopies_now (seq : Nat) : (releaseCopies seq s).now = s.now := rfl
@[simp] theorem releaseCopies_counters (seq : Nat) : (releaseCopies seq s).counters = s.counters := rfl
@[simp] theorem releaseCopies_settings (seq : Nat) : (releaseCopies seq s).settings = s.settings := rfl
@[simp] theorem releaseCopies_ahp (seq : Nat) : (releaseCopies seq s).ahp = s.ahp := rfl
@[simp] theorem releaseCopies_search (seq : Nat) : (releaseCopies seq s).search = s.search := rfl
@[simp] theorem releaseCopies_mem (seq : Nat) : (releaseCopies seq s).mem = s.mem := rfl
@[simp] theorem releaseCopies_net (seq : Nat) : (releaseCopies seq s).net = s.net := rfl
@[simp] theorem releaseCopies_hbm (seq : Nat) : (releaseCopies seq s).hbm = s.hbm := rfl
@[simp] theorem releaseCopies_dap (seq : Nat) : (releaseCopies seq s).dap = s.dap := rfl
@[simp] theorem releaseCopies_sec (seq : Nat) : (releaseCopies seq s).sec = s.sec := rfl
@[simp] theorem releaseCopies_power (seq : Nat) : (releaseCopies seq s).power = s.power := rfl
@[simp] theorem releaseCopies_box (seq : Nat) : (releaseCopies seq s).box = s.box := rfl

@[simp] theorem idleFrom_pending : (idleFrom s).pending = s.pending := rfl
@[simp] theorem idleFrom_free : (idleFrom s).free = s.free := rfl
@[simp] theorem idleFrom_now : (idleFrom s).now = s.now := rfl
@[simp] theorem idleFrom_counters : (idleFrom s).counters = s.counters := rfl
@[simp] theorem idleFrom_settings : (idleFrom s).settings = s.settings := rfl
@[simp] theorem idleFrom_ahp : (idleFrom s).ahp = s.ahp := rfl
@[simp] theorem idleFrom_search : (idleFrom s).search = s.search := rfl
@[simp] theorem idleFrom_mem : (idleFrom s).mem = s.mem := rfl
@[simp] theorem idleFrom_net : (idleFrom s).net = s.net := rfl
@[simp] theorem idleFrom_hbm : (idleFrom s).hbm = s.hbm := rfl
@[simp] theorem idleFrom_cold : (idleFrom s).cold = s.cold := rfl
@[simp] theorem idleFrom_dap : (idleFrom s).dap = s.dap := rfl
@[simp] theorem idleFrom_sec : (idleFrom s).sec = s.sec := rfl
@[simp] theorem idleFrom_box : (idleFrom s).box = s.box := rfl

@[simp] theorem startWork_pending (seq : Nat) : (startWork seq s).pending = s.pending := rfl
@[simp] theorem startWork_free (seq : Nat) : (startWork seq s).free = s.free := rfl
@[simp] theorem startWork_now (seq : Nat) : (startWork seq s).now = s.now := rfl
@[simp] theorem startWork_counters (seq : Nat) : (startWork seq s).counters = s.counters := rfl
@[simp] theorem startWork_settings (seq : Nat) : (startWork seq s).settings = s.settings := rfl
@[simp] theorem startWork_search (seq : Nat) : (startWork seq s).search = s.search := rfl
@[simp] theorem startWork_mem (seq : Nat) : (startWork seq s).mem = s.mem := rfl
@[simp] theorem startWork_net (seq : Nat) : (startWork seq s).net = s.net := rfl
@[simp] theorem startWork_hbm (seq : Nat) : (startWork seq s).hbm = s.hbm := rfl
@[simp] theorem startWork_cold (seq : Nat) : (startWork seq s).cold = s.cold := rfl
@[simp] theorem startWork_dap (seq : Nat) : (startWork seq s).dap = s.dap := rfl
@[simp] theorem startWork_sec (seq : Nat) : (startWork seq s).sec = s.sec := rfl
@[simp] theorem startWork_power (seq : Nat) : (startWork seq s).power = s.power := rfl
@[simp] theorem startWork_box (seq : Nat) : (startWork seq s).box = s.box := rfl

@[simp] theorem updColl_pending (id : Nat) (f : Coll → Coll) : (updColl id f s).pending = s.pending := rfl
@[simp] theorem updColl_free (id : Nat) (f : Coll → Coll) : (updColl id f s).free = s.free := rfl
@[simp] theorem updColl_now (id : Nat) (f : Coll → Coll) : (updColl id f s).now = s.now := rfl
@[simp] theorem updColl_counters (id : Nat) (f : Coll → Coll) : (updColl id f s).counters = s.counters := rfl
@[simp] theorem updColl_settings (id : Nat) (f : Coll → Coll) : (updColl id f s).settings = s.settings := rfl
@[simp] theorem updColl_ahp (id : Nat) (f : Coll → Coll) : (updColl id f s).ahp = s.ahp := rfl
@[simp] theorem updColl_mem (id : Nat) (f : Coll → Coll) : (updColl id f s).mem = s.mem := rfl
@[simp] theorem updColl_net (id : Nat) (f : Coll → Coll) : (updColl id f s).net = s.net := rfl
@[simp] theorem updColl_hbm (id : Nat) (f : Coll → Coll) : (updColl id f s).hbm = s.hbm := rfl
@[simp] theorem updColl_cold (id : Nat) (f : Coll → Coll) : (updColl id f s).cold = s.cold := rfl
@[simp] theorem updColl_dap (id : Nat) (f : Coll → Coll) : (updColl id f s).dap = s.dap := rfl
@[simp] theorem updColl_sec (id : Nat) (f : Coll → Coll) : (updColl id f s).sec = s.sec := rfl
@[simp] theorem updColl_power (id : Nat) (f : Coll → Coll) : (updColl id f s).power = s.power := rfl
@[simp] theorem updColl_box (id : Nat) (f : Coll → Coll) : (updColl id f s).box = s.box := rfl

@[simp] theorem updHead_pending (id : Nat) (f : Head → Head) : (updHead id f s).pending = s.pending := rfl
@[simp] theorem updHead_free (id : Nat) (f : Head → Head) : (updHead id f s).free = s.free := rfl
@[simp] theorem updHead_now (id : Nat) (f : Head → Head) : (updHead id f s).now = s.now := rfl
@[simp] theorem updHead_counters (id : Nat) (f : Head → Head) : (updHead id f s).counters = s.counters := rfl
@[simp] theorem updHead_settings (id : Nat) (f : Head → Head) : (updHead id f s).settings = s.settings := rfl
@[simp] theorem updHead_ahp (id : Nat) (f : Head → Head) : (updHead id f s).ahp = s.ahp := rfl
@[simp] theorem updHead_search (id : Nat) (f : Head → Head) : (updHead id f s).search = s.search := rfl
@[simp] theorem updHead_net (id : Nat) (f : Head → Head) : (updHead id f s).net = s.net := rfl
@[simp] theorem updHead_hbm (id : Nat) (f : Head → Head) : (updHead id f s).hbm = s.hbm := rfl
@[simp] theorem updHead_cold (id : Nat) (f : Head → Head) : (updHead id f s).cold = s.cold := rfl
@[simp] theorem updHead_dap (id : Nat) (f : Head → Head) : (updHead id f s).dap = s.dap := rfl
@[simp] theorem updHead_sec (id : Nat) (f : Head → Head) : (updHead id f s).sec = s.sec := rfl
@[simp] theorem updHead_power (id : Nat) (f : Head → Head) : (updHead id f s).power = s.power := rfl
@[simp] theorem updHead_box (id : Nat) (f : Head → Head) : (updHead id f s).box = s.box := rfl

@[simp] theorem updQuery_pending (key : Nat) (f : Query → Query) : (updQuery key f s).pending = s.pending := rfl
@[simp] theorem updQuery_free (key : Nat) (f : Query → Query) : (updQuery key f s).free = s.free := rfl
@[simp] theorem updQuery_now (key : Nat) (f : Query → Query) : (updQuery key f s).now = s.now := rfl
@[simp] theorem updQuery_counters (key : Nat) (f : Query → Query) : (updQuery key f s).counters = s.counters := rfl
@[simp] theorem updQuery_settings (key : Nat) (f : Query → Query) : (updQuery key f s).settings = s.settings := rfl
@[simp] theorem updQuery_ahp (key : Nat) (f : Query → Query) : (updQuery key f s).ahp = s.ahp := rfl
@[simp] theorem updQuery_mem (key : Nat) (f : Query → Query) : (updQuery key f s).mem = s.mem := rfl
@[simp] theorem updQuery_net (key : Nat) (f : Query → Query) : (updQuery key f s).net = s.net := rfl
@[simp] theorem updQuery_hbm (key : Nat) (f : Query → Query) : (updQuery key f s).hbm = s.hbm := rfl
@[simp] theorem updQuery_cold (key : Nat) (f : Query → Query) : (updQuery key f s).cold = s.cold := rfl
@[simp] theorem updQuery_dap (key : Nat) (f : Query → Query) : (updQuery key f s).dap = s.dap := rfl
@[simp] theorem updQuery_sec (key : Nat) (f : Query → Query) : (updQuery key f s).sec = s.sec := rfl
@[simp] theorem updQuery_power (key : Nat) (f : Query → Query) : (updQuery key f s).power = s.power := rfl
@[simp] theorem updQuery_box (key : Nat) (f : Query → Query) : (updQuery key f s).box = s.box := rfl

@[simp] theorem updConn_pending (qpn : Nat) (f : Conn → Conn) : (updConn qpn f s).pending = s.pending := rfl
@[simp] theorem updConn_free (qpn : Nat) (f : Conn → Conn) : (updConn qpn f s).free = s.free := rfl
@[simp] theorem updConn_now (qpn : Nat) (f : Conn → Conn) : (updConn qpn f s).now = s.now := rfl
@[simp] theorem updConn_counters (qpn : Nat) (f : Conn → Conn) : (updConn qpn f s).counters = s.counters := rfl
@[simp] theorem updConn_settings (qpn : Nat) (f : Conn → Conn) : (updConn qpn f s).settings = s.settings := rfl
@[simp] theorem updConn_ahp (qpn : Nat) (f : Conn → Conn) : (updConn qpn f s).ahp = s.ahp := rfl
@[simp] theorem updConn_search (qpn : Nat) (f : Conn → Conn) : (updConn qpn f s).search = s.search := rfl
@[simp] theorem updConn_mem (qpn : Nat) (f : Conn → Conn) : (updConn qpn f s).mem = s.mem := rfl
@[simp] theorem updConn_hbm (qpn : Nat) (f : Conn → Conn) : (updConn qpn f s).hbm = s.hbm := rfl
@[simp] theorem updConn_cold (qpn : Nat) (f : Conn → Conn) : (updConn qpn f s).cold = s.cold := rfl
@[simp] theorem updConn_dap (qpn : Nat) (f : Conn → Conn) : (updConn qpn f s).dap = s.dap := rfl
@[simp] theorem updConn_sec (qpn : Nat) (f : Conn → Conn) : (updConn qpn f s).sec = s.sec := rfl
@[simp] theorem updConn_power (qpn : Nat) (f : Conn → Conn) : (updConn qpn f s).power = s.power := rfl
@[simp] theorem updConn_box (qpn : Nat) (f : Conn → Conn) : (updConn qpn f s).box = s.box := rfl

@[simp] theorem chainStart_pending (kind id : Nat) (d : Bytes) : (chainStart kind id d s).pending = s.pending := rfl
@[simp] theorem chainStart_free (kind id : Nat) (d : Bytes) : (chainStart kind id d s).free = s.free := rfl
@[simp] theorem chainStart_now (kind id : Nat) (d : Bytes) : (chainStart kind id d s).now = s.now := rfl
@[simp] theorem chainStart_counters (kind id : Nat) (d : Bytes) : (chainStart kind id d s).counters = s.counters := rfl
@[simp] theorem chainStart_settings (kind id : Nat) (d : Bytes) : (chainStart kind id d s).settings = s.settings := rfl
@[simp] theorem chainStart_ahp (kind id : Nat) (d : Bytes) : (chainStart kind id d s).ahp = s.ahp := rfl
@[simp] theorem chainStart_search (kind id : Nat) (d : Bytes) : (chainStart kind id d s).search = s.search := rfl
@[simp] theorem chainStart_mem (kind id : Nat) (d : Bytes) : (chainStart kind id d s).mem = s.mem := rfl
@[simp] theorem chainStart_net (kind id : Nat) (d : Bytes) : (chainStart kind id d s).net = s.net := rfl
@[simp] theorem chainStart_hbm (kind id : Nat) (d : Bytes) : (chainStart kind id d s).hbm = s.hbm := rfl
@[simp] theorem chainStart_cold (kind id : Nat) (d : Bytes) : (chainStart kind id d s).cold = s.cold := rfl
@[simp] theorem chainStart_dap (kind id : Nat) (d : Bytes) : (chainStart kind id d s).dap = s.dap := rfl
@[simp] theorem chainStart_power (kind id : Nat) (d : Bytes) : (chainStart kind id d s).power = s.power := rfl
@[simp] theorem chainStart_box (kind id : Nat) (d : Bytes) : (chainStart kind id d s).box = s.box := rfl

@[simp] theorem chainExtend_pending (kind id : Nat) (unit : Bytes) : (chainExtend kind id unit s).pending = s.pending := rfl
@[simp] theorem chainExtend_free (kind id : Nat) (unit : Bytes) : (chainExtend kind id unit s).free = s.free := rfl
@[simp] theorem chainExtend_now (kind id : Nat) (unit : Bytes) : (chainExtend kind id unit s).now = s.now := rfl
@[simp] theorem chainExtend_counters (kind id : Nat) (unit : Bytes) : (chainExtend kind id unit s).counters = s.counters := rfl
@[simp] theorem chainExtend_settings (kind id : Nat) (unit : Bytes) : (chainExtend kind id unit s).settings = s.settings := rfl
@[simp] theorem chainExtend_ahp (kind id : Nat) (unit : Bytes) : (chainExtend kind id unit s).ahp = s.ahp := rfl
@[simp] theorem chainExtend_search (kind id : Nat) (unit : Bytes) : (chainExtend kind id unit s).search = s.search := rfl
@[simp] theorem chainExtend_mem (kind id : Nat) (unit : Bytes) : (chainExtend kind id unit s).mem = s.mem := rfl
@[simp] theorem chainExtend_net (kind id : Nat) (unit : Bytes) : (chainExtend kind id unit s).net = s.net := rfl
@[simp] theorem chainExtend_hbm (kind id : Nat) (unit : Bytes) : (chainExtend kind id unit s).hbm = s.hbm := rfl
@[simp] theorem chainExtend_cold (kind id : Nat) (unit : Bytes) : (chainExtend kind id unit s).cold = s.cold := rfl
@[simp] theorem chainExtend_dap (kind id : Nat) (unit : Bytes) : (chainExtend kind id unit s).dap = s.dap := rfl
@[simp] theorem chainExtend_power (kind id : Nat) (unit : Bytes) : (chainExtend kind id unit s).power = s.power := rfl
@[simp] theorem chainExtend_box (kind id : Nat) (unit : Bytes) : (chainExtend kind id unit s).box = s.box := rfl

@[simp] theorem tick_now (t : Nat) : (tick t s).now = max s.now t := rfl
@[simp] theorem useFree_free : (useFree s).free = s.free + 1 := rfl
@[simp] theorem setCounter_counters (k v : Nat) : (setCounter k v s).counters = tableSet (fun _ => 0) s.counters k v := rfl
@[simp] theorem setSetting_settings (k : Nat) (v : Bytes) : (setSetting k v s).settings = tableSet settingDefault s.settings k v := rfl

end Sys2Proof.Laws
end

