-- ==== Sys2Proof/Laws/Tables.lean ====
section
/-! SUPPORT. The sparse tables: reads after writes, and every write keeps the canonical form. -/

set_option Elab.async false

namespace Sys2Proof.Laws

open Machine

variable {α : Type} [BEq α] [LawfulBEq α] {dflt : Nat → α}

/-- The canonical form as a statement about the pairs of the table. -/
theorem table_wf_iff (l : List (Nat × α)) :
    Table.wf dflt l = true ↔ l.Pairwise (fun a b => a.1 < b.1) ∧ ∀ p ∈ l, p.2 ≠ dflt p.1 := by
  induction l with
  | nil => simp [Table.wf]
  | cons x r ih =>
    obtain ⟨k, v⟩ := x
    cases r with
    | nil => simp [Table.wf]
    | cons y r' =>
      obtain ⟨k', v'⟩ := y
      simp only [Table.wf, Bool.and_eq_true, decide_eq_true_eq, bne_iff_ne, ih, List.pairwise_cons, List.mem_cons]
      constructor
      · rintro ⟨⟨h1, h2⟩, ⟨h3, h4⟩, h5⟩
        refine ⟨⟨?_, h3, h4⟩, ?_⟩
        · rintro p (rfl | hp)
          · exact h1
          · exact h1.trans (h3 p hp)
        · rintro p (rfl | hp)
          · exact h2
          · exact h5 p hp
      · rintro ⟨⟨h1, h3, h4⟩, h5⟩
        exact ⟨⟨h1 _ (Or.inl rfl), h5 _ (Or.inl rfl)⟩, ⟨h3, h4⟩, fun p hp => h5 p (Or.inr hp)⟩

/-- Any selection of the entries keeps the canonical form. -/
theorem table_wf_filter {l : List (Nat × α)} (f : Nat × α → Bool) (h : Table.wf dflt l = true) :
    Table.wf dflt (l.filter f) = true := by
  rw [table_wf_iff] at h ⊢
  exact ⟨h.1.filter f, fun p hp => h.2 p (List.mem_of_mem_filter hp)⟩

theorem table_wf_erase {l : List (Nat × α)} (k : Nat) (h : Table.wf dflt l = true) : Table.wf dflt (tableErase l k) = true :=
  table_wf_filter _ h

omit [BEq α] [LawfulBEq α] in
/-- What tablePut can list. -/
theorem mem_tablePut {l : List (Nat × α)} {k : Nat} {v : α} {p : Nat × α} (h : p ∈ tablePut l k v) : p = (k, v) ∨ p ∈ l := by
  induction l with
  | nil => simpa [tablePut] using h
  | cons x r ih =>
    obtain ⟨k', v'⟩ := x
    simp only [tablePut] at h
    split at h
    · rcases List.mem_cons.1 h with h | h
      · exact .inl h
      · exact .inr h
    · split at h
      · rcases List.mem_cons.1 h with h | h
        · exact .inl h
        · exact .inr (List.mem_cons_of_mem _ h)
      · rcases List.mem_cons.1 h with h | h
        · exact .inr (h ▸ List.mem_cons_self)
        · exact (ih h).imp_right (List.mem_cons_of_mem _)

theorem table_wf_put {l : List (Nat × α)} {k : Nat} {v : α} (hv : v ≠ dflt k) (h : Table.wf dflt l = true) :
    Table.wf dflt (tablePut l k v) = true := by
  induction l with
  | nil => simp [tablePut, Table.wf, hv]
  | cons x r ih =>
    obtain ⟨k', v'⟩ := x
    have hr : Table.wf dflt r = true := by
      rw [table_wf_iff] at h ⊢
      exact ⟨(List.pairwise_cons.1 h.1).2, fun p hp => h.2 p (List.mem_cons_of_mem _ hp)⟩
    rw [table_wf_iff] at h
    obtain ⟨hp, hd⟩ := h
    rw [List.pairwise_cons] at hp
    simp only [tablePut]
    split
    · rw [table_wf_iff]
      refine ⟨List.pairwise_cons.2 ⟨?_, List.pairwise_cons.2 hp⟩, ?_⟩
      · rintro p hm
        rcases List.mem_cons.1 hm with rfl | hm
        · assumption
        · exact lt_trans ‹_› (hp.1 p hm)
      · rintro p hm
        rcases List.mem_cons.1 hm with rfl | hm
        · exact hv
        · exact hd p hm
    · split
      · subst k'
        rw [table_wf_iff]
        refine ⟨List.pairwise_cons.2 hp, ?_⟩
        rintro p hm
        rcases List.mem_cons.1 hm with rfl | hm
        · exact hv
        · exact hd p (List.mem_cons_of_mem _ hm)
      · have := ih hr
        rw [table_wf_iff] at this ⊢
        refine ⟨List.pairwise_cons.2 ⟨?_, this.1⟩, ?_⟩
        · intro p hm
          rcases mem_tablePut hm with rfl | hm
          · simp only; omega
          · exact hp.1 p hm
        · rintro p hm
          rcases List.mem_cons.1 hm with rfl | hm
          · exact hd _ List.mem_cons_self
          · exact this.2 p hm

/-- A write keeps the canonical form. -/
theorem table_wf_set {l : List (Nat × α)} (k : Nat) (v : α) (h : Table.wf dflt l = true) :
    Table.wf dflt (tableSet dflt l k v) = true := by
  unfold tableSet
  split
  · exact table_wf_erase k h
  · rename_i hv
    exact table_wf_put (by simpa using hv) h

omit [LawfulBEq α] in
/-- What tableSet can list. -/
theorem mem_tableSet {l : List (Nat × α)} {k : Nat} {v : α} {p : Nat × α} (h : p ∈ tableSet dflt l k v) : p = (k, v) ∨ p ∈ l := by
  unfold tableSet at h
  split at h
  · exact .inr (List.mem_of_mem_filter h)
  · exact mem_tablePut h

omit [BEq α] [LawfulBEq α] in
theorem tableGet_tablePut (l : List (Nat × α)) (k j : Nat) (v : α) (h : l.Pairwise (fun a b => a.1 < b.1)) :
    tableGet (tablePut l k v) j = if k = j then some v else tableGet l j := by
  induction l with
  | nil => rfl
  | cons x r ih =>
    obtain ⟨k', v'⟩ := x
    have hr := ih (List.pairwise_cons.1 h).2
    simp only [tablePut]
    split
    · rfl
    · split
      · subst k'
        simp only [tableGet]
        split <;> rfl
      · simp only [tableGet, hr]
        split
        · subst k'
          rw [if_neg (by omega)]
        · rfl

omit [BEq α] [LawfulBEq α] in
theorem tableGet_tableErase (l : List (Nat × α)) (k j : Nat) :
    tableGet (tableErase l k) j = if k = j then none else tableGet l j := by
  induction l with
  | nil => simp [tableErase, tableGet]
  | cons x r ih =>
    obtain ⟨k', v'⟩ := x
    simp only [tableErase] at ih ⊢
    by_cases hk : k' = k
    · subst k'
      rw [List.filter_cons_of_neg (by simp), ih]
      split
      · rfl
      · rename_i h
        simp [tableGet, h]
    · rw [List.filter_cons_of_pos (by simpa using hk)]
      simp only [tableGet, ih]
      split
      · subst k'
        rw [if_neg (fun h => hk h.symm)]
      · rfl

/-- A read after a write: the key written reads as the value, and every other key as before. -/
theorem tableGet_tableSet {l : List (Nat × α)} {k : Nat} {v : α} (j : Nat) (h : Table.wf dflt l = true) :
    (tableGet (tableSet dflt l k v) j).getD (dflt j) = if k = j then v else (tableGet l j).getD (dflt j) := by
  rw [table_wf_iff] at h
  unfold tableSet
  split
  · rename_i hv
    rw [tableGet_tableErase]
    split
    · subst j
      exact (by simpa using hv : v = dflt k).symm
    · rfl
  · rw [tableGet_tablePut _ _ _ _ h.1]
    split <;> rfl

end Sys2Proof.Laws
end

