-- ==== Sys2Proof/Laws/Ops.lean ====
section
/-! SUPPORT. What each shared operation does: what it writes, and every part of the state that it leaves alone. -/

set_option Elab.async false

namespace Sys2Proof.Laws

open Machine

variable {s : State}

/-! ## Lists -/

/-- A search for what an update leaves recognisable finds the updated element. -/
theorem find_mapIf {α : Type} {p : α → Bool} {f : α → α} (hf : ∀ x, p x = true → p (f x) = true) (l : List α) :
    (mapIf p f l).find? p = (l.find? p).map f := by
  induction l with
  | nil => rfl
  | cons x r ih =>
    simp only [mapIf, List.map_cons] at ih ⊢
    by_cases h : p x = true
    · simp [h, hf x h]
    · simp only [h, Bool.false_eq_true, if_false]
      rw [List.find?_cons_of_neg h, List.find?_cons_of_neg h]
      exact ih

/-- An update by key leaves the records of other keys. -/
theorem find_mapIf_ne {α : Type} {p r : α → Bool} {f : α → α} (h : ∀ x, p x = true → r x = false ∧ r (f x) = false) (l : List α) :
    (mapIf p f l).find? r = l.find? r := by
  induction l with
  | nil => rfl
  | cons x t ih =>
    simp only [mapIf, List.map_cons] at ih ⊢
    by_cases hp : p x = true
    · obtain ⟨h1, h2⟩ := h x hp
      rw [if_pos hp, List.find?_cons_of_neg (by simp [h2]), List.find?_cons_of_neg (by simp [h1])]
      exact ih
    · rw [if_neg hp]
      cases hr : r x with
      | true => rw [List.find?_cons_of_pos hr, List.find?_cons_of_pos hr]
      | false => rw [List.find?_cons_of_neg (by simp [hr]), List.find?_cons_of_neg (by simp [hr])]; exact ih

theorem length_mapIf {α : Type} (p : α → Bool) (f : α → α) (l : List α) : (mapIf p f l).length = l.length := by
  simp [mapIf]

/-! ## The records that an update finds -/

theorem findConn_updConn {q : Nat} {f : Conn → Conn} (hf : ∀ c, (f c).qpn = c.qpn) :
    findConn (updConn q f s) q = (findConn s q).map f :=
  find_mapIf (fun x h => by simpa [hf x] using h) _

theorem findCmd_updCmd {q : Nat} {f : Cmd → Cmd} (hf : ∀ c, (f c).seq = c.seq) :
    findCmd (updCmd q f s) q = (findCmd s q).map f :=
  find_mapIf (fun x h => by simpa [hf x] using h) _

theorem findQueue_updQueue {q : Nat} {f : Queue → Queue} (hf : ∀ c, (f c).qid = c.qid) :
    findQueue (updQueue q f s) q = (findQueue s q).map f :=
  find_mapIf (fun x h => by simpa [hf x] using h) _

theorem findColl_updColl {q : Nat} {f : Coll → Coll} (hf : ∀ c, (f c).id = c.id) :
    findColl (updColl q f s) q = (findColl s q).map f :=
  find_mapIf (fun x h => by simpa [hf x] using h) _

theorem findHead_updHead {q : Nat} {f : Head → Head} (hf : ∀ c, (f c).id = c.id) :
    findHead (updHead q f s) q = (findHead s q).map f :=
  find_mapIf (fun x h => by simpa [hf x] using h) _

theorem findQuery_updQuery {q : Nat} {f : Query → Query} (hf : ∀ c, (f c).key = c.key) :
    findQuery (updQuery q f s) q = (findQuery s q).map f :=
  find_mapIf (fun x h => by simpa [hf x] using h) _

theorem findConn_upd {q : Nat} {c : Conn} {f : Conn → Conn} (hf : ∀ c, (f c).qpn = c.qpn) (h : findConn s q = some c) :
    findConn (updConn q f s) q = some (f c) := by
  rw [findConn_updConn hf, h]
  rfl

theorem findConn_qpn {q : Nat} {c : Conn} (h : findConn s q = some c) : c.qpn = q := by
  simpa using List.find?_some h

theorem findCmd_upd {q : Nat} {c : Cmd} {f : Cmd → Cmd} (hf : ∀ c, (f c).seq = c.seq) (h : findCmd s q = some c) :
    findCmd (updCmd q f s) q = some (f c) := by
  rw [findCmd_updCmd hf, h]
  rfl

theorem findCmd_seq {q : Nat} {c : Cmd} (h : findCmd s q = some c) : c.seq = q := by
  simpa using List.find?_some h

theorem findQueue_upd {q : Nat} {c : Queue} {f : Queue → Queue} (hf : ∀ c, (f c).qid = c.qid) (h : findQueue s q = some c) :
    findQueue (updQueue q f s) q = some (f c) := by
  rw [findQueue_updQueue hf, h]
  rfl

theorem findQueue_qid {q : Nat} {c : Queue} (h : findQueue s q = some c) : c.qid = q := by
  simpa using List.find?_some h

theorem findColl_upd {q : Nat} {c : Coll} {f : Coll → Coll} (hf : ∀ c, (f c).id = c.id) (h : findColl s q = some c) :
    findColl (updColl q f s) q = some (f c) := by
  rw [findColl_updColl hf, h]
  rfl

theorem findColl_id {q : Nat} {c : Coll} (h : findColl s q = some c) : c.id = q := by
  simpa using List.find?_some h

theorem findHead_upd {q : Nat} {c : Head} {f : Head → Head} (hf : ∀ c, (f c).id = c.id) (h : findHead s q = some c) :
    findHead (updHead q f s) q = some (f c) := by
  rw [findHead_updHead hf, h]
  rfl

theorem findHead_id {q : Nat} {c : Head} (h : findHead s q = some c) : c.id = q := by
  simpa using List.find?_some h

theorem findQuery_upd {q : Nat} {c : Query} {f : Query → Query} (hf : ∀ c, (f c).key = c.key) (h : findQuery s q = some c) :
    findQuery (updQuery q f s) q = some (f c) := by
  rw [findQuery_updQuery hf, h]
  rfl

theorem findQuery_key {q : Nat} {c : Query} (h : findQuery s q = some c) : c.key = q := by
  simpa using List.find?_some h

/-! ## Counters -/

/-- A counter that is raised stands one higher, while it lies below the top of its range. -/
theorem counter_addCounter {k n : Nat} (hw : Table.wf (fun _ => 0) s.counters = true) (h : counter s k + n < 2 ^ 64) :
    counter (addCounter k n s) k = counter s k + n := by
  unfold addCounter
  rw [if_pos (by simpa using h)]
  have := tableGet_tableSet (k := k) (v := counter s k + n) k hw
  simpa [counter, setCounter] using this

/-- Every other counter stands as before. -/
theorem counter_addCounter_ne {k j n : Nat} (hw : Table.wf (fun _ => 0) s.counters = true) (h : k ≠ j) :
    counter (addCounter k n s) j = counter s j := by
  unfold addCounter
  split <;>
  · have := fun v => tableGet_tableSet (k := k) (v := v) j hw
    simpa [counter, setCounter, useFree, h] using this _

theorem counters_foldl_raise (n c : Nat) : ((List.range n).foldl (fun u _ => raiseClass c u) s).counters = s.counters := by
  induction n generalizing s with
  | zero => rfl
  | succ n ih => rw [List.range_succ, List.foldl_append]; simpa using ih

theorem counters_bumpBy (k n : Nat) : (bumpBy k n s).counters = (addCounter k n s).counters := by
  unfold bumpBy
  split
  · rfl
  · exact counters_foldl_raise _ _

theorem counter_bump {k : Nat} (hw : Table.wf (fun _ => 0) s.counters = true) (h : counter s k + 1 < 2 ^ 64) :
    counter (bump k s) k = counter s k + 1 := by
  have := counter_addCounter hw h
  simpa [counter, bump, counters_bumpBy] using this

theorem counter_bump_ne {k j : Nat} (hw : Table.wf (fun _ => 0) s.counters = true) (h : k ≠ j) :
    counter (bump k s) j = counter s j := by
  have := counter_addCounter_ne (n := 1) hw h
  simpa [counter, bump, counters_bumpBy] using this

theorem wf_addCounter {k n : Nat} (h : Table.wf (fun _ => 0) s.counters = true) : Table.wf (fun _ => 0) (addCounter k n s).counters = true := by
  unfold addCounter
  split <;> exact table_wf_set _ _ h

theorem wf_bump {k : Nat} (h : Table.wf (fun _ => 0) s.counters = true) : Table.wf (fun _ => 0) (bump k s).counters = true := by
  unfold bump
  rw [counters_bumpBy]
  exact wf_addCounter h

/-- An event changes no counter but that of the events dropped. -/
theorem counter_logEvent {k code severity unit : Nat} {detail : Bytes} (hw : Table.wf (fun _ => 0) s.counters = true)
    (h : Key.blackboxDropped ≠ k) : counter (logEvent code severity unit detail s) k = counter s k := by
  unfold logEvent
  split
  · rfl
  · exact counter_bump_ne hw h

/-- A counter raised from a state with the counters of `s` stands one above its value in `s`. -/
theorem counter_bump_from {k : Nat} {u : State} (he : u.counters = s.counters) (hw : Table.wf (fun _ => 0) s.counters = true)
    (h : counter s k + 1 < 2 ^ 64) : counter (bump k u) k = counter s k + 1 := by
  have e : counter u k = counter s k := by unfold counter; rw [he]
  rw [counter_bump (by rw [he]; exact hw) (by rw [e]; exact h), e]

theorem counter_congr {u : State} (he : u.counters = s.counters) (k : Nat) : counter u k = counter s k := by
  unfold counter; rw [he]

end Sys2Proof.Laws
end

