-- ==== Sys2Proof/Laws/Frames.lean ====
section
/-! SUPPORT. What the shared operations with branches leave alone: counters, output, black-box events and completions. -/

namespace Sys2Proof.Laws

set_option Elab.async false

open Machine

variable (s : State)

/-- What no step of a fold changes, the fold does not change. -/
theorem foldl_same {α β : Type} (g : State → β) {f : State → α → State} (h : ∀ u x, g (f u x) = g u) (l : List α) (s : State) :
    g (l.foldl f s) = g s := by
  induction l generalizing s with
  | nil => rfl
  | cons x r ih => exact (ih (f s x)).trans (h s x)

/-! ## Counters -/

@[simp] theorem addCounter_pending (k n : Nat) : (addCounter k n s).pending = s.pending := by unfold addCounter; split <;> rfl
@[simp] theorem addCounter_now (k n : Nat) : (addCounter k n s).now = s.now := by unfold addCounter; split <;> rfl
@[simp] theorem addCounter_settings (k n : Nat) : (addCounter k n s).settings = s.settings := by unfold addCounter; split <;> rfl
@[simp] theorem addCounter_ahp (k n : Nat) : (addCounter k n s).ahp = s.ahp := by unfold addCounter; split <;> rfl
@[simp] theorem addCounter_search (k n : Nat) : (addCounter k n s).search = s.search := by unfold addCounter; split <;> rfl
@[simp] theorem addCounter_mem (k n : Nat) : (addCounter k n s).mem = s.mem := by unfold addCounter; split <;> rfl
@[simp] theorem addCounter_net (k n : Nat) : (addCounter k n s).net = s.net := by unfold addCounter; split <;> rfl
@[simp] theorem addCounter_hbm (k n : Nat) : (addCounter k n s).hbm = s.hbm := by unfold addCounter; split <;> rfl
@[simp] theorem addCounter_cold (k n : Nat) : (addCounter k n s).cold = s.cold := by unfold addCounter; split <;> rfl
@[simp] theorem addCounter_dap (k n : Nat) : (addCounter k n s).dap = s.dap := by unfold addCounter; split <;> rfl
@[simp] theorem addCounter_sec (k n : Nat) : (addCounter k n s).sec = s.sec := by unfold addCounter; split <;> rfl
@[simp] theorem addCounter_power (k n : Nat) : (addCounter k n s).power = s.power := by unfold addCounter; split <;> rfl

@[simp] theorem bumpBy_pending (k n : Nat) : (bumpBy k n s).pending = s.pending := by
  unfold bumpBy
  split
  · exact addCounter_pending s k n
  · exact (foldl_same (f := fun u _ => raiseClass _ u) (·.pending) (fun _ _ => rfl) _ _).trans (addCounter_pending s k n)
@[simp] theorem bumpBy_now (k n : Nat) : (bumpBy k n s).now = s.now := by
  unfold bumpBy
  split
  · exact addCounter_now s k n
  · exact (foldl_same (f := fun u _ => raiseClass _ u) (·.now) (fun _ _ => rfl) _ _).trans (addCounter_now s k n)
@[simp] theorem bumpBy_settings (k n : Nat) : (bumpBy k n s).settings = s.settings := by
  unfold bumpBy
  split
  · exact addCounter_settings s k n
  · exact (foldl_same (f := fun u _ => raiseClass _ u) (·.settings) (fun _ _ => rfl) _ _).trans (addCounter_settings s k n)
@[simp] theorem bumpBy_ahp (k n : Nat) : (bumpBy k n s).ahp = s.ahp := by
  unfold bumpBy
  split
  · exact addCounter_ahp s k n
  · exact (foldl_same (f := fun u _ => raiseClass _ u) (·.ahp) (fun _ _ => rfl) _ _).trans (addCounter_ahp s k n)
@[simp] theorem bumpBy_search (k n : Nat) : (bumpBy k n s).search = s.search := by
  unfold bumpBy
  split
  · exact addCounter_search s k n
  · exact (foldl_same (f := fun u _ => raiseClass _ u) (·.search) (fun _ _ => rfl) _ _).trans (addCounter_search s k n)
@[simp] theorem bumpBy_mem (k n : Nat) : (bumpBy k n s).mem = s.mem := by
  unfold bumpBy
  split
  · exact addCounter_mem s k n
  · exact (foldl_same (f := fun u _ => raiseClass _ u) (·.mem) (fun _ _ => rfl) _ _).trans (addCounter_mem s k n)
@[simp] theorem bumpBy_net (k n : Nat) : (bumpBy k n s).net = s.net := by
  unfold bumpBy
  split
  · exact addCounter_net s k n
  · exact (foldl_same (f := fun u _ => raiseClass _ u) (·.net) (fun _ _ => rfl) _ _).trans (addCounter_net s k n)
@[simp] theorem bumpBy_hbm (k n : Nat) : (bumpBy k n s).hbm = s.hbm := by
  unfold bumpBy
  split
  · exact addCounter_hbm s k n
  · exact (foldl_same (f := fun u _ => raiseClass _ u) (·.hbm) (fun _ _ => rfl) _ _).trans (addCounter_hbm s k n)
@[simp] theorem bumpBy_cold (k n : Nat) : (bumpBy k n s).cold = s.cold := by
  unfold bumpBy
  split
  · exact addCounter_cold s k n
  · exact (foldl_same (f := fun u _ => raiseClass _ u) (·.cold) (fun _ _ => rfl) _ _).trans (addCounter_cold s k n)
@[simp] theorem bumpBy_dap (k n : Nat) : (bumpBy k n s).dap = s.dap := by
  unfold bumpBy
  split
  · exact addCounter_dap s k n
  · exact (foldl_same (f := fun u _ => raiseClass _ u) (·.dap) (fun _ _ => rfl) _ _).trans (addCounter_dap s k n)
@[simp] theorem bumpBy_sec (k n : Nat) : (bumpBy k n s).sec = s.sec := by
  unfold bumpBy
  split
  · exact addCounter_sec s k n
  · exact (foldl_same (f := fun u _ => raiseClass _ u) (·.sec) (fun _ _ => rfl) _ _).trans (addCounter_sec s k n)
@[simp] theorem bumpBy_power (k n : Nat) : (bumpBy k n s).power = s.power := by
  unfold bumpBy
  split
  · exact addCounter_power s k n
  · exact (foldl_same (f := fun u _ => raiseClass _ u) (·.power) (fun _ _ => rfl) _ _).trans (addCounter_power s k n)

@[simp] theorem bump_pending (k : Nat) : (bump k s).pending = s.pending := bumpBy_pending s k 1
@[simp] theorem bump_now (k : Nat) : (bump k s).now = s.now := bumpBy_now s k 1
@[simp] theorem bump_settings (k : Nat) : (bump k s).settings = s.settings := bumpBy_settings s k 1
@[simp] theorem bump_ahp (k : Nat) : (bump k s).ahp = s.ahp := bumpBy_ahp s k 1
@[simp] theorem bump_search (k : Nat) : (bump k s).search = s.search := bumpBy_search s k 1
@[simp] theorem bump_mem (k : Nat) : (bump k s).mem = s.mem := bumpBy_mem s k 1
@[simp] theorem bump_net (k : Nat) : (bump k s).net = s.net := bumpBy_net s k 1
@[simp] theorem bump_hbm (k : Nat) : (bump k s).hbm = s.hbm := bumpBy_hbm s k 1
@[simp] theorem bump_cold (k : Nat) : (bump k s).cold = s.cold := bumpBy_cold s k 1
@[simp] theorem bump_dap (k : Nat) : (bump k s).dap = s.dap := bumpBy_dap s k 1
@[simp] theorem bump_sec (k : Nat) : (bump k s).sec = s.sec := bumpBy_sec s k 1
@[simp] theorem bump_power (k : Nat) : (bump k s).power = s.power := bumpBy_power s k 1

/-! ## Black-box events -/

@[simp] theorem logEvent_pending (code severity unit : Nat) (detail : Bytes) : (logEvent code severity unit detail s).pending = s.pending := by
  unfold logEvent
  split
  · rfl
  · exact bump_pending s _
@[simp] theorem logEvent_now (code severity unit : Nat) (detail : Bytes) : (logEvent code severity unit detail s).now = s.now := by
  unfold logEvent
  split
  · rfl
  · exact bump_now s _
@[simp] theorem logEvent_settings (code severity unit : Nat) (detail : Bytes) : (logEvent code severity unit detail s).settings = s.settings := by
  unfold logEvent
  split
  · rfl
  · exact bump_settings s _
@[simp] theorem logEvent_ahp (code severity unit : Nat) (detail : Bytes) : (logEvent code severity unit detail s).ahp = s.ahp := by
  unfold logEvent
  split
  · rfl
  · exact bump_ahp s _
@[simp] theorem logEvent_search (code severity unit : Nat) (detail : Bytes) : (logEvent code severity unit detail s).search = s.search := by
  unfold logEvent
  split
  · rfl
  · exact bump_search s _
@[simp] theorem logEvent_mem (code severity unit : Nat) (detail : Bytes) : (logEvent code severity unit detail s).mem = s.mem := by
  unfold logEvent
  split
  · rfl
  · exact bump_mem s _
@[simp] theorem logEvent_net (code severity unit : Nat) (detail : Bytes) : (logEvent code severity unit detail s).net = s.net := by
  unfold logEvent
  split
  · rfl
  · exact bump_net s _
@[simp] theorem logEvent_hbm (code severity unit : Nat) (detail : Bytes) : (logEvent code severity unit detail s).hbm = s.hbm := by
  unfold logEvent
  split
  · rfl
  · exact bump_hbm s _
@[simp] theorem logEvent_cold (code severity unit : Nat) (detail : Bytes) : (logEvent code severity unit detail s).cold = s.cold := by
  unfold logEvent
  split
  · rfl
  · exact bump_cold s _
@[simp] theorem logEvent_dap (code severity unit : Nat) (detail : Bytes) : (logEvent code severity unit detail s).dap = s.dap := by
  unfold logEvent
  split
  · rfl
  · exact bump_dap s _
@[simp] theorem logEvent_sec (code severity unit : Nat) (detail : Bytes) : (logEvent code severity unit detail s).sec = s.sec := by
  unfold logEvent
  split
  · rfl
  · exact bump_sec s _
@[simp] theorem logEvent_power (code severity unit : Nat) (detail : Bytes) : (logEvent code severity unit detail s).power = s.power := by
  unfold logEvent
  split
  · rfl
  · exact bump_power s _

/-- An event goes to the end of the writer's queue, where it has room. -/
theorem logEvent_queue {s : State} (code severity unit : Nat) (detail : Bytes) (h : s.box.queue.length < 256) :
    (logEvent code severity unit detail s).box.queue = s.box.queue ++
      [{ code := code, severity := severity, unit := unit, detail := detail24 detail, time := s.now, boot := s.sec.bootCount }] := by
  unfold logEvent
  rw [if_pos h]

theorem bumpBy_queue (k n : Nat) : (bumpBy k n s).box.queue = s.box.queue := by
  have h : (addCounter k n s).box.queue = s.box.queue := by unfold addCounter; split <;> rfl
  unfold bumpBy
  split
  · exact h
  · exact (foldl_same (f := fun u _ => raiseClass _ u) (·.box.queue) (fun _ _ => rfl) _ _).trans h

@[simp] theorem bump_queue (k : Nat) : (bump k s).box.queue = s.box.queue := bumpBy_queue s k 1

/-! ## Output -/

@[simp] theorem emit_pending (o : Out) : (emit o s).pending = s.pending := by unfold emit; split <;> rfl
@[simp] theorem emit_free (o : Out) : (emit o s).free = s.free := by unfold emit; split <;> rfl
@[simp] theorem emit_now (o : Out) : (emit o s).now = s.now := by unfold emit; split <;> rfl
@[simp] theorem emit_counters (o : Out) : (emit o s).counters = s.counters := by unfold emit; split <;> rfl
@[simp] theorem emit_settings (o : Out) : (emit o s).settings = s.settings := by unfold emit; split <;> rfl
@[simp] theorem emit_ahp (o : Out) : (emit o s).ahp = s.ahp := by unfold emit; split <;> rfl
@[simp] theorem emit_search (o : Out) : (emit o s).search = s.search := by unfold emit; split <;> rfl
@[simp] theorem emit_mem (o : Out) : (emit o s).mem = s.mem := by unfold emit; split <;> rfl
@[simp] theorem emit_hbm (o : Out) : (emit o s).hbm = s.hbm := by unfold emit; split <;> rfl
@[simp] theorem emit_cold (o : Out) : (emit o s).cold = s.cold := by unfold emit; split <;> rfl
@[simp] theorem emit_dap (o : Out) : (emit o s).dap = s.dap := by unfold emit; split <;> rfl
@[simp] theorem emit_sec (o : Out) : (emit o s).sec = s.sec := by unfold emit; split <;> rfl
@[simp] theorem emit_power (o : Out) : (emit o s).power = s.power := by unfold emit; split <;> rfl
@[simp] theorem emit_box (o : Out) : (emit o s).box = s.box := by unfold emit; split <;> rfl

/-- The output goes to the end of what the module has sent. -/
@[simp] theorem emit_out (o : Out) : (emit o s).net.out = s.net.out ++ [o] := by unfold emit; split <;> rfl

@[simp] theorem emitAll_pending (os : List Out) : (emitAll os s).pending = s.pending := foldl_same (·.pending) (fun u x => emit_pending u x) os s
@[simp] theorem emitAll_free (os : List Out) : (emitAll os s).free = s.free := foldl_same (·.free) (fun u x => emit_free u x) os s
@[simp] theorem emitAll_now (os : List Out) : (emitAll os s).now = s.now := foldl_same (·.now) (fun u x => emit_now u x) os s
@[simp] theorem emitAll_counters (os : List Out) : (emitAll os s).counters = s.counters := foldl_same (·.counters) (fun u x => emit_counters u x) os s
@[simp] theorem emitAll_settings (os : List Out) : (emitAll os s).settings = s.settings := foldl_same (·.settings) (fun u x => emit_settings u x) os s
@[simp] theorem emitAll_ahp (os : List Out) : (emitAll os s).ahp = s.ahp := foldl_same (·.ahp) (fun u x => emit_ahp u x) os s
@[simp] theorem emitAll_search (os : List Out) : (emitAll os s).search = s.search := foldl_same (·.search) (fun u x => emit_search u x) os s
@[simp] theorem emitAll_mem (os : List Out) : (emitAll os s).mem = s.mem := foldl_same (·.mem) (fun u x => emit_mem u x) os s
@[simp] theorem emitAll_hbm (os : List Out) : (emitAll os s).hbm = s.hbm := foldl_same (·.hbm) (fun u x => emit_hbm u x) os s
@[simp] theorem emitAll_cold (os : List Out) : (emitAll os s).cold = s.cold := foldl_same (·.cold) (fun u x => emit_cold u x) os s
@[simp] theorem emitAll_dap (os : List Out) : (emitAll os s).dap = s.dap := foldl_same (·.dap) (fun u x => emit_dap u x) os s
@[simp] theorem emitAll_sec (os : List Out) : (emitAll os s).sec = s.sec := foldl_same (·.sec) (fun u x => emit_sec u x) os s
@[simp] theorem emitAll_power (os : List Out) : (emitAll os s).power = s.power := foldl_same (·.power) (fun u x => emit_power u x) os s
@[simp] theorem emitAll_box (os : List Out) : (emitAll os s).box = s.box := foldl_same (·.box) (fun u x => emit_box u x) os s

/-- Output changes a connection only as packets that go out on it do. -/
theorem findConn_emit {s : State} {q : Nat} {c : Conn} (o : Out) (h : findConn s q = some c) :
    findConn (emit o s) q = some c ∨ ∃ n, findConn (emit o s) q = some (sentOn s.now n c) := by
  unfold emit
  cases outLoad o with
  | none => exact .inl h
  | some y =>
    obtain ⟨r, n⟩ := y
    dsimp only
    by_cases hq : r = q
    · subst r
      exact .inr ⟨packetsOf c.mtu n, findConn_upd (f := fun c => sentOn s.now (packetsOf c.mtu n) c) (fun _ => rfl) h⟩
    · refine .inl ?_
      refine (find_mapIf_ne (r := fun x : Conn => x.qpn == q) (fun x hx => ?_) s.net.conns).trans h
      simp only [beq_iff_eq] at hx
      simp [sentOn, hx, hq]

/-! ## Completions -/

@[simp] theorem finish_pending (seq : Nat) (comp : Comp) (output : Bytes) : (finish seq comp output s).pending = s.pending := by
  unfold finish
  split
  · rfl
  · dsimp only
    split <;> split <;> simp
@[simp] theorem finish_free (seq : Nat) (comp : Comp) (output : Bytes) : (finish seq comp output s).free = s.free := by
  unfold finish
  split
  · rfl
  · dsimp only
    split <;> split <;> simp
@[simp] theorem finish_now (seq : Nat) (comp : Comp) (output : Bytes) : (finish seq comp output s).now = s.now := by
  unfold finish
  split
  · rfl
  · dsimp only
    split <;> split <;> simp
@[simp] theorem finish_counters (seq : Nat) (comp : Comp) (output : Bytes) : (finish seq comp output s).counters = s.counters := by
  unfold finish
  split
  · rfl
  · dsimp only
    split <;> split <;> simp
@[simp] theorem finish_settings (seq : Nat) (comp : Comp) (output : Bytes) : (finish seq comp output s).settings = s.settings := by
  unfold finish
  split
  · rfl
  · dsimp only
    split <;> split <;> simp
@[simp] theorem finish_search (seq : Nat) (comp : Comp) (output : Bytes) : (finish seq comp output s).search = s.search := by
  unfold finish
  split
  · rfl
  · dsimp only
    split <;> split <;> simp
@[simp] theorem finish_mem (seq : Nat) (comp : Comp) (output : Bytes) : (finish seq comp output s).mem = s.mem := by
  unfold finish
  split
  · rfl
  · dsimp only
    split <;> split <;> simp
@[simp] theorem finish_dap (seq : Nat) (comp : Comp) (output : Bytes) : (finish seq comp output s).dap = s.dap := by
  unfold finish
  split
  · rfl
  · dsimp only
    split <;> split <;> simp
@[simp] theorem finish_sec (seq : Nat) (comp : Comp) (output : Bytes) : (finish seq comp output s).sec = s.sec := by
  unfold finish
  split
  · rfl
  · dsimp only
    split <;> split <;> simp
@[simp] theorem finish_box (seq : Nat) (comp : Comp) (output : Bytes) : (finish seq comp output s).box = s.box := by
  unfold finish
  split
  · rfl
  · dsimp only
    split <;> split <;> simp

@[simp] theorem succeed_pending (seq info : Nat) (output : Bytes) : (succeed seq info output s).pending = s.pending := finish_pending s _ _ _
@[simp] theorem succeed_free (seq info : Nat) (output : Bytes) : (succeed seq info output s).free = s.free := finish_free s _ _ _
@[simp] theorem succeed_now (seq info : Nat) (output : Bytes) : (succeed seq info output s).now = s.now := finish_now s _ _ _
@[simp] theorem succeed_counters (seq info : Nat) (output : Bytes) : (succeed seq info output s).counters = s.counters := finish_counters s _ _ _
@[simp] theorem succeed_settings (seq info : Nat) (output : Bytes) : (succeed seq info output s).settings = s.settings := finish_settings s _ _ _
@[simp] theorem succeed_search (seq info : Nat) (output : Bytes) : (succeed seq info output s).search = s.search := finish_search s _ _ _
@[simp] theorem succeed_mem (seq info : Nat) (output : Bytes) : (succeed seq info output s).mem = s.mem := finish_mem s _ _ _
@[simp] theorem succeed_dap (seq info : Nat) (output : Bytes) : (succeed seq info output s).dap = s.dap := finish_dap s _ _ _
@[simp] theorem succeed_sec (seq info : Nat) (output : Bytes) : (succeed seq info output s).sec = s.sec := finish_sec s _ _ _
@[simp] theorem succeed_box (seq info : Nat) (output : Bytes) : (succeed seq info output s).box = s.box := finish_box s _ _ _

@[simp] theorem fail_pending (seq status : Nat) : (fail seq status s).pending = s.pending := finish_pending s _ _ _
@[simp] theorem fail_free (seq status : Nat) : (fail seq status s).free = s.free := finish_free s _ _ _
@[simp] theorem fail_now (seq status : Nat) : (fail seq status s).now = s.now := finish_now s _ _ _
@[simp] theorem fail_counters (seq status : Nat) : (fail seq status s).counters = s.counters := finish_counters s _ _ _
@[simp] theorem fail_settings (seq status : Nat) : (fail seq status s).settings = s.settings := finish_settings s _ _ _
@[simp] theorem fail_search (seq status : Nat) : (fail seq status s).search = s.search := finish_search s _ _ _
@[simp] theorem fail_mem (seq status : Nat) : (fail seq status s).mem = s.mem := finish_mem s _ _ _
@[simp] theorem fail_dap (seq status : Nat) : (fail seq status s).dap = s.dap := finish_dap s _ _ _
@[simp] theorem fail_sec (seq status : Nat) : (fail seq status s).sec = s.sec := finish_sec s _ _ _
@[simp] theorem fail_box (seq status : Nat) : (fail seq status s).box = s.box := finish_box s _ _ _

@[simp] theorem failPayload_pending (seq offset : Nat) : (failPayload seq offset s).pending = s.pending := finish_pending s _ _ _
@[simp] theorem failPayload_free (seq offset : Nat) : (failPayload seq offset s).free = s.free := finish_free s _ _ _
@[simp] theorem failPayload_now (seq offset : Nat) : (failPayload seq offset s).now = s.now := finish_now s _ _ _
@[simp] theorem failPayload_counters (seq offset : Nat) : (failPayload seq offset s).counters = s.counters := finish_counters s _ _ _
@[simp] theorem failPayload_settings (seq offset : Nat) : (failPayload seq offset s).settings = s.settings := finish_settings s _ _ _
@[simp] theorem failPayload_search (seq offset : Nat) : (failPayload seq offset s).search = s.search := finish_search s _ _ _
@[simp] theorem failPayload_mem (seq offset : Nat) : (failPayload seq offset s).mem = s.mem := finish_mem s _ _ _
@[simp] theorem failPayload_dap (seq offset : Nat) : (failPayload seq offset s).dap = s.dap := finish_dap s _ _ _
@[simp] theorem failPayload_sec (seq offset : Nat) : (failPayload seq offset s).sec = s.sec := finish_sec s _ _ _
@[simp] theorem failPayload_box (seq offset : Nat) : (failPayload seq offset s).box = s.box := finish_box s _ _ _

@[simp] theorem failEntry_pending (seq offset : Nat) : (failEntry seq offset s).pending = s.pending := finish_pending s _ _ _
@[simp] theorem failEntry_free (seq offset : Nat) : (failEntry seq offset s).free = s.free := finish_free s _ _ _
@[simp] theorem failEntry_now (seq offset : Nat) : (failEntry seq offset s).now = s.now := finish_now s _ _ _
@[simp] theorem failEntry_counters (seq offset : Nat) : (failEntry seq offset s).counters = s.counters := finish_counters s _ _ _
@[simp] theorem failEntry_settings (seq offset : Nat) : (failEntry seq offset s).settings = s.settings := finish_settings s _ _ _
@[simp] theorem failEntry_search (seq offset : Nat) : (failEntry seq offset s).search = s.search := finish_search s _ _ _
@[simp] theorem failEntry_mem (seq offset : Nat) : (failEntry seq offset s).mem = s.mem := finish_mem s _ _ _
@[simp] theorem failEntry_dap (seq offset : Nat) : (failEntry seq offset s).dap = s.dap := finish_dap s _ _ _
@[simp] theorem failEntry_sec (seq offset : Nat) : (failEntry seq offset s).sec = s.sec := finish_sec s _ _ _
@[simp] theorem failEntry_box (seq offset : Nat) : (failEntry seq offset s).box = s.box := finish_box s _ _ _

end Sys2Proof.Laws
end

