-- ==== Sys2Proof/Laws/Attach.lean ====
section
/-! SUPPORT. Connections: what closing one and installing its keys leave. -/

namespace Sys2Proof.Laws

set_option Elab.async false

open Machine

/-- A record that takes the place of the connection with its own number is found there. -/
theorem findConn_const {s : State} {q : Nat} {c d : Conn} (h : findConn s q = some c) (hd : d.qpn = q) :
    findConn (updConn q (fun _ => d) s) q = some d := by
  have := find_mapIf (p := fun x : Conn => x.qpn == q) (f := fun _ => d) (fun x _ => by simpa using hd) s.net.conns
  show (mapIf _ _ s.net.conns).find? _ = _
  rw [this]
  show Option.map _ (findConn s q) = _
  rw [h]; rfl

/-- A connection that closes is gone. -/
theorem findConn_close {s : State} {q : Nat} : findConn (closeConn q s) q = none := by
  unfold closeConn
  cases h : findConn s q with
  | none => exact h
  | some c =>
    simp only [findConn, List.find?_eq_none, List.mem_filter]
    simp

/-- Once its keys are installed a connection negotiates. -/
theorem keysInstalled_conn {s : State} {q : Nat} {c : Conn} (h : findConn s q = some c) :
    (findConn (keysInstalled q s) q).map (fun x => (x.phase, x.keyStep)) = some (.negotiating, c.keyStep) := by
  unfold keysInstalled
  rw [h]
  dsimp only
  have h1 := findConn_upd (f := fun x => { x with phase := ConnPhase.negotiating }) (fun _ => rfl) h
  split
  · have h2 := findConn_upd (f := fun x : Conn => { x with grantMsgs := settingNat s Key.sppCreditMessages, grantBytes := settingNat s Key.sppCreditBytes }) (fun _ => rfl) h1
    obtain h3 | ⟨n, h3⟩ := findConn_emit (.hello q (helloBytes 0x4C484C41 2 0 2 0 (moduleIndex s) (settingNat s Key.sppCreditMessages) (settingNat s Key.sppCreditBytes))) h2
    · rw [h3]; rfl
    · rw [h3]; rfl
  · rw [h1]; rfl

/-- Installing keys keeps what was sent before. -/
theorem keysInstalled_out {s : State} {q : Nat} : ∀ o ∈ s.net.out, o ∈ (keysInstalled q s).net.out := by
  intro o ho
  unfold keysInstalled
  split
  · exact ho
  · dsimp only
    split
    · rw [emit_out]; exact List.mem_append_left _ ho
    · exact ho

end Sys2Proof.Laws
end

