-- ==== Sys2Proof/Laws/Bytes.lean ====
section
/-! SUPPORT. Little-endian fields (00 R6): what is written into a field is what is read from it; and sorted lists. -/

set_option Elab.async false

namespace Sys2Proof.Laws

open Machine

/-- A field of `n` bytes holds a number below 256^n. -/
theorem leNat_lt (b : Bytes) : leNat b < 256 ^ b.length := by
  induction b with
  | nil => simp [leNat]
  | cons x r ih =>
    have h := x.isLt
    simp only [leNat, List.length_cons, Nat.pow_succ]
    omega

@[simp] theorem toLE_length (n v : Nat) : (toLE n v).length = n := by
  induction n generalizing v with
  | zero => rfl
  | succ n ih => simp [toLE, ih]

/-- Reading a field gives the number written, as far as the field holds it. -/
theorem leNat_toLE (n v : Nat) : leNat (toLE n v) = v % 256 ^ n := by
  induction n generalizing v with
  | zero => simp [toLE, leNat, Nat.mod_one]
  | succ n ih =>
    have e : 256 ^ (n + 1) = 256 * 256 ^ n := Nat.pow_succ'
    simp only [toLE, leNat, ih, BitVec.toNat_ofNat, e, Nat.mod_mul]

/-- Writing what was read gives the same bytes. -/
theorem toLE_leNat (b : Bytes) : toLE b.length (leNat b) = b := by
  induction b with
  | nil => rfl
  | cons x r ih =>
    simp only [List.length_cons, toLE, leNat]
    have h := x.isLt
    have h1 : (x.toNat + 256 * leNat r) / 256 = leNat r := by omega
    rw [h1, ih]
    congr 1
    apply BitVec.eq_of_toNat_eq
    simp; omega

theorem insertBy_perm {α : Type} (le : α → α → Bool) (x : α) (l : List α) : (insertBy le x l).Perm (x :: l) := by
  induction l with
  | nil => exact .refl _
  | cons y r ih =>
    simp only [insertBy]
    split
    · exact .refl _
    · exact ((List.perm_cons y).2 ih).trans (List.Perm.swap x y r)

/-- Sorting keeps the elements. -/
theorem sortBy_perm {α : Type} (le : α → α → Bool) (l : List α) : (sortBy le l).Perm l := by
  induction l with
  | nil => exact .refl _
  | cons y r ih => exact (insertBy_perm le y _).trans ((List.perm_cons y).2 ih)

theorem mem_insertBy {α : Type} {le : α → α → Bool} {x y : α} {l : List α} : y ∈ insertBy le x l ↔ y = x ∨ y ∈ l := by
  rw [(insertBy_perm le x l).mem_iff, List.mem_cons]

/-- Sorting puts the elements in order, under a total and transitive order. -/
theorem sortBy_sorted {α : Type} (le : α → α → Bool) (total : ∀ a b, le a b = true ∨ le b a = true)
    (trans : ∀ a b c, le a b = true → le b c = true → le a c = true) (l : List α) : (sortBy le l).Pairwise fun a b => le a b = true := by
  have ins : ∀ (x : α) (l : List α), l.Pairwise (fun a b => le a b = true) → (insertBy le x l).Pairwise fun a b => le a b = true := by
    intro x l
    induction l with
    | nil => intro _; simp [insertBy]
    | cons y r ih =>
      intro h
      have hr := List.pairwise_cons.1 h
      simp only [insertBy]
      split
      · rename_i hxy
        refine List.pairwise_cons.2 ⟨fun a ha => ?_, h⟩
        rcases List.mem_cons.1 ha with rfl | ha
        · exact hxy
        · exact trans _ _ _ hxy (hr.1 a ha)
      · rename_i hxy
        refine List.pairwise_cons.2 ⟨fun a ha => ?_, ih hr.2⟩
        rcases mem_insertBy.1 ha with rfl | ha
        · exact (total _ _).resolve_left hxy
        · exact hr.1 a ha
  induction l with
  | nil => exact .nil
  | cons y r ih => exact ins y _ ih

/-- The identity digest is a field of eight bytes. -/
theorem identityDigest_lt : identityDigest < 256 ^ 8 := by
  refine Nat.lt_of_lt_of_le (leNat_lt _) (Nat.pow_le_pow_right (by decide) ?_)
  simp [slice]

end Sys2Proof.Laws
end

