-- ==== Sys2Proof/Laws/Finish.lean ====
section
/-! SUPPORT. What the end of a command's work leaves (15 R353): its completion, its output, and the other commands as they were. -/

set_option Elab.async false

namespace Sys2Proof.Laws

open Sys2Proof.Machine

variable {s : State}

/-- A command that a meaning works on is the command of its number. -/
theorem admittedCmd_findCmd {seq op : Nat} {c : Cmd} (h : admittedCmd s seq op = some c) : findCmd s seq = some c := by
  unfold admittedCmd at h
  split at h
  · split at h
    · cases h; assumption
    · cases h
  · cases h

theorem admittedCmd_phase {seq op : Nat} {c : Cmd} (h : admittedCmd s seq op = some c) : c.phase = .admitted ∧ c.entry.opcode = op := by
  unfold admittedCmd at h
  split at h
  · split at h
    · cases h; assumption
    · cases h
  · cases h

theorem findCmd_congr {u : State} (h : u.ahp = s.ahp) (seq : Nat) : findCmd u seq = findCmd s seq := by
  unfold findCmd; rw [h]

/-- Changing one command leaves every other. -/
theorem findCmd_updCmd_ne {q k : Nat} {f : Cmd → Cmd} (hf : ∀ c, (f c).seq = c.seq) (h : k ≠ q) :
    findCmd (updCmd q f s) k = findCmd s k := by
  unfold findCmd updCmd
  refine find_mapIf_ne (fun c hc => ?_) _
  have hq : c.seq = q := by simpa using hc
  rw [hf]
  simp [hq, Ne.symm h]

/-- A command that ends waits, done, with its completion. -/
theorem findCmd_finish {seq : Nat} {comp : Comp} {output : Bytes} {c : Cmd} (h : findCmd s seq = some c) (hi : c.internal = false) :
    findCmd (finish seq comp output s) seq = some { c with phase := .done, comp := some comp } := by
  unfold finish
  rw [h]
  dsimp only
  rw [if_neg (by rw [hi]; decide)]
  refine findCmd_upd (f := fun d => { d with phase := .done, comp := some comp }) (fun _ => rfl) ?_
  rw [findCmd_congr (releaseCopies_ahp _ _)]
  split
  · exact h
  · exact (findCmd_congr (emit_ahp _ _) seq).trans h

/-- The end of a command leaves every other command. -/
theorem findCmd_finish_ne {seq k : Nat} {comp : Comp} {output : Bytes} (hk : k ≠ seq) :
    findCmd (finish seq comp output s) k = findCmd s k := by
  have e : ∀ v : State, v.ahp = s.ahp → findCmd (releaseCopies seq v) k = findCmd s k := fun v hv => by
    rw [findCmd_congr (releaseCopies_ahp _ _), findCmd_congr hv]
  unfold finish
  split
  · rfl
  · dsimp only
    split
    · have h2 : ∀ l : List Cmd, (l.filter (·.seq ≠ seq)).find? (·.seq == k) = l.find? (·.seq == k) := by
        intro l
        rw [List.find?_filter]
        congr 1
        funext x
        by_cases hx : x.seq = k
        · simp [hx, hk]
        · simp [hx]
      refine (h2 _).trans ?_
      refine e _ ?_
      split
      · rfl
      · exact emit_ahp _ _
    · refine (findCmd_updCmd_ne (f := fun d => { d with phase := .done, comp := some comp }) (fun _ => rfl) hk).trans ?_
      refine e _ ?_
      split
      · rfl
      · exact emit_ahp _ _

/-- Output goes to the memory that the entry names, before the completion. -/
theorem finish_out {seq : Nat} {comp : Comp} {output : Bytes} {c : Cmd} (h : findCmd s seq = some c) :
    (finish seq comp output s).net.out =
      s.net.out ++ if output.isEmpty then [] else [.write (connOf s c) c.entry.outAddr c.entry.outKey output] := by
  unfold finish
  rw [h]
  dsimp only
  have e : ∀ v : State, (if output.isEmpty then v else emit (.write (connOf s c) c.entry.outAddr c.entry.outKey output) v).net.out =
      v.net.out ++ if output.isEmpty then [] else [.write (connOf s c) c.entry.outAddr c.entry.outKey output] := by
    intro v
    split
    · simp
    · rw [emit_out]
  split
  · exact e s
  · exact e s

theorem ready_finish {seq : Nat} {comp : Comp} {output : Bytes} {c : Cmd} (h : findCmd s seq = some c) (hi : c.internal = false) :
    ready (finish seq comp output s) seq = some comp := by
  unfold ready; rw [findCmd_finish h hi]; rfl

end Sys2Proof.Laws
end

