-- ==== Sys2Proof/Laws/Guard.lean ====
section
/-! SUPPORT. What words of SRAM that a command owns, and first mismatches of check codes, leave as it is. -/

set_option Elab.async false

namespace Sys2Proof.Laws

open Machine

/-- A word that the command owns: of cluster memory, or of a scratchpad bank. -/
def OwnWord (s : State) (w : SramWord) : Prop := w.unit < 32 ∨ bankRole s ((w.unit - 32) % 40) = .scratch

/-- The role of a bank follows from the dictionary's values alone. -/
theorem bankRole_congr {s u : State} (h : u.settings = s.settings) (b : Nat) : bankRole u b = bankRole s b := by
  have h2 : ∀ k, settingNat u k = settingNat s k := fun k => by simp only [settingNat, setting, h]
  unfold bankRole
  rw [h2, h2]

/-- A word that the command owns is counted and recorded, and no more. -/
theorem sramWord_own {s : State} {w : SramWord} (h : OwnWord s w) :
    sramWord s w = logEvent Ev.sramUncorrectable Ev.error w.unit (toLE 4 w.word) (bump Key.sramUncorrectable s) := by
  unfold sramWord
  rcases h with h | h
  · simp only [h, if_true]
  · simp only [h, ite_self]

/-- Words that the command owns change nothing but what counting and recording change. -/
theorem sramWords_same {α : Type} (f : State → α) (hb : ∀ k s, f (bump k s) = f s) (hl : ∀ a b c d s, f (logEvent a b c d s) = f s) :
    ∀ (l : List SramWord) (s : State), (∀ w ∈ l, OwnWord s w) → f (l.foldl sramWord s) = f s := by
  intro l
  induction l with
  | nil => intro s _; rfl
  | cons w r ih =>
    intro s h
    have h0 := sramWord_own (h w List.mem_cons_self)
    rw [List.foldl_cons, ih, h0, hl, hb]
    intro x hx
    rw [h0]
    exact (h x (List.mem_cons_of_mem _ hx)).imp id fun e => (bankRole_congr (by simp) _).trans e

/-- The codes of a command that reads no burst with errors change nothing but what counting and recording change. -/
theorem guarded_same {α : Type} (f : State → α) (hb : ∀ k n s, f (bumpBy k n s) = f s) (hl : ∀ a b c d s, f (logEvent a b c d s) = f s)
    (x : Upsets) (s : State) (h0 : x.bursts = []) (h : ∀ w ∈ x.words, OwnWord s w) : f (guarded x s) = f s := by
  have h1 : f (x.words.foldl sramWord (if x.corrected = 0 then s else bumpBy Key.sramCorrected x.corrected s)) = f s := by
    rw [sramWords_same f (fun k s => hb k 1 s) hl]
    · split
      · rfl
      · exact hb _ _ _
    · intro w hw
      split
      · exact h w hw
      · exact (h w hw).imp id fun e => (bankRole_congr (by simp) _).trans e
  simp only [guarded, readBursts, h0, List.isEmpty_nil, if_true, retried]
  split
  · exact h1
  · rw [hb]; exact h1

/-- Where nothing is found, nothing changes. -/
@[simp] theorem guarded_quiet (s : State) : guarded Upsets.quiet s = s := rfl

/-- Where no check code differs, nothing changes. -/
@[simp] theorem retried_match (s : State) : retried CodeChecks.match_ s = s := rfl

end Sys2Proof.Laws
end

