-- ==== Sys2Proof/Laws/Keep.lean ====
section
/-! SUPPORT. What every command keeps: the queue, the fixed sizes, the canonical tables, and a protected part of the state (dictionary values, roles, measurements, black box). -/

namespace Sys2Proof.Laws

set_option Elab.async false

open Machine

/-- The part of the state that few commands may change: the dictionary values, the roles, the measurement registers, and the black box's ring with its head. -/
structure Prot where
  settings : List (Nat × Bytes)
  roles : List Role
  measure : List Bytes
  records : List Bytes
  head : Nat

/-- The protected part of a state. -/
def prot (s : State) : Prot := ⟨s.settings, s.sec.roles, s.sec.measure, s.box.records, s.box.head⟩

/-- A state whose waiting commands are `q`, whose protected part satisfies `P`, and whose fixed tables have their fixed form. -/
structure Keep (q : List Instr) (P : Prot → Prop) (s : State) : Prop where
  pending : s.pending = q
  prot : P (prot s)
  counters : Table.wf (fun _ => 0) s.counters = true
  values : Table.wf settingDefault s.settings = true
  bound : ∀ p ∈ s.counters, p.2 < 2 ^ 64
  classes : s.box.classes.length = 8
  queue : s.box.queue.length ≤ 256
  hbm : s.power.hbmStacks.length = 12
  dies : s.power.dies.length = 2
  last : s.ahp.last.length = 4
  regs : s.sec.measure.length = 8
  ring : s.box.records.length = min (s.box.head + 1) ringSlots

/-- The settings may become any other table. -/
def ClSettings (P : Prot → Prop) : Prop := ∀ p x, P p → P { p with settings := x }

/-- The role table may become any other. -/
def ClRoles (P : Prot → Prop) : Prop := ∀ p x, P p → P { p with roles := x }

/-- The eight measurement registers may take any values. -/
def ClMeasure (P : Prot → Prop) : Prop := ∀ p x, P p → P { p with measure := x }

/-- The ring of records may take further records. -/
def ClRecords (P : Prot → Prop) : Prop := ∀ p b, P p → P { p with records := inRing (p.records ++ [b]), head := p.head + 1 }

/-- An outcome that goes on, to such a state. -/
def KeepRes (q : List Instr) (P : Prot → Prop) (r : Res) : Prop := ∃ t, r = .next t ∧ Keep q P t

variable {q : List Instr} {P : Prot → Prop} {s : State}

theorem keepRes_next {t : State} (h : Keep q P t) : KeepRes q P (.next t) := ⟨t, rfl, h⟩

theorem keepRes_ite {c : Prop} [Decidable c] {a b : Res} (ha : KeepRes q P a) (hb : KeepRes q P b) :
    KeepRes q P (if c then a else b) := by
  split
  · exact ha
  · exact hb

theorem keep_foldl {α : Type} {l : List α} {f : State → α → State} (h : Keep q P s)
    (hf : ∀ u x, Keep q P u → Keep q P (f u x)) : Keep q P (l.foldl f s) := by
  induction l generalizing s with
  | nil => exact h
  | cons x r ih => exact ih (hf s x h)

theorem keep_ite {c : Prop} [Decidable c] {a b : State} (ha : Keep q P a) (hb : Keep q P b) : Keep q P (if c then a else b) := by
  split
  · exact ha
  · exact hb

/-- Everything that the fixed tables, the queue and the protected values do not see may change. -/
theorem keep_rest {f n a se m ne hb co d sc po b} (h : Keep q P s) (ha : a.last.length = s.ahp.last.length := by exact rfl)
    (hr : sc.roles = s.sec.roles := by exact rfl) (hm : sc.measure = s.sec.measure := by exact rfl) (hs : po.hbmStacks.length = s.power.hbmStacks.length := by exact rfl)
    (hd : po.dies.length = s.power.dies.length := by exact rfl) (hb1 : b.records = s.box.records := by exact rfl) (hb0 : b.head = s.box.head := by exact rfl) (hb2 : b.classes.length = s.box.classes.length := by exact rfl)
    (hb3 : b.queue.length ≤ s.box.queue.length := by first | exact Nat.le_refl _ | simp_all) :
    Keep q P ⟨s.pending, f, n, s.counters, s.settings, a, se, m, ne, hb, co, d, sc, po, b⟩ := by
  refine ⟨h.pending, ?_, h.counters, h.values, h.bound, hb2.trans h.classes, hb3.trans h.queue, hs.trans h.hbm, hd.trans h.dies, ha.trans h.last, hm ▸ h.regs, ?_⟩
  on_goal 2 => rw [hb1, hb0]; exact h.ring
  have h2 := h.prot
  simp only [Laws.prot] at h2 ⊢
  rw [hr, hm, hb1, hb0]
  exact h2

/-- As keep_rest, and the role table may change. -/
theorem keep_roles {f n a se m ne hb co d sc po b} (c : ClRoles P) (h : Keep q P s) (ha : a.last.length = s.ahp.last.length)
    (hm : sc.measure = s.sec.measure) (hs : po.hbmStacks.length = s.power.hbmStacks.length)
    (hd : po.dies.length = s.power.dies.length) (hb1 : b.records = s.box.records) (hb0 : b.head = s.box.head)
    (hb2 : b.classes.length = s.box.classes.length) (hb3 : b.queue.length ≤ s.box.queue.length) :
    Keep q P ⟨s.pending, f, n, s.counters, s.settings, a, se, m, ne, hb, co, d, sc, po, b⟩ := by
  refine ⟨h.pending, ?_, h.counters, h.values, h.bound, hb2.trans h.classes, hb3.trans h.queue, hs.trans h.hbm, hd.trans h.dies, ha.trans h.last, hm ▸ h.regs, ?_⟩
  on_goal 2 => rw [hb1, hb0]; exact h.ring
  have h2 := c _ sc.roles h.prot
  simp only [Laws.prot] at h2 ⊢
  rw [hm, hb1, hb0]
  exact h2

/-- As keep_rest, and the measurement registers may change. -/
theorem keep_measure {f n a se m ne hb co d sc po b} (c : ClMeasure P) (h : Keep q P s) (hl : sc.measure.length = s.sec.measure.length)
    (ha : a.last.length = s.ahp.last.length) (hr : sc.roles = s.sec.roles) (hs : po.hbmStacks.length = s.power.hbmStacks.length)
    (hd : po.dies.length = s.power.dies.length) (hb1 : b.records = s.box.records) (hb0 : b.head = s.box.head)
    (hb2 : b.classes.length = s.box.classes.length) (hb3 : b.queue.length ≤ s.box.queue.length) :
    Keep q P ⟨s.pending, f, n, s.counters, s.settings, a, se, m, ne, hb, co, d, sc, po, b⟩ := by
  refine ⟨h.pending, ?_, h.counters, h.values, h.bound, hb2.trans h.classes, hb3.trans h.queue, hs.trans h.hbm, hd.trans h.dies, ha.trans h.last, hl.trans h.regs, ?_⟩
  on_goal 2 => rw [hb1, hb0]; exact h.ring
  have h2 := c _ sc.measure h.prot
  simp only [Laws.prot] at h2 ⊢
  rw [hr, hb1, hb0]
  exact h2

theorem keep_setSettings {x : List (Nat × Bytes)} (c : ClSettings P) (hx : Table.wf settingDefault x = true) (h : Keep q P s) :
    Keep q P { s with settings := x } :=
  ⟨h.pending, c _ _ h.prot, h.counters, hx, h.bound, h.classes, h.queue, h.hbm, h.dies, h.last, h.regs, h.ring⟩

theorem keep_setSetting {k : Nat} {v : Bytes} (c : ClSettings P) (h : Keep q P s) : Keep q P (setSetting k v s) :=
  keep_setSettings c (table_wf_set k v h.values) h

theorem keep_fst {α : Type} {c : Prop} [Decidable c] {a b : State × α} (ha : Keep q P a.1) (hb : Keep q P b.1) :
    Keep q P (if c then a else b).1 := by
  split
  · exact ha
  · exact hb

theorem keep_some {α : Type} {x : Option α} {a : State} {f : α → State} (hn : Keep q P a) (hs : ∀ y, Keep q P (f y)) :
    Keep q P (match x with | none => a | some y => f y) := by
  cases x with
  | none => exact hn
  | some y => exact hs y

theorem keep_getD {α : Type} {x : Option α} {a : State} {f : α → State} (hn : Keep q P a) (hs : ∀ y, Keep q P (f y)) :
    Keep q P ((x.map f).getD a) := by
  cases x with
  | none => exact hn
  | some y => exact hs y

theorem keep_tick (t : Nat) (h : Keep q P s) : Keep q P (tick t s) := keep_rest h

theorem keep_useFree (h : Keep q P s) : Keep q P (useFree s) := keep_rest h

theorem length_modAt {α : Type} (f : α → α) (i : Nat) (l : List α) : (modAt f i l).length = l.length := by simp [modAt]

theorem keep_raiseClass (c : Nat) (h : Keep q P s) : Keep q P (raiseClass c s) :=
  ⟨h.pending, h.prot, h.counters, h.values, h.bound, (length_modAt _ _ _).trans h.classes, h.queue, h.hbm, h.dies, h.last, h.regs, h.ring⟩

theorem keep_setCounter {k v : Nat} (hv : v < 2 ^ 64) (h : Keep q P s) : Keep q P (setCounter k v s) := by
  refine ⟨h.pending, h.prot, table_wf_set k v h.counters, h.values, ?_, h.classes, h.queue, h.hbm, h.dies, h.last, h.regs, h.ring⟩
  intro p hp
  rcases mem_tableSet (dflt := fun _ => 0) hp with rfl | hp
  · exact hv
  · exact h.bound p hp

theorem keep_addCounter (k n : Nat) (h : Keep q P s) : Keep q P (addCounter k n s) := by
  unfold addCounter
  split
  · exact keep_setCounter (by simpa using ‹_›) h
  · exact keep_useFree (keep_setCounter (Nat.mod_lt _ (by norm_num)) h)

theorem keep_bumpBy (k n : Nat) (h : Keep q P s) : Keep q P (bumpBy k n s) := by
  unfold bumpBy
  split
  · exact keep_addCounter k n h
  · exact keep_foldl (keep_addCounter k n h) fun u _ hu => keep_raiseClass _ hu

theorem keep_bump (k : Nat) (h : Keep q P s) : Keep q P (bump k s) := keep_bumpBy k 1 h

theorem keep_logEvent (code severity unit : Nat) (detail : Bytes) (h : Keep q P s) : Keep q P (logEvent code severity unit detail s) := by
  unfold logEvent
  split
  · exact ⟨h.pending, h.prot, h.counters, h.values, h.bound, h.classes, by simp; omega, h.hbm, h.dies, h.last, h.regs, h.ring⟩
  · exact keep_bump _ h

end Sys2Proof.Laws
end

