-- ==== Sys2Proof/Laws/KeepFront.lean ====
section
/-! SUPPORT. What the invariant of Laws/Keep.lean sees is kept by every operation of the front end, the shared operations and the black box. -/

set_option Elab.async false

namespace Sys2Proof.Laws

open Machine

variable {pq : List Instr} {PP : Prot → Prop} {s : State}

/-! ### Machine/Ops.lean -/

theorem keep_emit (o : Out) (hk : Keep pq PP s) : Keep pq PP (emit o s) := by
  unfold emit
  dsimp only
  repeat' (first | with_reducible assumption | fail_if_no_progress with_reducible refine keep_rest ?_ | split)

theorem keep_emitAll (os : List Out) (hk : Keep pq PP s) : Keep pq PP (emitAll os s) := by
  unfold emitAll
  repeat' (first | with_reducible assumption | with_reducible apply keep_emit | with_reducible apply keep_foldl)

theorem keep_updCmd (seq : Nat) (f : Cmd → Cmd) (hk : Keep pq PP s) : Keep pq PP (updCmd seq f s) := by
  unfold updCmd
  dsimp only
  repeat' (first | with_reducible assumption | fail_if_no_progress with_reducible refine keep_rest ?_)

theorem keep_updQueue (qid : Nat) (f : Queue → Queue) (hk : Keep pq PP s) : Keep pq PP (updQueue qid f s) := by
  unfold updQueue
  dsimp only
  repeat' (first | with_reducible assumption | fail_if_no_progress with_reducible refine keep_rest ?_)

theorem keep_releaseCopies (seq : Nat) (hk : Keep pq PP s) : Keep pq PP (releaseCopies seq s) := by
  unfold releaseCopies
  dsimp only
  repeat' (first | with_reducible assumption | fail_if_no_progress with_reducible refine keep_rest ?_)

theorem keep_idleFrom (hk : Keep pq PP s) : Keep pq PP (idleFrom s) := by
  unfold idleFrom
  dsimp only
  repeat' (first | with_reducible assumption | fail_if_no_progress with_reducible refine keep_rest ?_)

theorem keep_finish (seq : Nat) (comp : Comp) (output : Bytes) (hk : Keep pq PP s) : Keep pq PP (finish seq comp output s) := by
  unfold finish
  dsimp only
  repeat' (first | with_reducible assumption | with_reducible apply keep_emit | with_reducible apply keep_updCmd | with_reducible apply keep_releaseCopies | with_reducible apply keep_idleFrom | with_reducible apply keep_ite | fail_if_no_progress with_reducible refine keep_rest ?_ | split)

theorem keep_succeed (seq : Nat) (info : Nat) (output : Bytes) (hk : Keep pq PP s) : Keep pq PP (succeed seq info output s) := by
  unfold succeed
  repeat' (first | with_reducible assumption | with_reducible apply keep_finish)

theorem keep_fail (seq : Nat) (status : Nat) (hk : Keep pq PP s) : Keep pq PP (fail seq status s) := by
  unfold fail
  repeat' (first | with_reducible assumption | with_reducible apply keep_finish)

theorem keep_failPayload (seq : Nat) (offset : Nat) (hk : Keep pq PP s) : Keep pq PP (failPayload seq offset s) := by
  unfold failPayload
  repeat' (first | with_reducible assumption | with_reducible apply keep_finish)

theorem keep_failEntry (seq : Nat) (offset : Nat) (hk : Keep pq PP s) : Keep pq PP (failEntry seq offset s) := by
  unfold failEntry
  repeat' (first | with_reducible assumption | with_reducible apply keep_finish)

theorem keep_startWork (seq : Nat) (hk : Keep pq PP s) : Keep pq PP (startWork seq s) := by
  unfold startWork
  repeat' (first | with_reducible assumption | with_reducible apply keep_updCmd)

theorem keep_updColl (id : Nat) (f : Coll → Coll) (hk : Keep pq PP s) : Keep pq PP (updColl id f s) := by
  unfold updColl
  dsimp only
  repeat' (first | with_reducible assumption | fail_if_no_progress with_reducible refine keep_rest ?_)

theorem keep_updHead (id : Nat) (f : Head → Head) (hk : Keep pq PP s) : Keep pq PP (updHead id f s) := by
  unfold updHead
  dsimp only
  repeat' (first | with_reducible assumption | fail_if_no_progress with_reducible refine keep_rest ?_)

theorem keep_updQuery (key : Nat) (f : Query → Query) (hk : Keep pq PP s) : Keep pq PP (updQuery key f s) := by
  unfold updQuery
  dsimp only
  repeat' (first | with_reducible assumption | fail_if_no_progress with_reducible refine keep_rest ?_)

theorem keep_updConn (qpn : Nat) (f : Conn → Conn) (hk : Keep pq PP s) : Keep pq PP (updConn qpn f s) := by
  unfold updConn
  dsimp only
  repeat' (first | with_reducible assumption | fail_if_no_progress with_reducible refine keep_rest ?_)

theorem keep_chainStart (kind : Nat) (id : Nat) (d : Bytes) (hk : Keep pq PP s) : Keep pq PP (chainStart kind id d s) := by
  unfold chainStart
  dsimp only
  repeat' (first | with_reducible assumption | fail_if_no_progress with_reducible refine keep_rest ?_)

theorem keep_chainExtend (kind : Nat) (id : Nat) (unit : Bytes) (hk : Keep pq PP s) : Keep pq PP (chainExtend kind id unit s) := by
  unfold chainExtend
  dsimp only
  repeat' (first | with_reducible assumption | fail_if_no_progress with_reducible refine keep_rest ?_)

/-! ### Machine/Front.lean -/

theorem keep_sendCompletion (conn : Nat) (id : Nat) (c : Comp) (hk : Keep pq PP s) : Keep pq PP (sendCompletion conn id c s) := by
  unfold sendCompletion
  dsimp only
  repeat' (first | with_reducible assumption | with_reducible apply keep_raiseClass | with_reducible apply keep_emit | fail_if_no_progress with_reducible refine keep_rest ?_ | split)

theorem keep_rejectEntry (conn : Nat) (b : Bytes) (c : Comp) (hk : Keep pq PP s) : Keep pq PP (rejectEntry conn b c s) := by
  unfold rejectEntry
  repeat' (first | with_reducible assumption | with_reducible apply keep_bump | with_reducible apply keep_sendCompletion)

theorem keep_createQueue (conn : Conn) (e : Entry) (hk : Keep pq PP s) : Keep pq PP (createQueue conn e s) := by
  unfold createQueue
  dsimp only
  repeat' (first | with_reducible assumption | with_reducible apply keep_bump | with_reducible apply keep_sendCompletion | fail_if_no_progress with_reducible refine keep_rest ?_ | split)

theorem keep_enqueue (q : Queue) (e : Entry) (t : Nat) (hk : Keep pq PP s) : Keep pq PP (enqueue q e t s) := by
  unfold enqueue
  dsimp only
  repeat' (first | with_reducible assumption | fail_if_no_progress with_reducible refine keep_rest ?_)

theorem keep_receiveEntry (conn : Conn) (b : Bytes) (t : Nat) (hk : Keep pq PP s) : Keep pq PP (receiveEntry conn b t s) := by
  unfold receiveEntry
  repeat' (first | with_reducible assumption | with_reducible apply keep_rejectEntry | with_reducible apply keep_createQueue | with_reducible apply keep_enqueue | with_reducible apply keep_ite | fail_if_no_progress with_reducible refine keep_rest ?_ | split)

theorem keep_execQueueCreate (qp : Nat) (entry : Bytes) (hk : Keep pq PP s) : KeepRes pq PP (execQueueCreate qp entry s) := by
  unfold execQueueCreate
  repeat' (first | with_reducible apply keepRes_next | with_reducible apply keepRes_ite | with_reducible assumption | with_reducible apply keep_receiveEntry | with_reducible apply keep_ite | fail_if_no_progress with_reducible refine keep_rest ?_ | split)

theorem keep_takeBanks (c : Cmd) (hk : Keep pq PP s) : Keep pq PP (takeBanks c s) := by
  unfold takeBanks
  dsimp only
  repeat' (first | with_reducible assumption | with_reducible apply keep_bump | with_reducible apply keep_ite | fail_if_no_progress with_reducible refine keep_rest ?_)

theorem keep_admitNow (c : Cmd) (hk : Keep pq PP s) : Keep pq PP (admitNow c s) := by
  unfold admitNow
  dsimp only
  repeat' (first | with_reducible assumption | with_reducible apply keep_updCmd | with_reducible apply keep_fail | with_reducible apply keep_ite | fail_if_no_progress with_reducible refine keep_rest ?_ | split)

theorem keep_resumeQueue (qid : Nat) (hk : Keep pq PP s) : Keep pq PP (resumeQueue qid s) := by
  unfold resumeQueue
  repeat' (first | with_reducible assumption | with_reducible apply keep_updQueue | with_reducible apply keep_updConn | with_reducible apply keep_ite | fail_if_no_progress with_reducible refine keep_rest ?_ | split)

/-! ### Machine/Spp.lean -/

theorem keep_flushGo (peer n : Nat) (h : Keep pq PP s) : Keep pq PP (flushGo peer n s) := by
  induction n generalizing s with
  | zero => exact h
  | succ n ih =>
    unfold flushGo
    split
    · split
      · exact ih (keep_emit _ (keep_rest (keep_updConn _ _ h) rfl rfl rfl rfl rfl rfl rfl rfl le_rfl))
      · exact h
    · exact h

theorem keep_flushPeer (peer : Nat) (hk : Keep pq PP s) : Keep pq PP (flushPeer peer s) := by
  unfold flushPeer
  repeat' (first | with_reducible assumption | with_reducible apply keep_flushGo)

theorem keep_sendSpp (peer : Nat) (type : Nat) (payload : Bytes) (hk : Keep pq PP s) : Keep pq PP (sendSpp peer type payload s) := by
  unfold sendSpp
  dsimp only
  repeat' (first | with_reducible assumption | with_reducible apply keep_flushPeer | fail_if_no_progress with_reducible refine keep_rest ?_)

theorem keep_sendAll (peers : List Nat) (type : Nat) (payload : Bytes) (hk : Keep pq PP s) : Keep pq PP (sendAll peers type payload s) := by
  unfold sendAll
  repeat' (first | with_reducible assumption | with_reducible apply keep_sendSpp | with_reducible apply keep_foldl | fail_if_no_progress with_reducible refine keep_rest ?_ | intro _ _ _)

/-! ### Machine/HeadDefs.lean -/

theorem keep_sendAbort (type : Nat) (h : Head) (mb : Nat) (step : Nat) (cause : Nat) (digest : Option Nat) (hk : Keep pq PP s) : Keep pq PP (sendAbort type h mb step cause digest s) := by
  unfold sendAbort
  dsimp only
  repeat' (first | with_reducible assumption | with_reducible apply keep_sendAll | fail_if_no_progress with_reducible refine keep_rest ?_ | split)

theorem keep_dropStash (head : Nat) (gone : StashMb → Bool) (hk : Keep pq PP s) : Keep pq PP (dropStash head gone s) := by
  unfold dropStash
  dsimp only
  repeat' (first | with_reducible assumption | with_reducible apply keep_updHead | fail_if_no_progress with_reducible refine keep_rest ?_ | split)

theorem keep_releaseStash (head : Nat) (step : Nat) (mb : Nat) (hk : Keep pq PP s) : Keep pq PP (releaseStash head step mb s) := by
  unfold releaseStash
  repeat' (first | with_reducible assumption | with_reducible apply keep_dropStash)

/-! ### Machine/Abort.lean -/

theorem keep_stopQueries (seq : Nat) (hk : Keep pq PP s) : Keep pq PP (stopQueries seq s) := by
  unfold stopQueries
  dsimp only
  repeat' (first | with_reducible assumption | with_reducible apply keep_sendSpp | with_reducible apply keep_foldl | fail_if_no_progress with_reducible refine keep_rest ?_ | intro _ _ _)

theorem keep_stopIngest (seq : Nat) (hk : Keep pq PP s) : Keep pq PP (stopIngest seq s) := by
  unfold stopIngest
  dsimp only
  repeat' (first | with_reducible assumption | fail_if_no_progress with_reducible refine keep_rest ?_)

theorem keep_stopJob (seq : Nat) (hk : Keep pq PP s) : Keep pq PP (stopJob seq s) := by
  unfold stopJob
  dsimp only
  repeat' (first | with_reducible assumption | with_reducible apply keep_ite | fail_if_no_progress with_reducible refine keep_rest ?_)

theorem keep_abortUnread (headers : List HeaderRead) (c : Cmd) (hk : Keep pq PP s) : Keep pq PP (abortUnread headers c s) := by
  unfold abortUnread
  dsimp only
  repeat' (first | with_reducible assumption | with_reducible apply keep_fail | with_reducible apply keep_sendAbort | with_reducible apply keep_ite | fail_if_no_progress with_reducible refine keep_rest ?_ | split)

theorem keep_stopMemory (headers : List HeaderRead) (c : Cmd) (hk : Keep pq PP s) : Keep pq PP (stopMemory headers c s) := by
  unfold stopMemory
  dsimp only
  repeat' (first | with_reducible assumption | with_reducible apply keep_sendAbort | with_reducible apply keep_releaseStash | with_reducible apply keep_abortUnread | with_reducible apply keep_ite | fail_if_no_progress with_reducible refine keep_rest ?_ | split)

theorem keep_stopWork (headers : List HeaderRead) (c : Cmd) (hk : Keep pq PP s) : Keep pq PP (stopWork headers c s) := by
  unfold stopWork
  dsimp only
  repeat' (first | with_reducible assumption | with_reducible apply keep_stopQueries | with_reducible apply keep_stopIngest | with_reducible apply keep_stopJob | with_reducible apply keep_stopMemory | fail_if_no_progress with_reducible refine keep_rest ?_)

theorem keep_endCmd (headers : List HeaderRead) (after : List Nat) (c : Cmd) (hk : Keep pq PP s) : Keep pq PP (endCmd headers after c s) := by
  unfold endCmd
  dsimp only
  repeat' (first | with_reducible assumption | with_reducible apply keep_bump | with_reducible apply keep_updCmd | with_reducible apply keep_finish | with_reducible apply keep_stopWork | with_reducible apply keep_ite)

theorem keep_endAll (headers : List HeaderRead) (before : List Nat) (l : List Cmd) (h : Keep pq PP s) : Keep pq PP (endAll headers before l s) := by
  induction l generalizing before s with
  | nil => exact h
  | cons c r ih => exact ih _ (keep_endCmd _ _ _ h)

theorem keep_dropQueue (q : Queue) (hk : Keep pq PP s) : Keep pq PP (dropQueue q s) := by
  unfold dropQueue
  dsimp only
  repeat' (first | with_reducible assumption | with_reducible apply keep_endAll | fail_if_no_progress with_reducible refine keep_rest ?_)

theorem keep_closeConn (qpn : Nat) (hk : Keep pq PP s) : Keep pq PP (closeConn qpn s) := by
  unfold closeConn
  dsimp only
  repeat' (first | with_reducible assumption | with_reducible apply keep_dropQueue | with_reducible apply keep_ite | fail_if_no_progress with_reducible refine keep_rest ?_ | split)

theorem keep_closeConns (qpns : List Nat) (hk : Keep pq PP s) : Keep pq PP (closeConns qpns s) := by
  unfold closeConns
  repeat' (first | with_reducible assumption | with_reducible apply keep_closeConn | with_reducible apply keep_foldl)

theorem keep_disconnect (qpn : Nat) (hk : Keep pq PP s) : Keep pq PP (disconnect qpn s) := by
  unfold disconnect
  repeat' (first | with_reducible assumption | with_reducible apply keep_emit | with_reducible apply keep_closeConn | fail_if_no_progress with_reducible refine keep_rest ?_ | split)

theorem keep_closeSession (id : Nat) (hk : Keep pq PP s) : Keep pq PP (closeSession id s) := by
  unfold closeSession
  dsimp only
  repeat' (first | with_reducible assumption | with_reducible apply keep_ite | fail_if_no_progress with_reducible refine keep_rest ?_ | split)

theorem keep_closeStale (hk : Keep pq PP s) : Keep pq PP (closeStale s) := by
  unfold closeStale
  dsimp only
  repeat' (first | with_reducible assumption | with_reducible apply keep_closeConns | with_reducible apply keep_closeSession | with_reducible apply keep_foldl)

theorem keep_afterCompletion (e : Entry) (hk : Keep pq PP s) : Keep pq PP (afterCompletion e s) := by
  unfold afterCompletion
  repeat' (first | with_reducible assumption | with_reducible apply keep_resumeQueue | with_reducible apply keep_closeStale | with_reducible apply keep_ite)

/-! ### Machine/Box.lean -/

/-- One more record keeps the ring full or growing. -/
theorem ring_put {l : List Bytes} {x : Bytes} {n : Nat} (h : l.length = min (n + 1) ringSlots) :
    (inRing (l ++ [x])).length = min (n + 1 + 1) ringSlots := by
  simp only [inRing, List.length_reverse, List.length_take, List.length_append, List.length_singleton, h]
  omega

theorem keep_putRecord (e : Event) (cRecords : ClRecords PP) (hk : Keep pq PP s) : Keep pq PP (putRecord e s) :=
  ⟨hk.pending, cRecords _ _ hk.prot, hk.counters, hk.values, hk.bound, hk.classes, hk.queue, hk.hbm, hk.dies, hk.last, hk.regs, ring_put hk.ring⟩

theorem keep_writeEvent (e : Event) (cRecords : ClRecords PP) (hk : Keep pq PP s) : Keep pq PP (writeEvent e s) := by
  unfold writeEvent
  dsimp only
  repeat' (first | with_reducible assumption | with_reducible apply keep_bump | with_reducible apply keep_putRecord | with_reducible apply keep_ite | fail_if_no_progress with_reducible refine keep_rest ?_)

theorem keep_execBlackboxAppend (readBack : Bool) (t : Nat) (cRecords : ClRecords PP) (hk : Keep pq PP s) : KeepRes pq PP (execBlackboxAppend readBack t s) := by
  unfold execBlackboxAppend
  dsimp only
  repeat' (first | with_reducible apply keepRes_next | with_reducible apply keepRes_ite | with_reducible assumption | with_reducible apply keep_tick | with_reducible apply keep_writeEvent | with_reducible apply keep_ite | fail_if_no_progress with_reducible refine keep_rest ?_ | split)

theorem keep_execBlackboxCoalesced (event : Nat) (unit : Nat) (key : Nat) (t : Nat) (hk : Keep pq PP s) : KeepRes pq PP (execBlackboxCoalesced event unit key t s) := by
  unfold execBlackboxCoalesced
  dsimp only
  repeat' (first | with_reducible apply keepRes_next | with_reducible apply keepRes_ite | with_reducible assumption | with_reducible apply keep_tick | with_reducible apply keep_logEvent | with_reducible apply keep_ite | fail_if_no_progress with_reducible refine keep_rest ?_)

theorem keep_flushEvents (cRecords : ClRecords PP) (hk : Keep pq PP s) : Keep pq PP (flushEvents s) := by
  unfold flushEvents
  dsimp only
  repeat' (first | with_reducible assumption | with_reducible apply keep_writeEvent | with_reducible apply keep_foldl | fail_if_no_progress with_reducible refine keep_rest ?_ | intro _ _ _)

theorem keep_signed (hk : Keep pq PP s) : Keep pq PP (signed s) := by
  unfold signed
  dsimp only
  repeat' (first | with_reducible assumption | with_reducible apply keep_useFree | fail_if_no_progress with_reducible refine keep_rest ?_)

theorem keep_execLogRead (seq : Nat) (hk : Keep pq PP s) : KeepRes pq PP (execLogRead seq s) := by
  unfold execLogRead
  repeat' (first | with_reducible apply keepRes_next | with_reducible apply keepRes_ite | with_reducible assumption | with_reducible apply keep_succeed | with_reducible apply keep_signed | with_reducible apply keep_ite | fail_if_no_progress with_reducible refine keep_rest ?_ | split)

end Sys2Proof.Laws
end

