-- ==== Sys2Proof/Laws/KeepStore.lean ====
section
/-! SUPPORT. What the invariant of Laws/Keep.lean sees is kept by every operation of the memories and the attachment. -/

set_option Elab.async false

namespace Sys2Proof.Laws

open Machine

variable {pq : List Instr} {PP : Prot → Prop} {s : State}

/-! ### Machine/Layout.lean -/

theorem keep_dropLine (channel : Nat) (slot : Nat) (hk : Keep pq PP s) : Keep pq PP (dropLine channel slot s) := by
  unfold dropLine
  dsimp only
  repeat' (first | with_reducible assumption | fail_if_no_progress with_reducible refine keep_rest ?_)

theorem keep_useLine (dirty : Bool) (u : Nat × Nat) (hk : Keep pq PP s) : Keep pq PP (useLine dirty s u) := by
  unfold useLine
  dsimp only
  repeat' (first | with_reducible assumption | fail_if_no_progress with_reducible refine keep_rest ?_ | split)

theorem keep_bypassWrite (p : MediaObj → Bool) (hk : Keep pq PP s) : Keep pq PP (bypassWrite p s) := by
  unfold bypassWrite
  dsimp only
  repeat' (first | with_reducible assumption | with_reducible apply keep_ite | fail_if_no_progress with_reducible refine keep_rest ?_)

theorem keep_bypassRead (p : MediaObj → Bool) (hk : Keep pq PP s) : Keep pq PP (bypassRead p s) := by
  unfold bypassRead
  dsimp only
  repeat' (first | with_reducible assumption | with_reducible apply keep_ite | fail_if_no_progress with_reducible refine keep_rest ?_)

theorem keep_reshapeCache (hk : Keep pq PP s) : Keep pq PP (reshapeCache s) := by
  unfold reshapeCache
  dsimp only
  repeat' (first | with_reducible assumption | fail_if_no_progress with_reducible refine keep_rest ?_)

theorem keep_loseCache (hk : Keep pq PP s) : Keep pq PP (loseCache s) := by
  unfold loseCache
  dsimp only
  repeat' (first | with_reducible assumption | fail_if_no_progress with_reducible refine keep_rest ?_)

/-! ### Machine/Hbm.lean -/

theorem keep_setBank (b : BankRec) (hk : Keep pq PP s) : Keep pq PP (setBank b s) := by
  unfold setBank
  dsimp only
  repeat' (first | with_reducible assumption | fail_if_no_progress with_reducible refine keep_rest ?_)

theorem keep_markChannel (c : Nat) (hk : Keep pq PP s) : Keep pq PP (markChannel c s) := by
  unfold markChannel
  dsimp only
  repeat' (first | with_reducible assumption | with_reducible apply keep_ite | fail_if_no_progress with_reducible refine keep_rest ?_)

theorem keep_retireBank (b : BankRec) (hk : Keep pq PP s) : Keep pq PP (retireBank b s) := by
  unfold retireBank
  dsimp only
  repeat' (first | with_reducible assumption | with_reducible apply keep_logEvent | with_reducible apply keep_setBank | with_reducible apply keep_markChannel | with_reducible apply keep_ite)

theorem keep_retirePage (b : BankRec) (row : Nat) (hk : Keep pq PP s) : Keep pq PP (retirePage b row s) := by
  unfold retirePage
  repeat' (first | with_reducible assumption | with_reducible apply keep_logEvent | with_reducible apply keep_setBank)

theorem keep_rowFails (channel : Nat) (bank : Nat) (row : Nat) (hk : Keep pq PP s) : Keep pq PP (rowFails channel bank row s) := by
  unfold rowFails
  dsimp only
  repeat' (first | with_reducible assumption | with_reducible apply keep_bump | with_reducible apply keep_setBank | with_reducible apply keep_retireBank | with_reducible apply keep_retirePage | with_reducible apply keep_ite)

theorem keep_hurtWork (seq : Nat) (hk : Keep pq PP s) : Keep pq PP (hurtWork seq s) := by
  unfold hurtWork
  dsimp only
  repeat' (first | with_reducible assumption | fail_if_no_progress with_reducible refine keep_rest ?_)

theorem keep_hurtObject (o : MediaObj) (hk : Keep pq PP s) : Keep pq PP (hurtObject o s) := by
  unfold hurtObject
  dsimp only
  repeat' (first | with_reducible assumption | with_reducible apply keep_updColl | with_reducible apply keep_updHead | with_reducible apply keep_releaseStash | with_reducible apply keep_hurtWork | with_reducible apply keep_ite | with_reducible apply keep_foldl | fail_if_no_progress with_reducible refine keep_rest ?_ | split)

theorem keep_healObject (o : MediaObj) (hk : Keep pq PP s) : Keep pq PP (healObject o s) := by
  unfold healObject
  dsimp only
  repeat' (first | with_reducible assumption | with_reducible apply keep_updColl | with_reducible apply keep_updHead | with_reducible apply keep_ite | fail_if_no_progress with_reducible refine keep_rest ?_ | split)

theorem keep_hurtSlot (channel : Nat) (slot : Nat) (hk : Keep pq PP s) : Keep pq PP (hurtSlot channel slot s) := by
  unfold hurtSlot
  dsimp only
  repeat' (first | with_reducible assumption | with_reducible apply keep_hurtObject | with_reducible apply keep_ite | fail_if_no_progress with_reducible refine keep_rest ?_ | split)

theorem keep_burstLost (x : Scrub) (hk : Keep pq PP s) : Keep pq PP (burstLost x s) := by
  unfold burstLost
  dsimp only
  repeat' (first | with_reducible assumption | with_reducible apply keep_bump | with_reducible apply keep_logEvent | with_reducible apply keep_rowFails | with_reducible apply keep_hurtSlot | fail_if_no_progress with_reducible refine keep_rest ?_ | split)

theorem keep_execMediaRecovery (channel : Nat) (slot : Nat) (hk : Keep pq PP s) : KeepRes pq PP (execMediaRecovery channel slot s) := by
  unfold execMediaRecovery
  dsimp only
  repeat' (first | with_reducible apply keepRes_next | with_reducible apply keepRes_ite | with_reducible assumption | with_reducible apply keep_bump | with_reducible apply keep_idleFrom | with_reducible apply keep_healObject | with_reducible apply keep_ite | fail_if_no_progress with_reducible refine keep_rest ?_ | split)

theorem keep_losePin (channel : Nat) (pin : Nat) (banks : Nat) (hk : Keep pq PP s) : Keep pq PP (losePin channel pin banks s) := by
  unfold losePin
  dsimp only
  repeat' (first | with_reducible assumption | with_reducible apply keep_bump | with_reducible apply keep_logEvent | with_reducible apply keep_markChannel | with_reducible apply keep_ite | fail_if_no_progress with_reducible refine keep_rest ?_)

theorem keep_seePin (channel : Nat) (bank : Nat) (pin : Nat) (hk : Keep pq PP s) : Keep pq PP (seePin channel bank s pin) := by
  unfold seePin
  dsimp only
  repeat' (first | with_reducible assumption | with_reducible apply keep_losePin | with_reducible apply keep_ite | fail_if_no_progress with_reducible refine keep_rest ?_)

theorem keep_setPasses (x : Scrub) (n : Nat) (hk : Keep pq PP s) : Keep pq PP (setPasses x n s) := by
  unfold setPasses
  dsimp only
  repeat' (first | with_reducible assumption | with_reducible apply keep_ite | fail_if_no_progress with_reducible refine keep_rest ?_)

theorem keep_correctedRead (scrub : Bool) (x : Scrub) (hk : Keep pq PP s) : Keep pq PP (correctedRead scrub x s) := by
  unfold correctedRead
  dsimp only
  repeat' (first | with_reducible assumption | with_reducible apply keep_bump | with_reducible apply keep_rowFails | with_reducible apply keep_seePin | with_reducible apply keep_setPasses | with_reducible apply keep_ite | with_reducible apply keep_foldl | fail_if_no_progress with_reducible refine keep_rest ?_ | intro _ _ _)

theorem keep_hurtTile (channel : Nat) (t : HbmTile) (hk : Keep pq PP s) : Keep pq PP (hurtTile channel s t) := by
  unfold hurtTile
  repeat' (first | with_reducible assumption | with_reducible apply keep_hurtSlot | fail_if_no_progress with_reducible refine keep_rest ?_ | split)

theorem keep_fence (channel : Nat) (hk : Keep pq PP s) : Keep pq PP (fence channel s) := by
  unfold fence
  dsimp only
  repeat' (first | with_reducible assumption | with_reducible apply keep_hurtTile | with_reducible apply keep_ite | with_reducible apply keep_foldl | fail_if_no_progress with_reducible refine keep_rest ?_ | intro _ _ _)

theorem keep_readBurst (scrub : Bool) (x : Scrub) (hk : Keep pq PP s) : Keep pq PP (readBurst scrub x s) := by
  unfold readBurst
  dsimp only
  repeat' (first | with_reducible assumption | with_reducible apply keep_burstLost | with_reducible apply keep_correctedRead | with_reducible apply keep_fence | with_reducible apply keep_ite)

theorem keep_execTgRunComplete (pins : List Nat) (corrected : Nat) (uncorrectable : Nat) (hk : Keep pq PP s) : KeepRes pq PP (execTgRunComplete pins corrected uncorrectable s) := by
  unfold execTgRunComplete
  dsimp only
  repeat' (first | with_reducible apply keepRes_next | with_reducible apply keepRes_ite | with_reducible assumption | with_reducible apply keep_bumpBy | with_reducible apply keep_ite | fail_if_no_progress with_reducible refine keep_rest ?_)

/-! ### Machine/Cold.lean -/

theorem keep_coldWrite (n : Nat) (hk : Keep pq PP s) : Keep pq PP (coldWrite n s) := by
  unfold coldWrite
  dsimp only
  repeat' (first | with_reducible assumption | fail_if_no_progress with_reducible refine keep_rest ?_)

theorem keep_coldProgram (n : Nat) (hk : Keep pq PP s) : Keep pq PP (coldProgram n s) := by
  unfold coldProgram
  dsimp only
  repeat' (first | with_reducible assumption | fail_if_no_progress with_reducible refine keep_rest ?_)

theorem keep_setSpare (pct : Nat) (hk : Keep pq PP s) : Keep pq PP (setSpare pct s) := by
  unfold setSpare
  dsimp only
  repeat' (first | with_reducible assumption | with_reducible apply keep_logEvent | with_reducible apply keep_ite | fail_if_no_progress with_reducible refine keep_rest ?_)

theorem keep_losePage (kind : Nat) (owner : Nat) (lpn : Nat) (channel : Nat) (hk : Keep pq PP s) : Keep pq PP (losePage kind owner lpn channel s) := by
  unfold losePage
  dsimp only
  repeat' (first | with_reducible assumption | with_reducible apply keep_bump | with_reducible apply keep_logEvent | with_reducible apply keep_ite | fail_if_no_progress with_reducible refine keep_rest ?_)

theorem keep_queueRefresh (channel : Nat) (block : Nat) (hk : Keep pq PP s) : Keep pq PP (queueRefresh channel block s) := by
  unfold queueRefresh
  dsimp only
  repeat' (first | with_reducible assumption | with_reducible apply keep_ite | fail_if_no_progress with_reducible refine keep_rest ?_)

theorem keep_failDie (channel : Nat) (die : Nat) (hk : Keep pq PP s) : Keep pq PP (failDie channel die s) := by
  unfold failDie
  dsimp only
  repeat' (first | with_reducible assumption | with_reducible apply keep_ite | fail_if_no_progress with_reducible refine keep_rest ?_)

theorem keep_clearLost (kind : Nat) (owner : Nat) (lpns : List Nat) (hk : Keep pq PP s) : Keep pq PP (clearLost kind owner lpns s) := by
  unfold clearLost
  dsimp only
  repeat' (first | with_reducible assumption | fail_if_no_progress with_reducible refine keep_rest ?_)

theorem keep_pageRead (r : FlashRead) (hk : Keep pq PP s) : Keep pq PP (pageRead r s) := by
  unfold pageRead
  dsimp only
  repeat' (first | with_reducible assumption | with_reducible apply keep_bump | with_reducible apply keep_coldProgram | with_reducible apply keep_losePage | with_reducible apply keep_queueRefresh | with_reducible apply keep_failDie | with_reducible apply keep_retried | with_reducible apply keep_ite | fail_if_no_progress with_reducible refine keep_rest ?_ | split)

theorem keep_pageUsed (r : FlashRead) (hk : Keep pq PP s) : Keep pq PP (pageUsed r s) := by
  unfold pageUsed
  dsimp only
  repeat' (first | with_reducible assumption | with_reducible apply keep_bump | with_reducible apply keep_updColl | with_reducible apply keep_updHead | with_reducible apply keep_ite | fail_if_no_progress with_reducible refine keep_rest ?_ | split)

theorem keep_execFlashReadComplete (read : FlashRead) (t : Nat) (hk : Keep pq PP s) : KeepRes pq PP (execFlashReadComplete read t s) := by
  unfold execFlashReadComplete
  dsimp only
  repeat' (first | with_reducible apply keepRes_next | with_reducible apply keepRes_ite | with_reducible assumption | with_reducible apply keep_tick | with_reducible apply keep_pageRead | with_reducible apply keep_pageUsed | with_reducible apply keep_ite)

theorem keep_execGarbageCollection (pages : Nat) (sparePct : Nat) (hk : Keep pq PP s) : KeepRes pq PP (execGarbageCollection pages sparePct s) := by
  unfold execGarbageCollection
  repeat' (first | with_reducible apply keepRes_next | with_reducible apply keepRes_ite | with_reducible assumption | with_reducible apply keep_coldProgram | with_reducible apply keep_setSpare | with_reducible apply keep_ite)

theorem keep_execDieRebuild (channel : Nat) (die : Nat) (pages : Nat) (sparePct : Nat) (hk : Keep pq PP s) : KeepRes pq PP (execDieRebuild channel die pages sparePct s) := by
  unfold execDieRebuild
  dsimp only
  repeat' (first | with_reducible apply keepRes_next | with_reducible apply keepRes_ite | with_reducible assumption | with_reducible apply keep_coldProgram | with_reducible apply keep_setSpare | with_reducible apply keep_ite | fail_if_no_progress with_reducible refine keep_rest ?_)

theorem keep_evict (region : Nat) (n : Nat) (hk : Keep pq PP s) : Keep pq PP (evict region n s) := by
  unfold evict
  dsimp only
  repeat' (first | with_reducible assumption | with_reducible apply keep_bumpBy | fail_if_no_progress with_reducible refine keep_rest ?_)

theorem keep_requestPage (seq : Nat) (region : Nat) (pinned : Bool) (page : Nat) (hk : Keep pq PP s) : Keep pq PP (requestPage seq region pinned page s) := by
  unfold requestPage
  dsimp only
  repeat' (first | with_reducible assumption | with_reducible apply keep_bump | with_reducible apply keep_ite | fail_if_no_progress with_reducible refine keep_rest ?_ | split)

theorem keep_grantPages (seq : Nat) (region : Nat) (capacity : Nat) (pinned : Bool) (pages : List Nat) (hk : Keep pq PP s) : Keep pq PP (grantPages seq region capacity pinned pages s) := by
  unfold grantPages
  dsimp only
  repeat' (first | with_reducible assumption | with_reducible apply keep_evict | with_reducible apply keep_requestPage | with_reducible apply keep_foldl | fail_if_no_progress with_reducible refine keep_rest ?_ | intro _ _ _)

theorem keep_requestPages (seq : Nat) (region : Nat) (capacity : Nat) (pinned : Bool) (pages : List Nat) (hk : Keep pq PP s) : Keep pq PP (requestPages seq region capacity pinned pages s) := by
  unfold requestPages
  dsimp only
  repeat' (first | with_reducible assumption | with_reducible apply keep_bump | with_reducible apply keep_grantPages | with_reducible apply keep_ite | fail_if_no_progress with_reducible refine keep_rest ?_)

theorem keep_execFtgRunComplete (dies : Nat) (errors : Nat) (retries : Nat) (rebuilds : Nat) (lost : List LostRead) (hk : Keep pq PP s) : KeepRes pq PP (execFtgRunComplete dies errors retries rebuilds lost s) := by
  unfold execFtgRunComplete
  dsimp only
  repeat' (first | with_reducible apply keepRes_next | with_reducible apply keepRes_ite | with_reducible assumption | with_reducible apply keep_bumpBy | with_reducible apply keep_losePage | with_reducible apply keep_ite | with_reducible apply keep_foldl | fail_if_no_progress with_reducible refine keep_rest ?_ | intro _ _ _)

/-! ### Machine/Units.lean -/

theorem keep_settle (id : Nat) (hk : Keep pq PP s) : Keep pq PP (settle id s) := by
  unfold settle
  repeat' (first | with_reducible assumption | with_reducible apply keep_updColl | fail_if_no_progress with_reducible refine keep_rest ?_ | split)

theorem keep_stampUnit (u : CUnit) (e : Nat) (hk : Keep pq PP s) : Keep pq PP (stampUnit u e s) := by
  unfold stampUnit
  dsimp only
  repeat' (first | with_reducible assumption | with_reducible apply keep_updColl | with_reducible apply keep_chainExtend | with_reducible apply keep_bypassWrite | with_reducible apply keep_coldWrite | with_reducible apply keep_clearLost | fail_if_no_progress with_reducible refine keep_rest ?_ | split)

theorem keep_updUnit (tag : Nat) (f : CUnit → CUnit) (hk : Keep pq PP s) : Keep pq PP (updUnit tag f s) := by
  unfold updUnit
  dsimp only
  repeat' (first | with_reducible assumption | fail_if_no_progress with_reducible refine keep_rest ?_)

theorem keep_dropUnit (tag : Nat) (hk : Keep pq PP s) : Keep pq PP (dropUnit tag s) := by
  unfold dropUnit
  dsimp only
  repeat' (first | with_reducible assumption | fail_if_no_progress with_reducible refine keep_rest ?_)

theorem keep_addUnit (coll : Nat) (body : UnitBody) (origin : UnitFrom) (phase : UnitPhase) (limits : Nat × Nat) (hk : Keep pq PP s) : Keep pq PP (addUnit coll body origin phase limits s) := by
  unfold addUnit
  dsimp only
  repeat' (first | with_reducible assumption | fail_if_no_progress with_reducible refine keep_rest ?_)

/-! ### Machine/Net.lean -/

theorem keep_updSub (port : Nat) (sub : Nat) (f : SubPort → SubPort) (hk : Keep pq PP s) : Keep pq PP (updSub port sub f s) := by
  unfold updSub
  dsimp only
  repeat' (first | with_reducible assumption | fail_if_no_progress with_reducible refine keep_rest ?_)

theorem keep_addConn (c : Conn) (hk : Keep pq PP s) : Keep pq PP (addConn c s) := by
  unfold addConn
  dsimp only
  repeat' (first | with_reducible assumption | fail_if_no_progress with_reducible refine keep_rest ?_)

theorem keep_makeConnRoom (port : Nat) (hk : Keep pq PP s) : Keep pq PP (makeConnRoom port s) := by
  unfold makeConnRoom
  repeat' (first | with_reducible assumption | with_reducible apply keep_disconnect | with_reducible apply keep_ite | split)

theorem keep_execConnectionRequest (port : Nat) (sub : Nat) (remote : Nat) (mtu : Nat) (peer : Nat) (reply : Bool) (t : Nat) (hk : Keep pq PP s) : KeepRes pq PP (execConnectionRequest port sub remote mtu peer reply t s) := by
  unfold execConnectionRequest
  dsimp only
  repeat' (first | with_reducible apply keepRes_next | with_reducible apply keepRes_ite | with_reducible assumption | with_reducible apply keep_tick | with_reducible apply keep_emit | with_reducible apply keep_addConn | with_reducible apply keep_makeConnRoom)

theorem keep_execSppConnectionOpen (peer : Nat) (t : Nat) (hk : Keep pq PP s) : KeepRes pq PP (execSppConnectionOpen peer t s) := by
  unfold execSppConnectionOpen
  dsimp only
  repeat' (first | with_reducible apply keepRes_next | with_reducible apply keepRes_ite | with_reducible assumption | with_reducible apply keep_tick | with_reducible apply keep_emit | with_reducible apply keep_makeConnRoom | with_reducible apply keep_ite | fail_if_no_progress with_reducible refine keep_rest ?_ | split)

theorem keep_execConnectionRequestRepeat (peer : Nat) (t : Nat) (hk : Keep pq PP s) : KeepRes pq PP (execConnectionRequestRepeat peer t s) := by
  unfold execConnectionRequestRepeat
  dsimp only
  repeat' (first | with_reducible apply keepRes_next | with_reducible apply keepRes_ite | with_reducible assumption | with_reducible apply keep_tick | with_reducible apply keep_emit | with_reducible apply keep_ite | fail_if_no_progress with_reducible refine keep_rest ?_)

theorem keep_execSppIdleClose (qpn : Nat) (t : Nat) (hk : Keep pq PP s) : KeepRes pq PP (execSppIdleClose qpn t s) := by
  unfold execSppIdleClose
  dsimp only
  repeat' (first | with_reducible apply keepRes_next | with_reducible apply keepRes_ite | with_reducible assumption | with_reducible apply keep_tick | with_reducible apply keep_disconnect | with_reducible apply keep_ite | fail_if_no_progress with_reducible refine keep_rest ?_ | split)

theorem keep_outOfState (qpn : Nat) (hk : Keep pq PP s) : Keep pq PP (outOfState qpn s) := by
  unfold outOfState
  repeat' (first | with_reducible assumption | with_reducible apply keep_bump | with_reducible apply keep_closeConn)

theorem keep_keysInstalled (qpn : Nat) (hk : Keep pq PP s) : Keep pq PP (keysInstalled qpn s) := by
  unfold keysInstalled
  dsimp only
  repeat' (first | with_reducible assumption | with_reducible apply keep_emit | with_reducible apply keep_updConn | with_reducible apply keep_ite | fail_if_no_progress with_reducible refine keep_rest ?_ | split)

theorem keep_execLinkKeyA (qpn : Nat) (payload : Bytes) (t : Nat) (hk : Keep pq PP s) : KeepRes pq PP (execLinkKeyA qpn payload t s) := by
  unfold execLinkKeyA
  dsimp only
  repeat' (first | with_reducible apply keepRes_next | with_reducible apply keepRes_ite | with_reducible assumption | with_reducible apply keep_tick | with_reducible apply keep_emit | with_reducible apply keep_updConn | with_reducible apply keep_closeConn | with_reducible apply keep_outOfState | with_reducible apply keep_ite | fail_if_no_progress with_reducible refine keep_rest ?_ | split)

theorem keep_execLinkKeyB (qpn : Nat) (payload : Bytes) (t : Nat) (hk : Keep pq PP s) : KeepRes pq PP (execLinkKeyB qpn payload t s) := by
  unfold execLinkKeyB
  dsimp only
  repeat' (first | with_reducible apply keepRes_next | with_reducible apply keepRes_ite | with_reducible assumption | with_reducible apply keep_tick | with_reducible apply keep_emit | with_reducible apply keep_updConn | with_reducible apply keep_closeConn | with_reducible apply keep_outOfState | with_reducible apply keep_keysInstalled | with_reducible apply keep_ite | fail_if_no_progress with_reducible refine keep_rest ?_ | split)

theorem keep_execLinkKeyC (qpn : Nat) (payload : Bytes) (t : Nat) (hk : Keep pq PP s) : KeepRes pq PP (execLinkKeyC qpn payload t s) := by
  unfold execLinkKeyC
  dsimp only
  repeat' (first | with_reducible apply keepRes_next | with_reducible apply keepRes_ite | with_reducible assumption | with_reducible apply keep_tick | with_reducible apply keep_updConn | with_reducible apply keep_closeConn | with_reducible apply keep_outOfState | with_reducible apply keep_keysInstalled | with_reducible apply keep_ite | fail_if_no_progress with_reducible refine keep_rest ?_ | split)

theorem keep_execLinkRekey (qpn : Nat) (hk : Keep pq PP s) : KeepRes pq PP (execLinkRekey qpn s) := by
  unfold execLinkRekey
  repeat' (first | with_reducible apply keepRes_next | with_reducible apply keepRes_ite | with_reducible assumption | with_reducible apply keep_updConn | with_reducible apply keep_ite | fail_if_no_progress with_reducible refine keep_rest ?_ | split)

theorem keep_openConn (qpn : Nat) (proto : Nat) (minor : Nat) (msgs : Nat) (byts : Nat) (gmsgs : Nat) (gbyts : Nat) (hk : Keep pq PP s) : Keep pq PP (openConn qpn proto minor msgs byts gmsgs gbyts s) := by
  unfold openConn
  repeat' (first | with_reducible assumption | with_reducible apply keep_updConn)

theorem keep_execHello (qpn : Nat) (payload : Bytes) (t : Nat) (hk : Keep pq PP s) : KeepRes pq PP (execHello qpn payload t s) := by
  unfold execHello
  dsimp only
  repeat' (first | with_reducible apply keepRes_next | with_reducible apply keepRes_ite | with_reducible assumption | with_reducible apply keep_tick | with_reducible apply keep_emit | with_reducible apply keep_flushPeer | with_reducible apply keep_outOfState | with_reducible apply keep_openConn | with_reducible apply keep_ite | fail_if_no_progress with_reducible refine keep_rest ?_ | split)

theorem keep_execHelloReply (qpn : Nat) (payload : Bytes) (t : Nat) (hk : Keep pq PP s) : KeepRes pq PP (execHelloReply qpn payload t s) := by
  unfold execHelloReply
  dsimp only
  repeat' (first | with_reducible apply keepRes_next | with_reducible apply keepRes_ite | with_reducible assumption | with_reducible apply keep_tick | with_reducible apply keep_flushPeer | with_reducible apply keep_closeConn | with_reducible apply keep_outOfState | with_reducible apply keep_openConn | with_reducible apply keep_ite | fail_if_no_progress with_reducible refine keep_rest ?_ | split)

theorem keep_notReady (qpn : Nat) (hk : Keep pq PP s) : Keep pq PP (notReady qpn s) := by
  unfold notReady
  dsimp only
  repeat' (first | with_reducible assumption | with_reducible apply keep_bump | with_reducible apply keep_emit | with_reducible apply keep_logEvent | with_reducible apply keep_updConn | with_reducible apply keep_ite | fail_if_no_progress with_reducible refine keep_rest ?_ | split)

theorem keep_takeCredit (c : Conn) (b : Bytes) (hk : Keep pq PP s) : Keep pq PP (takeCredit c b s) := by
  unfold takeCredit
  repeat' (first | with_reducible assumption | with_reducible apply keep_updConn | with_reducible apply keep_flushPeer)

theorem keep_sppFrame (c : Conn) (b : Bytes) (hk : Keep pq PP s) : Keep pq PP (sppFrame c b s) := by
  unfold sppFrame
  repeat' (first | with_reducible assumption | with_reducible apply keep_bump | with_reducible apply keep_updConn | with_reducible apply keep_notReady | with_reducible apply keep_takeCredit | with_reducible apply keep_ite)

theorem keep_execCredit (qpn : Nat) (payload : Bytes) (t : Nat) (hk : Keep pq PP s) : KeepRes pq PP (execCredit qpn payload t s) := by
  unfold execCredit
  dsimp only
  repeat' (first | with_reducible apply keepRes_next | with_reducible apply keepRes_ite | with_reducible assumption | with_reducible apply keep_tick | with_reducible apply keep_sppFrame | with_reducible apply keep_ite | fail_if_no_progress with_reducible refine keep_rest ?_ | split)

theorem keep_execCreditReturnTimeout (qpn : Nat) (t : Nat) (hk : Keep pq PP s) : KeepRes pq PP (execCreditReturnTimeout qpn t s) := by
  unfold execCreditReturnTimeout
  dsimp only
  repeat' (first | with_reducible apply keepRes_next | with_reducible apply keepRes_ite | with_reducible assumption | with_reducible apply keep_tick | with_reducible apply keep_emit | with_reducible apply keep_updConn | with_reducible apply keep_ite | fail_if_no_progress with_reducible refine keep_rest ?_ | split)

theorem keep_execSppSuspendExpiry (qpn : Nat) (t : Nat) (hk : Keep pq PP s) : KeepRes pq PP (execSppSuspendExpiry qpn t s) := by
  unfold execSppSuspendExpiry
  dsimp only
  repeat' (first | with_reducible apply keepRes_next | with_reducible apply keepRes_ite | with_reducible assumption | with_reducible apply keep_tick | with_reducible apply keep_updConn | with_reducible apply keep_flushPeer | with_reducible apply keep_ite | fail_if_no_progress with_reducible refine keep_rest ?_ | split)

theorem keep_execAckTimeout (qpn : Nat) (t : Nat) (hk : Keep pq PP s) : KeepRes pq PP (execAckTimeout qpn t s) := by
  unfold execAckTimeout
  dsimp only
  repeat' (first | with_reducible apply keepRes_next | with_reducible apply keepRes_ite | with_reducible assumption | with_reducible apply keep_tick | with_reducible apply keep_emit | with_reducible apply keep_updConn | with_reducible apply keep_closeConn | with_reducible apply keep_ite | fail_if_no_progress with_reducible refine keep_rest ?_ | split)

theorem keep_congestion (c : Conn) (hk : Keep pq PP s) : Keep pq PP (congestion c s) := by
  unfold congestion
  dsimp only
  repeat' (first | with_reducible assumption | with_reducible apply keep_emit | with_reducible apply keep_updConn | with_reducible apply keep_ite)

theorem keep_deliver (c : Conn) (b : Bytes) (t : Nat) (hk : Keep pq PP s) : Keep pq PP (deliver c b t s) := by
  unfold deliver
  repeat' (first | with_reducible assumption | with_reducible apply keep_receiveEntry | with_reducible apply keep_outOfState | with_reducible apply keep_sppFrame | with_reducible apply keep_ite | fail_if_no_progress with_reducible refine keep_rest ?_ | split)

theorem keep_roceMessage (c : Conn) (p : Packet) (t : Nat) (hk : Keep pq PP s) : Keep pq PP (roceMessage c p t s) := by
  unfold roceMessage
  dsimp only
  repeat' (first | with_reducible assumption | with_reducible apply keep_bump | with_reducible apply keep_emit | with_reducible apply keep_updConn | with_reducible apply keep_closeConn | with_reducible apply keep_notReady | with_reducible apply keep_deliver | with_reducible apply keep_ite | fail_if_no_progress with_reducible refine keep_rest ?_ | split)

theorem keep_execFrameReceive (port : Nat) (sub : Nat) (frame : Frame) (t : Nat) (hk : Keep pq PP s) : KeepRes pq PP (execFrameReceive port sub frame t s) := by
  unfold execFrameReceive
  dsimp only
  repeat' (first | with_reducible apply keepRes_next | with_reducible apply keepRes_ite | with_reducible assumption | with_reducible apply keep_tick | with_reducible apply keep_bump | with_reducible apply keep_congestion | with_reducible apply keep_closeConn | with_reducible apply keep_roceMessage | with_reducible apply keep_ite | fail_if_no_progress with_reducible refine keep_rest ?_ | split)

theorem keep_execPfcPause (port : Nat) (sub : Nat) (priority : Nat) (paused : Bool) (t : Nat) (hk : Keep pq PP s) : KeepRes pq PP (execPfcPause port sub priority paused t s) := by
  unfold execPfcPause
  dsimp only
  repeat' (first | with_reducible apply keepRes_next | with_reducible apply keepRes_ite | with_reducible assumption | with_reducible apply keep_tick | with_reducible apply keep_updSub)

theorem keep_execPfcStorm (port : Nat) (sub : Nat) (priority : Nat) (t : Nat) (hk : Keep pq PP s) : KeepRes pq PP (execPfcStorm port sub priority t s) := by
  unfold execPfcStorm
  dsimp only
  repeat' (first | with_reducible apply keepRes_next | with_reducible apply keepRes_ite | with_reducible assumption | with_reducible apply keep_tick | with_reducible apply keep_bump | with_reducible apply keep_logEvent | with_reducible apply keep_updSub | with_reducible apply keep_ite | fail_if_no_progress with_reducible refine keep_rest ?_ | split)

theorem keep_execPfcStormEnd (port : Nat) (sub : Nat) (priority : Nat) (t : Nat) (hk : Keep pq PP s) : KeepRes pq PP (execPfcStormEnd port sub priority t s) := by
  unfold execPfcStormEnd
  dsimp only
  repeat' (first | with_reducible apply keepRes_next | with_reducible apply keepRes_ite | with_reducible assumption | with_reducible apply keep_tick | with_reducible apply keep_updSub | with_reducible apply keep_ite | fail_if_no_progress with_reducible refine keep_rest ?_ | split)

theorem keep_execCnpReceive (qpn : Nat) (t : Nat) (hk : Keep pq PP s) : KeepRes pq PP (execCnpReceive qpn t s) := by
  unfold execCnpReceive
  dsimp only
  repeat' (first | with_reducible apply keepRes_next | with_reducible assumption | with_reducible apply keep_tick | with_reducible apply keep_updConn)

theorem keep_execRpRecovery (qpn : Nat) (t : Nat) (hk : Keep pq PP s) : KeepRes pq PP (execRpRecovery qpn t s) := by
  unfold execRpRecovery
  dsimp only
  repeat' (first | with_reducible apply keepRes_next | with_reducible apply keepRes_ite | with_reducible assumption | with_reducible apply keep_tick | with_reducible apply keep_updConn)

theorem keep_execLinkTraining (port : Nat) (sub : Nat) (trained : Bool) (t : Nat) (hk : Keep pq PP s) : KeepRes pq PP (execLinkTraining port sub trained t s) := by
  unfold execLinkTraining
  dsimp only
  repeat' (first | with_reducible apply keepRes_next | with_reducible apply keepRes_ite | with_reducible assumption | with_reducible apply keep_tick | with_reducible apply keep_updSub)

theorem keep_dropLinks (port : Nat) (hk : Keep pq PP s) : Keep pq PP (dropLinks port s) := by
  unfold dropLinks
  dsimp only
  repeat' (first | with_reducible assumption | fail_if_no_progress with_reducible refine keep_rest ?_)

theorem keep_execLinkDown (port : Nat) (sub : Nat) (management : Bool) (t : Nat) (hk : Keep pq PP s) : KeepRes pq PP (execLinkDown port sub management t s) := by
  unfold execLinkDown
  dsimp only
  repeat' (first | with_reducible apply keepRes_next | with_reducible apply keepRes_ite | with_reducible assumption | with_reducible apply keep_tick | with_reducible apply keep_closeConns | with_reducible apply keep_updSub | with_reducible apply keep_ite | fail_if_no_progress with_reducible refine keep_rest ?_ | split)

theorem keep_setCage (port : Nat) (medium : Nat) (hk : Keep pq PP s) : Keep pq PP (setCage port medium s) := by
  unfold setCage
  dsimp only
  repeat' (first | with_reducible assumption | with_reducible apply keep_bump | with_reducible apply keep_ite | fail_if_no_progress with_reducible refine keep_rest ?_)

theorem keep_execCageInsert (port : Nat) (plug : PlugIn) (t : Nat) (hk : Keep pq PP s) : KeepRes pq PP (execCageInsert port plug t s) := by
  unfold execCageInsert
  dsimp only
  repeat' (first | with_reducible apply keepRes_next | with_reducible apply keepRes_ite | with_reducible assumption | with_reducible apply keep_tick | with_reducible apply keep_dropLinks | with_reducible apply keep_setCage | with_reducible apply keep_ite)

theorem keep_execPlugInRemoved (port : Nat) (t : Nat) (hk : Keep pq PP s) : KeepRes pq PP (execPlugInRemoved port t s) := by
  unfold execPlugInRemoved
  repeat' (first | with_reducible apply keepRes_next | with_reducible assumption | with_reducible apply keep_tick | with_reducible apply keep_dropLinks | with_reducible apply keep_setCage)

theorem keep_execPlugInHighAlarm (port : Nat) (t : Nat) (hk : Keep pq PP s) : KeepRes pq PP (execPlugInHighAlarm port t s) := by
  unfold execPlugInHighAlarm
  dsimp only
  repeat' (first | with_reducible apply keepRes_next | with_reducible apply keepRes_ite | with_reducible assumption | with_reducible apply keep_tick | with_reducible apply keep_dropLinks | with_reducible apply keep_setCage | with_reducible apply keep_ite)

theorem keep_shiftTimes (d : Nat) (hk : Keep pq PP s) : Keep pq PP (shiftTimes d s) :=
  keep_rest hk (hs := List.length_map _) (hd := List.length_map _) (hb3 := (List.length_map _).le)

theorem keep_execPtpMessage (sync : PtpSync) (t : Nat) (hk : Keep pq PP s) : KeepRes pq PP (execPtpMessage sync t s) := by
  unfold execPtpMessage
  dsimp only
  repeat' (first | with_reducible apply keepRes_next | with_reducible apply keepRes_ite | with_reducible assumption | with_reducible apply keep_tick | with_reducible apply keep_shiftTimes | with_reducible apply keep_ite | fail_if_no_progress with_reducible refine keep_rest ?_)

theorem keep_execPtpSyncLoss (t : Nat) (hk : Keep pq PP s) : KeepRes pq PP (execPtpSyncLoss t s) := by
  unfold execPtpSyncLoss
  dsimp only
  repeat' (first | with_reducible apply keepRes_next | with_reducible apply keepRes_ite | with_reducible assumption | with_reducible apply keep_tick | with_reducible apply keep_ite | fail_if_no_progress with_reducible refine keep_rest ?_)

end Sys2Proof.Laws
end

