-- ==== Sys2Proof/Laws/KeepMesh.lean ====
section
/-! SUPPORT. What the invariant of Laws/Keep.lean sees is kept by every operation of the write path, the objects, the epochs and the exchanges of heads. -/

set_option Elab.async false

namespace Sys2Proof.Laws

open Machine

variable {pq : List Instr} {PP : Prot → Prop} {s : State}

/-! ### Machine/Ingest.lean -/

theorem keep_updIngest (seq : Nat) (f : Ingest → Ingest) (hk : Keep pq PP s) : Keep pq PP (updIngest seq f s) := by
  unfold updIngest
  dsimp only
  repeat' (first | with_reducible assumption | fail_if_no_progress with_reducible refine keep_rest ?_)

theorem keep_noteReach (coll : Nat) (queue : Nat) (epoch : Nat) (hk : Keep pq PP s) : Keep pq PP (noteReach coll queue epoch s) := by
  unfold noteReach
  repeat' (first | with_reducible assumption | with_reducible apply keep_updColl)

theorem keep_endIngest (g : Ingest) (status : Nat) (hk : Keep pq PP s) : Keep pq PP (endIngest g status s) := by
  unfold endIngest
  dsimp only
  repeat' (first | with_reducible assumption | with_reducible apply keep_finish | with_reducible apply keep_noteReach | with_reducible apply keep_ite | fail_if_no_progress with_reducible refine keep_rest ?_ | split)

theorem keep_forwardPart (g : Ingest) (sch : Bytes) (rows : List Row) (ids : List Nat) (dest : Nat × Nat) (hk : Keep pq PP s) : Keep pq PP (forwardPart g sch rows ids s dest) := by
  unfold forwardPart
  dsimp only
  repeat' (first | with_reducible assumption | with_reducible apply keep_sendSpp | with_reducible apply keep_updIngest | fail_if_no_progress with_reducible refine keep_rest ?_)

theorem keep_ownPart (g : Ingest) (c : Coll) (body : UnitBody) (hk : Keep pq PP s) : Keep pq PP (ownPart g c body s) := by
  unfold ownPart
  dsimp only
  repeat' (first | with_reducible assumption | with_reducible apply keep_addUnit | with_reducible apply keep_updIngest | with_reducible apply keep_endIngest | fail_if_no_progress with_reducible refine keep_rest ?_ | split)

theorem keep_runBatch (g : Ingest) (rows : List Row) (ids : List Nat) (hk : Keep pq PP s) : Keep pq PP (runBatch g rows ids s) := by
  unfold runBatch
  dsimp only
  repeat' (first | with_reducible assumption | with_reducible apply keep_forwardPart | with_reducible apply keep_ownPart | with_reducible apply keep_ite | with_reducible apply keep_foldl | fail_if_no_progress with_reducible refine keep_rest ?_ | split | intro _ _ _)

theorem keep_nextBatch (seq : Nat) (hk : Keep pq PP s) : Keep pq PP (nextBatch seq s) := by
  unfold nextBatch
  dsimp only
  repeat' (first | with_reducible assumption | with_reducible apply keep_updIngest | with_reducible apply keep_endIngest | with_reducible apply keep_runBatch | fail_if_no_progress with_reducible refine keep_rest ?_ | split)

theorem keep_partDone (seq : Nat) (mine : Ingest → Ingest) (e : Nat) (count : Nat) (hk : Keep pq PP s) : Keep pq PP (partDone seq mine e count s) := by
  unfold partDone
  dsimp only
  repeat' (first | with_reducible assumption | with_reducible apply keep_updIngest | with_reducible apply keep_nextBatch | with_reducible apply keep_ite | fail_if_no_progress with_reducible refine keep_rest ?_ | split)

theorem keep_answerRows (sender : Nat) (tag : Nat) (epoch : Nat) (count : Nat) (status : Nat) (newOwner : Nat) (offset : Nat) (hk : Keep pq PP s) : Keep pq PP (answerRows sender tag epoch count status newOwner offset s) := by
  unfold answerRows
  repeat' (first | with_reducible assumption | with_reducible apply keep_sendSpp)

theorem keep_jobDone (coll : Nat) (seq : Nat) (epoch : Nat) (hk : Keep pq PP s) : Keep pq PP (jobDone coll seq epoch s) := by
  unfold jobDone
  dsimp only
  repeat' (first | with_reducible assumption | with_reducible apply keep_succeed | with_reducible apply keep_noteReach | fail_if_no_progress with_reducible refine keep_rest ?_ | split)

theorem keep_unitDone (u : CUnit) (e : Nat) (count : Nat) (hk : Keep pq PP s) : Keep pq PP (unitDone u e count s) := by
  unfold unitDone
  repeat' (first | with_reducible assumption | with_reducible apply keep_partDone | with_reducible apply keep_answerRows | with_reducible apply keep_jobDone | fail_if_no_progress with_reducible refine keep_rest ?_ | split)

theorem keep_unitFails (u : CUnit) (status : Nat) (hk : Keep pq PP s) : Keep pq PP (unitFails u status s) := by
  unfold unitFails
  dsimp only
  repeat' (first | with_reducible assumption | with_reducible apply keep_fail | with_reducible apply keep_stopJob | with_reducible apply keep_dropUnit | with_reducible apply keep_endIngest | with_reducible apply keep_answerRows | fail_if_no_progress with_reducible refine keep_rest ?_ | split)

theorem keep_commitAt (u : CUnit) (e : Nat) (hk : Keep pq PP s) : Keep pq PP (commitAt u e s) := by
  unfold commitAt
  repeat' (first | with_reducible assumption | with_reducible apply keep_updColl | with_reducible apply keep_settle | with_reducible apply keep_stampUnit | with_reducible apply keep_dropUnit | with_reducible apply keep_unitDone | fail_if_no_progress with_reducible refine keep_rest ?_ | split)

theorem keep_startIngest (c : Cmd) (insert : Bool) (rows : List (List Row)) (ids : List (List Nat)) (hk : Keep pq PP s) : Keep pq PP (startIngest c insert rows ids s) := by
  unfold startIngest
  dsimp only
  repeat' (first | with_reducible assumption | with_reducible apply keep_startWork | with_reducible apply keep_nextBatch | fail_if_no_progress with_reducible refine keep_rest ?_)

theorem keep_execInsert (seq : Nat) (input : Bytes) (hk : Keep pq PP s) : KeepRes pq PP (execInsert seq input s) := by
  unfold execInsert
  dsimp only
  repeat' (first | with_reducible apply keepRes_next | with_reducible apply keepRes_ite | with_reducible assumption | with_reducible apply keep_succeed | with_reducible apply keep_fail | with_reducible apply keep_failPayload | with_reducible apply keep_startIngest | with_reducible apply keep_ite | fail_if_no_progress with_reducible refine keep_rest ?_ | split)

theorem keep_execDelete (seq : Nat) (input : Bytes) (hk : Keep pq PP s) : KeepRes pq PP (execDelete seq input s) := by
  unfold execDelete
  dsimp only
  repeat' (first | with_reducible apply keepRes_next | with_reducible apply keepRes_ite | with_reducible assumption | with_reducible apply keep_succeed | with_reducible apply keep_fail | with_reducible apply keep_startIngest | with_reducible apply keep_ite | fail_if_no_progress with_reducible refine keep_rest ?_ | split)

theorem keep_retryUnit (u : CUnit) (hk : Keep pq PP s) : Keep pq PP (retryUnit s u) := by
  unfold retryUnit
  repeat' (first | with_reducible assumption | with_reducible apply keep_updUnit | with_reducible apply keep_unitFails | fail_if_no_progress with_reducible refine keep_rest ?_ | split)

theorem keep_execAppendRoomResume (coll : Nat) (hk : Keep pq PP s) : KeepRes pq PP (execAppendRoomResume coll s) := by
  unfold execAppendRoomResume
  repeat' (first | with_reducible apply keepRes_next | with_reducible assumption | with_reducible apply keep_retryUnit | fail_if_no_progress with_reducible refine keep_rest ?_ | split)

theorem keep_forwardResult (g : Ingest) (f : Fwd) (payload : Bytes) (hk : Keep pq PP s) : Keep pq PP (forwardResult g f payload s) := by
  unfold forwardResult
  dsimp only
  repeat' (first | with_reducible assumption | with_reducible apply keep_updColl | with_reducible apply keep_sendSpp | with_reducible apply keep_updIngest | with_reducible apply keep_endIngest | with_reducible apply keep_ownPart | with_reducible apply keep_partDone | with_reducible apply keep_ite | fail_if_no_progress with_reducible refine keep_rest ?_ | split)

/-! ### Machine/Relocate.lean -/

theorem keep_placeTile (n : TileNeed) (hk : Keep pq PP s) : Keep pq PP (placeTile s n) := by
  unfold placeTile
  dsimp only
  repeat' (first | with_reducible assumption | with_reducible apply keep_hurtTile | with_reducible apply keep_ite | with_reducible apply keep_foldl | fail_if_no_progress with_reducible refine keep_rest ?_ | split | intro _ _ _)

theorem keep_placeTiles (hk : Keep pq PP s) : Keep pq PP (placeTiles s) := by
  unfold placeTiles
  dsimp only
  repeat' (first | with_reducible assumption | with_reducible apply keep_placeTile | with_reducible apply keep_foldl | fail_if_no_progress with_reducible refine keep_rest ?_)

theorem keep_touchBytes (dirty : Bool) (obj : MediaObj) (at_ : Nat) (n : Nat) (hk : Keep pq PP s) : Keep pq PP (touchBytes dirty obj at_ n s) := by
  unfold touchBytes
  repeat' (first | with_reducible assumption | with_reducible apply keep_useLine | with_reducible apply keep_foldl | fail_if_no_progress with_reducible refine keep_rest ?_ | split | intro _ _ _)

theorem keep_touchRows (v : Head) (slots : List Nat) (hk : Keep pq PP s) : Keep pq PP (touchRows v slots s) := by
  unfold touchRows
  dsimp only
  repeat' (first | with_reducible assumption | with_reducible apply keep_placeTiles | with_reducible apply keep_touchBytes | with_reducible apply keep_foldl | fail_if_no_progress with_reducible refine keep_rest ?_ | intro _ _ _)

theorem keep_execScrubPass (scrub : Scrub) (t : Nat) (hk : Keep pq PP s) : KeepRes pq PP (execScrubPass scrub t s) := by
  unfold execScrubPass
  dsimp only
  repeat' (first | with_reducible apply keepRes_next | with_reducible apply keepRes_ite | with_reducible assumption | with_reducible apply keep_tick | with_reducible apply keep_readBurst | with_reducible apply keep_placeTiles | with_reducible apply keep_ite)

theorem keep_execTileRelocation (tile : Nat) (channel : Nat) (bank : Nat) (whole : Bool) (row : Nat) (hk : Keep pq PP s) : KeepRes pq PP (execTileRelocation tile channel bank whole row s) := by
  unfold execTileRelocation
  dsimp only
  repeat' (first | with_reducible apply keepRes_next | with_reducible apply keepRes_ite | with_reducible assumption | with_reducible apply keep_placeTiles | with_reducible apply keep_ite | fail_if_no_progress with_reducible refine keep_rest ?_ | split)

theorem keep_execRelocationSwitch (tile : Nat) (hk : Keep pq PP s) : KeepRes pq PP (execRelocationSwitch tile s) := by
  unfold execRelocationSwitch
  dsimp only
  repeat' (first | with_reducible apply keepRes_next | with_reducible apply keepRes_ite | with_reducible assumption | with_reducible apply keep_bump | with_reducible apply keep_idleFrom | with_reducible apply keep_bypassWrite | with_reducible apply keep_healObject | with_reducible apply keep_ite | with_reducible apply keep_foldl | fail_if_no_progress with_reducible refine keep_rest ?_ | split)

/-! ### Machine/Objects.lean -/

theorem keep_abandonJob (c : Coll) (hk : Keep pq PP s) : Keep pq PP (abandonJob c s) := by
  unfold abandonJob
  repeat' (first | with_reducible assumption | with_reducible apply keep_fail | with_reducible apply keep_stopJob | with_reducible apply keep_foldl | fail_if_no_progress with_reducible refine keep_rest ?_ | intro _ _ _)

theorem keep_beginDeleteColl (id : Nat) (seq : Option Nat) (hk : Keep pq PP s) : Keep pq PP (beginDeleteColl id seq s) := by
  unfold beginDeleteColl
  repeat' (first | with_reducible assumption | with_reducible apply keep_updColl | with_reducible apply keep_abandonJob | fail_if_no_progress with_reducible refine keep_rest ?_ | split)

theorem keep_beginDeleteHead (id : Nat) (seq : Option Nat) (hk : Keep pq PP s) : Keep pq PP (beginDeleteHead id seq s) := by
  unfold beginDeleteHead
  repeat' (first | with_reducible assumption | with_reducible apply keep_updHead)

theorem keep_execDeleteCollection (seq : Nat) (hk : Keep pq PP s) : KeepRes pq PP (execDeleteCollection seq s) := by
  unfold execDeleteCollection
  repeat' (first | with_reducible apply keepRes_next | with_reducible assumption | with_reducible apply keep_startWork | fail_if_no_progress with_reducible refine keep_rest ?_ | split)

theorem keep_execDeleteMemoryHead (seq : Nat) (hk : Keep pq PP s) : KeepRes pq PP (execDeleteMemoryHead seq s) := by
  unfold execDeleteMemoryHead
  repeat' (first | with_reducible apply keepRes_next | with_reducible apply keepRes_ite | with_reducible assumption | with_reducible apply keep_failEntry | with_reducible apply keep_startWork | with_reducible apply keep_beginDeleteHead | with_reducible apply keep_ite | fail_if_no_progress with_reducible refine keep_rest ?_ | split)

theorem keep_createKey (kind : Nat) (id : Nat) (hk : Keep pq PP s) : Keep pq PP (createKey kind id s) := by
  unfold createKey
  dsimp only
  repeat' (first | with_reducible assumption | with_reducible apply keep_useFree | fail_if_no_progress with_reducible refine keep_rest ?_)

theorem keep_destroyKey (kind : Nat) (id : Nat) (hk : Keep pq PP s) : Keep pq PP (destroyKey kind id s) := by
  unfold destroyKey
  dsimp only
  repeat' (first | with_reducible assumption | with_reducible apply keep_bump | with_reducible apply keep_ite | fail_if_no_progress with_reducible refine keep_rest ?_)

theorem keep_releaseObject (kind : Nat) (id : Nat) (hk : Keep pq PP s) : Keep pq PP (releaseObject kind id s) := by
  unfold releaseObject
  dsimp only
  repeat' (first | with_reducible assumption | with_reducible apply keep_ite | fail_if_no_progress with_reducible refine keep_rest ?_)

theorem keep_removeObject (kind : Nat) (id : Nat) (hk : Keep pq PP s) : Keep pq PP (removeObject kind id s) := by
  unfold removeObject
  repeat' (first | with_reducible assumption | with_reducible apply keep_destroyKey | with_reducible apply keep_releaseObject)

theorem keep_execDataKeyDestroy (kind : Nat) (id : Nat) (hk : Keep pq PP s) : KeepRes pq PP (execDataKeyDestroy kind id s) := by
  unfold execDataKeyDestroy
  dsimp only
  repeat' (first | with_reducible apply keepRes_next | with_reducible apply keepRes_ite | with_reducible assumption | with_reducible apply keep_succeed | with_reducible apply keep_removeObject | with_reducible apply keep_ite | fail_if_no_progress with_reducible refine keep_rest ?_ | split)

/-! ### Machine/Heads.lean -/

theorem keep_failInput (seq : Nat) (x : Nat × Nat) (hk : Keep pq PP s) : Keep pq PP (failInput seq x s) := by
  unfold failInput
  repeat' (first | with_reducible assumption | with_reducible apply keep_fail | with_reducible apply keep_failPayload | with_reducible apply keep_ite)

theorem keep_addHead (h : Head) (hk : Keep pq PP s) : Keep pq PP (addHead h s) := by
  unfold addHead
  dsimp only
  repeat' (first | with_reducible assumption | with_reducible apply keep_chainStart | with_reducible apply keep_coldWrite | with_reducible apply keep_createKey | with_reducible apply keep_ite | fail_if_no_progress with_reducible refine keep_rest ?_)

theorem keep_execCreateMemoryHead (seq : Nat) (input : Bytes) (hk : Keep pq PP s) : KeepRes pq PP (execCreateMemoryHead seq input s) := by
  unfold execCreateMemoryHead
  dsimp only
  repeat' (first | with_reducible apply keepRes_next | with_reducible apply keepRes_ite | with_reducible assumption | with_reducible apply keep_succeed | with_reducible apply keep_fail | with_reducible apply keep_failInput | with_reducible apply keep_addHead | with_reducible apply keep_ite | fail_if_no_progress with_reducible refine keep_rest ?_ | split)

theorem keep_renarrow (id : Nat) (m : Master) (hk : Keep pq PP s) : Keep pq PP (renarrow id m s) := by
  unfold renarrow
  dsimp only
  repeat' (first | with_reducible assumption | with_reducible apply keep_bump | with_reducible apply keep_updHead | with_reducible apply keep_ite | fail_if_no_progress with_reducible refine keep_rest ?_ | split)

theorem keep_renarrowAll (id : Nat) (hk : Keep pq PP s) : Keep pq PP (renarrowAll id s) := by
  unfold renarrowAll
  repeat' (first | with_reducible assumption | with_reducible apply keep_renarrow | with_reducible apply keep_ite | with_reducible apply keep_foldl | fail_if_no_progress with_reducible refine keep_rest ?_ | split | intro _ _ _)

theorem keep_storeRow (id : Nat) (t : Nat) (row : Nat) (b : Bytes) (hk : Keep pq PP s) : Keep pq PP (storeRow id t row b s) := by
  unfold storeRow
  dsimp only
  repeat' (first | with_reducible assumption | with_reducible apply keep_updHead | with_reducible apply keep_ite | fail_if_no_progress with_reducible refine keep_rest ?_ | split)

theorem keep_storeTile (id : Nat) (t : Nat) (b : Bytes) (hk : Keep pq PP s) : Keep pq PP (storeTile id t b s) := by
  unfold storeTile
  dsimp only
  repeat' (first | with_reducible assumption | with_reducible apply keep_updHead | with_reducible apply keep_renarrowAll | with_reducible apply keep_ite)

theorem keep_discardStash (ids : List Nat) (order : Nat) (hk : Keep pq PP s) : Keep pq PP (discardStash ids order s) := by
  unfold discardStash
  repeat' (first | with_reducible assumption | with_reducible apply keep_dropStash | with_reducible apply keep_foldl | fail_if_no_progress with_reducible refine keep_rest ?_ | intro _ _ _)

theorem keep_chainUnits (h : Head) (t : Nat) (b : Bytes) (hk : Keep pq PP s) : Keep pq PP (chainUnits h t b s) := by
  unfold chainUnits
  repeat' (first | with_reducible assumption | with_reducible apply keep_chainExtend | with_reducible apply keep_foldl | fail_if_no_progress with_reducible refine keep_rest ?_ | intro _ _ _)

theorem keep_tensorWritten (h : Head) (t : Nat) (n : Nat) (order : Nat) (b : Bytes) (hk : Keep pq PP s) : Keep pq PP (tensorWritten h t n order b s) := by
  unfold tensorWritten
  repeat' (first | with_reducible assumption | with_reducible apply keep_bypassWrite | with_reducible apply keep_coldWrite | with_reducible apply keep_discardStash | with_reducible apply keep_chainUnits)

theorem keep_landTile (h : Head) (t : Nat) (order : Nat) (landed : Bytes) (unit : Bytes) (last : Bool) (hk : Keep pq PP s) : Keep pq PP (landTile h t order landed unit last s) := by
  unfold landTile
  dsimp only
  repeat' (first | with_reducible assumption | with_reducible apply keep_updHead | with_reducible apply keep_storeTile | with_reducible apply keep_tensorWritten | with_reducible apply keep_ite)

theorem keep_landRows (h : Head) (t : Nat) (first : Nat) (order : Nat) (mine : List Nat) (unit : Bytes) (hk : Keep pq PP s) : Keep pq PP (landRows h t first order mine unit s) := by
  unfold landRows
  dsimp only
  repeat' (first | with_reducible assumption | with_reducible apply keep_clearLost | with_reducible apply keep_storeRow | with_reducible apply keep_tensorWritten | with_reducible apply keep_ite | with_reducible apply keep_foldl | fail_if_no_progress with_reducible refine keep_rest ?_ | intro _ _ _)

theorem keep_landUnit (h : Head) (w : HeadWrite) (hk : Keep pq PP s) : Keep pq PP (landUnit h w s) := by
  unfold landUnit
  dsimp only
  repeat' (first | with_reducible assumption | with_reducible apply keep_succeed | with_reducible apply keep_landTile | with_reducible apply keep_landRows | with_reducible apply keep_ite | fail_if_no_progress with_reducible refine keep_rest ?_ | split)

theorem keep_beginWrite (c : Cmd) (h : Head) (units : List Bytes) (hk : Keep pq PP s) : Keep pq PP (beginWrite c h units s) := by
  unfold beginWrite
  dsimp only
  repeat' (first | with_reducible assumption | with_reducible apply keep_startWork | fail_if_no_progress with_reducible refine keep_rest ?_)

theorem keep_execHeadTensorWrite (seq : Nat) (input : Bytes) (hk : Keep pq PP s) : KeepRes pq PP (execHeadTensorWrite seq input s) := by
  unfold execHeadTensorWrite
  dsimp only
  repeat' (first | with_reducible apply keepRes_next | with_reducible apply keepRes_ite | with_reducible assumption | with_reducible apply keep_succeed | with_reducible apply keep_fail | with_reducible apply keep_failPayload | with_reducible apply keep_failEntry | with_reducible apply keep_landTile | with_reducible apply keep_landRows | with_reducible apply keep_beginWrite | with_reducible apply keep_ite | fail_if_no_progress with_reducible refine keep_rest ?_ | split)

/-! ### Machine/Epochs.lean -/

theorem keep_malformed (hk : Keep pq PP s) : Keep pq PP (malformed s) := by
  unfold malformed
  repeat' (first | with_reducible assumption | with_reducible apply keep_bump)

theorem keep_updShard (coll : Nat) (f : Shard → Shard) (hk : Keep pq PP s) : Keep pq PP (updShard coll f s) := by
  unfold updShard
  repeat' (first | with_reducible assumption | with_reducible apply keep_updColl)

theorem keep_relayStable (m : ShardMap) (coll : Nat) (stable : Nat) (hk : Keep pq PP s) : Keep pq PP (relayStable m coll stable s) := by
  unfold relayStable
  repeat' (first | with_reducible assumption | with_reducible apply keep_sendAll | fail_if_no_progress with_reducible refine keep_rest ?_ | split)

theorem keep_learnStable (coll : Nat) (stable : Nat) (hk : Keep pq PP s) : Keep pq PP (learnStable coll stable s) := by
  unfold learnStable
  repeat' (first | with_reducible assumption | with_reducible apply keep_updColl | with_reducible apply keep_settle)

theorem keep_sendStable (m : ShardMap) (coll : Nat) (stable : Nat) (hk : Keep pq PP s) : Keep pq PP (sendStable m coll stable s) := by
  unfold sendStable
  repeat' (first | with_reducible assumption | with_reducible apply keep_updShard | with_reducible apply keep_relayStable)

theorem keep_raiseStable (m : ShardMap) (coll : Nat) (hk : Keep pq PP s) : Keep pq PP (raiseStable m coll s) := by
  unfold raiseStable
  dsimp only
  repeat' (first | with_reducible assumption | with_reducible apply keep_updShard | with_reducible apply keep_learnStable | with_reducible apply keep_sendStable | with_reducible apply keep_ite | fail_if_no_progress with_reducible refine keep_rest ?_ | split)

theorem keep_newGrant (coll : Nat) (owner : Nat) (tag : Nat) (st : GrantState) (hk : Keep pq PP s) : Keep pq PP (newGrant coll owner tag st s) := by
  unfold newGrant
  repeat' (first | with_reducible assumption | with_reducible apply keep_updShard)

theorem keep_stampGrant (coll : Nat) (tag : Nat) (epoch : Nat) (hk : Keep pq PP s) : Keep pq PP (stampGrant coll tag epoch s) := by
  unfold stampGrant
  repeat' (first | with_reducible assumption | with_reducible apply keep_updShard)

theorem keep_updMove (coll : Nat) (f : Move → Move) (hk : Keep pq PP s) : Keep pq PP (updMove coll f s) := by
  unfold updMove
  repeat' (first | with_reducible assumption | with_reducible apply keep_updShard)

theorem keep_sendCopy (c : Coll) (shard : Nat) (m : Move) (rows : List Row) (ids : List Nat) (hk : Keep pq PP s) : Keep pq PP (sendCopy c shard m rows ids s) := by
  unfold sendCopy
  dsimp only
  repeat' (first | with_reducible assumption | with_reducible apply keep_sendSpp | with_reducible apply keep_updMove | with_reducible apply keep_ite | fail_if_no_progress with_reducible refine keep_rest ?_)

theorem keep_sendCutover (u : CUnit) (epoch : Nat) (hk : Keep pq PP s) : Keep pq PP (sendCutover u epoch s) := by
  unfold sendCutover
  dsimp only
  repeat' (first | with_reducible assumption | with_reducible apply keep_sendSpp | with_reducible apply keep_updMove | fail_if_no_progress with_reducible refine keep_rest ?_ | split)

theorem keep_cutoverFails (u : CUnit) (hk : Keep pq PP s) : Keep pq PP (cutoverFails u s) := by
  unfold cutoverFails
  dsimp only
  repeat' (first | with_reducible assumption | with_reducible apply keep_dropUnit | with_reducible apply keep_updShard)

theorem keep_useEpoch (u : CUnit) (e : Nat) (hk : Keep pq PP s) : Keep pq PP (useEpoch u e s) := by
  unfold useEpoch
  repeat' (first | with_reducible assumption | with_reducible apply keep_commitAt | with_reducible apply keep_sendCutover | fail_if_no_progress with_reducible refine keep_rest ?_ | split)

theorem keep_askEpoch (u : CUnit) (m : ShardMap) (hk : Keep pq PP s) : Keep pq PP (askEpoch u m s) := by
  unfold askEpoch
  repeat' (first | with_reducible assumption | with_reducible apply keep_sendSpp | with_reducible apply keep_raiseStable | with_reducible apply keep_newGrant | with_reducible apply keep_useEpoch | with_reducible apply keep_ite | fail_if_no_progress with_reducible refine keep_rest ?_ | split)

theorem keep_pumpMove (coll : Nat) (hk : Keep pq PP s) : Keep pq PP (pumpMove coll s) := by
  unfold pumpMove
  dsimp only
  repeat' (first | with_reducible assumption | with_reducible apply keep_addUnit | with_reducible apply keep_updShard | with_reducible apply keep_sendCopy | with_reducible apply keep_askEpoch | with_reducible apply keep_ite | fail_if_no_progress with_reducible refine keep_rest ?_ | split)

theorem keep_execBucketMoveStart (coll : Nat) (hk : Keep pq PP s) : KeepRes pq PP (execBucketMoveStart coll s) := by
  unfold execBucketMoveStart
  dsimp only
  repeat' (first | with_reducible apply keepRes_next | with_reducible assumption | with_reducible apply keep_updShard | with_reducible apply keep_pumpMove | fail_if_no_progress with_reducible refine keep_rest ?_ | split)

theorem keep_landNext (tag : Nat) (hk : Keep pq PP s) : Keep pq PP (landNext tag s) := by
  unfold landNext
  repeat' (first | with_reducible assumption | with_reducible apply keep_landUnit | with_reducible apply keep_ite | fail_if_no_progress with_reducible refine keep_rest ?_ | split)

theorem keep_execUnitCommit (tag : Nat) (t : Nat) (hk : Keep pq PP s) : KeepRes pq PP (execUnitCommit tag t s) := by
  unfold execUnitCommit
  dsimp only
  repeat' (first | with_reducible apply keepRes_next | with_reducible apply keepRes_ite | with_reducible assumption | with_reducible apply keep_tick | with_reducible apply keep_updColl | with_reducible apply keep_updUnit | with_reducible apply keep_dropUnit | with_reducible apply keep_commitAt | with_reducible apply keep_updShard | with_reducible apply keep_askEpoch | with_reducible apply keep_pumpMove | with_reducible apply keep_landNext | with_reducible apply keep_ite | fail_if_no_progress with_reducible refine keep_rest ?_ | split)

theorem keep_execEpochAlloc (peer : Nat) (payload : Bytes) (t : Nat) (hk : Keep pq PP s) : KeepRes pq PP (execEpochAlloc peer payload t s) := by
  unfold execEpochAlloc
  dsimp only
  repeat' (first | with_reducible apply keepRes_next | with_reducible apply keepRes_ite | with_reducible assumption | with_reducible apply keep_tick | with_reducible apply keep_sendSpp | with_reducible apply keep_malformed | with_reducible apply keep_newGrant | with_reducible apply keep_ite | fail_if_no_progress with_reducible refine keep_rest ?_ | split)

theorem keep_voidUnit (u : CUnit) (hk : Keep pq PP s) : Keep pq PP (voidUnit u s) := by
  unfold voidUnit
  repeat' (first | with_reducible assumption | with_reducible apply keep_unitFails | with_reducible apply keep_cutoverFails | fail_if_no_progress with_reducible refine keep_rest ?_ | split)

theorem keep_voidTag (coll : Nat) (tag : Nat) (hk : Keep pq PP s) : Keep pq PP (voidTag coll tag s) := by
  unfold voidTag
  dsimp only
  repeat' (first | with_reducible assumption | with_reducible apply keep_updColl | with_reducible apply keep_endIngest | with_reducible apply keep_voidUnit | with_reducible apply keep_ite | fail_if_no_progress with_reducible refine keep_rest ?_ | split)

theorem keep_execEpochGrant (peer : Nat) (payload : Bytes) (t : Nat) (hk : Keep pq PP s) : KeepRes pq PP (execEpochGrant peer payload t s) := by
  unfold execEpochGrant
  dsimp only
  repeat' (first | with_reducible apply keepRes_next | with_reducible apply keepRes_ite | with_reducible assumption | with_reducible apply keep_tick | with_reducible apply keep_sendSpp | with_reducible apply keep_malformed | with_reducible apply keep_useEpoch | with_reducible apply keep_pumpMove | with_reducible apply keep_voidTag | with_reducible apply keep_ite | fail_if_no_progress with_reducible refine keep_rest ?_ | split)

theorem keep_execEpochStamped (_peer : Nat) (payload : Bytes) (t : Nat) (hk : Keep pq PP s) : KeepRes pq PP (execEpochStamped _peer payload t s) := by
  unfold execEpochStamped
  dsimp only
  repeat' (first | with_reducible apply keepRes_next | with_reducible apply keepRes_ite | with_reducible assumption | with_reducible apply keep_tick | with_reducible apply keep_malformed | with_reducible apply keep_raiseStable | with_reducible apply keep_stampGrant | with_reducible apply keep_ite | fail_if_no_progress with_reducible refine keep_rest ?_ | split)

theorem keep_execEpochStable (_peer : Nat) (payload : Bytes) (t : Nat) (hk : Keep pq PP s) : KeepRes pq PP (execEpochStable _peer payload t s) := by
  unfold execEpochStable
  dsimp only
  repeat' (first | with_reducible apply keepRes_next | with_reducible apply keepRes_ite | with_reducible assumption | with_reducible apply keep_tick | with_reducible apply keep_malformed | with_reducible apply keep_relayStable | with_reducible apply keep_learnStable | with_reducible apply keep_ite | fail_if_no_progress with_reducible refine keep_rest ?_ | split)

theorem keep_execEpochVoid (coll : Nat) (epoch : Nat) (t : Nat) (hk : Keep pq PP s) : KeepRes pq PP (execEpochVoid coll epoch t s) := by
  unfold execEpochVoid
  dsimp only
  repeat' (first | with_reducible apply keepRes_next | with_reducible apply keepRes_ite | with_reducible assumption | with_reducible apply keep_tick | with_reducible apply keep_bump | with_reducible apply keep_sendSpp | with_reducible apply keep_updShard | with_reducible apply keep_raiseStable | with_reducible apply keep_voidTag | with_reducible apply keep_ite | fail_if_no_progress with_reducible refine keep_rest ?_ | split)

theorem keep_execStableIntervalExpiry (coll : Nat) (t : Nat) (hk : Keep pq PP s) : KeepRes pq PP (execStableIntervalExpiry coll t s) := by
  unfold execStableIntervalExpiry
  dsimp only
  repeat' (first | with_reducible apply keepRes_next | with_reducible apply keepRes_ite | with_reducible assumption | with_reducible apply keep_tick | with_reducible apply keep_sendStable | with_reducible apply keep_ite | fail_if_no_progress with_reducible refine keep_rest ?_ | split)

theorem keep_execEpochHoldExpiry (coll : Nat) (t : Nat) (hk : Keep pq PP s) : KeepRes pq PP (execEpochHoldExpiry coll t s) := by
  unfold execEpochHoldExpiry
  dsimp only
  repeat' (first | with_reducible apply keepRes_next | with_reducible assumption | with_reducible apply keep_tick | with_reducible apply keep_updColl | with_reducible apply keep_settle)

theorem keep_execKeeperUnreachableTimeout (seq : Nat) (t : Nat) (hk : Keep pq PP s) : KeepRes pq PP (execKeeperUnreachableTimeout seq t s) := by
  unfold execKeeperUnreachableTimeout
  dsimp only
  repeat' (first | with_reducible apply keepRes_next | with_reducible apply keepRes_ite | with_reducible assumption | with_reducible apply keep_tick | with_reducible apply keep_endIngest | with_reducible apply keep_ite | fail_if_no_progress with_reducible refine keep_rest ?_ | split)

theorem keep_peerUnit (c : Coll) (peer : Nat) (tag : Nat) (body : UnitBody) (hk : Keep pq PP s) : Keep pq PP (peerUnit c peer tag body s) := by
  unfold peerUnit
  repeat' (first | with_reducible assumption | with_reducible apply keep_addUnit | with_reducible apply keep_answerRows | fail_if_no_progress with_reducible refine keep_rest ?_ | split)

theorem keep_execRowForward (peer : Nat) (payload : Bytes) (t : Nat) (hk : Keep pq PP s) : KeepRes pq PP (execRowForward peer payload t s) := by
  unfold execRowForward
  dsimp only
  repeat' (first | with_reducible apply keepRes_next | with_reducible apply keepRes_ite | with_reducible assumption | with_reducible apply keep_tick | with_reducible apply keep_answerRows | with_reducible apply keep_malformed | with_reducible apply keep_peerUnit | with_reducible apply keep_ite | fail_if_no_progress with_reducible refine keep_rest ?_ | split)

theorem keep_dropTaken (coll : Nat) (bucket : Nat) (source : Nat) (hk : Keep pq PP s) : Keep pq PP (dropTaken coll bucket source s) := by
  unfold dropTaken
  repeat' (first | with_reducible assumption | with_reducible apply keep_updColl | fail_if_no_progress with_reducible refine keep_rest ?_ | split)

theorem keep_execBucketCopy (peer : Nat) (payload : Bytes) (t : Nat) (hk : Keep pq PP s) : KeepRes pq PP (execBucketCopy peer payload t s) := by
  unfold execBucketCopy
  dsimp only
  repeat' (first | with_reducible apply keepRes_next | with_reducible apply keepRes_ite | with_reducible assumption | with_reducible apply keep_tick | with_reducible apply keep_answerRows | with_reducible apply keep_malformed | with_reducible apply keep_peerUnit | with_reducible apply keep_dropTaken | with_reducible apply keep_ite | fail_if_no_progress with_reducible refine keep_rest ?_ | split)

theorem keep_execBucketCutover (peer : Nat) (payload : Bytes) (t : Nat) (hk : Keep pq PP s) : KeepRes pq PP (execBucketCutover peer payload t s) := by
  unfold execBucketCutover
  dsimp only
  repeat' (first | with_reducible apply keepRes_next | with_reducible apply keepRes_ite | with_reducible assumption | with_reducible apply keep_tick | with_reducible apply keep_answerRows | with_reducible apply keep_malformed | with_reducible apply keep_peerUnit | with_reducible apply keep_dropTaken | with_reducible apply keep_ite | fail_if_no_progress with_reducible refine keep_rest ?_ | split)

theorem keep_cutoverDone (coll : Nat) (tag : Nat) (epoch : Nat) (hk : Keep pq PP s) : Keep pq PP (cutoverDone coll tag epoch s) := by
  unfold cutoverDone
  dsimp only
  repeat' (first | with_reducible assumption | with_reducible apply keep_bump | with_reducible apply keep_sendSpp | with_reducible apply keep_commitAt | with_reducible apply keep_updShard | with_reducible apply keep_raiseStable | with_reducible apply keep_stampGrant | with_reducible apply keep_ite | fail_if_no_progress with_reducible refine keep_rest ?_ | split)

theorem keep_moveResult (c : Coll) (m : Move) (tag : Nat) (status : Nat) (hk : Keep pq PP s) : Keep pq PP (moveResult c m tag status s) := by
  unfold moveResult
  repeat' (first | with_reducible assumption | with_reducible apply keep_updMove | with_reducible apply keep_cutoverFails | with_reducible apply keep_pumpMove | with_reducible apply keep_cutoverDone | with_reducible apply keep_ite | fail_if_no_progress with_reducible refine keep_rest ?_ | split)

theorem keep_execRowResult (_peer : Nat) (payload : Bytes) (t : Nat) (hk : Keep pq PP s) : KeepRes pq PP (execRowResult _peer payload t s) := by
  unfold execRowResult
  dsimp only
  repeat' (first | with_reducible apply keepRes_next | with_reducible apply keepRes_ite | with_reducible assumption | with_reducible apply keep_tick | with_reducible apply keep_forwardResult | with_reducible apply keep_malformed | with_reducible apply keep_moveResult | with_reducible apply keep_ite | fail_if_no_progress with_reducible refine keep_rest ?_ | split)

/-! ### Machine/Guard.lean -/

theorem keep_beginReset (cause : Nat) (hk : Keep pq PP s) : Keep pq PP (beginReset cause s) := by
  unfold beginReset
  dsimp only
  repeat' (first | with_reducible assumption | with_reducible apply keep_logEvent | with_reducible apply keep_ite | fail_if_no_progress with_reducible refine keep_rest ?_)

theorem keep_lostStore (unit : Nat) (obj : MediaObj) (hk : Keep pq PP s) : Keep pq PP (lostStore unit obj s) := by
  unfold lostStore
  dsimp only
  repeat' (first | with_reducible assumption | fail_if_no_progress with_reducible refine keep_rest ?_)

theorem keep_lostLine (l : CacheLine) (hk : Keep pq PP s) : Keep pq PP (lostLine l s) := by
  unfold lostLine
  dsimp only
  repeat' (first | with_reducible assumption | with_reducible apply keep_bump | with_reducible apply keep_dropLine | with_reducible apply keep_hurtSlot | with_reducible apply keep_ite)

theorem keep_sramWord (x : SramWord) (hk : Keep pq PP s) : Keep pq PP (sramWord s x) := by
  unfold sramWord
  dsimp only
  repeat' (first | with_reducible assumption | with_reducible apply keep_bump | with_reducible apply keep_logEvent | with_reducible apply keep_lostStore | with_reducible apply keep_lostLine | with_reducible apply keep_ite | fail_if_no_progress with_reducible refine keep_rest ?_ | split)

theorem keep_retried (x : CodeChecks) (hk : Keep pq PP s) : Keep pq PP (retried x s) := by
  unfold retried
  repeat' (first | with_reducible assumption | with_reducible apply keep_bumpBy | with_reducible apply keep_ite)

theorem keep_readBursts (l : List Scrub) (hk : Keep pq PP s) : Keep pq PP (readBursts l s) := by
  unfold readBursts
  repeat' (first | with_reducible assumption | with_reducible apply keep_readBurst | with_reducible apply keep_placeTiles | with_reducible apply keep_ite | with_reducible apply keep_foldl | fail_if_no_progress with_reducible refine keep_rest ?_ | intro _ _ _)

theorem keep_guarded (x : Upsets) (hk : Keep pq PP s) : Keep pq PP (guarded x s) := by
  unfold guarded
  dsimp only
  repeat' (first | with_reducible assumption | with_reducible apply keep_bumpBy | with_reducible apply keep_sramWord | with_reducible apply keep_retried | with_reducible apply keep_readBursts | with_reducible apply keep_ite | with_reducible apply keep_foldl)

theorem keep_codeFails (c : Cmd) (m : CodeMismatch) (hk : Keep pq PP s) : Keep pq PP (codeFails c m s) := by
  unfold codeFails
  dsimp only
  repeat' (first | with_reducible assumption | with_reducible apply keep_logEvent | with_reducible apply keep_beginReset)

/-! ### Machine/Select.lean -/

theorem keep_countPasses (k : Nat) (hk : Keep pq PP s) : Keep pq PP (countPasses k s) := by
  unfold countPasses
  repeat' (first | with_reducible assumption | with_reducible apply keep_bumpBy)

/-! ### Machine/Layers.lean -/

theorem keep_failTile (seq : Nat) (x : Nat × Nat) (hk : Keep pq PP s) : Keep pq PP (failTile seq x s) := by
  unfold failTile
  repeat' (first | with_reducible assumption | with_reducible apply keep_bump | with_reducible apply keep_finish)

/-! ### Machine/MicroOps.lean -/

theorem keep_askPages (seq : Nat) (l : List Promotion) (hk : Keep pq PP s) : Keep pq PP (askPages seq l s) := by
  unfold askPages
  repeat' (first | with_reducible assumption | with_reducible apply keep_requestPages | with_reducible apply keep_foldl | fail_if_no_progress with_reducible refine keep_rest ?_ | intro _ _ _)

theorem keep_unpin (p : Plan) (hk : Keep pq PP s) : Keep pq PP (unpin p s) := by
  unfold unpin
  dsimp only
  repeat' (first | with_reducible assumption | fail_if_no_progress with_reducible refine keep_rest ?_)

theorem keep_runStream (seq : Nat) (hk : Keep pq PP s) : Keep pq PP (runStream seq s) := by
  unfold runStream
  dsimp only
  repeat' (first | with_reducible assumption | with_reducible apply keep_bumpBy | with_reducible apply keep_updCmd | with_reducible apply keep_ite | fail_if_no_progress with_reducible refine keep_rest ?_ | split)

theorem keep_askTiles (seq : Nat) (hk : Keep pq PP s) : Keep pq PP (askTiles seq s) := by
  unfold askTiles
  repeat' (first | with_reducible assumption | with_reducible apply keep_askPages | with_reducible apply keep_ite | fail_if_no_progress with_reducible refine keep_rest ?_ | split)

theorem keep_startStream (seq : Nat) (hk : Keep pq PP s) : Keep pq PP (startStream seq s) := by
  unfold startStream
  repeat' (first | with_reducible assumption | with_reducible apply keep_startWork | with_reducible apply keep_runStream | with_reducible apply keep_askTiles)

/-! ### Machine/Structure.lean -/

theorem keep_failCheck (seq : Nat) (x : Nat × Nat) (hk : Keep pq PP s) : Keep pq PP (failCheck seq x s) := by
  unfold failCheck
  repeat' (first | with_reducible assumption | with_reducible apply keep_fail | with_reducible apply keep_failPayload | with_reducible apply keep_ite)

theorem keep_execCreateCollection (seq : Nat) (input : Bytes) (hk : Keep pq PP s) : KeepRes pq PP (execCreateCollection seq input s) := by
  unfold execCreateCollection
  dsimp only
  repeat' (first | with_reducible apply keepRes_next | with_reducible apply keepRes_ite | with_reducible assumption | with_reducible apply keep_succeed | with_reducible apply keep_fail | with_reducible apply keep_chainStart | with_reducible apply keep_coldWrite | with_reducible apply keep_createKey | with_reducible apply keep_failCheck | with_reducible apply keep_ite | fail_if_no_progress with_reducible refine keep_rest ?_ | split)

theorem keep_execCollectionInfo (seq : Nat) (hk : Keep pq PP s) : KeepRes pq PP (execCollectionInfo seq s) := by
  unfold execCollectionInfo
  repeat' (first | with_reducible apply keepRes_next | with_reducible assumption | with_reducible apply keep_succeed | fail_if_no_progress with_reducible refine keep_rest ?_ | split)

theorem keep_execSnapshotCollection (seq : Nat) (others : Bool) (t : Nat) (hk : Keep pq PP s) : KeepRes pq PP (execSnapshotCollection seq others t s) := by
  unfold execSnapshotCollection
  dsimp only
  repeat' (first | with_reducible apply keepRes_next | with_reducible apply keepRes_ite | with_reducible assumption | with_reducible apply keep_tick | with_reducible apply keep_succeed | with_reducible apply keep_fail | with_reducible apply keep_updColl | with_reducible apply keep_settle | with_reducible apply keep_ite | fail_if_no_progress with_reducible refine keep_rest ?_ | split)

theorem keep_execReleaseSnapshot (seq : Nat) (hk : Keep pq PP s) : KeepRes pq PP (execReleaseSnapshot seq s) := by
  unfold execReleaseSnapshot
  repeat' (first | with_reducible apply keepRes_next | with_reducible apply keepRes_ite | with_reducible assumption | with_reducible apply keep_succeed | with_reducible apply keep_failEntry | with_reducible apply keep_ite | fail_if_no_progress with_reducible refine keep_rest ?_ | split)

theorem keep_startVersion (seq : Nat) (coll : Nat) (kind : Nat) (tree : Tree) (cut : Nat) (folded : Nat) (hk : Keep pq PP s) : Keep pq PP (startVersion seq coll kind tree cut folded s) := by
  unfold startVersion
  repeat' (first | with_reducible assumption | with_reducible apply keep_updColl | with_reducible apply keep_addUnit | with_reducible apply keep_startStream)

theorem keep_execMerge (seq : Nat) (hk : Keep pq PP s) : KeepRes pq PP (execMerge seq s) := by
  unfold execMerge
  repeat' (first | with_reducible apply keepRes_next | with_reducible apply keepRes_ite | with_reducible assumption | with_reducible apply keep_succeed | with_reducible apply keep_fail | with_reducible apply keep_updColl | with_reducible apply keep_startVersion | with_reducible apply keep_ite | fail_if_no_progress with_reducible refine keep_rest ?_ | split)

theorem keep_execBuildIndex (run : CmdRun) (hk : Keep pq PP s) : KeepRes pq PP (execBuildIndex run s) := by
  unfold execBuildIndex
  dsimp only
  repeat' (first | with_reducible apply keepRes_next | with_reducible apply keepRes_ite | with_reducible assumption | with_reducible apply keep_succeed | with_reducible apply keep_fail | with_reducible apply keep_takeBanks | with_reducible apply keep_guarded | with_reducible apply keep_codeFails | with_reducible apply keep_failTile | with_reducible apply keep_startVersion | with_reducible apply keep_ite | fail_if_no_progress with_reducible refine keep_rest ?_ | with_reducible refine keep_getD ?_ fun _ => ?_ | split)

theorem keep_execLoadIndex (seq : Nat) (input : Bytes) (hk : Keep pq PP s) : KeepRes pq PP (execLoadIndex seq input s) := by
  unfold execLoadIndex
  dsimp only
  repeat' (first | with_reducible apply keepRes_next | with_reducible apply keepRes_ite | with_reducible assumption | with_reducible apply keep_fail | with_reducible apply keep_failCheck | with_reducible apply keep_startVersion | with_reducible apply keep_ite | fail_if_no_progress with_reducible refine keep_rest ?_ | split)

/-! ### Machine/Admit.lean -/

theorem keep_beginUnload (c : Cmd) (hk : Keep pq PP s) : Keep pq PP (beginUnload c s) := by
  unfold beginUnload
  dsimp only
  repeat' (first | with_reducible assumption | with_reducible apply keep_dropStash | with_reducible apply keep_unpin | with_reducible apply keep_ite | with_reducible apply keep_foldl | fail_if_no_progress with_reducible refine keep_rest ?_ | intro _ _ _)

theorem keep_collAtAdmission (c : Cmd) (k : Coll) (hk : Keep pq PP s) : Keep pq PP (collAtAdmission c k s) := by
  unfold collAtAdmission
  dsimp only
  repeat' (first | with_reducible assumption | with_reducible apply keep_updCmd | with_reducible apply keep_updColl | with_reducible apply keep_settle | with_reducible apply keep_beginDeleteColl | with_reducible apply keep_ite | fail_if_no_progress with_reducible refine keep_rest ?_ | split)

theorem keep_atAdmission (c : Cmd) (hk : Keep pq PP s) : Keep pq PP (atAdmission c s) := by
  unfold atAdmission
  dsimp only
  repeat' (first | with_reducible assumption | with_reducible apply keep_updCmd | with_reducible apply keep_beginUnload | with_reducible apply keep_beginDeleteHead | with_reducible apply keep_collAtAdmission | with_reducible apply keep_ite | fail_if_no_progress with_reducible refine keep_rest ?_ | split)

theorem keep_endHold (c : Cmd) (hk : Keep pq PP s) : Keep pq PP (endHold c s) := by
  unfold endHold
  dsimp only
  repeat' (first | with_reducible assumption | with_reducible apply keep_admitNow | with_reducible apply keep_atAdmission | with_reducible apply keep_ite | split)

theorem keep_execCommandAdmit (seq : Nat) (hk : Keep pq PP s) : KeepRes pq PP (execCommandAdmit seq s) := by
  unfold execCommandAdmit
  repeat' (first | with_reducible apply keepRes_next | with_reducible apply keepRes_ite | with_reducible assumption | with_reducible apply keep_endHold | with_reducible apply keep_ite | fail_if_no_progress with_reducible refine keep_rest ?_ | split)

theorem keep_dispatchCmd (c : Cmd) (t : Nat) (hk : Keep pq PP s) : Keep pq PP (dispatchCmd c t s) := by
  unfold dispatchCmd
  dsimp only
  repeat' (first | with_reducible assumption | with_reducible apply keep_emit | with_reducible apply keep_updCmd | with_reducible apply keep_fail | with_reducible apply keep_endHold | with_reducible apply keep_ite | fail_if_no_progress with_reducible refine keep_rest ?_ | split)

theorem keep_execCommandDispatch (t : Nat) (hk : Keep pq PP s) : KeepRes pq PP (execCommandDispatch t s) := by
  unfold execCommandDispatch
  dsimp only
  repeat' (first | with_reducible apply keepRes_next | with_reducible apply keepRes_ite | with_reducible assumption | with_reducible refine keep_rest ?_ (length_modAt _ _ _) | with_reducible apply keep_tick | with_reducible apply keep_dispatchCmd | with_reducible apply keep_ite | fail_if_no_progress with_reducible refine keep_rest ?_ | split)

theorem keep_execAutoMergeStart (coll : Nat) (hk : Keep pq PP s) : KeepRes pq PP (execAutoMergeStart coll s) := by
  unfold execAutoMergeStart
  dsimp only
  repeat' (first | with_reducible apply keepRes_next | with_reducible apply keepRes_ite | with_reducible assumption | with_reducible apply keep_endHold | with_reducible apply keep_ite | fail_if_no_progress with_reducible refine keep_rest ?_ | split)

/-! ### Machine/Exchange.lean -/

theorem keep_keepEarly (head : Nat) (peer : Nat) (type : Nat) (b : Bytes) (hk : Keep pq PP s) : Keep pq PP (keepEarly head peer type b s) := by
  unfold keepEarly
  dsimp only
  repeat' (first | with_reducible assumption | with_reducible apply keep_ite | fail_if_no_progress with_reducible refine keep_rest ?_)

theorem keep_dropEarly (types : List Nat) (head : Nat) (step : Nat) (mb : Nat) (hk : Keep pq PP s) : Keep pq PP (dropEarly types head step mb s) := by
  unfold dropEarly
  dsimp only
  repeat' (first | with_reducible assumption | fail_if_no_progress with_reducible refine keep_rest ?_)

theorem keep_dropMem (seq : Nat) (hk : Keep pq PP s) : Keep pq PP (dropMem seq s) := by
  unfold dropMem
  dsimp only
  repeat' (first | with_reducible assumption | fail_if_no_progress with_reducible refine keep_rest ?_)

theorem keep_endMem (seq : Nat) (comp : Comp) (out : Bytes) (hk : Keep pq PP s) : Keep pq PP (endMem seq comp out s) := by
  unfold endMem
  dsimp only
  repeat' (first | with_reducible assumption | with_reducible apply keep_finish | with_reducible apply keep_releaseStash | with_reducible apply keep_dropMem | fail_if_no_progress with_reducible refine keep_rest ?_ | split)

theorem keep_endMemWith (seq : Nat) (status : Nat) (info : Nat) (hk : Keep pq PP s) : Keep pq PP (endMemWith seq status info s) := by
  unfold endMemWith
  repeat' (first | with_reducible assumption | with_reducible apply keep_endMem)

theorem keep_endMismatch (seq : Nat) (hk : Keep pq PP s) : Keep pq PP (endMismatch seq s) := by
  unfold endMismatch
  repeat' (first | with_reducible assumption | with_reducible apply keep_bump | with_reducible apply keep_endMemWith)

theorem keep_endAborted (seq : Nat) (valid : Bool) (theirs : Nat) (own : Nat) (hk : Keep pq PP s) : Keep pq PP (endAborted seq valid theirs own s) := by
  unfold endAborted
  repeat' (first | with_reducible assumption | with_reducible apply keep_endMemWith | with_reducible apply keep_endMismatch | with_reducible apply keep_ite)

theorem keep_endIncomplete (seq : Nat) (media : List Nat) (hk : Keep pq PP s) : Keep pq PP (endIncomplete seq media s) := by
  unfold endIncomplete
  dsimp only
  repeat' (first | with_reducible assumption | with_reducible apply keep_endMem)

theorem keep_failGroup (group : Nat) (module : Nat) (hk : Keep pq PP s) : Keep pq PP (failGroup group module s) := by
  unfold failGroup
  dsimp only
  repeat' (first | with_reducible assumption | with_reducible apply keep_endMemWith | with_reducible apply keep_ite | with_reducible apply keep_foldl | fail_if_no_progress with_reducible refine keep_rest ?_ | intro _ _ _)

theorem keep_declareFailed (h : Head) (module : Nat) (cause : Nat) (step : Nat) (ring : Option (Nat × List Nat)) (hk : Keep pq PP s) : Keep pq PP (declareFailed h module cause step ring s) := by
  unfold declareFailed
  dsimp only
  repeat' (first | with_reducible assumption | with_reducible apply keep_bump | with_reducible apply keep_logEvent | with_reducible apply keep_sendAll | with_reducible apply keep_failGroup | fail_if_no_progress with_reducible refine keep_rest ?_ | split)

theorem keep_failWith (seq : Nat) (x : Nat × Nat) (hk : Keep pq PP s) : Keep pq PP (failWith seq x s) := by
  unfold failWith
  repeat' (first | with_reducible assumption | with_reducible apply keep_finish)

theorem keep_execMemberFailed (_peer : Nat) (payload : Bytes) (t : Nat) (hk : Keep pq PP s) : KeepRes pq PP (execMemberFailed _peer payload t s) := by
  unfold execMemberFailed
  dsimp only
  repeat' (first | with_reducible apply keepRes_next | with_reducible apply keepRes_ite | with_reducible assumption | with_reducible apply keep_tick | with_reducible apply keep_malformed | with_reducible apply keep_failGroup | with_reducible apply keep_ite)

theorem keep_execMemberDegraded (_peer : Nat) (payload : Bytes) (hk : Keep pq PP s) : KeepRes pq PP (execMemberDegraded _peer payload s) := by
  unfold execMemberDegraded
  dsimp only
  repeat' (first | with_reducible apply keepRes_next | with_reducible apply keepRes_ite | with_reducible assumption | with_reducible apply keep_malformed | with_reducible apply keep_ite | fail_if_no_progress with_reducible refine keep_rest ?_)

/-! ### Machine/Window.lean -/

theorem keep_releaseAfter (seq : Nat) (code : Nat) (hk : Keep pq PP s) : Keep pq PP (releaseAfter seq code s) := by
  unfold releaseAfter
  repeat' (first | with_reducible assumption | with_reducible apply keep_releaseCopies | with_reducible apply keep_ite | fail_if_no_progress with_reducible refine keep_rest ?_ | split)

/-! ### Machine/Forward.lean -/

theorem keep_updFwd (seq : Nat) (f : MemFwd → MemFwd) (hk : Keep pq PP s) : Keep pq PP (updFwd seq f s) := by
  unfold updFwd
  dsimp only
  repeat' (first | with_reducible assumption | fail_if_no_progress with_reducible refine keep_rest ?_)

theorem keep_abortLocal (h : Head) (f : MemFwd) (hk : Keep pq PP s) : Keep pq PP (abortLocal h f s) := by
  unfold abortLocal
  repeat' (first | with_reducible assumption | with_reducible apply keep_sendAbort)

theorem keep_ringCopy (old : Head) (new : Head) (hk : Keep pq PP s) : Keep pq PP (ringCopy old new s) := by
  unfold ringCopy
  repeat' (first | with_reducible assumption | with_reducible apply keep_coldWrite | with_reducible apply keep_ite)

theorem keep_sendPartials (h : Head) (f : MemFwd) (hk : Keep pq PP s) : Keep pq PP (sendPartials h f s) := by
  unfold sendPartials
  dsimp only
  repeat' (first | with_reducible assumption | with_reducible apply keep_sendSpp | with_reducible apply keep_foldl | fail_if_no_progress with_reducible refine keep_rest ?_ | intro _ _ _)

theorem keep_writeRows (seq : Nat) (width : Nat) (fmt : Fmt) (rows : List (Nat × List Nat)) (hk : Keep pq PP s) : Keep pq PP (writeRows seq width fmt rows s) := by
  unfold writeRows
  repeat' (first | with_reducible assumption | with_reducible apply keep_emit | with_reducible apply keep_foldl | fail_if_no_progress with_reducible refine keep_rest ?_ | split | intro _ _ _)

theorem keep_fwdSucceeds (h : Head) (f : MemFwd) (hk : Keep pq PP s) : Keep pq PP (fwdSucceeds h f s) := by
  unfold fwdSucceeds
  dsimp only
  repeat' (first | with_reducible assumption | with_reducible apply keep_bumpBy | with_reducible apply keep_bump | with_reducible apply keep_finish | with_reducible apply keep_updHead | with_reducible apply keep_dropMem | with_reducible apply keep_ringCopy | with_reducible apply keep_writeRows | with_reducible apply keep_ite)

theorem keep_fwdEnds (h : Head) (f : MemFwd) (hk : Keep pq PP s) : Keep pq PP (fwdEnds h f s) := by
  unfold fwdEnds
  dsimp only
  repeat' (first | with_reducible assumption | with_reducible apply keep_dropEarly | with_reducible apply keep_endIncomplete | with_reducible apply keep_fwdSucceeds | with_reducible apply keep_ite)

theorem keep_advanceFwd (seq : Nat) (hk : Keep pq PP s) : Keep pq PP (advanceFwd seq s) := by
  unfold advanceFwd
  dsimp only
  repeat' (first | with_reducible assumption | with_reducible apply keep_sendAll | with_reducible apply keep_updFwd | with_reducible apply keep_fwdEnds | with_reducible apply keep_ite | fail_if_no_progress with_reducible refine keep_rest ?_ | split)

theorem keep_advanceFwds (head : Nat) (hk : Keep pq PP s) : Keep pq PP (advanceFwds head s) := by
  unfold advanceFwds
  repeat' (first | with_reducible assumption | with_reducible apply keep_advanceFwd | with_reducible apply keep_foldl)

theorem keep_startExchange (seq : Nat) (hk : Keep pq PP s) : Keep pq PP (startExchange seq s) := by
  unfold startExchange
  repeat' (first | with_reducible assumption | with_reducible apply keep_updFwd | with_reducible apply keep_sendPartials | with_reducible apply keep_advanceFwds | fail_if_no_progress with_reducible refine keep_rest ?_ | split)

theorem keep_takePartial (peer : Nat) (b : Bytes) (f : MemFwd) (hk : Keep pq PP s) : Keep pq PP (takePartial peer b f s) := by
  unfold takePartial
  dsimp only
  repeat' (first | with_reducible assumption | with_reducible apply keep_malformed | with_reducible apply keep_dropEarly | with_reducible apply keep_endMismatch | with_reducible apply keep_updFwd | with_reducible apply keep_abortLocal | with_reducible apply keep_advanceFwds | with_reducible apply keep_ite | fail_if_no_progress with_reducible refine keep_rest ?_ | split)

theorem keep_repeatFwd (attempt : Nat) (f : MemFwd) (hk : Keep pq PP s) : Keep pq PP (repeatFwd attempt f s) := by
  unfold repeatFwd
  dsimp only
  repeat' (first | with_reducible assumption | with_reducible apply keep_bump | with_reducible apply keep_updFwd | with_reducible apply keep_sendPartials | with_reducible apply keep_ite | fail_if_no_progress with_reducible refine keep_rest ?_ | split)

theorem keep_fwdMessage (f : MemFwd) (e : Early) (hk : Keep pq PP s) : Keep pq PP (fwdMessage f e s) := by
  unfold fwdMessage
  repeat' (first | with_reducible assumption | with_reducible apply keep_dropEarly | with_reducible apply keep_endAborted | with_reducible apply keep_updFwd | with_reducible apply keep_advanceFwds | with_reducible apply keep_takePartial | with_reducible apply keep_repeatFwd | with_reducible apply keep_ite)

theorem keep_fwdDeliver (e : Early) (hk : Keep pq PP s) : Keep pq PP (fwdDeliver e s) := by
  unfold fwdDeliver
  dsimp only
  repeat' (first | with_reducible assumption | with_reducible apply keep_keepEarly | with_reducible apply keep_fwdMessage | fail_if_no_progress with_reducible refine keep_rest ?_ | split)

theorem keep_replayFwd (seq : Nat) (hk : Keep pq PP s) : Keep pq PP (replayFwd seq s) := by
  unfold replayFwd
  dsimp only
  repeat' (first | with_reducible assumption | with_reducible apply keep_dropEarly | with_reducible apply keep_fwdMessage | with_reducible apply keep_foldl | fail_if_no_progress with_reducible refine keep_rest ?_ | split | intro _ _ _)

theorem keep_putRowScales (head : Nat) (plan : Nat) (scales : List Nat) (hk : Keep pq PP s) : Keep pq PP (putRowScales head plan scales s) := by
  unfold putRowScales
  dsimp only
  repeat' (first | with_reducible assumption | with_reducible apply keep_foldl | fail_if_no_progress with_reducible refine keep_rest ?_)

theorem keep_fwdReads (seq : Nat) (hk : Keep pq PP s) : Keep pq PP (fwdReads seq s) := by
  unfold fwdReads
  dsimp only
  repeat' (first | with_reducible assumption | with_reducible apply keep_releaseAfter | with_reducible apply keep_updFwd | with_reducible apply keep_startExchange | fail_if_no_progress with_reducible refine keep_rest ?_ | split)

theorem keep_runForward (seq : Nat) (hk : Keep pq PP s) : Keep pq PP (runForward seq s) := by
  unfold runForward
  dsimp only
  repeat' (first | with_reducible assumption | with_reducible apply keep_bumpBy | with_reducible apply keep_bump | with_reducible apply keep_updHead | with_reducible apply keep_touchRows | with_reducible apply keep_askPages | with_reducible apply keep_updFwd | with_reducible apply keep_ringCopy | with_reducible apply keep_putRowScales | with_reducible apply keep_fwdReads | with_reducible apply keep_ite | fail_if_no_progress with_reducible refine keep_rest ?_ | split)

theorem keep_bankForward (seq : Nat) (hk : Keep pq PP s) : Keep pq PP (bankForward seq s) := by
  unfold bankForward
  dsimp only
  repeat' (first | with_reducible assumption | with_reducible apply keep_takeBanks | with_reducible apply keep_updFwd | with_reducible apply keep_runForward | with_reducible apply keep_ite | fail_if_no_progress with_reducible refine keep_rest ?_ | split)

theorem keep_reserveFwd (h : Head) (p : Plan) (f : MemFwd) (hk : Keep pq PP s) : Keep pq PP (reserveFwd h p f s) := by
  unfold reserveFwd
  repeat' (first | with_reducible assumption | with_reducible apply keep_bump | with_reducible apply keep_updHead | with_reducible apply keep_updFwd | with_reducible apply keep_bankForward | with_reducible apply keep_ite)

theorem keep_refuseFwd (h : Head) (f : MemFwd) (c : Comp) (hk : Keep pq PP s) : Keep pq PP (refuseFwd h f c s) := by
  unfold refuseFwd
  dsimp only
  repeat' (first | with_reducible assumption | with_reducible apply keep_bump | with_reducible apply keep_finish | with_reducible apply keep_dropEarly | with_reducible apply keep_abortLocal | with_reducible apply keep_ite)

theorem keep_forwardNow (seq : Nat) (c : Cmd) (h : Head) (p : Plan) (input : Bytes) (media : List Nat) (hk : Keep pq PP s) : Keep pq PP (forwardNow seq c h p input media s) := by
  unfold forwardNow
  dsimp only
  repeat' (first | with_reducible assumption | with_reducible apply keep_succeed | with_reducible apply keep_failInput | with_reducible apply keep_startStream | with_reducible apply keep_failWith | with_reducible apply keep_abortLocal | with_reducible apply keep_replayFwd | with_reducible apply keep_reserveFwd | with_reducible apply keep_refuseFwd | with_reducible apply keep_ite | fail_if_no_progress with_reducible refine keep_rest ?_ | split)

theorem keep_seeForward (c : Cmd) (h : Head) (input : Bytes) (hk : Keep pq PP s) : Keep pq PP (seeForward c h input s) := by
  unfold seeForward
  repeat' (first | with_reducible assumption | with_reducible apply keep_updHead | with_reducible apply keep_ite)

theorem keep_stallForward (c : Cmd) (hk : Keep pq PP s) : Keep pq PP (stallForward c s) := by
  unfold stallForward
  repeat' (first | with_reducible assumption | with_reducible apply keep_bump | with_reducible apply keep_updCmd | with_reducible apply keep_ite)

theorem keep_endStall (c : Cmd) (hk : Keep pq PP s) : Keep pq PP (endStall c s) := by
  unfold endStall
  repeat' (first | with_reducible assumption | with_reducible apply keep_bumpBy | with_reducible apply keep_updCmd | fail_if_no_progress with_reducible refine keep_rest ?_ | split)

theorem keep_execMemlayerFwd (seq : Nat) (input : Bytes) (upsets : Upsets) (t : Nat) (hk : Keep pq PP s) : KeepRes pq PP (execMemlayerFwd seq input upsets t s) := by
  unfold execMemlayerFwd
  dsimp only
  repeat' (first | with_reducible apply keepRes_next | with_reducible apply keepRes_ite | with_reducible assumption | with_reducible apply keep_tick | with_reducible apply keep_fail | with_reducible apply keep_guarded | with_reducible apply keep_codeFails | with_reducible apply keep_forwardNow | with_reducible apply keep_seeForward | with_reducible apply keep_stallForward | with_reducible apply keep_endStall | with_reducible apply keep_ite | fail_if_no_progress with_reducible refine keep_rest ?_ | with_reducible refine keep_getD ?_ fun _ => ?_ | split)

theorem keep_execStashHoldRelease (seq : Nat) (t : Nat) (hk : Keep pq PP s) : KeepRes pq PP (execStashHoldRelease seq t s) := by
  unfold execStashHoldRelease
  dsimp only
  repeat' (first | with_reducible apply keepRes_next | with_reducible apply keepRes_ite | with_reducible assumption | with_reducible apply keep_tick | with_reducible apply keep_reserveFwd | with_reducible apply keep_ite | fail_if_no_progress with_reducible refine keep_rest ?_ | split)

theorem keep_execStashWaitTimeout (seq : Nat) (t : Nat) (hk : Keep pq PP s) : KeepRes pq PP (execStashWaitTimeout seq t s) := by
  unfold execStashWaitTimeout
  dsimp only
  repeat' (first | with_reducible apply keepRes_next | with_reducible apply keepRes_ite | with_reducible assumption | with_reducible apply keep_tick | with_reducible apply keep_fail | with_reducible apply keep_dropEarly | with_reducible apply keep_dropMem | with_reducible apply keep_abortLocal | with_reducible apply keep_advanceFwds | with_reducible apply keep_ite | fail_if_no_progress with_reducible refine keep_rest ?_ | split)

theorem keep_execMemfwdPartial (peer : Nat) (payload : Bytes) (t : Nat) (hk : Keep pq PP s) : KeepRes pq PP (execMemfwdPartial peer payload t s) := by
  unfold execMemfwdPartial
  dsimp only
  repeat' (first | with_reducible apply keepRes_next | with_reducible apply keepRes_ite | with_reducible assumption | with_reducible apply keep_tick | with_reducible apply keep_malformed | with_reducible apply keep_fwdDeliver | with_reducible apply keep_ite)

theorem keep_fwdControl (type : Nat) (peer : Nat) (payload : Bytes) (hk : Keep pq PP s) : Keep pq PP (fwdControl type peer payload s) := by
  unfold fwdControl
  dsimp only
  repeat' (first | with_reducible assumption | with_reducible apply keep_malformed | with_reducible apply keep_fwdDeliver | with_reducible apply keep_ite)

theorem keep_execMemfwdDone (peer : Nat) (payload : Bytes) (t : Nat) (hk : Keep pq PP s) : KeepRes pq PP (execMemfwdDone peer payload t s) := by
  unfold execMemfwdDone
  repeat' (first | with_reducible apply keepRes_next | with_reducible assumption | with_reducible apply keep_tick | with_reducible apply keep_fwdControl)

theorem keep_execMemfwdRepeat (peer : Nat) (payload : Bytes) (t : Nat) (hk : Keep pq PP s) : KeepRes pq PP (execMemfwdRepeat peer payload t s) := by
  unfold execMemfwdRepeat
  repeat' (first | with_reducible apply keepRes_next | with_reducible assumption | with_reducible apply keep_tick | with_reducible apply keep_fwdControl)

theorem keep_execMemfwdAbort (peer : Nat) (payload : Bytes) (t : Nat) (hk : Keep pq PP s) : KeepRes pq PP (execMemfwdAbort peer payload t s) := by
  unfold execMemfwdAbort
  repeat' (first | with_reducible apply keepRes_next | with_reducible assumption | with_reducible apply keep_tick | with_reducible apply keep_fwdControl)

theorem keep_execFwdExchangeTimeout (seq : Nat) (t : Nat) (hk : Keep pq PP s) : KeepRes pq PP (execFwdExchangeTimeout seq t s) := by
  unfold execFwdExchangeTimeout
  dsimp only
  repeat' (first | with_reducible apply keepRes_next | with_reducible apply keepRes_ite | with_reducible assumption | with_reducible apply keep_tick | with_reducible apply keep_sendAll | with_reducible apply keep_declareFailed | with_reducible apply keep_advanceFwds | with_reducible apply keep_repeatFwd | with_reducible apply keep_ite | fail_if_no_progress with_reducible refine keep_rest ?_ | split)

theorem keep_resumeFwd (f : MemFwd) (hk : Keep pq PP s) : Keep pq PP (resumeFwd f s) := by
  unfold resumeFwd
  repeat' (first | with_reducible assumption | with_reducible apply keep_bumpBy | with_reducible apply keep_fwdReads | with_reducible apply keep_ite)

/-! ### Machine/Backward.lean -/

theorem keep_setGradTile (head : Nat) (plan : Nat) (f : Bytes → Bytes) (hk : Keep pq PP s) : Keep pq PP (setGradTile head plan f s) := by
  unfold setGradTile
  dsimp only
  repeat' (first | with_reducible assumption | fail_if_no_progress with_reducible refine keep_rest ?_)

theorem keep_closeGrad (h : Head) (hk : Keep pq PP s) : Keep pq PP (closeGrad h s) := by
  unfold closeGrad
  dsimp only
  repeat' (first | with_reducible assumption | with_reducible apply keep_updHead | with_reducible apply keep_setGradTile | with_reducible apply keep_ite)

theorem keep_openGrad (head : Nat) (p : Plan) (step : Nat) (hk : Keep pq PP s) : Keep pq PP (openGrad head p step s) := by
  unfold openGrad
  dsimp only
  repeat' (first | with_reducible assumption | with_reducible apply keep_updHead | with_reducible apply keep_setGradTile)

theorem keep_enterGrad (h : Head) (p : Plan) (step : Nat) (hk : Keep pq PP s) : Keep pq PP (enterGrad h p step s) := by
  unfold enterGrad
  repeat' (first | with_reducible assumption | with_reducible apply keep_closeGrad | with_reducible apply keep_openGrad | with_reducible apply keep_ite | fail_if_no_progress with_reducible refine keep_rest ?_ | split)

theorem keep_updStep (head : Nat) (step : Nat) (f : BwdStep → BwdStep) (hk : Keep pq PP s) : Keep pq PP (updStep head step f s) := by
  unfold updStep
  repeat' (first | with_reducible assumption | with_reducible apply keep_updHead)

theorem keep_earlyFold (head : Nat) (step : Nat) (hk : Keep pq PP s) : Keep pq PP (earlyFold head step s) := by
  unfold earlyFold
  repeat' (first | with_reducible assumption | with_reducible apply keep_bump | with_reducible apply keep_updStep)

theorem keep_foldForRoom (h : Head) (p : Plan) (step : Nat) (n : Nat) (hk : Keep pq PP s) : Keep pq PP (foldForRoom h p step n s) := by
  unfold foldForRoom
  repeat' (first | with_reducible assumption | with_reducible apply keep_earlyFold | with_reducible apply keep_ite)

theorem keep_updBwd (seq : Nat) (f : MemBwd → MemBwd) (hk : Keep pq PP s) : Keep pq PP (updBwd seq f s) := by
  unfold updBwd
  dsimp only
  repeat' (first | with_reducible assumption | fail_if_no_progress with_reducible refine keep_rest ?_)

theorem keep_abortBwd (h : Head) (b : MemBwd) (hk : Keep pq PP s) : Keep pq PP (abortBwd h b s) := by
  unfold abortBwd
  repeat' (first | with_reducible assumption | with_reducible apply keep_sendAbort)

theorem keep_sendDw (h : Head) (b : MemBwd) (hk : Keep pq PP s) : Keep pq PP (sendDw h b s) := by
  unfold sendDw
  dsimp only
  repeat' (first | with_reducible assumption | with_reducible apply keep_sendSpp | with_reducible apply keep_foldl | fail_if_no_progress with_reducible refine keep_rest ?_ | intro _ _ _)

theorem keep_touchAccums (h : Head) (adds : List Accum) (hk : Keep pq PP s) : Keep pq PP (touchAccums h adds s) := by
  unfold touchAccums
  dsimp only
  repeat' (first | with_reducible assumption | with_reducible apply keep_placeTiles | with_reducible apply keep_touchBytes | with_reducible apply keep_ite | with_reducible apply keep_foldl | fail_if_no_progress with_reducible refine keep_rest ?_ | intro _ _ _)

theorem keep_bwdSucceeds (h : Head) (b : MemBwd) (hk : Keep pq PP s) : Keep pq PP (bwdSucceeds h b s) := by
  unfold bwdSucceeds
  dsimp only
  repeat' (first | with_reducible assumption | with_reducible apply keep_bumpBy | with_reducible apply keep_finish | with_reducible apply keep_updHead | with_reducible apply keep_releaseStash | with_reducible apply keep_dropMem | with_reducible apply keep_endMemWith | with_reducible apply keep_writeRows | with_reducible apply keep_closeGrad | with_reducible apply keep_updStep | with_reducible apply keep_touchAccums | with_reducible apply keep_ite | with_reducible apply keep_foldl | fail_if_no_progress with_reducible refine keep_rest ?_ | split)

theorem keep_bwdEnds (h : Head) (b : MemBwd) (hk : Keep pq PP s) : Keep pq PP (bwdEnds h b s) := by
  unfold bwdEnds
  dsimp only
  repeat' (first | with_reducible assumption | with_reducible apply keep_dropEarly | with_reducible apply keep_endIncomplete | with_reducible apply keep_bwdSucceeds | with_reducible apply keep_ite)

theorem keep_advanceBwd (seq : Nat) (hk : Keep pq PP s) : Keep pq PP (advanceBwd s seq) := by
  unfold advanceBwd
  dsimp only
  repeat' (first | with_reducible assumption | with_reducible apply keep_sendAll | with_reducible apply keep_updBwd | with_reducible apply keep_bwdEnds | with_reducible apply keep_ite | fail_if_no_progress with_reducible refine keep_rest ?_ | split)

theorem keep_advanceBwds (head : Nat) (hk : Keep pq PP s) : Keep pq PP (advanceBwds head s) := by
  unfold advanceBwds
  repeat' (first | with_reducible assumption | with_reducible apply keep_advanceBwd | with_reducible apply keep_foldl)

theorem keep_startDw (seq : Nat) (hk : Keep pq PP s) : Keep pq PP (startDw seq s) := by
  unfold startDw
  repeat' (first | with_reducible assumption | with_reducible apply keep_updBwd | with_reducible apply keep_sendDw | with_reducible apply keep_advanceBwds | fail_if_no_progress with_reducible refine keep_rest ?_ | split)

theorem keep_takeDw (peer : Nat) (b : Bytes) (w : MemBwd) (hk : Keep pq PP s) : Keep pq PP (takeDw peer b w s) := by
  unfold takeDw
  dsimp only
  repeat' (first | with_reducible assumption | with_reducible apply keep_malformed | with_reducible apply keep_dropEarly | with_reducible apply keep_endMismatch | with_reducible apply keep_updBwd | with_reducible apply keep_abortBwd | with_reducible apply keep_advanceBwds | with_reducible apply keep_ite | fail_if_no_progress with_reducible refine keep_rest ?_ | split)

theorem keep_repeatBwd (attempt : Nat) (b : MemBwd) (hk : Keep pq PP s) : Keep pq PP (repeatBwd attempt b s) := by
  unfold repeatBwd
  dsimp only
  repeat' (first | with_reducible assumption | with_reducible apply keep_updBwd | with_reducible apply keep_sendDw | with_reducible apply keep_ite | fail_if_no_progress with_reducible refine keep_rest ?_ | split)

theorem keep_bwdMessage (b : MemBwd) (e : Early) (hk : Keep pq PP s) : Keep pq PP (bwdMessage b e s) := by
  unfold bwdMessage
  repeat' (first | with_reducible assumption | with_reducible apply keep_dropEarly | with_reducible apply keep_endAborted | with_reducible apply keep_updBwd | with_reducible apply keep_advanceBwds | with_reducible apply keep_takeDw | with_reducible apply keep_repeatBwd | with_reducible apply keep_ite)

theorem keep_bwdDeliver (e : Early) (hk : Keep pq PP s) : Keep pq PP (bwdDeliver e s) := by
  unfold bwdDeliver
  dsimp only
  repeat' (first | with_reducible assumption | with_reducible apply keep_keepEarly | with_reducible apply keep_bwdMessage | fail_if_no_progress with_reducible refine keep_rest ?_ | split)

theorem keep_replayBwd (seq : Nat) (hk : Keep pq PP s) : Keep pq PP (replayBwd seq s) := by
  unfold replayBwd
  dsimp only
  repeat' (first | with_reducible assumption | with_reducible apply keep_dropEarly | with_reducible apply keep_bwdMessage | with_reducible apply keep_foldl | fail_if_no_progress with_reducible refine keep_rest ?_ | split | intro _ _ _)

theorem keep_bwdReads (seq : Nat) (hk : Keep pq PP s) : Keep pq PP (bwdReads seq s) := by
  unfold bwdReads
  dsimp only
  repeat' (first | with_reducible assumption | with_reducible apply keep_releaseAfter | with_reducible apply keep_updBwd | with_reducible apply keep_startDw | fail_if_no_progress with_reducible refine keep_rest ?_ | split)

theorem keep_runBackward (seq : Nat) (h0 : Head) (v : Head) (p : Plan) (stash : StashMb) (hk : Keep pq PP s) : Keep pq PP (runBackward seq h0 v p stash s) := by
  unfold runBackward
  dsimp only
  repeat' (first | with_reducible assumption | with_reducible apply keep_bumpBy | with_reducible apply keep_bump | with_reducible apply keep_touchRows | with_reducible apply keep_askPages | with_reducible apply keep_enterGrad | with_reducible apply keep_updBwd | with_reducible apply keep_bwdReads | with_reducible apply keep_ite | fail_if_no_progress with_reducible refine keep_rest ?_ | split)

theorem keep_refuseBwd (h : Head) (b : MemBwd) (c : Comp) (hk : Keep pq PP s) : Keep pq PP (refuseBwd h b c s) := by
  unfold refuseBwd
  dsimp only
  repeat' (first | with_reducible assumption | with_reducible apply keep_bump | with_reducible apply keep_finish | with_reducible apply keep_releaseStash | with_reducible apply keep_dropEarly | with_reducible apply keep_abortBwd | with_reducible apply keep_ite)

theorem keep_execMemlayerBwd (run : CmdRun) (input : Bytes) (t : Nat) (hk : Keep pq PP s) : KeepRes pq PP (execMemlayerBwd run input t s) := by
  unfold execMemlayerBwd
  dsimp only
  repeat' (first | with_reducible apply keepRes_next | with_reducible apply keepRes_ite | with_reducible assumption | with_reducible apply keep_tick | with_reducible apply keep_fail | with_reducible apply keep_succeed | with_reducible apply keep_updHead | with_reducible apply keep_takeBanks | with_reducible apply keep_failInput | with_reducible apply keep_guarded | with_reducible apply keep_codeFails | with_reducible apply keep_startStream | with_reducible apply keep_failWith | with_reducible apply keep_foldForRoom | with_reducible apply keep_abortBwd | with_reducible apply keep_advanceBwds | with_reducible apply keep_replayBwd | with_reducible apply keep_runBackward | with_reducible apply keep_refuseBwd | with_reducible apply keep_ite | fail_if_no_progress with_reducible refine keep_rest ?_ | with_reducible refine keep_getD ?_ fun _ => ?_ | split)

theorem keep_execMembwdDw (peer : Nat) (payload : Bytes) (t : Nat) (hk : Keep pq PP s) : KeepRes pq PP (execMembwdDw peer payload t s) := by
  unfold execMembwdDw
  dsimp only
  repeat' (first | with_reducible apply keepRes_next | with_reducible apply keepRes_ite | with_reducible assumption | with_reducible apply keep_tick | with_reducible apply keep_malformed | with_reducible apply keep_bwdDeliver | with_reducible apply keep_ite)

theorem keep_bwdControl (type : Nat) (peer : Nat) (payload : Bytes) (hk : Keep pq PP s) : Keep pq PP (bwdControl type peer payload s) := by
  unfold bwdControl
  dsimp only
  repeat' (first | with_reducible assumption | with_reducible apply keep_malformed | with_reducible apply keep_bwdDeliver | with_reducible apply keep_ite)

theorem keep_execMembwdDone (peer : Nat) (payload : Bytes) (t : Nat) (hk : Keep pq PP s) : KeepRes pq PP (execMembwdDone peer payload t s) := by
  unfold execMembwdDone
  repeat' (first | with_reducible apply keepRes_next | with_reducible assumption | with_reducible apply keep_tick | with_reducible apply keep_bwdControl)

theorem keep_execMembwdRepeat (peer : Nat) (payload : Bytes) (t : Nat) (hk : Keep pq PP s) : KeepRes pq PP (execMembwdRepeat peer payload t s) := by
  unfold execMembwdRepeat
  repeat' (first | with_reducible apply keepRes_next | with_reducible assumption | with_reducible apply keep_tick | with_reducible apply keep_bwdControl)

theorem keep_execMembwdAbort (peer : Nat) (payload : Bytes) (t : Nat) (hk : Keep pq PP s) : KeepRes pq PP (execMembwdAbort peer payload t s) := by
  unfold execMembwdAbort
  repeat' (first | with_reducible apply keepRes_next | with_reducible assumption | with_reducible apply keep_tick | with_reducible apply keep_bwdControl)

theorem keep_execBwdExchangeTimeout (seq : Nat) (t : Nat) (hk : Keep pq PP s) : KeepRes pq PP (execBwdExchangeTimeout seq t s) := by
  unfold execBwdExchangeTimeout
  dsimp only
  repeat' (first | with_reducible apply keepRes_next | with_reducible apply keepRes_ite | with_reducible assumption | with_reducible apply keep_tick | with_reducible apply keep_sendAll | with_reducible apply keep_declareFailed | with_reducible apply keep_advanceBwds | with_reducible apply keep_repeatBwd | with_reducible apply keep_ite | fail_if_no_progress with_reducible refine keep_rest ?_ | split)

theorem keep_resumeBwd (b : MemBwd) (hk : Keep pq PP s) : Keep pq PP (resumeBwd b s) := by
  unfold resumeBwd
  repeat' (first | with_reducible assumption | with_reducible apply keep_bumpBy | with_reducible apply keep_bwdReads | with_reducible apply keep_ite)

end Sys2Proof.Laws
end

