-- ==== Sys2Proof/Laws/KeepAdmin.lean ====
section
/-! SUPPORT. What the invariant of Laws/Keep.lean sees is kept by every operation of security, power and the structure commands. -/

set_option Elab.async false

namespace Sys2Proof.Laws

open Machine

variable {pq : List Instr} {PP : Prot → Prop} {s : State}

/-! ### Machine/Sec.lean -/

theorem keep_selectBundle (hk : Keep pq PP s) : Keep pq PP (selectBundle s).1 := by
  unfold selectBundle
  dsimp only
  repeat' (first | with_reducible assumption | with_reducible apply keep_fst | with_reducible apply keep_bump | with_reducible apply keep_logEvent |
    fail_if_no_progress with_reducible refine keep_rest ?_)

theorem keep_bundleGood (slots : Nat) (hk : Keep pq PP s) : Keep pq PP (bundleGood slots s) := by
  unfold bundleGood
  dsimp only
  repeat' (first | with_reducible assumption | with_reducible apply keep_ite | fail_if_no_progress with_reducible refine keep_rest ?_)

theorem keep_setSlot (kind : Nat) (slot : Nat) (image : Bytes) (hk : Keep pq PP s) : Keep pq PP (setSlot kind slot image s) := by
  unfold setSlot
  dsimp only
  repeat' (first | with_reducible assumption | fail_if_no_progress with_reducible refine keep_rest ?_)

theorem keep_setPending (kind : Nat) (slot : Option Nat) (hk : Keep pq PP s) : Keep pq PP (setPending kind slot s) := by
  unfold setPending
  dsimp only
  repeat' (first | with_reducible assumption | fail_if_no_progress with_reducible refine keep_rest ?_)

theorem keep_imageBegin (session : Nat) (kind : Nat) (hk : Keep pq PP s) : Keep pq PP (imageBegin session kind s) := by
  unfold imageBegin
  dsimp only
  repeat' (first | with_reducible assumption | with_reducible apply keep_setSlot | with_reducible apply keep_setPending | with_reducible apply keep_ite | fail_if_no_progress with_reducible refine keep_rest ?_)

theorem keep_imageRefuse (kind : Nat) (reason : Nat) (version : Nat) (hk : Keep pq PP s) : Keep pq PP (imageRefuse kind reason version s) := by
  unfold imageRefuse
  dsimp only
  repeat' (first | with_reducible assumption | with_reducible apply keep_bump | with_reducible apply keep_logEvent | fail_if_no_progress with_reducible refine keep_rest ?_)

theorem keep_imageBlock (value : Bytes) (hk : Keep pq PP s) : Keep pq PP (imageBlock value s) := by
  unfold imageBlock
  dsimp only
  repeat' (first | with_reducible assumption | with_reducible apply keep_imageRefuse | with_reducible apply keep_ite | fail_if_no_progress with_reducible refine keep_rest ?_ | split)

theorem keep_rotateKey (b : Bytes) (hk : Keep pq PP s) : Keep pq PP (rotateKey b s) := by
  unfold rotateKey
  dsimp only
  repeat' (first | with_reducible assumption | with_reducible apply keep_logEvent | with_reducible apply keep_ite | fail_if_no_progress with_reducible refine keep_rest ?_)

theorem keep_imageFinish (cMeasure : ClMeasure PP) (hk : Keep pq PP s) : Keep pq PP (imageFinish s) := by
  unfold imageFinish
  dsimp only
  repeat' (first | with_reducible assumption | refine keep_measure cMeasure ?_ (length_modAt _ _ _) rfl rfl rfl rfl rfl rfl rfl le_rfl | with_reducible apply keep_setSlot | with_reducible apply keep_setPending | with_reducible apply keep_imageRefuse | with_reducible apply keep_rotateKey | with_reducible apply keep_ite | fail_if_no_progress with_reducible refine keep_rest ?_ | split)

theorem keep_imageAbandon (hk : Keep pq PP s) : Keep pq PP (imageAbandon s) := by
  unfold imageAbandon
  dsimp only
  repeat' (first | with_reducible assumption | fail_if_no_progress with_reducible refine keep_rest ?_)

theorem keep_deleteOwned (role : Nat) (hk : Keep pq PP s) : Keep pq PP (deleteOwned role s) := by
  unfold deleteOwned
  dsimp only
  repeat' (first | with_reducible assumption | with_reducible apply keep_beginDeleteColl | with_reducible apply keep_beginDeleteHead | with_reducible apply keep_foldl | fail_if_no_progress with_reducible refine keep_rest ?_ | intro _ _ _)

theorem keep_applyRole (b : Bytes) (cRoles : ClRoles PP) (hk : Keep pq PP s) : Keep pq PP (applyRole b s) := by
  unfold applyRole
  dsimp only
  repeat' (first | with_reducible assumption | fail_if_no_progress with_reducible refine keep_roles cRoles ?_ rfl rfl rfl rfl rfl rfl rfl le_rfl | with_reducible apply keep_deleteOwned | with_reducible apply keep_ite)

theorem keep_execRoleManage (seq : Nat) (input : Bytes) (cRoles : ClRoles PP) (hk : Keep pq PP s) : KeepRes pq PP (execRoleManage seq input s) := by
  unfold execRoleManage
  dsimp only
  repeat' (first | with_reducible apply keepRes_next | with_reducible apply keepRes_ite | with_reducible assumption | with_reducible apply keep_succeed | with_reducible apply keep_fail | with_reducible apply keep_failPayload | with_reducible apply keep_applyRole | with_reducible apply keep_ite | fail_if_no_progress with_reducible refine keep_rest ?_ | split)

theorem keep_execAttest (seq : Nat) (hk : Keep pq PP s) : KeepRes pq PP (execAttest seq s) := by
  unfold execAttest
  dsimp only
  repeat' (first | with_reducible apply keepRes_next | with_reducible assumption | with_reducible apply keep_bump | with_reducible apply keep_succeed | with_reducible apply keep_signed | fail_if_no_progress with_reducible refine keep_rest ?_ | split)

theorem keep_factoryErase (cRoles : ClRoles PP) (cSettings : ClSettings PP) (hk : Keep pq PP s) : Keep pq PP (factoryErase s) := by
  have h1 := keep_foldl (f := fun u (c : Coll) => removeObject 1 c.id u) (l := s.search.colls) hk fun _ _ hu => keep_removeObject _ _ hu
  have h2 := keep_foldl (f := fun u (c : Head) => removeObject 2 c.id u)
    (l := (s.search.colls.foldl (fun u (c : Coll) => removeObject 1 c.id u) s).mem.heads) h1 fun _ _ hu => keep_removeObject _ _ hu
  exact keep_roles cRoles (keep_setSettings (x := []) cSettings rfl h2) rfl rfl rfl rfl rfl rfl rfl le_rfl

/-! ### Machine/Power.lean -/

theorem keep_endP2 (hk : Keep pq PP s) : Keep pq PP (endP2 s) := by
  unfold endP2
  exact keep_rest hk

theorem keep_abandonEntry (target start : Nat) (hk : Keep pq PP s) : Keep pq PP (abandonEntry target start s) := by
  unfold abandonEntry
  dsimp only
  repeat' (first | with_reducible assumption | with_reducible apply keep_bump | with_reducible apply keep_logEvent | with_reducible apply keep_endP2 | with_reducible apply keep_ite | fail_if_no_progress with_reducible refine keep_rest ?_)

theorem keep_execP2Entry (t : Nat) (hk : Keep pq PP s) : KeepRes pq PP (execP2Entry t s) := by
  unfold execP2Entry
  dsimp only
  repeat' (first | with_reducible apply keepRes_next | with_reducible apply keepRes_ite | with_reducible assumption | with_reducible apply keep_tick | with_reducible apply keep_abandonEntry | with_reducible apply keep_endP2 | with_reducible apply keep_bump | with_reducible apply keep_ite | fail_if_no_progress with_reducible refine keep_rest ?_ | split)

theorem keep_enterP3 (hk : Keep pq PP s) : Keep pq PP (enterP3 s) := by
  unfold enterP3
  dsimp only
  repeat' (first | with_reducible assumption | with_reducible apply keep_bump | with_reducible apply keep_logEvent | with_reducible apply keep_disconnect | with_reducible apply keep_loseCache | with_reducible apply keep_foldl | fail_if_no_progress with_reducible refine keep_rest ?_ | intro _ _ _)

theorem keep_execP3Entry (t : Nat) (hk : Keep pq PP s) : KeepRes pq PP (execP3Entry t s) := by
  unfold execP3Entry
  dsimp only
  repeat' (first | with_reducible apply keepRes_next | with_reducible apply keepRes_ite | with_reducible assumption | with_reducible apply keep_tick | with_reducible apply keep_abandonEntry | with_reducible apply keep_endP2 | with_reducible apply keep_enterP3 | with_reducible apply keep_ite | fail_if_no_progress with_reducible refine keep_rest ?_ | split)

theorem keep_execEntryAbandon (t : Nat) (hk : Keep pq PP s) : KeepRes pq PP (execEntryAbandon t s) := by
  unfold execEntryAbandon
  dsimp only
  repeat' (first | with_reducible apply keepRes_next | with_reducible apply keepRes_ite | with_reducible assumption | with_reducible apply keep_tick | with_reducible apply keep_abandonEntry | with_reducible apply keep_endP2 | with_reducible apply keep_bump | with_reducible apply keep_logEvent | with_reducible apply keep_ite | fail_if_no_progress with_reducible refine keep_rest ?_ | split)

theorem keep_restartTime (t : Nat) (hk : Keep pq PP s) : Keep pq PP (restartTime t s) := by
  unfold restartTime
  dsimp only
  repeat' (first | with_reducible assumption | fail_if_no_progress with_reducible refine keep_rest ?_)

theorem keep_execWake (t : Nat) (hk : Keep pq PP s) : KeepRes pq PP (execWake t s) := by
  unfold execWake
  dsimp only
  repeat' (first | with_reducible apply keepRes_next | with_reducible apply keepRes_ite | with_reducible assumption | with_reducible apply keep_tick | with_reducible apply keep_abandonEntry | with_reducible apply keep_endP2 | with_reducible apply keep_restartTime | with_reducible apply keep_ite | fail_if_no_progress with_reducible refine keep_rest ?_)

theorem keep_execClusterClockGate (cluster : Nat) (hk : Keep pq PP s) : KeepRes pq PP (execClusterClockGate cluster s) := by
  unfold execClusterClockGate
  dsimp only
  repeat' (first | with_reducible apply keepRes_next | with_reducible apply keepRes_ite | with_reducible assumption | with_reducible apply keep_ite | fail_if_no_progress with_reducible refine keep_rest ?_)

theorem keep_loseVolatile (cMeasure : ClMeasure PP) (hk : Keep pq PP s) : Keep pq PP (loseVolatile s) :=
  keep_measure cMeasure hk (by simp [hk.regs]) (by simp [hk.last, Ahp.reset]) rfl rfl rfl rfl rfl rfl (Nat.zero_le _)

theorem keep_lastRecords (cRecords : ClRecords PP) (hk : Keep pq PP s) : Keep pq PP (lastRecords s) := by
  unfold lastRecords
  dsimp only
  repeat' (first | with_reducible assumption | with_reducible apply keep_writeEvent | with_reducible apply keep_flushEvents)

theorem keep_powerDown (cause : Nat) (cMeasure : ClMeasure PP) (cRecords : ClRecords PP) (hk : Keep pq PP s) : Keep pq PP (powerDown cause s) := by
  unfold powerDown
  dsimp only
  repeat' (first | with_reducible assumption | with_reducible apply keep_loseVolatile | with_reducible apply keep_lastRecords | with_reducible apply keep_ite | fail_if_no_progress with_reducible refine keep_rest ?_)

theorem keep_powerFails (cMeasure : ClMeasure PP) (cRecords : ClRecords PP) (hk : Keep pq PP s) : Keep pq PP (powerFails s) := by
  unfold powerFails
  repeat' (first | with_reducible assumption | with_reducible apply keep_bump | with_reducible apply keep_powerDown | with_reducible apply keep_ite)

theorem keep_execPowerFailSignal (inputMv : Nat) (t : Nat) (cMeasure : ClMeasure PP) (cRecords : ClRecords PP) (hk : Keep pq PP s) : KeepRes pq PP (execPowerFailSignal inputMv t s) := by
  unfold execPowerFailSignal
  dsimp only
  repeat' (first | with_reducible apply keepRes_next | with_reducible assumption | with_reducible apply keep_tick | with_reducible apply keep_powerFails | fail_if_no_progress with_reducible refine keep_rest ?_)

theorem keep_execPwrEnFall (t : Nat) (cMeasure : ClMeasure PP) (cRecords : ClRecords PP) (hk : Keep pq PP s) : KeepRes pq PP (execPwrEnFall t s) := by
  unfold execPwrEnFall
  dsimp only
  repeat' (first | with_reducible apply keepRes_next | with_reducible assumption | with_reducible apply keep_tick | with_reducible apply keep_powerFails | fail_if_no_progress with_reducible refine keep_rest ?_)

theorem keep_thermalTrip (unit : Nat) (reading : Int) (cMeasure : ClMeasure PP) (cRecords : ClRecords PP) (hk : Keep pq PP s) : Keep pq PP (thermalTrip unit reading s) := by
  unfold thermalTrip
  dsimp only
  repeat' (first | with_reducible assumption | with_reducible apply keep_bump | with_reducible apply keep_logEvent | with_reducible apply keep_powerDown | fail_if_no_progress with_reducible refine keep_rest ?_)

theorem keep_execTripRestart (t : Nat) (hk : Keep pq PP s) : KeepRes pq PP (execTripRestart t s) := by
  unfold execTripRestart
  dsimp only
  repeat' (first | with_reducible apply keepRes_next | with_reducible apply keepRes_ite | with_reducible assumption | with_reducible apply keep_tick | with_reducible apply keep_ite | fail_if_no_progress with_reducible refine keep_rest ?_ | split)

theorem keep_sendDegraded (cause : Nat) (stack : Nat) (hk : Keep pq PP s) : Keep pq PP (sendDegraded cause stack s) := by
  unfold sendDegraded
  dsimp only
  repeat' (first | with_reducible assumption | with_reducible apply keep_sendAll | with_reducible apply keep_foldl | fail_if_no_progress with_reducible refine keep_rest ?_ | intro _ _ _)

theorem keep_stackOut (stack : Nat) (beyond : Bool) (hk : Keep pq PP s) : Keep pq PP (stackOut stack beyond s) := by
  unfold stackOut
  dsimp only
  repeat' (first | with_reducible assumption | with_reducible refine keep_rest ?_ (hs := length_modAt _ _ _) | with_reducible apply keep_bump | with_reducible apply keep_logEvent | with_reducible apply keep_markChannel | with_reducible apply keep_fence | with_reducible apply keep_placeTiles | with_reducible apply keep_sendDegraded | with_reducible apply keep_ite | with_reducible apply keep_foldl)

theorem keep_degradeCmd (c : Cmd) (hk : Keep pq PP s) : Keep pq PP (degradeCmd s c) := by
  unfold degradeCmd
  dsimp only
  repeat' (first | with_reducible assumption | with_reducible apply keep_fail | with_reducible apply keep_releaseStash | with_reducible apply keep_foldl | fail_if_no_progress with_reducible refine keep_rest ?_ | intro _ _ _)

theorem keep_setStack (stack : Nat) (x : Stack) (hk : Keep pq PP s) : Keep pq PP (setStack stack x s) := by
  unfold setStack
  dsimp only
  repeat' (first | with_reducible assumption | refine keep_rest ?_ (hs := length_modAt _ _ _))

theorem keep_readStack (stack : Nat) (temp : Int) (hk : Keep pq PP s) : Keep pq PP (readStack s stack temp) := by
  unfold readStack
  dsimp only
  repeat' (first | with_reducible assumption | with_reducible apply keep_bump | with_reducible apply keep_stackOut | with_reducible apply keep_degradeCmd | with_reducible apply keep_setStack | with_reducible apply keep_ite | with_reducible apply keep_foldl | fail_if_no_progress with_reducible refine keep_rest ?_ | split)

theorem keep_execStackDrainComplete (stack : Nat) (hk : Keep pq PP s) : KeepRes pq PP (execStackDrainComplete stack s) := by
  unfold execStackDrainComplete
  repeat' (first | with_reducible apply keepRes_next | with_reducible apply keepRes_ite | with_reducible assumption | with_reducible apply keep_stackOut | with_reducible apply keep_ite)

theorem keep_setDie (i : Nat) (old : DieClock) (new : DieClock) (hk : Keep pq PP s) : Keep pq PP (setDie i old new s) := by
  unfold setDie
  dsimp only
  repeat' (first | with_reducible assumption | refine keep_rest ?_ (hd := length_modAt _ _ _) | with_reducible apply keep_bump | with_reducible apply keep_ite)

theorem keep_readDie (above : Bool) (up : Bool) (i : Nat) (temp : Int) (hk : Keep pq PP s) : Keep pq PP (readDie above up s i temp) := by
  unfold readDie
  repeat' (first | with_reducible assumption | with_reducible apply keep_setDie | fail_if_no_progress with_reducible refine keep_rest ?_ | split)

theorem keep_controlPass (x : Sensors) (hk : Keep pq PP s) : Keep pq PP (controlPass x s) := by
  unfold controlPass
  dsimp only
  repeat' (first | with_reducible assumption | with_reducible apply keep_readStack | with_reducible apply keep_readDie | with_reducible apply keep_ite | with_reducible apply keep_foldl | fail_if_no_progress with_reducible refine keep_rest ?_ | split | intro _ _ _)

theorem keep_takeReadings (x : Sensors) (hk : Keep pq PP s) : Keep pq PP (takeReadings x s) := by
  unfold takeReadings
  dsimp only
  repeat' (first | with_reducible assumption | fail_if_no_progress with_reducible refine keep_rest ?_)

theorem keep_execSensorReading (sensors : Sensors) (t : Nat) (cMeasure : ClMeasure PP) (cRecords : ClRecords PP) (hk : Keep pq PP s) : KeepRes pq PP (execSensorReading sensors t s) := by
  unfold execSensorReading
  dsimp only
  repeat' (first | with_reducible apply keepRes_next | with_reducible apply keepRes_ite | with_reducible assumption | with_reducible apply keep_tick | with_reducible apply keep_thermalTrip | with_reducible apply keep_controlPass | with_reducible apply keep_takeReadings | with_reducible apply keep_ite | fail_if_no_progress with_reducible refine keep_rest ?_ | split)

theorem keep_execHeartbeatTimeout (core : Nat) (t : Nat) (hk : Keep pq PP s) : KeepRes pq PP (execHeartbeatTimeout core t s) := by
  unfold execHeartbeatTimeout
  dsimp only
  repeat' (first | with_reducible apply keepRes_next | with_reducible apply keepRes_ite | with_reducible assumption | with_reducible apply keep_tick | with_reducible apply keep_bump | with_reducible apply keep_logEvent | with_reducible apply keep_closeSession | with_reducible apply keep_beginReset | with_reducible apply keep_ite | with_reducible apply keep_foldl | fail_if_no_progress with_reducible refine keep_rest ?_)

theorem keep_execBothCoresSilent (t : Nat) (hk : Keep pq PP s) : KeepRes pq PP (execBothCoresSilent t s) := by
  unfold execBothCoresSilent
  dsimp only
  repeat' (first | with_reducible apply keepRes_next | with_reducible apply keepRes_ite | with_reducible assumption | with_reducible apply keep_tick | with_reducible apply keep_beginReset | with_reducible apply keep_ite)

/-! ### Machine/PlanCmds.lean -/

theorem keep_putPlan (target : Nat) (b : Bytes) (hk : Keep pq PP s) : Keep pq PP (putPlan target b s) := by
  unfold putPlan
  dsimp only
  repeat' (first | with_reducible assumption | with_reducible apply keep_unpin | fail_if_no_progress with_reducible refine keep_rest ?_)

theorem keep_failPlan (seq : Nat) (off : Nat) (hk : Keep pq PP s) : Keep pq PP (failPlan seq off s) := by
  unfold failPlan
  repeat' (first | with_reducible assumption | with_reducible apply keep_finish)

theorem keep_loadPlan (seq : Nat) (c : Cmd) (input : Bytes) (hk : Keep pq PP s) : Keep pq PP (loadPlan seq c input s) := by
  unfold loadPlan
  dsimp only
  repeat' (first | with_reducible assumption | with_reducible apply keep_succeed | with_reducible apply keep_fail | with_reducible apply keep_putPlan | with_reducible apply keep_failPlan | with_reducible apply keep_ite | fail_if_no_progress with_reducible refine keep_rest ?_ | split)

theorem keep_execLoadPlan (seq : Nat) (input : Bytes) (codes : CodeChecks) (hk : Keep pq PP s) : KeepRes pq PP (execLoadPlan seq input codes s) := by
  unfold execLoadPlan
  dsimp only
  repeat' (first | with_reducible apply keepRes_next | with_reducible apply keepRes_ite | with_reducible apply keep_fail | with_reducible assumption | with_reducible apply keep_retried | with_reducible apply keep_codeFails | with_reducible apply keep_loadPlan | fail_if_no_progress with_reducible refine keep_rest ?_ | with_reducible refine keep_getD ?_ fun _ => ?_ | split)

theorem keep_execUnloadPlan (seq : Nat) (hk : Keep pq PP s) : KeepRes pq PP (execUnloadPlan seq s) := by
  unfold execUnloadPlan
  repeat' (first | with_reducible apply keepRes_next | with_reducible assumption | with_reducible apply keep_succeed | with_reducible apply keep_fail | with_reducible apply keep_ite | split)

/-! ### Machine/Commit.lean -/

theorem keep_updSession (id : Nat) (f : Session → Session) (hk : Keep pq PP s) : Keep pq PP (updSession id f s) := by
  unfold updSession
  dsimp only
  repeat' (first | with_reducible assumption | fail_if_no_progress with_reducible refine keep_rest ?_)

theorem keep_recheckPlans (hk : Keep pq PP s) : Keep pq PP (recheckPlans s) := by
  unfold recheckPlans
  dsimp only
  repeat' (first | with_reducible assumption | fail_if_no_progress with_reducible refine keep_rest ?_)

theorem keep_voidGrant (coll : Nat) (g : Grant) (hk : Keep pq PP s) : Keep pq PP (voidGrant coll s g) := by
  unfold voidGrant
  repeat' (first | with_reducible assumption | with_reducible apply keep_sendSpp | with_reducible apply keep_voidTag | with_reducible apply keep_ite)

theorem keep_newKeeper (c : Coll) (old : ShardMap) (new : ShardMap) (x : Shard) (hk : Keep pq PP s) : Keep pq PP (newKeeper c old new x s) := by
  unfold newKeeper
  dsimp only
  repeat' (first | with_reducible assumption | with_reducible apply keep_useFree | with_reducible apply keep_bumpBy | with_reducible apply keep_updShard | with_reducible apply keep_askEpoch | with_reducible apply keep_voidGrant | with_reducible apply keep_ite | with_reducible apply keep_foldl | fail_if_no_progress with_reducible refine keep_rest ?_ | intro _ _ _)

theorem keep_remapColl (before : State) (c : Coll) (hk : Keep pq PP s) : Keep pq PP (remapColl before s c) := by
  unfold remapColl
  repeat' (first | with_reducible assumption | with_reducible apply keep_updColl | with_reducible apply keep_updShard | with_reducible apply keep_newKeeper | fail_if_no_progress with_reducible refine keep_rest ?_ | split)

theorem keep_newDescriptor (before : State) (hk : Keep pq PP s) : Keep pq PP (newDescriptor before s) := by
  unfold newDescriptor
  dsimp only
  repeat' (first | with_reducible assumption | with_reducible apply keep_remapColl | with_reducible apply keep_foldl | fail_if_no_progress with_reducible refine keep_rest ?_ | intro _ _ _)

theorem keep_newPortMode (before : State) (port : Nat) (hk : Keep pq PP s) : Keep pq PP (newPortMode before s port) := by
  unfold newPortMode
  dsimp only
  repeat' (first | with_reducible assumption | with_reducible apply keep_closeConns | with_reducible apply keep_ite | fail_if_no_progress with_reducible refine keep_rest ?_)

theorem keep_afterSwitch (groups : List Nat) (before : State) (hk : Keep pq PP s) : Keep pq PP (afterSwitch groups before s) := by
  unfold afterSwitch
  dsimp only
  repeat' (first | with_reducible assumption | with_reducible apply keep_reshapeCache | with_reducible apply keep_recheckPlans | with_reducible apply keep_newDescriptor | with_reducible apply keep_newPortMode | with_reducible apply keep_ite | with_reducible apply keep_foldl | fail_if_no_progress with_reducible refine keep_rest ?_ | intro _ _ _)

theorem keep_nextApply (hk : Keep pq PP s) : Keep pq PP (nextApply s) := by
  unfold nextApply
  dsimp only
  repeat' (first | with_reducible assumption | fail_if_no_progress with_reducible refine keep_rest ?_)

theorem keep_dropGone (id : Nat) (hk : Keep pq PP s) : Keep pq PP (dropGone id s) := by
  unfold dropGone
  dsimp only
  repeat' (first | with_reducible assumption | fail_if_no_progress with_reducible refine keep_rest ?_)

theorem keep_setLastResult (r : Nat) (hk : Keep pq PP s) : Keep pq PP (setLastResult r s) := by
  unfold setLastResult
  dsimp only
  repeat' (first | with_reducible assumption | fail_if_no_progress with_reducible refine keep_rest ?_)

theorem keep_switchValues (x : Session) (cSettings : ClSettings PP) (hk : Keep pq PP s) : Keep pq PP (switchValues x s) := by
  unfold switchValues
  dsimp only
  repeat' (first | with_reducible assumption | with_reducible apply keep_setSetting | with_reducible apply keep_foldl | fail_if_no_progress with_reducible refine keep_rest ?_ | intro _ _ _)

end Sys2Proof.Laws
end

