-- ==== Sys2Proof/Laws/KeepRun.lean ====
section
/-! SUPPORT. What the invariant of Laws/Keep.lean sees is kept by every operation of updates, the management protocol, queries and start-up. -/

set_option Elab.async false

namespace Sys2Proof.Laws

open Machine

variable {pq : List Instr} {PP : Prot → Prop} {s : State}

/-! ### Machine/Update.lean -/

theorem keep_failUpdate (seq : Nat) (h : Head) (x : Nat × Nat) (hk : Keep pq PP s) : Keep pq PP (failUpdate seq h x s) := by
  unfold failUpdate
  repeat' (first | with_reducible assumption | with_reducible apply keep_finish | with_reducible apply keep_failInput | with_reducible apply keep_ite)

theorem keep_updateRow (b : Bytes) (id : Nat) (g : Nat × List Nat) (hk : Keep pq PP s) : Keep pq PP (updateRow b id s g) := by
  unfold updateRow
  dsimp only
  repeat' (first | with_reducible assumption | with_reducible apply keep_bump | with_reducible apply keep_updHead | with_reducible apply keep_renarrow | with_reducible apply keep_ite | fail_if_no_progress with_reducible refine keep_rest ?_ | split)

theorem keep_updateRows (b : Bytes) (h : Head) (table : List (Nat × List Nat)) (hk : Keep pq PP s) : Keep pq PP (updateRows b h table s) := by
  unfold updateRows
  repeat' (first | with_reducible assumption | with_reducible apply keep_coldWrite | with_reducible apply keep_clearLost | with_reducible apply keep_updateRow | with_reducible apply keep_ite | with_reducible apply keep_foldl | fail_if_no_progress with_reducible refine keep_rest ?_ | intro _ _ _)

theorem keep_setUpd (u : Update) (hk : Keep pq PP s) : Keep pq PP (setUpd u s) := by
  unfold setUpd
  dsimp only
  repeat' (first | with_reducible assumption | fail_if_no_progress with_reducible refine keep_rest ?_)

theorem keep_sendRed (u : Update) (l : List RedSend) (hk : Keep pq PP s) : Keep pq PP (sendRed u l s) := by
  unfold sendRed
  repeat' (first | with_reducible assumption | with_reducible apply keep_sendSpp | with_reducible apply keep_foldl | fail_if_no_progress with_reducible refine keep_rest ?_ | intro _ _ _)

theorem keep_sendOthers (u : Update) (type : Nat) (p : Bytes) (hk : Keep pq PP s) : Keep pq PP (sendOthers u type p s) := by
  unfold sendOthers
  repeat' (first | with_reducible assumption | with_reducible apply keep_sendRed)

theorem keep_dropRedEarly (head : Nat) (step : Nat) (hk : Keep pq PP s) : Keep pq PP (dropRedEarly head step s) := by
  unfold dropRedEarly
  dsimp only
  repeat' (first | with_reducible assumption | fail_if_no_progress with_reducible refine keep_rest ?_)

theorem keep_releaseStep (h : Head) (step : Nat) (hk : Keep pq PP s) : Keep pq PP (releaseStep s h step) := by
  unfold releaseStep
  dsimp only
  repeat' (first | with_reducible assumption | with_reducible apply keep_updHead | with_reducible apply keep_dropStash | with_reducible apply keep_updStep | with_reducible apply keep_ite | with_reducible apply keep_foldl | fail_if_no_progress with_reducible refine keep_rest ?_ | intro _ _ _)

theorem keep_endUpdate (u : Update) (h : Head) (comp : Comp) (out : Bytes) (hk : Keep pq PP s) : Keep pq PP (endUpdate u h comp out s) := by
  unfold endUpdate
  repeat' (first | with_reducible assumption | with_reducible apply keep_finish | with_reducible apply keep_dropMem | with_reducible apply keep_dropRedEarly | with_reducible apply keep_releaseStep)

theorem keep_dirtyPages (back : Bool) (pages : List Nat) (hk : Keep pq PP s) : Keep pq PP (dirtyPages back pages s) := by
  unfold dirtyPages
  dsimp only
  repeat' (first | with_reducible assumption | fail_if_no_progress with_reducible refine keep_rest ?_)

theorem keep_applyUpdate (u : Update) (h : Head) (hk : Keep pq PP s) : Keep pq PP (applyUpdate u h s) := by
  unfold applyUpdate
  dsimp only
  repeat' (first | with_reducible assumption | with_reducible apply keep_updHead | with_reducible apply keep_chainExtend | with_reducible apply keep_discardStash | with_reducible apply keep_updateRows | with_reducible apply keep_endUpdate | with_reducible apply keep_dirtyPages)

theorem keep_runBuckets (u : Update) (h : Keep pq PP s) : Keep pq PP (runBuckets u s).2 := by
  unfold runBuckets
  dsimp only
  exact keep_bumpBy _ _ (keep_sendRed _ _ h)

theorem keep_runSamples (u : Update) (h : Keep pq PP s) : Keep pq PP (runSamples u s).2 :=
  keep_foldl h fun _ _ hv => keep_sendOthers _ _ _ hv

theorem keep_logMismatches (u : Update) (hk : Keep pq PP s) : Keep pq PP (logMismatches u s) := by
  unfold logMismatches
  repeat' (first | with_reducible assumption | with_reducible apply keep_bump | with_reducible apply keep_logEvent | with_reducible apply keep_foldl | fail_if_no_progress with_reducible refine keep_rest ?_ | intro _ _ _)

theorem keep_runVerdict (u : Update) (h : Keep pq PP s) : Keep pq PP (runVerdict u s).2 := by
  unfold runVerdict
  split
  · exact h
  · exact keep_sendOthers _ _ _ (keep_logMismatches _ h)

theorem keep_beginAttempt (attempt : Nat) (u : Update) (hk : Keep pq PP s) : Keep pq PP (beginAttempt attempt u s) := by
  unfold beginAttempt
  dsimp only
  repeat' (first | with_reducible assumption | with_reducible apply keep_setUpd | with_reducible apply keep_sendRed)

theorem keep_advanceUpd (n seq : Nat) (h : Keep pq PP s) : Keep pq PP (advanceUpd n seq s) := by
  induction n generalizing s with
  | zero => exact h
  | succ n ih =>
    unfold advanceUpd
    dsimp only
    repeat' (first | with_reducible assumption | with_reducible apply keep_ite | with_reducible apply keep_endUpdate |
      with_reducible apply keep_applyUpdate | with_reducible apply ih | with_reducible apply keep_beginAttempt |
      with_reducible apply keep_bump | with_reducible apply keep_setUpd | with_reducible apply keep_runVerdict |
      with_reducible apply keep_runSamples | with_reducible apply keep_runBuckets | split)

theorem keep_repeatUpd (attempt : Nat) (u : Update) (hk : Keep pq PP s) : Keep pq PP (repeatUpd attempt u s) := by
  unfold repeatUpd
  repeat' (first | with_reducible assumption | with_reducible apply keep_bump | with_reducible apply keep_beginAttempt | with_reducible apply keep_advanceUpd)

theorem keep_runUpdate (seq : Nat) (h : Head) (p : Plan) (b : Bytes) (lost : List Nat) (hk : Keep pq PP s) : Keep pq PP (runUpdate seq h p b lost s) := by
  unfold runUpdate
  dsimp only
  repeat' (first | with_reducible assumption | with_reducible apply keep_bump | with_reducible apply keep_askPages | with_reducible apply keep_endMismatch | with_reducible apply keep_dropRedEarly | with_reducible apply keep_beginAttempt | with_reducible apply keep_advanceUpd | with_reducible apply keep_ite | fail_if_no_progress with_reducible refine keep_rest ?_)

theorem keep_execMemlayerUpdate (run : CmdRun) (input : Bytes) (t : Nat) (hk : Keep pq PP s) : KeepRes pq PP (execMemlayerUpdate run input t s) := by
  unfold execMemlayerUpdate
  dsimp only
  repeat' (first | with_reducible apply keepRes_next | with_reducible apply keepRes_ite | with_reducible assumption | with_reducible apply keep_tick | with_reducible apply keep_fail | with_reducible apply keep_bump | with_reducible apply keep_finish | with_reducible apply keep_succeed | with_reducible apply keep_takeBanks | with_reducible apply keep_guarded | with_reducible apply keep_codeFails | with_reducible apply keep_startStream | with_reducible apply keep_failWith | with_reducible apply keep_closeGrad | with_reducible apply keep_failUpdate | with_reducible apply keep_runUpdate | with_reducible apply keep_ite | fail_if_no_progress with_reducible refine keep_rest ?_ | with_reducible refine keep_getD ?_ fun _ => ?_ | split)

theorem keep_redDeliver (peer : Nat) (type : Nat) (b : Bytes) (hk : Keep pq PP s) : Keep pq PP (redDeliver peer type b s) := by
  unfold redDeliver
  repeat' (first | with_reducible assumption | with_reducible apply keep_malformed | with_reducible apply keep_keepEarly | with_reducible apply keep_endMismatch | with_reducible apply keep_setUpd | with_reducible apply keep_dropRedEarly | with_reducible apply keep_advanceUpd | with_reducible apply keep_repeatUpd | with_reducible apply keep_ite | fail_if_no_progress with_reducible refine keep_rest ?_ | split)

theorem keep_execReduceAmax (peer : Nat) (payload : Bytes) (t : Nat) (hk : Keep pq PP s) : KeepRes pq PP (execReduceAmax peer payload t s) := by
  unfold execReduceAmax
  repeat' (first | with_reducible apply keepRes_next | with_reducible assumption | with_reducible apply keep_tick | with_reducible apply keep_redDeliver)

theorem keep_execReducePartial (peer : Nat) (payload : Bytes) (t : Nat) (hk : Keep pq PP s) : KeepRes pq PP (execReducePartial peer payload t s) := by
  unfold execReducePartial
  repeat' (first | with_reducible apply keepRes_next | with_reducible assumption | with_reducible apply keep_tick | with_reducible apply keep_redDeliver)

theorem keep_execReduceResult (peer : Nat) (payload : Bytes) (t : Nat) (hk : Keep pq PP s) : KeepRes pq PP (execReduceResult peer payload t s) := by
  unfold execReduceResult
  repeat' (first | with_reducible apply keepRes_next | with_reducible assumption | with_reducible apply keep_tick | with_reducible apply keep_redDeliver)

theorem keep_execReduceSample (peer : Nat) (payload : Bytes) (t : Nat) (hk : Keep pq PP s) : KeepRes pq PP (execReduceSample peer payload t s) := by
  unfold execReduceSample
  repeat' (first | with_reducible apply keepRes_next | with_reducible assumption | with_reducible apply keep_tick | with_reducible apply keep_redDeliver)

theorem keep_execReduceRepeat (peer : Nat) (payload : Bytes) (t : Nat) (hk : Keep pq PP s) : KeepRes pq PP (execReduceRepeat peer payload t s) := by
  unfold execReduceRepeat
  repeat' (first | with_reducible apply keepRes_next | with_reducible assumption | with_reducible apply keep_tick | with_reducible apply keep_redDeliver)

theorem keep_execUpdateVerdict (peer : Nat) (payload : Bytes) (t : Nat) (hk : Keep pq PP s) : KeepRes pq PP (execUpdateVerdict peer payload t s) := by
  unfold execUpdateVerdict
  repeat' (first | with_reducible apply keepRes_next | with_reducible assumption | with_reducible apply keep_tick | with_reducible apply keep_redDeliver)

theorem keep_execReduceTimeout (seq : Nat) (t : Nat) (hk : Keep pq PP s) : KeepRes pq PP (execReduceTimeout seq t s) := by
  unfold execReduceTimeout
  dsimp only
  repeat' (first | with_reducible apply keepRes_next | with_reducible apply keepRes_ite | with_reducible assumption | with_reducible apply keep_tick | with_reducible apply keep_declareFailed | with_reducible apply keep_sendOthers | with_reducible apply keep_repeatUpd | with_reducible apply keep_ite | with_reducible apply keep_foldl | fail_if_no_progress with_reducible refine keep_rest ?_ | split)

theorem keep_resumeUpd (u : Update) (hk : Keep pq PP s) : Keep pq PP (resumeUpd u s) := by
  unfold resumeUpd
  repeat' (first | with_reducible assumption | with_reducible apply keep_advanceUpd | with_reducible apply keep_ite)

/-! ### Machine/Completion.lean -/

theorem keep_resumeLayers (hk : Keep pq PP s) : Keep pq PP (resumeLayers s) := by
  unfold resumeLayers
  repeat' (first | with_reducible assumption | with_reducible apply keep_advanceFwds | with_reducible apply keep_advanceBwds | with_reducible apply keep_foldl | fail_if_no_progress with_reducible refine keep_rest ?_ | intro _ _ _)

theorem keep_execQueueReset (seq : Nat) (headers : List HeaderRead) (hk : Keep pq PP s) : KeepRes pq PP (execQueueReset seq headers s) := by
  unfold execQueueReset
  dsimp only
  repeat' (first | with_reducible apply keepRes_next | with_reducible apply keepRes_ite | with_reducible assumption | with_reducible apply keep_bump | with_reducible apply keep_updCmd | with_reducible apply keep_succeed | with_reducible apply keep_resumeQueue | with_reducible apply keep_endAll | with_reducible apply keep_resumeLayers | with_reducible apply keep_ite | fail_if_no_progress with_reducible refine keep_rest ?_ | split)

theorem keep_execCompletionSend (seq : Nat) (t : Nat) (hk : Keep pq PP s) : KeepRes pq PP (execCompletionSend seq t s) := by
  unfold execCompletionSend
  dsimp only
  repeat' (first | with_reducible apply keepRes_next | with_reducible apply keepRes_ite | with_reducible assumption | with_reducible apply keep_tick | with_reducible apply keep_bump | with_reducible apply keep_sendCompletion | with_reducible apply keep_afterCompletion | with_reducible apply keep_resumeLayers | with_reducible apply keep_ite | fail_if_no_progress with_reducible refine keep_rest ?_ | split)

theorem keep_execDisconnectRequest (qpn : Nat) (t : Nat) (hk : Keep pq PP s) : KeepRes pq PP (execDisconnectRequest qpn t s) := by
  unfold execDisconnectRequest
  repeat' (first | with_reducible apply keepRes_next | with_reducible assumption | with_reducible apply keep_tick | with_reducible apply keep_closeConn | with_reducible apply keep_resumeLayers)

theorem keep_runBanked (seq : Nat) (hk : Keep pq PP s) : Keep pq PP (runBanked seq s) := by
  unfold runBanked
  repeat' (first | with_reducible assumption | with_reducible apply keep_bankForward | with_reducible apply keep_resumeLayers | with_reducible apply keep_ite)

theorem keep_execScratchBanksGranted (hk : Keep pq PP s) : KeepRes pq PP (execScratchBanksGranted s) := by
  unfold execScratchBanksGranted
  dsimp only
  repeat' (first | with_reducible apply keepRes_next | with_reducible apply keepRes_ite | with_reducible assumption | with_reducible apply keep_runBanked | with_reducible apply keep_ite | fail_if_no_progress with_reducible refine keep_rest ?_ | split)

/-! ### Machine/Patrol.lean -/

theorem keep_patrolStart (hk : Keep pq PP s) : Keep pq PP (patrolStart s) := by
  unfold patrolStart
  dsimp only
  repeat' (first | with_reducible assumption | with_reducible apply keep_ite | fail_if_no_progress with_reducible refine keep_rest ?_)

theorem keep_execPatrol (reads : PatrolReads) (t : Nat) (hk : Keep pq PP s) : KeepRes pq PP (execPatrol reads t s) := by
  unfold execPatrol
  dsimp only
  repeat' (first | with_reducible apply keepRes_next | with_reducible apply keepRes_ite | with_reducible assumption | with_reducible apply keep_tick | with_reducible apply keep_coldProgram | with_reducible apply keep_pageRead | with_reducible apply keep_patrolStart | with_reducible apply keep_ite | fail_if_no_progress with_reducible refine keep_rest ?_)

/-! ### Machine/Dap.lean -/

theorem keep_dapAnswer (id : Nat) (op : Nat) (rid : Nat) (r : DapReply) (hk : Keep pq PP s) : Keep pq PP (dapAnswer id op rid r s) := by
  unfold dapAnswer
  dsimp only
  repeat' (first | with_reducible assumption | with_reducible apply keep_bump | with_reducible apply keep_emit | with_reducible apply keep_updSession | with_reducible apply keep_ite | fail_if_no_progress with_reducible refine keep_rest ?_ | split)

theorem keep_advanceWindow (d : DictEntry) (op : Nat) (it : DapItem) (n : Nat) (x : Session) (hk : Keep pq PP s) : Keep pq PP (advanceWindow d op it n s x) := by
  unfold advanceWindow
  repeat' (first | with_reducible assumption | with_reducible apply keep_updSession | with_reducible apply keep_ite)

theorem keep_readItems (id op : Nat) (l : List DapItem) (room : Nat) (h : Keep pq PP s) : Keep pq PP (readItems id op l room s).2.2 := by
  induction l generalizing room s with
  | nil => exact h
  | cons it r ih =>
    unfold readItems
    split
    · exact h
    · dsimp only
      apply ih
      split
      · apply keep_ite
        · exact keep_advanceWindow _ _ _ _ _ h
        · exact h
      · exact h

theorem keep_dapRead (id : Nat) (b : Bytes) (hk : Keep pq PP s) : Keep pq PP (dapRead id b s) := by
  unfold dapRead
  dsimp only
  repeat' (first | with_reducible assumption | with_reducible apply keep_dapAnswer | with_reducible apply keep_readItems)

theorem keep_writeTg (v : Nat) (cSettings : ClSettings PP) (hk : Keep pq PP s) : Keep pq PP (writeTg v s) := by
  unfold writeTg
  dsimp only
  repeat' (first | with_reducible assumption | with_reducible apply keep_setSetting | with_reducible apply keep_ite | fail_if_no_progress with_reducible refine keep_rest ?_)

theorem keep_writeFtg (v : Nat) (cSettings : ClSettings PP) (hk : Keep pq PP s) : Keep pq PP (writeFtg v s) := by
  unfold writeFtg
  dsimp only
  repeat' (first | with_reducible assumption | with_reducible apply keep_setSetting | with_reducible apply keep_ite | fail_if_no_progress with_reducible refine keep_rest ?_)

theorem keep_writeLoadControl (id : Nat) (v : Nat) (cMeasure : ClMeasure PP) (hk : Keep pq PP s) : Keep pq PP (writeLoadControl id v s) := by
  unfold writeLoadControl
  repeat' (first | with_reducible assumption | with_reducible apply keep_setPending | with_reducible apply keep_imageBegin | with_reducible apply keep_imageFinish | with_reducible apply keep_imageAbandon | fail_if_no_progress with_reducible refine keep_rest ?_ | split)

theorem keep_writeRole (b : Bytes) (cRoles : ClRoles PP) (hk : Keep pq PP s) : Keep pq PP (writeRole b s) := by
  unfold writeRole
  repeat' (first | with_reducible assumption | with_reducible apply keep_applyRole | with_reducible apply keep_ite)

theorem keep_writeDiagnostic (id : Nat) (frame : Bytes) (hk : Keep pq PP s) : Keep pq PP (writeDiagnostic id frame s) := by
  unfold writeDiagnostic
  dsimp only
  repeat' (first | with_reducible assumption | fail_if_no_progress with_reducible refine keep_rest ?_)

theorem keep_writeEffect (id : Nat) (frame : Bytes) (it : DapItem) (cMeasure : ClMeasure PP) (cRoles : ClRoles PP) (cSettings : ClSettings PP) (hk : Keep pq PP s) : Keep pq PP (writeEffect id frame s it) := by
  unfold writeEffect
  dsimp only
  repeat' (first | with_reducible assumption | with_reducible apply keep_setSetting | with_reducible apply keep_logEvent | with_reducible apply keep_beginReset | with_reducible apply keep_imageBlock | with_reducible apply keep_factoryErase | with_reducible apply keep_updSession | with_reducible apply keep_writeTg | with_reducible apply keep_writeFtg | with_reducible apply keep_writeLoadControl | with_reducible apply keep_writeRole | with_reducible apply keep_writeDiagnostic | with_reducible apply keep_ite)

theorem keep_dapWrite (id : Nat) (b : Bytes) (cMeasure : ClMeasure PP) (cRoles : ClRoles PP) (cSettings : ClSettings PP) (hk : Keep pq PP s) : Keep pq PP (dapWrite id b s) := by
  unfold dapWrite
  dsimp only
  repeat' (first | with_reducible assumption | with_reducible apply keep_closeStale | with_reducible apply keep_updSession | with_reducible apply keep_dapAnswer | with_reducible apply keep_writeEffect | with_reducible apply keep_ite | with_reducible apply keep_foldl | fail_if_no_progress with_reducible refine keep_rest ?_ | split | intro _ _ _)

theorem keep_dapStage (id : Nat) (b : Bytes) (hk : Keep pq PP s) : Keep pq PP (dapStage id b s) := by
  unfold dapStage
  dsimp only
  repeat' (first | with_reducible assumption | with_reducible apply keep_updSession | with_reducible apply keep_dapAnswer | with_reducible apply keep_ite | fail_if_no_progress with_reducible refine keep_rest ?_ | split)

theorem keep_dapCheck (id : Nat) (b : Bytes) (hk : Keep pq PP s) : Keep pq PP (dapCheck id b s) := by
  unfold dapCheck
  repeat' (first | with_reducible assumption | with_reducible apply keep_bump | with_reducible apply keep_updSession | with_reducible apply keep_dapAnswer | with_reducible apply keep_ite | fail_if_no_progress with_reducible refine keep_rest ?_ | split)

theorem keep_dapApply (id : Nat) (b : Bytes) (hk : Keep pq PP s) : Keep pq PP (dapApply id b s) := by
  unfold dapApply
  dsimp only
  repeat' (first | with_reducible assumption | with_reducible apply keep_updSession | with_reducible apply keep_setLastResult | with_reducible apply keep_dapAnswer | with_reducible apply keep_ite | fail_if_no_progress with_reducible refine keep_rest ?_ | split)

theorem keep_dapAbort (id : Nat) (b : Bytes) (hk : Keep pq PP s) : Keep pq PP (dapAbort id b s) := by
  unfold dapAbort
  repeat' (first | with_reducible assumption | with_reducible apply keep_updSession | with_reducible apply keep_dapAnswer | with_reducible apply keep_ite | fail_if_no_progress with_reducible refine keep_rest ?_ | split)

theorem keep_execCommitBoundaryReached (t : Nat) (cSettings : ClSettings PP) (hk : Keep pq PP s) : KeepRes pq PP (execCommitBoundaryReached t s) := by
  unfold execCommitBoundaryReached
  dsimp only
  repeat' (first | with_reducible apply keepRes_next | with_reducible apply keepRes_ite | with_reducible assumption | with_reducible apply keep_tick | with_reducible apply keep_bump | with_reducible apply keep_closeSession | with_reducible apply keep_updSession | with_reducible apply keep_afterSwitch | with_reducible apply keep_nextApply | with_reducible apply keep_dropGone | with_reducible apply keep_setLastResult | with_reducible apply keep_switchValues | with_reducible apply keep_dapAnswer | with_reducible apply keep_ite | with_reducible apply keep_foldl | fail_if_no_progress with_reducible refine keep_rest ?_ | split)

theorem keep_execCommitApplyTimeout (t : Nat) (hk : Keep pq PP s) : KeepRes pq PP (execCommitApplyTimeout t s) := by
  unfold execCommitApplyTimeout
  dsimp only
  repeat' (first | with_reducible apply keepRes_next | with_reducible apply keepRes_ite | with_reducible assumption | with_reducible apply keep_tick | with_reducible apply keep_bump | with_reducible apply keep_updSession | with_reducible apply keep_nextApply | with_reducible apply keep_dropGone | with_reducible apply keep_setLastResult | with_reducible apply keep_dapAnswer | with_reducible apply keep_ite | fail_if_no_progress with_reducible refine keep_rest ?_ | split)

theorem keep_dapPerform (id : Nat) (b : Bytes) (x : Session) (cMeasure : ClMeasure PP) (cRoles : ClRoles PP) (cSettings : ClSettings PP) (hk : Keep pq PP s) : Keep pq PP (dapPerform id b x s) := by
  unfold dapPerform
  dsimp only
  repeat' (first | with_reducible assumption | with_reducible apply keep_notReady | with_reducible apply keep_dapAnswer | with_reducible apply keep_dapRead | with_reducible apply keep_dapWrite | with_reducible apply keep_dapStage | with_reducible apply keep_dapCheck | with_reducible apply keep_dapApply | with_reducible apply keep_dapAbort | with_reducible apply keep_ite | fail_if_no_progress with_reducible refine keep_rest ?_ | split)

theorem keep_dapRequest (id : Nat) (b : Bytes) (x : Session) (cMeasure : ClMeasure PP) (cRoles : ClRoles PP) (cSettings : ClSettings PP) (hk : Keep pq PP s) : Keep pq PP (dapRequest id b x s) := by
  unfold dapRequest
  dsimp only
  repeat' (first | with_reducible assumption | with_reducible apply keep_bump | with_reducible apply keep_emit | with_reducible apply keep_updSession | with_reducible apply keep_dapPerform | with_reducible apply keep_ite | fail_if_no_progress with_reducible refine keep_rest ?_ | split)

theorem keep_dapFrame (id : Nat) (b : Bytes) (cMeasure : ClMeasure PP) (cRoles : ClRoles PP) (cSettings : ClSettings PP) (hk : Keep pq PP s) : Keep pq PP (dapFrame id b s) := by
  unfold dapFrame
  repeat' (first | with_reducible assumption | with_reducible apply keep_bump | with_reducible apply keep_emit | with_reducible apply keep_updSession | with_reducible apply keep_dapRequest | with_reducible apply keep_ite | fail_if_no_progress with_reducible refine keep_rest ?_ | split)

theorem keep_dapCommand (row : DapRow) (id : Nat) (b : Bytes) (t : Nat) (cMeasure : ClMeasure PP) (cRoles : ClRoles PP) (cSettings : ClSettings PP) (hk : Keep pq PP s) : Keep pq PP (dapCommand row id b t s) := by
  unfold dapCommand
  repeat' (first | with_reducible assumption | with_reducible apply keep_tick | with_reducible apply keep_dapFrame | with_reducible apply keep_ite)

/-! ### Machine/Manage.lean -/

theorem keep_execRead (session : Nat) (frame : Bytes) (t : Nat) (cMeasure : ClMeasure PP) (cRoles : ClRoles PP) (cSettings : ClSettings PP) (hk : Keep pq PP s) : KeepRes pq PP (execRead session frame t s) := by
  unfold execRead
  repeat' (first | with_reducible apply keepRes_next | with_reducible assumption | with_reducible apply keep_dapCommand)

theorem keep_execWrite (session : Nat) (frame : Bytes) (t : Nat) (cMeasure : ClMeasure PP) (cRoles : ClRoles PP) (cSettings : ClSettings PP) (hk : Keep pq PP s) : KeepRes pq PP (execWrite session frame t s) := by
  unfold execWrite
  repeat' (first | with_reducible apply keepRes_next | with_reducible assumption | with_reducible apply keep_dapCommand)

theorem keep_execStage (session : Nat) (frame : Bytes) (t : Nat) (cMeasure : ClMeasure PP) (cRoles : ClRoles PP) (cSettings : ClSettings PP) (hk : Keep pq PP s) : KeepRes pq PP (execStage session frame t s) := by
  unfold execStage
  repeat' (first | with_reducible apply keepRes_next | with_reducible assumption | with_reducible apply keep_dapCommand)

theorem keep_execReadStaged (session : Nat) (frame : Bytes) (t : Nat) (cMeasure : ClMeasure PP) (cRoles : ClRoles PP) (cSettings : ClSettings PP) (hk : Keep pq PP s) : KeepRes pq PP (execReadStaged session frame t s) := by
  unfold execReadStaged
  repeat' (first | with_reducible apply keepRes_next | with_reducible assumption | with_reducible apply keep_dapCommand)

theorem keep_execDescribe (session : Nat) (frame : Bytes) (t : Nat) (cMeasure : ClMeasure PP) (cRoles : ClRoles PP) (cSettings : ClSettings PP) (hk : Keep pq PP s) : KeepRes pq PP (execDescribe session frame t s) := by
  unfold execDescribe
  repeat' (first | with_reducible apply keepRes_next | with_reducible assumption | with_reducible apply keep_dapCommand)

theorem keep_execCommitCheck (session : Nat) (frame : Bytes) (t : Nat) (cMeasure : ClMeasure PP) (cRoles : ClRoles PP) (cSettings : ClSettings PP) (hk : Keep pq PP s) : KeepRes pq PP (execCommitCheck session frame t s) := by
  unfold execCommitCheck
  repeat' (first | with_reducible apply keepRes_next | with_reducible assumption | with_reducible apply keep_dapCommand)

theorem keep_execCommitApply (session : Nat) (frame : Bytes) (t : Nat) (cMeasure : ClMeasure PP) (cRoles : ClRoles PP) (cSettings : ClSettings PP) (hk : Keep pq PP s) : KeepRes pq PP (execCommitApply session frame t s) := by
  unfold execCommitApply
  repeat' (first | with_reducible apply keepRes_next | with_reducible assumption | with_reducible apply keep_dapCommand)

theorem keep_execCommitAbort (session : Nat) (frame : Bytes) (t : Nat) (cMeasure : ClMeasure PP) (cRoles : ClRoles PP) (cSettings : ClSettings PP) (hk : Keep pq PP s) : KeepRes pq PP (execCommitAbort session frame t s) := by
  unfold execCommitAbort
  repeat' (first | with_reducible apply keepRes_next | with_reducible assumption | with_reducible apply keep_dapCommand)

theorem keep_execTgWriteRead (session : Nat) (frame : Bytes) (t : Nat) (cMeasure : ClMeasure PP) (cRoles : ClRoles PP) (cSettings : ClSettings PP) (hk : Keep pq PP s) : KeepRes pq PP (execTgWriteRead session frame t s) := by
  unfold execTgWriteRead
  repeat' (first | with_reducible apply keepRes_next | with_reducible assumption | with_reducible apply keep_dapCommand)

theorem keep_execTgReadOnly (session : Nat) (frame : Bytes) (t : Nat) (cMeasure : ClMeasure PP) (cRoles : ClRoles PP) (cSettings : ClSettings PP) (hk : Keep pq PP s) : KeepRes pq PP (execTgReadOnly session frame t s) := by
  unfold execTgReadOnly
  repeat' (first | with_reducible apply keepRes_next | with_reducible assumption | with_reducible apply keep_dapCommand)

theorem keep_execTgWriteOnly (session : Nat) (frame : Bytes) (t : Nat) (cMeasure : ClMeasure PP) (cRoles : ClRoles PP) (cSettings : ClSettings PP) (hk : Keep pq PP s) : KeepRes pq PP (execTgWriteOnly session frame t s) := by
  unfold execTgWriteOnly
  repeat' (first | with_reducible apply keepRes_next | with_reducible assumption | with_reducible apply keep_dapCommand)

theorem keep_execFtgWriteRead (session : Nat) (frame : Bytes) (t : Nat) (cMeasure : ClMeasure PP) (cRoles : ClRoles PP) (cSettings : ClSettings PP) (hk : Keep pq PP s) : KeepRes pq PP (execFtgWriteRead session frame t s) := by
  unfold execFtgWriteRead
  repeat' (first | with_reducible apply keepRes_next | with_reducible assumption | with_reducible apply keep_dapCommand)

theorem keep_execFtgReadVerify (session : Nat) (frame : Bytes) (t : Nat) (cMeasure : ClMeasure PP) (cRoles : ClRoles PP) (cSettings : ClSettings PP) (hk : Keep pq PP s) : KeepRes pq PP (execFtgReadVerify session frame t s) := by
  unfold execFtgReadVerify
  repeat' (first | with_reducible apply keepRes_next | with_reducible assumption | with_reducible apply keep_dapCommand)

theorem keep_execFtgEraseTest (session : Nat) (frame : Bytes) (t : Nat) (cMeasure : ClMeasure PP) (cRoles : ClRoles PP) (cSettings : ClSettings PP) (hk : Keep pq PP s) : KeepRes pq PP (execFtgEraseTest session frame t s) := by
  unfold execFtgEraseTest
  repeat' (first | with_reducible apply keepRes_next | with_reducible assumption | with_reducible apply keep_dapCommand)

theorem keep_execRoleRecord (session : Nat) (frame : Bytes) (t : Nat) (cMeasure : ClMeasure PP) (cRoles : ClRoles PP) (cSettings : ClSettings PP) (hk : Keep pq PP s) : KeepRes pq PP (execRoleRecord session frame t s) := by
  unfold execRoleRecord
  repeat' (first | with_reducible apply keepRes_next | with_reducible assumption | with_reducible apply keep_dapCommand)

theorem keep_execFactoryReset (session : Nat) (frame : Bytes) (t : Nat) (cMeasure : ClMeasure PP) (cRoles : ClRoles PP) (cSettings : ClSettings PP) (hk : Keep pq PP s) : KeepRes pq PP (execFactoryReset session frame t s) := by
  unfold execFactoryReset
  repeat' (first | with_reducible apply keepRes_next | with_reducible assumption | with_reducible apply keep_dapCommand)

theorem keep_execImageBegin (session : Nat) (frame : Bytes) (t : Nat) (cMeasure : ClMeasure PP) (cRoles : ClRoles PP) (cSettings : ClSettings PP) (hk : Keep pq PP s) : KeepRes pq PP (execImageBegin session frame t s) := by
  unfold execImageBegin
  repeat' (first | with_reducible apply keepRes_next | with_reducible assumption | with_reducible apply keep_imageBegin | with_reducible apply keep_dapCommand)

theorem keep_execImageBlock (session : Nat) (frame : Bytes) (t : Nat) (cMeasure : ClMeasure PP) (cRoles : ClRoles PP) (cSettings : ClSettings PP) (hk : Keep pq PP s) : KeepRes pq PP (execImageBlock session frame t s) := by
  unfold execImageBlock
  repeat' (first | with_reducible apply keepRes_next | with_reducible assumption | with_reducible apply keep_imageBlock | with_reducible apply keep_dapCommand)

theorem keep_execImageFinish (session : Nat) (frame : Bytes) (t : Nat) (cMeasure : ClMeasure PP) (cRoles : ClRoles PP) (cSettings : ClSettings PP) (hk : Keep pq PP s) : KeepRes pq PP (execImageFinish session frame t s) := by
  unfold execImageFinish
  repeat' (first | with_reducible apply keepRes_next | with_reducible assumption | with_reducible apply keep_imageFinish | with_reducible apply keep_dapCommand)

theorem keep_execImageAbandon (session : Nat) (frame : Bytes) (t : Nat) (cMeasure : ClMeasure PP) (cRoles : ClRoles PP) (cSettings : ClSettings PP) (hk : Keep pq PP s) : KeepRes pq PP (execImageAbandon session frame t s) := by
  unfold execImageAbandon
  repeat' (first | with_reducible apply keepRes_next | with_reducible assumption | with_reducible apply keep_imageAbandon | with_reducible apply keep_dapCommand)

theorem keep_execImageMarkPending (session : Nat) (frame : Bytes) (t : Nat) (cMeasure : ClMeasure PP) (cRoles : ClRoles PP) (cSettings : ClSettings PP) (hk : Keep pq PP s) : KeepRes pq PP (execImageMarkPending session frame t s) := by
  unfold execImageMarkPending
  repeat' (first | with_reducible apply keepRes_next | with_reducible assumption | with_reducible apply keep_dapCommand)

theorem keep_execImageClearPending (session : Nat) (frame : Bytes) (t : Nat) (cMeasure : ClMeasure PP) (cRoles : ClRoles PP) (cSettings : ClSettings PP) (hk : Keep pq PP s) : KeepRes pq PP (execImageClearPending session frame t s) := by
  unfold execImageClearPending
  repeat' (first | with_reducible apply keepRes_next | with_reducible assumption | with_reducible apply keep_dapCommand)

theorem keep_execImageActivate (session : Nat) (frame : Bytes) (t : Nat) (cMeasure : ClMeasure PP) (cRoles : ClRoles PP) (cSettings : ClSettings PP) (hk : Keep pq PP s) : KeepRes pq PP (execImageActivate session frame t s) := by
  unfold execImageActivate
  repeat' (first | with_reducible apply keepRes_next | with_reducible assumption | with_reducible apply keep_dapCommand)

theorem keep_execModuleReset (session : Nat) (frame : Bytes) (t : Nat) (cMeasure : ClMeasure PP) (cRoles : ClRoles PP) (cSettings : ClSettings PP) (hk : Keep pq PP s) : KeepRes pq PP (execModuleReset session frame t s) := by
  unfold execModuleReset
  repeat' (first | with_reducible apply keepRes_next | with_reducible assumption | with_reducible apply keep_dapCommand)

theorem keep_execDiagnosticMode (session : Nat) (frame : Bytes) (t : Nat) (cMeasure : ClMeasure PP) (cRoles : ClRoles PP) (cSettings : ClSettings PP) (hk : Keep pq PP s) : KeepRes pq PP (execDiagnosticMode session frame t s) := by
  unfold execDiagnosticMode
  repeat' (first | with_reducible apply keepRes_next | with_reducible assumption | with_reducible apply keep_dapCommand)

theorem keep_execBlackboxReadFrom (session : Nat) (frame : Bytes) (t : Nat) (cMeasure : ClMeasure PP) (cRoles : ClRoles PP) (cSettings : ClSettings PP) (hk : Keep pq PP s) : KeepRes pq PP (execBlackboxReadFrom session frame t s) := by
  unfold execBlackboxReadFrom
  repeat' (first | with_reducible apply keepRes_next | with_reducible assumption | with_reducible apply keep_dapCommand)

theorem keep_execBlackboxWindow (session : Nat) (frame : Bytes) (t : Nat) (cMeasure : ClMeasure PP) (cRoles : ClRoles PP) (cSettings : ClSettings PP) (hk : Keep pq PP s) : KeepRes pq PP (execBlackboxWindow session frame t s) := by
  unfold execBlackboxWindow
  repeat' (first | with_reducible apply keepRes_next | with_reducible assumption | with_reducible apply keep_dapCommand)

theorem keep_claimRole (key : Bytes) (cRoles : ClRoles PP) (hk : Keep pq PP s) : Keep pq PP (claimRole key s) := by
  unfold claimRole
  dsimp only
  repeat' (first | with_reducible assumption | fail_if_no_progress with_reducible refine keep_roles cRoles ?_ rfl rfl rfl rfl rfl rfl rfl le_rfl | with_reducible apply keep_logEvent)

theorem keep_openSession (mgmt : Bool) (role : Option Role) (hk : Keep pq PP s) : Keep pq PP (openSession mgmt role s) := by
  unfold openSession
  dsimp only
  repeat' (first | with_reducible assumption | with_reducible apply keep_bump | with_reducible apply keep_ite | fail_if_no_progress with_reducible refine keep_rest ?_ | split)

theorem keep_execDapHandshake (mgmt : Bool) (certificate : Bytes) (t : Nat) (cRoles : ClRoles PP) (hk : Keep pq PP s) : KeepRes pq PP (execDapHandshake mgmt certificate t s) := by
  unfold execDapHandshake
  dsimp only
  repeat' (first | with_reducible apply keepRes_next | with_reducible apply keepRes_ite | with_reducible assumption | with_reducible apply keep_tick | with_reducible apply keep_bump | with_reducible apply keep_claimRole | with_reducible apply keep_openSession | with_reducible apply keep_ite | fail_if_no_progress with_reducible refine keep_rest ?_ | split)

theorem keep_execDapIdleTimeout (session : Nat) (t : Nat) (hk : Keep pq PP s) : KeepRes pq PP (execDapIdleTimeout session t s) := by
  unfold execDapIdleTimeout
  dsimp only
  repeat' (first | with_reducible apply keepRes_next | with_reducible apply keepRes_ite | with_reducible assumption | with_reducible apply keep_tick | with_reducible apply keep_closeSession | with_reducible apply keep_ite | fail_if_no_progress with_reducible refine keep_rest ?_ | split)

theorem keep_execDapSessionClose (session : Nat) (hk : Keep pq PP s) : KeepRes pq PP (execDapSessionClose session s) := by
  unfold execDapSessionClose
  repeat' (first | with_reducible apply keepRes_next | with_reducible assumption | with_reducible apply keep_closeSession)

theorem keep_diagReply (w : DiagWait) (ok : Bool) (hk : Keep pq PP s) : Keep pq PP (diagReply w ok s) := by
  unfold diagReply
  dsimp only
  repeat' (first | with_reducible assumption | with_reducible apply keep_dapAnswer)

theorem keep_diagDone (w : DiagWait) (hk : Keep pq PP s) : Keep pq PP (diagDone w s) := by
  unfold diagDone
  dsimp only
  repeat' (first | with_reducible assumption | with_reducible apply keep_updSession | fail_if_no_progress with_reducible refine keep_rest ?_)

theorem keep_enterDiagnostic (w : DiagWait) (hk : Keep pq PP s) : Keep pq PP (enterDiagnostic w s) := by
  unfold enterDiagnostic
  dsimp only
  repeat' (first | with_reducible assumption | with_reducible apply keep_logEvent | with_reducible apply keep_disconnect | with_reducible apply keep_foldl | fail_if_no_progress with_reducible refine keep_rest ?_ | intro _ _ _)

theorem keep_execDiagnosticModeEntered (t : Nat) (hk : Keep pq PP s) : KeepRes pq PP (execDiagnosticModeEntered t s) := by
  unfold execDiagnosticModeEntered
  dsimp only
  repeat' (first | with_reducible apply keepRes_next | with_reducible apply keepRes_ite | with_reducible assumption | with_reducible apply keep_tick | with_reducible apply keep_diagReply | with_reducible apply keep_diagDone | with_reducible apply keep_enterDiagnostic | with_reducible apply keep_ite | fail_if_no_progress with_reducible refine keep_rest ?_ | split)

/-! ### Machine/Pages.lean -/

theorem keep_resumeAll (hk : Keep pq PP s) : Keep pq PP (resumeAll s) := by
  unfold resumeAll
  dsimp only
  repeat' (first | with_reducible assumption | with_reducible apply keep_resumeFwd | with_reducible apply keep_resumeBwd | with_reducible apply keep_resumeUpd | with_reducible apply keep_foldl)

theorem keep_completeRead (page : Nat) (bad : Bool) (hk : Keep pq PP s) : Keep pq PP (completeRead page bad s) := by
  unfold completeRead
  dsimp only
  repeat' (first | with_reducible assumption | fail_if_no_progress with_reducible refine keep_rest ?_)

theorem keep_execPromotionReadComplete (page : Nat) (bad : Bool) (hk : Keep pq PP s) : KeepRes pq PP (execPromotionReadComplete page bad s) := by
  unfold execPromotionReadComplete
  repeat' (first | with_reducible apply keepRes_next | with_reducible assumption | with_reducible apply keep_resumeAll | with_reducible apply keep_completeRead)

theorem keep_execWindowSpaceFreed (region : Nat) (capacity : Nat) (hk : Keep pq PP s) : KeepRes pq PP (execWindowSpaceFreed region capacity s) := by
  unfold execWindowSpaceFreed
  dsimp only
  repeat' (first | with_reducible apply keepRes_next | with_reducible apply keepRes_ite | with_reducible assumption | with_reducible apply keep_grantPages | with_reducible apply keep_resumeAll | with_reducible apply keep_ite | fail_if_no_progress with_reducible refine keep_rest ?_ | split)

/-! ### Machine/Probing.lean -/

theorem keep_noteSaturated (key : Nat) (n : Nat) (hk : Keep pq PP s) : Keep pq PP (noteSaturated key n s) := by
  unfold noteSaturated
  repeat' (first | with_reducible assumption | with_reducible apply keep_bumpBy | with_reducible apply keep_updQuery | with_reducible apply keep_ite)

theorem keep_completeProbe (c : Coll) (key : Nat) (shard : Nat) (p : Probe) (hk : Keep pq PP s) : Keep pq PP (completeProbe c key shard p s) := by
  unfold completeProbe
  dsimp only
  repeat' (first | with_reducible assumption | with_reducible apply keep_updQuery | with_reducible apply keep_noteSaturated | with_reducible apply keep_ite | fail_if_no_progress with_reducible refine keep_rest ?_ | split)

theorem keep_passFor (c : Coll) (part : Nat) (stripe : Nat) (groups : List Nat) (key : Nat) (hk : Keep pq PP s) : Keep pq PP (passFor c part stripe groups s key) := by
  unfold passFor
  dsimp only
  repeat' (first | with_reducible assumption | with_reducible apply keep_updQuery | with_reducible apply keep_completeProbe | with_reducible apply keep_ite | fail_if_no_progress with_reducible refine keep_rest ?_ | split)

theorem keep_execSloePass (engine : Nat) (coll : Nat) (part : Nat) (stripe : Nat) (groups : List Nat) (queries : List Nat) (bursts : List Scrub) (hk : Keep pq PP s) : KeepRes pq PP (execSloePass engine coll part stripe groups queries bursts s) := by
  unfold execSloePass
  dsimp only
  repeat' (first | with_reducible apply keepRes_next | with_reducible apply keepRes_ite | with_reducible assumption | with_reducible apply keep_bypassRead | with_reducible apply keep_placeTiles | with_reducible apply keep_readBursts | with_reducible apply keep_passFor | with_reducible apply keep_ite | with_reducible apply keep_foldl | fail_if_no_progress with_reducible refine keep_rest ?_ | split | intro _ _ _)

theorem keep_appendPass (c : Coll) (shard : Nat) (q : Query) (hk : Keep pq PP s) : Keep pq PP (appendPass c shard q s) := by
  unfold appendPass
  dsimp only
  repeat' (first | with_reducible assumption | with_reducible apply keep_updQuery | with_reducible apply keep_countPasses | with_reducible apply keep_ite)

theorem keep_cutTo (key : Nat) (n : Nat) (hk : Keep pq PP s) : Keep pq PP (cutTo key n s) := by
  unfold cutTo
  repeat' (first | with_reducible assumption | with_reducible apply keep_updQuery | with_reducible apply keep_countPasses)

theorem keep_toRerank (key : Nat) (hk : Keep pq PP s) : Keep pq PP (toRerank key s) := by
  unfold toRerank
  repeat' (first | with_reducible assumption | with_reducible apply keep_updQuery | with_reducible apply keep_ite | fail_if_no_progress with_reducible refine keep_rest ?_ | split)

theorem keep_skipAdc (key : Nat) (hk : Keep pq PP s) : Keep pq PP (skipAdc key s) := by
  unfold skipAdc
  repeat' (first | with_reducible assumption | with_reducible apply keep_updQuery | with_reducible apply keep_cutTo | with_reducible apply keep_toRerank | fail_if_no_progress with_reducible refine keep_rest ?_ | split)

theorem keep_afterScan (key : Nat) (hk : Keep pq PP s) : Keep pq PP (afterScan key s) := by
  unfold afterScan
  dsimp only
  repeat' (first | with_reducible assumption | with_reducible apply keep_updQuery | with_reducible apply keep_cutTo | with_reducible apply keep_toRerank | with_reducible apply keep_skipAdc | with_reducible apply keep_ite | fail_if_no_progress with_reducible refine keep_rest ?_ | split)

theorem keep_execProbeRound (key : Nat) (hk : Keep pq PP s) : KeepRes pq PP (execProbeRound key s) := by
  unfold execProbeRound
  repeat' (first | with_reducible apply keepRes_next | with_reducible apply keepRes_ite | with_reducible assumption | with_reducible apply keep_bump | with_reducible apply keep_updQuery | with_reducible apply keep_afterScan | with_reducible apply keep_ite | fail_if_no_progress with_reducible refine keep_rest ?_ | split)

theorem keep_execScanCut (key : Nat) (t : Nat) (hk : Keep pq PP s) : KeepRes pq PP (execScanCut key t s) := by
  unfold execScanCut
  dsimp only
  repeat' (first | with_reducible apply keepRes_next | with_reducible apply keepRes_ite | with_reducible assumption | with_reducible apply keep_tick | with_reducible apply keep_updQuery | with_reducible apply keep_afterScan | with_reducible apply keep_ite | fail_if_no_progress with_reducible refine keep_rest ?_ | split)

theorem keep_lateStage (key : Nat) (hk : Keep pq PP s) : Keep pq PP (lateStage key s) := by
  unfold lateStage
  repeat' (first | with_reducible assumption | with_reducible apply keep_updQuery | with_reducible apply keep_skipAdc | fail_if_no_progress with_reducible refine keep_rest ?_ | split)

theorem keep_execLateStageCut (key : Nat) (t : Nat) (hk : Keep pq PP s) : KeepRes pq PP (execLateStageCut key t s) := by
  unfold execLateStageCut
  dsimp only
  repeat' (first | with_reducible apply keepRes_next | with_reducible apply keepRes_ite | with_reducible assumption | with_reducible apply keep_tick | with_reducible apply keep_lateStage | with_reducible apply keep_ite | fail_if_no_progress with_reducible refine keep_rest ?_ | split)

theorem keep_execAdcScan (key : Nat) (hk : Keep pq PP s) : KeepRes pq PP (execAdcScan key s) := by
  unfold execAdcScan
  dsimp only
  repeat' (first | with_reducible apply keepRes_next | with_reducible apply keepRes_ite | with_reducible assumption | with_reducible apply keep_updQuery | with_reducible apply keep_noteSaturated | with_reducible apply keep_cutTo | with_reducible apply keep_toRerank | with_reducible apply keep_lateStage | with_reducible apply keep_ite | fail_if_no_progress with_reducible refine keep_rest ?_ | split)

theorem keep_execRerank (key : Nat) (reads : RerankReads) (hk : Keep pq PP s) : KeepRes pq PP (execRerank key reads s) := by
  unfold execRerank
  dsimp only
  repeat' (first | with_reducible apply keepRes_next | with_reducible apply keepRes_ite | with_reducible assumption | with_reducible apply keep_updQuery | with_reducible apply keep_readBursts | with_reducible apply keep_lateStage | with_reducible apply keep_ite | fail_if_no_progress with_reducible refine keep_rest ?_ | split)

theorem keep_execQueryStall (key : Nat) (t : Nat) (hk : Keep pq PP s) : KeepRes pq PP (execQueryStall key t s) := by
  unfold execQueryStall
  dsimp only
  repeat' (first | with_reducible apply keepRes_next | with_reducible apply keepRes_ite | with_reducible assumption | with_reducible apply keep_tick | with_reducible apply keep_bump | with_reducible apply keep_updQuery | with_reducible apply keep_ite | fail_if_no_progress with_reducible refine keep_rest ?_ | split)

/-! ### Machine/Results.lean -/

theorem keep_countSkips (q : Query) (hk : Keep pq PP s) : Keep pq PP (countSkips q s) := by
  unfold countSkips
  repeat' (first | with_reducible assumption | with_reducible apply keep_bumpBy | with_reducible apply keep_ite)

theorem keep_dropQuery (q : Query) (hk : Keep pq PP s) : Keep pq PP (dropQuery q s) := by
  unfold dropQuery
  dsimp only
  repeat' (first | with_reducible assumption | with_reducible apply keep_settle | fail_if_no_progress with_reducible refine keep_rest ?_)

theorem keep_countResult (q : Query) (f : Found) (hk : Keep pq PP s) : Keep pq PP (countResult q f s) := by
  unfold countResult
  dsimp only
  repeat' (first | with_reducible assumption | with_reducible apply keep_bump | with_reducible apply keep_signed | with_reducible apply keep_ite)

theorem keep_tooLong (c : Cmd) (n : Nat) (hk : Keep pq PP s) : Keep pq PP (tooLong c n s) := by
  unfold tooLong
  repeat' (first | with_reducible assumption | with_reducible apply keep_finish)

theorem keep_deliverSearch (c : Cmd) (sch : Bytes) (q : Query) (f : Found) (hk : Keep pq PP s) : Keep pq PP (deliverSearch c sch q f s) := by
  unfold deliverSearch
  dsimp only
  repeat' (first | with_reducible assumption | with_reducible apply keep_finish | with_reducible apply keep_countResult | with_reducible apply keep_tooLong | with_reducible apply keep_ite)

theorem keep_countTruncated (type : Nat) (q : Query) (vs : List Nat) (hk : Keep pq PP s) : Keep pq PP (countTruncated type q vs s) := by
  unfold countTruncated
  repeat' (first | with_reducible assumption | with_reducible apply keep_bump | with_reducible apply keep_ite)

theorem keep_deliverColumn (cmd : Cmd) (c : Coll) (q : Query) (hk : Keep pq PP s) : Keep pq PP (deliverColumn cmd c q s) := by
  unfold deliverColumn
  dsimp only
  repeat' (first | with_reducible assumption | with_reducible apply keep_finish | with_reducible apply keep_tooLong | with_reducible apply keep_countTruncated | with_reducible apply keep_ite)

theorem keep_deliverCount (cmd : Cmd) (c : Coll) (q : Query) (f : Found) (hk : Keep pq PP s) : Keep pq PP (deliverCount cmd c q f s) := by
  unfold deliverCount
  dsimp only
  repeat' (first | with_reducible assumption | with_reducible apply keep_finish | with_reducible apply keep_countResult | with_reducible apply keep_tooLong | with_reducible apply keep_countTruncated | with_reducible apply keep_ite)

theorem keep_takePart (key : Nat) (shard : Nat) (g : ShardWait → ShardWait) (hk : Keep pq PP s) : Keep pq PP (takePart key shard g s) := by
  unfold takePart
  repeat' (first | with_reducible assumption | with_reducible apply keep_updQuery)

theorem keep_concludeShards (key : Nat) (hk : Keep pq PP s) : Keep pq PP (concludeShards key s) := by
  unfold concludeShards
  dsimp only
  repeat' (first | with_reducible assumption | with_reducible apply keep_fail | with_reducible apply keep_failPayload | with_reducible apply keep_updQuery | with_reducible apply keep_dropQuery | with_reducible apply keep_ite | fail_if_no_progress with_reducible refine keep_rest ?_ | split)

theorem keep_takeOwn (parent : Nat) (shard : Nat) (f : Found) (hk : Keep pq PP s) : Keep pq PP (takeOwn parent shard f s) := by
  unfold takeOwn
  repeat' (first | with_reducible assumption | with_reducible apply keep_takePart | with_reducible apply keep_concludeShards | with_reducible apply keep_ite | fail_if_no_progress with_reducible refine keep_rest ?_ | split)

theorem keep_finishQuery (c : Coll) (q : Query) (f : Found) (hk : Keep pq PP s) : Keep pq PP (finishQuery c q f s) := by
  unfold finishQuery
  dsimp only
  repeat' (first | with_reducible assumption | with_reducible apply keep_sendSpp | with_reducible apply keep_deliverSearch | with_reducible apply keep_deliverColumn | with_reducible apply keep_deliverCount | with_reducible apply keep_takeOwn | fail_if_no_progress with_reducible refine keep_rest ?_ | split)

theorem keep_execFinalSelection (key : Nat) (t : Nat) (hk : Keep pq PP s) : KeepRes pq PP (execFinalSelection key t s) := by
  unfold execFinalSelection
  dsimp only
  repeat' (first | with_reducible apply keepRes_next | with_reducible apply keepRes_ite | with_reducible assumption | with_reducible apply keep_tick | with_reducible apply keep_bumpBy | with_reducible apply keep_countPasses | with_reducible apply keep_countSkips | with_reducible apply keep_dropQuery | with_reducible apply keep_finishQuery | with_reducible apply keep_ite | fail_if_no_progress with_reducible refine keep_rest ?_ | split)

/-! ### Machine/Search.lean -/

theorem keep_startQuery (c : Coll) (a : Start) (hk : Keep pq PP s) : Keep pq PP (startQuery c a s) := by
  unfold startQuery
  dsimp only
  repeat' (first | with_reducible assumption | with_reducible apply keep_updQuery | with_reducible apply keep_appendPass | with_reducible apply keep_afterScan | with_reducible apply keep_ite | fail_if_no_progress with_reducible refine keep_rest ?_)

theorem keep_askShard (c : Coll) (p : Plan) (q : Query) (finishUs : Nat) (adcUs : Nat) (w : ShardWait) (hk : Keep pq PP s) : Keep pq PP (askShard c p q finishUs adcUs s w) := by
  unfold askShard
  dsimp only
  repeat' (first | with_reducible assumption | with_reducible apply keep_bump | with_reducible apply keep_sendSpp | with_reducible apply keep_takePart | with_reducible apply keep_startQuery | with_reducible apply keep_ite | fail_if_no_progress with_reducible refine keep_rest ?_ | split)

theorem keep_startShards (c : Coll) (p : Plan) (m : ShardMap) (a : Start) (tsh : Nat) (hk : Keep pq PP s) : Keep pq PP (startShards c p m a tsh s) := by
  unfold startShards
  dsimp only
  repeat' (first | with_reducible assumption | with_reducible apply keep_concludeShards | with_reducible apply keep_askShard | with_reducible apply keep_foldl | fail_if_no_progress with_reducible refine keep_rest ?_ | intro _ _ _)

theorem keep_queryRefused (seq : Nat) (base : Nat) (f : Nat × Nat) (hk : Keep pq PP s) : Keep pq PP (queryRefused seq base f s) := by
  unfold queryRefused
  repeat' (first | with_reducible assumption | with_reducible apply keep_fail | with_reducible apply keep_failPayload | with_reducible apply keep_ite)

theorem keep_runQuery (cmd : Cmd) (c : Coll) (p : Plan) (origin : QFrom) (record : Bytes) (request : Bytes) (hk : Keep pq PP s) : Keep pq PP (runQuery cmd c p origin record request s) := by
  unfold runQuery
  dsimp only
  repeat' (first | with_reducible assumption | with_reducible apply keep_updCmd | with_reducible apply keep_startStream | with_reducible apply keep_startQuery | with_reducible apply keep_startShards | fail_if_no_progress with_reducible refine keep_rest ?_ | split)

theorem keep_loseQueryRows (seq : Nat) (media : List Nat) (hk : Keep pq PP s) : Keep pq PP (loseQueryRows seq media s) := by
  unfold loseQueryRows
  dsimp only
  repeat' (first | with_reducible assumption | with_reducible apply keep_ite | fail_if_no_progress with_reducible refine keep_rest ?_)

theorem keep_searchNow (seq : Nat) (cmd : Cmd) (input : Bytes) (hk : Keep pq PP s) : Keep pq PP (searchNow seq cmd input s) := by
  unfold searchNow
  repeat' (first | with_reducible assumption | with_reducible apply keep_updCmd | with_reducible apply keep_succeed | with_reducible apply keep_fail | with_reducible apply keep_failEntry | with_reducible apply keep_failTile | with_reducible apply keep_queryRefused | with_reducible apply keep_runQuery | with_reducible apply keep_ite | fail_if_no_progress with_reducible refine keep_rest ?_ | split)

theorem keep_execSearch (seq : Nat) (input : Bytes) (upsets : Upsets) (t : Nat) (hk : Keep pq PP s) : KeepRes pq PP (execSearch seq input upsets t s) := by
  unfold execSearch
  dsimp only
  repeat' (first | with_reducible apply keepRes_next | with_reducible apply keepRes_ite | with_reducible assumption | with_reducible apply keep_tick | with_reducible apply keep_fail | with_reducible apply keep_takeBanks | with_reducible apply keep_guarded | with_reducible apply keep_codeFails | with_reducible apply keep_loseQueryRows | with_reducible apply keep_searchNow | with_reducible apply keep_ite | fail_if_no_progress with_reducible refine keep_rest ?_ | with_reducible refine keep_getD ?_ fun _ => ?_ | split)

theorem keep_emptyCount (cmd : Cmd) (c : Coll) (b : Bytes) (hk : Keep pq PP s) : Keep pq PP (emptyCount cmd c b s) := by
  unfold emptyCount
  dsimp only
  repeat' (first | with_reducible assumption | with_reducible apply keep_updCmd | with_reducible apply keep_succeed)

theorem keep_countNow (seq : Nat) (cmd : Cmd) (input : Bytes) (hk : Keep pq PP s) : Keep pq PP (countNow seq cmd input s) := by
  unfold countNow
  dsimp only
  repeat' (first | with_reducible assumption | with_reducible apply keep_succeed | with_reducible apply keep_fail | with_reducible apply keep_failEntry | with_reducible apply keep_failTile | with_reducible apply keep_startStream | with_reducible apply keep_startQuery | with_reducible apply keep_queryRefused | with_reducible apply keep_runQuery | with_reducible apply keep_emptyCount | with_reducible apply keep_ite | fail_if_no_progress with_reducible refine keep_rest ?_ | split)

theorem keep_execUniqueCount (run : CmdRun) (input : Bytes) (t : Nat) (hk : Keep pq PP s) : KeepRes pq PP (execUniqueCount run input t s) := by
  unfold execUniqueCount
  dsimp only
  repeat' (first | with_reducible apply keepRes_next | with_reducible apply keepRes_ite | with_reducible assumption | with_reducible apply keep_tick | with_reducible apply keep_fail | with_reducible apply keep_takeBanks | with_reducible apply keep_guarded | with_reducible apply keep_codeFails | with_reducible apply keep_loseQueryRows | with_reducible apply keep_countNow | with_reducible apply keep_ite | fail_if_no_progress with_reducible refine keep_rest ?_ | with_reducible refine keep_getD ?_ fun _ => ?_ | split)

theorem keep_execShardSearchReq (peer : Nat) (payload : Bytes) (t : Nat) (hk : Keep pq PP s) : KeepRes pq PP (execShardSearchReq peer payload t s) := by
  unfold execShardSearchReq
  dsimp only
  repeat' (first | with_reducible apply keepRes_next | with_reducible apply keepRes_ite | with_reducible assumption | with_reducible apply keep_tick | with_reducible apply keep_sendSpp | with_reducible apply keep_malformed | with_reducible apply keep_startQuery | with_reducible apply keep_ite | fail_if_no_progress with_reducible refine keep_rest ?_ | split)

theorem keep_execShardCancel (peer : Nat) (payload : Bytes) (hk : Keep pq PP s) : KeepRes pq PP (execShardCancel peer payload s) := by
  unfold execShardCancel
  dsimp only
  repeat' (first | with_reducible apply keepRes_next | with_reducible apply keepRes_ite | with_reducible assumption | with_reducible apply keep_malformed | with_reducible apply keep_dropQuery | with_reducible apply keep_ite | with_reducible apply keep_foldl)

theorem keep_execShardSearchReply (peer : Nat) (payload : Bytes) (t : Nat) (hk : Keep pq PP s) : KeepRes pq PP (execShardSearchReply peer payload t s) := by
  unfold execShardSearchReply
  dsimp only
  repeat' (first | with_reducible apply keepRes_next | with_reducible apply keepRes_ite | with_reducible assumption | with_reducible apply keep_tick | with_reducible apply keep_bump | with_reducible apply keep_malformed | with_reducible apply keep_takePart | with_reducible apply keep_concludeShards | with_reducible apply keep_ite | fail_if_no_progress with_reducible refine keep_rest ?_ | split)

theorem keep_skipShard (q : Query) (w : ShardWait) (hk : Keep pq PP s) : Keep pq PP (skipShard q s w) := by
  unfold skipShard
  dsimp only
  repeat' (first | with_reducible assumption | with_reducible apply keep_bump | with_reducible apply keep_sendSpp | with_reducible apply keep_dropQuery | with_reducible apply keep_takePart | with_reducible apply keep_ite | with_reducible apply keep_foldl)

theorem keep_execShardCut (key : Nat) (t : Nat) (hk : Keep pq PP s) : KeepRes pq PP (execShardCut key t s) := by
  unfold execShardCut
  dsimp only
  repeat' (first | with_reducible apply keepRes_next | with_reducible apply keepRes_ite | with_reducible assumption | with_reducible apply keep_tick | with_reducible apply keep_concludeShards | with_reducible apply keep_skipShard | with_reducible apply keep_ite | with_reducible apply keep_foldl | fail_if_no_progress with_reducible refine keep_rest ?_ | split | intro _ _ _)

theorem keep_execShardTimeout (key : Nat) (t : Nat) (hk : Keep pq PP s) : KeepRes pq PP (execShardTimeout key t s) := by
  unfold execShardTimeout
  dsimp only
  repeat' (first | with_reducible apply keepRes_next | with_reducible apply keepRes_ite | with_reducible assumption | with_reducible apply keep_tick | with_reducible apply keep_bump | with_reducible apply keep_fail | with_reducible apply keep_dropQuery | with_reducible apply keep_ite | with_reducible apply keep_foldl | fail_if_no_progress with_reducible refine keep_rest ?_ | split)

/-! ### Machine/StartUp.lean -/

theorem length_extend (i : Nat) (d : Bytes) (m : List Bytes) : (extend i d m).length = m.length := length_modAt _ _ _

theorem length_foldl_extend {l : List Nat} {m : List Bytes} :
    (l.foldl (fun m i => extend 6 (Config.recordDigest i).toList m) m).length = m.length := by
  induction l generalizing m with
  | nil => rfl
  | cons x r ih => exact ih.trans (length_extend _ _ _)

theorem length_measureBoot (s : State) (l : List Bytes) : (measureBoot s l).length = 8 := by
  unfold measureBoot
  simp only [length_foldl_extend, length_extend, List.length_replicate]

theorem keep_beginStart {u : State} {facts : StartFacts} {t : Nat} (cMeasure : ClMeasure PP) (cRecords : ClRecords PP) (e : beginStart facts t s = some u) (hk : Keep pq PP s) : Keep pq PP u := by
  unfold beginStart at e
  split at e
  · dsimp only at e
    split at e
    · cases e
    · cases e; exact keep_powerDown _ cMeasure cRecords (keep_tick _ hk)
  · split at e
    · cases e; exact keep_rest hk
    · cases e

theorem keep_restartCounts (hk : Keep pq PP s) : Keep pq PP (restartCounts s) :=
  ⟨hk.pending, hk.prot, table_wf_filter _ hk.counters, hk.values, fun p hp => hk.bound p (List.mem_of_mem_filter hp),
    List.length_replicate, hk.queue, hk.hbm, hk.dies, hk.last, hk.regs, hk.ring⟩

theorem keep_badRecords (offsets : List Nat) (hk : Keep pq PP s) : Keep pq PP (badRecords offsets s) := by
  unfold badRecords
  repeat' (first | with_reducible assumption | with_reducible apply keep_logEvent | with_reducible apply keep_foldl | fail_if_no_progress with_reducible refine keep_rest ?_ | intro _ _ _)

theorem keep_recover (cause : Nat) (hk : Keep pq PP s) : Keep pq PP (recover cause s) := by
  unfold recover
  dsimp only
  repeat' (first | with_reducible assumption | with_reducible apply keep_logEvent | fail_if_no_progress with_reducible refine keep_rest ?_)

theorem keep_trainHbm (failed : List Nat) (hk : Keep pq PP s) : Keep pq PP (trainHbm failed s) := by
  unfold trainHbm
  dsimp only
  repeat' (first | with_reducible assumption | exact keep_rest hk (hs := List.length_map _) (hd := List.length_map _))

theorem keep_restoreSettings (cSettings : ClSettings PP) (hk : Keep pq PP s) : Keep pq PP (restoreSettings s) := by
  unfold restoreSettings
  dsimp only
  repeat' (first | with_reducible assumption | with_reducible refine keep_setSettings cSettings (table_wf_filter _ hk.values) hk | with_reducible apply keep_logEvent | with_reducible apply keep_foldl | fail_if_no_progress with_reducible refine keep_rest ?_ | intro _ _ _)

theorem keep_readBoard (facts : StartFacts) (hk : Keep pq PP s) : Keep pq PP (readBoard facts s) := by
  unfold readBoard
  dsimp only
  repeat' (first | with_reducible assumption | with_reducible apply keep_setCage | with_reducible apply keep_foldl | fail_if_no_progress with_reducible refine keep_rest ?_ | intro _ _ _)

theorem keep_dropDeleted (hk : Keep pq PP s) : Keep pq PP (dropDeleted s) := by
  unfold dropDeleted
  dsimp only
  repeat' (first | with_reducible assumption | with_reducible apply keep_removeObject | with_reducible apply keep_foldl | fail_if_no_progress with_reducible refine keep_rest ?_ | intro _ _ _)

theorem keep_askAgain (hk : Keep pq PP s) : Keep pq PP (askAgain s) := by
  unfold askAgain
  repeat' (first | with_reducible assumption | with_reducible apply keep_askEpoch | with_reducible apply keep_foldl | fail_if_no_progress with_reducible refine keep_rest ?_ | split | intro _ _ _)

theorem keep_reopen (hk : Keep pq PP s) : Keep pq PP (reopen s) := by
  unfold reopen
  dsimp only
  repeat' (first | with_reducible assumption | with_reducible apply keep_bumpBy | with_reducible apply keep_dropDeleted | with_reducible apply keep_askAgain)

theorem keep_completeStart (slots : Nat) (ms : Nat) (hk : Keep pq PP s) : Keep pq PP (completeStart slots ms s) := by
  unfold completeStart
  dsimp only
  repeat' (first | with_reducible assumption | with_reducible apply keep_logEvent | with_reducible apply keep_bundleGood | with_reducible apply keep_reopen | fail_if_no_progress with_reducible refine keep_rest ?_)

theorem keep_bootBundle (facts : StartFacts) (cMeasure : ClMeasure PP) (cSettings : ClSettings PP) (hk : Keep pq PP s) : Keep pq PP (bootBundle facts s) := by
  unfold bootBundle
  have h1 := keep_selectBundle hk
  split
  · rename_i s1 e
    rw [e] at h1
    exact keep_recover _ (keep_measure cMeasure h1 ((length_modAt _ _ _).trans (by simp [h1.regs])) rfl rfl rfl rfl rfl rfl rfl le_rfl)
  · rename_i s1 slots e
    rw [e] at h1
    have h0 : Keep pq PP { s1 with sec := { s1.sec with measure := measureBoot s1 (bundleImages s1 slots) } } :=
      keep_measure cMeasure h1 ((length_measureBoot _ _).trans h1.regs.symm) rfl rfl rfl rfl rfl rfl rfl le_rfl
    have h2 := keep_trainHbm facts.failedChannels h0
    dsimp only
    apply keep_ite
    · exact keep_recover _ h2
    · apply keep_ite
      · exact keep_recover _ h2
      · exact keep_completeStart _ _ (keep_readBoard _ (keep_restoreSettings cSettings h2))

theorem keep_execStartUp (facts : StartFacts) (t : Nat) (cMeasure : ClMeasure PP) (cRecords : ClRecords PP) (cSettings : ClSettings PP) (hk : Keep pq PP s) : KeepRes pq PP (execStartUp facts t s) := by
  unfold execStartUp
  cases e : beginStart facts t s with
  | none => exact keepRes_next (keep_tick _ hk)
  | some s0 =>
    have h0 := keep_beginStart cMeasure cRecords e hk
    dsimp only
    split
    · exact keepRes_next (keep_rest h0)
    · exact keepRes_next (keep_bootBundle _ cMeasure cSettings (keep_badRecords _ (keep_restartCounts h0)))

end Sys2Proof.Laws
end

