-- ==== Sys2Proof/Laws/Places.lean ====
section
/-! SUPPORT. What the use of a unit through the caches can do (it changes the cache lines, and nothing else), and a command's taking of its scratchpad banks. -/

set_option Elab.async false

namespace Sys2Proof.Laws

open Machine

/-- Any projection that the memory's part does not enter is left by a use through a cache bank. -/
theorem useLine_same {α : Type} (f : State → α) (hf : ∀ (s : State) x, f { s with hbm := x } = f s) (dirty : Bool) (s : State) (u : Nat × Nat) :
    f (useLine dirty s u) = f s := by
  unfold useLine
  dsimp only
  split
  · exact hf _ _
  · split <;> exact hf _ _

/-- The same of some bytes of an object. -/
theorem touchBytes_same {α : Type} (f : State → α) (hf : ∀ (s : State) x, f { s with hbm := x } = f s) (dirty : Bool) (obj : MediaObj) (at_ n : Nat) (s : State) :
    f (touchBytes dirty obj at_ n s) = f s := by
  unfold touchBytes
  split
  · rfl
  · exact foldl_same f (fun u x => useLine_same f hf dirty u x) _ _

/-- A use leaves every tile where it lies, and every channel as it is. -/
theorem useLine_tiles (dirty : Bool) (s : State) (u : Nat × Nat) : (useLine dirty s u).hbm.tiles = s.hbm.tiles := by
  unfold useLine
  dsimp only
  split
  · rfl
  · split <;> rfl

/-- A command holds or waits already, or names none; or it takes its banks; or it waits for them, and the wait is counted. -/
theorem takeBanks_cases (c : Cmd) (s : State) : takeBanks c s = s ∨
    (∃ w : BankHold, w.seq = c.seq ∧ takeBanks c s = { s with hbm := { s.hbm with holds := s.hbm.holds ++ [w] } }) ∨
    ∃ l : List BankHold, takeBanks c s = bump Key.scratchWaits { s with hbm := { s.hbm with waiters := l } } := by
  unfold takeBanks
  dsimp only
  split
  · exact .inl rfl
  · split
    · exact .inr (.inl ⟨_, rfl, rfl⟩)
    · exact .inr (.inr ⟨_, rfl⟩)

/-- What neither the memory's part nor counting enters is left by the taking of banks. -/
theorem takeBanks_same {α : Type} (f : State → α) (hf : ∀ (s : State) x, f { s with hbm := x } = f s) (hb : ∀ k s, f (bump k s) = f s)
    (c : Cmd) (s : State) : f (takeBanks c s) = f s := by
  obtain h | ⟨w, -, h⟩ | ⟨l, h⟩ := takeBanks_cases c s <;> rw [h]
  · exact hf _ _
  · rw [hb, hf]

end Sys2Proof.Laws
end

