-- ==== Sys2Proof/Laws/SppFrames.lean ====
section
/-! SUPPORT. What the SPP writer leaves alone: everything but the attachment. -/

namespace Sys2Proof.Laws

set_option Elab.async false

open Machine

variable (s : State)

@[simp] theorem flushGo_pending (peer n : Nat) : (flushGo peer n s).pending = s.pending := by
  induction n generalizing s with
  | zero => rfl
  | succ n ih =>
    unfold flushGo
    split
    · split
      · exact (ih _).trans (emit_pending _ _)
      · rfl
    · rfl
@[simp] theorem flushGo_free (peer n : Nat) : (flushGo peer n s).free = s.free := by
  induction n generalizing s with
  | zero => rfl
  | succ n ih =>
    unfold flushGo
    split
    · split
      · exact (ih _).trans (emit_free _ _)
      · rfl
    · rfl
@[simp] theorem flushGo_now (peer n : Nat) : (flushGo peer n s).now = s.now := by
  induction n generalizing s with
  | zero => rfl
  | succ n ih =>
    unfold flushGo
    split
    · split
      · exact (ih _).trans (emit_now _ _)
      · rfl
    · rfl
@[simp] theorem flushGo_counters (peer n : Nat) : (flushGo peer n s).counters = s.counters := by
  induction n generalizing s with
  | zero => rfl
  | succ n ih =>
    unfold flushGo
    split
    · split
      · exact (ih _).trans (emit_counters _ _)
      · rfl
    · rfl
@[simp] theorem flushGo_settings (peer n : Nat) : (flushGo peer n s).settings = s.settings := by
  induction n generalizing s with
  | zero => rfl
  | succ n ih =>
    unfold flushGo
    split
    · split
      · exact (ih _).trans (emit_settings _ _)
      · rfl
    · rfl
@[simp] theorem flushGo_ahp (peer n : Nat) : (flushGo peer n s).ahp = s.ahp := by
  induction n generalizing s with
  | zero => rfl
  | succ n ih =>
    unfold flushGo
    split
    · split
      · exact (ih _).trans (emit_ahp _ _)
      · rfl
    · rfl
@[simp] theorem flushGo_search (peer n : Nat) : (flushGo peer n s).search = s.search := by
  induction n generalizing s with
  | zero => rfl
  | succ n ih =>
    unfold flushGo
    split
    · split
      · exact (ih _).trans (emit_search _ _)
      · rfl
    · rfl
@[simp] theorem flushGo_mem (peer n : Nat) : (flushGo peer n s).mem = s.mem := by
  induction n generalizing s with
  | zero => rfl
  | succ n ih =>
    unfold flushGo
    split
    · split
      · exact (ih _).trans (emit_mem _ _)
      · rfl
    · rfl
@[simp] theorem flushGo_hbm (peer n : Nat) : (flushGo peer n s).hbm = s.hbm := by
  induction n generalizing s with
  | zero => rfl
  | succ n ih =>
    unfold flushGo
    split
    · split
      · exact (ih _).trans (emit_hbm _ _)
      · rfl
    · rfl
@[simp] theorem flushGo_cold (peer n : Nat) : (flushGo peer n s).cold = s.cold := by
  induction n generalizing s with
  | zero => rfl
  | succ n ih =>
    unfold flushGo
    split
    · split
      · exact (ih _).trans (emit_cold _ _)
      · rfl
    · rfl
@[simp] theorem flushGo_dap (peer n : Nat) : (flushGo peer n s).dap = s.dap := by
  induction n generalizing s with
  | zero => rfl
  | succ n ih =>
    unfold flushGo
    split
    · split
      · exact (ih _).trans (emit_dap _ _)
      · rfl
    · rfl
@[simp] theorem flushGo_sec (peer n : Nat) : (flushGo peer n s).sec = s.sec := by
  induction n generalizing s with
  | zero => rfl
  | succ n ih =>
    unfold flushGo
    split
    · split
      · exact (ih _).trans (emit_sec _ _)
      · rfl
    · rfl
@[simp] theorem flushGo_power (peer n : Nat) : (flushGo peer n s).power = s.power := by
  induction n generalizing s with
  | zero => rfl
  | succ n ih =>
    unfold flushGo
    split
    · split
      · exact (ih _).trans (emit_power _ _)
      · rfl
    · rfl
@[simp] theorem flushGo_box (peer n : Nat) : (flushGo peer n s).box = s.box := by
  induction n generalizing s with
  | zero => rfl
  | succ n ih =>
    unfold flushGo
    split
    · split
      · exact (ih _).trans (emit_box _ _)
      · rfl
    · rfl

@[simp] theorem flushPeer_pending (peer : Nat) : (flushPeer peer s).pending = s.pending := flushGo_pending s peer _
@[simp] theorem flushPeer_free (peer : Nat) : (flushPeer peer s).free = s.free := flushGo_free s peer _
@[simp] theorem flushPeer_now (peer : Nat) : (flushPeer peer s).now = s.now := flushGo_now s peer _
@[simp] theorem flushPeer_counters (peer : Nat) : (flushPeer peer s).counters = s.counters := flushGo_counters s peer _
@[simp] theorem flushPeer_settings (peer : Nat) : (flushPeer peer s).settings = s.settings := flushGo_settings s peer _
@[simp] theorem flushPeer_ahp (peer : Nat) : (flushPeer peer s).ahp = s.ahp := flushGo_ahp s peer _
@[simp] theorem flushPeer_search (peer : Nat) : (flushPeer peer s).search = s.search := flushGo_search s peer _
@[simp] theorem flushPeer_mem (peer : Nat) : (flushPeer peer s).mem = s.mem := flushGo_mem s peer _
@[simp] theorem flushPeer_hbm (peer : Nat) : (flushPeer peer s).hbm = s.hbm := flushGo_hbm s peer _
@[simp] theorem flushPeer_cold (peer : Nat) : (flushPeer peer s).cold = s.cold := flushGo_cold s peer _
@[simp] theorem flushPeer_dap (peer : Nat) : (flushPeer peer s).dap = s.dap := flushGo_dap s peer _
@[simp] theorem flushPeer_sec (peer : Nat) : (flushPeer peer s).sec = s.sec := flushGo_sec s peer _
@[simp] theorem flushPeer_power (peer : Nat) : (flushPeer peer s).power = s.power := flushGo_power s peer _
@[simp] theorem flushPeer_box (peer : Nat) : (flushPeer peer s).box = s.box := flushGo_box s peer _

@[simp] theorem sendSpp_pending (peer type : Nat) (b : Bytes) : (sendSpp peer type b s).pending = s.pending := flushPeer_pending _ peer
@[simp] theorem sendSpp_free (peer type : Nat) (b : Bytes) : (sendSpp peer type b s).free = s.free := flushPeer_free _ peer
@[simp] theorem sendSpp_now (peer type : Nat) (b : Bytes) : (sendSpp peer type b s).now = s.now := flushPeer_now _ peer
@[simp] theorem sendSpp_counters (peer type : Nat) (b : Bytes) : (sendSpp peer type b s).counters = s.counters := flushPeer_counters _ peer
@[simp] theorem sendSpp_settings (peer type : Nat) (b : Bytes) : (sendSpp peer type b s).settings = s.settings := flushPeer_settings _ peer
@[simp] theorem sendSpp_ahp (peer type : Nat) (b : Bytes) : (sendSpp peer type b s).ahp = s.ahp := flushPeer_ahp _ peer
@[simp] theorem sendSpp_search (peer type : Nat) (b : Bytes) : (sendSpp peer type b s).search = s.search := flushPeer_search _ peer
@[simp] theorem sendSpp_mem (peer type : Nat) (b : Bytes) : (sendSpp peer type b s).mem = s.mem := flushPeer_mem _ peer
@[simp] theorem sendSpp_hbm (peer type : Nat) (b : Bytes) : (sendSpp peer type b s).hbm = s.hbm := flushPeer_hbm _ peer
@[simp] theorem sendSpp_cold (peer type : Nat) (b : Bytes) : (sendSpp peer type b s).cold = s.cold := flushPeer_cold _ peer
@[simp] theorem sendSpp_dap (peer type : Nat) (b : Bytes) : (sendSpp peer type b s).dap = s.dap := flushPeer_dap _ peer
@[simp] theorem sendSpp_sec (peer type : Nat) (b : Bytes) : (sendSpp peer type b s).sec = s.sec := flushPeer_sec _ peer
@[simp] theorem sendSpp_power (peer type : Nat) (b : Bytes) : (sendSpp peer type b s).power = s.power := flushPeer_power _ peer
@[simp] theorem sendSpp_box (peer type : Nat) (b : Bytes) : (sendSpp peer type b s).box = s.box := flushPeer_box _ peer

@[simp] theorem sendAll_pending (peers : List Nat) (type : Nat) (b : Bytes) : (sendAll peers type b s).pending = s.pending :=
  foldl_same (f := fun u p => sendSpp p type b u) (·.pending) (fun u p => sendSpp_pending u p type b) peers s
@[simp] theorem sendAll_free (peers : List Nat) (type : Nat) (b : Bytes) : (sendAll peers type b s).free = s.free :=
  foldl_same (f := fun u p => sendSpp p type b u) (·.free) (fun u p => sendSpp_free u p type b) peers s
@[simp] theorem sendAll_now (peers : List Nat) (type : Nat) (b : Bytes) : (sendAll peers type b s).now = s.now :=
  foldl_same (f := fun u p => sendSpp p type b u) (·.now) (fun u p => sendSpp_now u p type b) peers s
@[simp] theorem sendAll_counters (peers : List Nat) (type : Nat) (b : Bytes) : (sendAll peers type b s).counters = s.counters :=
  foldl_same (f := fun u p => sendSpp p type b u) (·.counters) (fun u p => sendSpp_counters u p type b) peers s
@[simp] theorem sendAll_settings (peers : List Nat) (type : Nat) (b : Bytes) : (sendAll peers type b s).settings = s.settings :=
  foldl_same (f := fun u p => sendSpp p type b u) (·.settings) (fun u p => sendSpp_settings u p type b) peers s
@[simp] theorem sendAll_ahp (peers : List Nat) (type : Nat) (b : Bytes) : (sendAll peers type b s).ahp = s.ahp :=
  foldl_same (f := fun u p => sendSpp p type b u) (·.ahp) (fun u p => sendSpp_ahp u p type b) peers s
@[simp] theorem sendAll_search (peers : List Nat) (type : Nat) (b : Bytes) : (sendAll peers type b s).search = s.search :=
  foldl_same (f := fun u p => sendSpp p type b u) (·.search) (fun u p => sendSpp_search u p type b) peers s
@[simp] theorem sendAll_mem (peers : List Nat) (type : Nat) (b : Bytes) : (sendAll peers type b s).mem = s.mem :=
  foldl_same (f := fun u p => sendSpp p type b u) (·.mem) (fun u p => sendSpp_mem u p type b) peers s
@[simp] theorem sendAll_hbm (peers : List Nat) (type : Nat) (b : Bytes) : (sendAll peers type b s).hbm = s.hbm :=
  foldl_same (f := fun u p => sendSpp p type b u) (·.hbm) (fun u p => sendSpp_hbm u p type b) peers s
@[simp] theorem sendAll_cold (peers : List Nat) (type : Nat) (b : Bytes) : (sendAll peers type b s).cold = s.cold :=
  foldl_same (f := fun u p => sendSpp p type b u) (·.cold) (fun u p => sendSpp_cold u p type b) peers s
@[simp] theorem sendAll_dap (peers : List Nat) (type : Nat) (b : Bytes) : (sendAll peers type b s).dap = s.dap :=
  foldl_same (f := fun u p => sendSpp p type b u) (·.dap) (fun u p => sendSpp_dap u p type b) peers s
@[simp] theorem sendAll_sec (peers : List Nat) (type : Nat) (b : Bytes) : (sendAll peers type b s).sec = s.sec :=
  foldl_same (f := fun u p => sendSpp p type b u) (·.sec) (fun u p => sendSpp_sec u p type b) peers s
@[simp] theorem sendAll_power (peers : List Nat) (type : Nat) (b : Bytes) : (sendAll peers type b s).power = s.power :=
  foldl_same (f := fun u p => sendSpp p type b u) (·.power) (fun u p => sendSpp_power u p type b) peers s
@[simp] theorem sendAll_box (peers : List Nat) (type : Nat) (b : Bytes) : (sendAll peers type b s).box = s.box :=
  foldl_same (f := fun u p => sendSpp p type b u) (·.box) (fun u p => sendSpp_box u p type b) peers s

end Sys2Proof.Laws
end

