-- ==== Sys2Proof/Laws/Updates.lean ====
section
/-! SUPPORT. What the plain updates of the later modules leave: one lemma for each field of State and each update that does not write it. -/

set_option Elab.async false

namespace Sys2Proof.Laws

open Machine

variable (s : State)

@[simp] theorem stopIngest_pending (seq : Nat) : (stopIngest seq s).pending = s.pending := rfl
@[simp] theorem stopIngest_free (seq : Nat) : (stopIngest seq s).free = s.free := rfl
@[simp] theorem stopIngest_now (seq : Nat) : (stopIngest seq s).now = s.now := rfl
@[simp] theorem stopIngest_counters (seq : Nat) : (stopIngest seq s).counters = s.counters := rfl
@[simp] theorem stopIngest_settings (seq : Nat) : (stopIngest seq s).settings = s.settings := rfl
@[simp] theorem stopIngest_ahp (seq : Nat) : (stopIngest seq s).ahp = s.ahp := rfl
@[simp] theorem stopIngest_mem (seq : Nat) : (stopIngest seq s).mem = s.mem := rfl
@[simp] theorem stopIngest_net (seq : Nat) : (stopIngest seq s).net = s.net := rfl
@[simp] theorem stopIngest_hbm (seq : Nat) : (stopIngest seq s).hbm = s.hbm := rfl
@[simp] theorem stopIngest_cold (seq : Nat) : (stopIngest seq s).cold = s.cold := rfl
@[simp] theorem stopIngest_dap (seq : Nat) : (stopIngest seq s).dap = s.dap := rfl
@[simp] theorem stopIngest_sec (seq : Nat) : (stopIngest seq s).sec = s.sec := rfl
@[simp] theorem stopIngest_power (seq : Nat) : (stopIngest seq s).power = s.power := rfl
@[simp] theorem stopIngest_box (seq : Nat) : (stopIngest seq s).box = s.box := rfl

@[simp] theorem stopJob_pending (seq : Nat) : (stopJob seq s).pending = s.pending := rfl
@[simp] theorem stopJob_free (seq : Nat) : (stopJob seq s).free = s.free := rfl
@[simp] theorem stopJob_now (seq : Nat) : (stopJob seq s).now = s.now := rfl
@[simp] theorem stopJob_counters (seq : Nat) : (stopJob seq s).counters = s.counters := rfl
@[simp] theorem stopJob_settings (seq : Nat) : (stopJob seq s).settings = s.settings := rfl
@[simp] theorem stopJob_ahp (seq : Nat) : (stopJob seq s).ahp = s.ahp := rfl
@[simp] theorem stopJob_mem (seq : Nat) : (stopJob seq s).mem = s.mem := rfl
@[simp] theorem stopJob_net (seq : Nat) : (stopJob seq s).net = s.net := rfl
@[simp] theorem stopJob_hbm (seq : Nat) : (stopJob seq s).hbm = s.hbm := rfl
@[simp] theorem stopJob_cold (seq : Nat) : (stopJob seq s).cold = s.cold := rfl
@[simp] theorem stopJob_dap (seq : Nat) : (stopJob seq s).dap = s.dap := rfl
@[simp] theorem stopJob_sec (seq : Nat) : (stopJob seq s).sec = s.sec := rfl
@[simp] theorem stopJob_power (seq : Nat) : (stopJob seq s).power = s.power := rfl
@[simp] theorem stopJob_box (seq : Nat) : (stopJob seq s).box = s.box := rfl

@[simp] theorem dropLine_pending (channel slot : Nat) : (dropLine channel slot s).pending = s.pending := rfl
@[simp] theorem dropLine_free (channel slot : Nat) : (dropLine channel slot s).free = s.free := rfl
@[simp] theorem dropLine_now (channel slot : Nat) : (dropLine channel slot s).now = s.now := rfl
@[simp] theorem dropLine_counters (channel slot : Nat) : (dropLine channel slot s).counters = s.counters := rfl
@[simp] theorem dropLine_settings (channel slot : Nat) : (dropLine channel slot s).settings = s.settings := rfl
@[simp] theorem dropLine_ahp (channel slot : Nat) : (dropLine channel slot s).ahp = s.ahp := rfl
@[simp] theorem dropLine_search (channel slot : Nat) : (dropLine channel slot s).search = s.search := rfl
@[simp] theorem dropLine_mem (channel slot : Nat) : (dropLine channel slot s).mem = s.mem := rfl
@[simp] theorem dropLine_net (channel slot : Nat) : (dropLine channel slot s).net = s.net := rfl
@[simp] theorem dropLine_cold (channel slot : Nat) : (dropLine channel slot s).cold = s.cold := rfl
@[simp] theorem dropLine_dap (channel slot : Nat) : (dropLine channel slot s).dap = s.dap := rfl
@[simp] theorem dropLine_sec (channel slot : Nat) : (dropLine channel slot s).sec = s.sec := rfl
@[simp] theorem dropLine_power (channel slot : Nat) : (dropLine channel slot s).power = s.power := rfl
@[simp] theorem dropLine_box (channel slot : Nat) : (dropLine channel slot s).box = s.box := rfl

@[simp] theorem reshapeCache_pending : (reshapeCache s).pending = s.pending := rfl
@[simp] theorem reshapeCache_free : (reshapeCache s).free = s.free := rfl
@[simp] theorem reshapeCache_now : (reshapeCache s).now = s.now := rfl
@[simp] theorem reshapeCache_counters : (reshapeCache s).counters = s.counters := rfl
@[simp] theorem reshapeCache_settings : (reshapeCache s).settings = s.settings := rfl
@[simp] theorem reshapeCache_ahp : (reshapeCache s).ahp = s.ahp := rfl
@[simp] theorem reshapeCache_search : (reshapeCache s).search = s.search := rfl
@[simp] theorem reshapeCache_mem : (reshapeCache s).mem = s.mem := rfl
@[simp] theorem reshapeCache_net : (reshapeCache s).net = s.net := rfl
@[simp] theorem reshapeCache_cold : (reshapeCache s).cold = s.cold := rfl
@[simp] theorem reshapeCache_dap : (reshapeCache s).dap = s.dap := rfl
@[simp] theorem reshapeCache_sec : (reshapeCache s).sec = s.sec := rfl
@[simp] theorem reshapeCache_power : (reshapeCache s).power = s.power := rfl
@[simp] theorem reshapeCache_box : (reshapeCache s).box = s.box := rfl

@[simp] theorem loseCache_pending : (loseCache s).pending = s.pending := rfl
@[simp] theorem loseCache_free : (loseCache s).free = s.free := rfl
@[simp] theorem loseCache_now : (loseCache s).now = s.now := rfl
@[simp] theorem loseCache_counters : (loseCache s).counters = s.counters := rfl
@[simp] theorem loseCache_settings : (loseCache s).settings = s.settings := rfl
@[simp] theorem loseCache_ahp : (loseCache s).ahp = s.ahp := rfl
@[simp] theorem loseCache_search : (loseCache s).search = s.search := rfl
@[simp] theorem loseCache_mem : (loseCache s).mem = s.mem := rfl
@[simp] theorem loseCache_net : (loseCache s).net = s.net := rfl
@[simp] theorem loseCache_cold : (loseCache s).cold = s.cold := rfl
@[simp] theorem loseCache_dap : (loseCache s).dap = s.dap := rfl
@[simp] theorem loseCache_sec : (loseCache s).sec = s.sec := rfl
@[simp] theorem loseCache_power : (loseCache s).power = s.power := rfl
@[simp] theorem loseCache_box : (loseCache s).box = s.box := rfl

@[simp] theorem hurtWork_pending (seq : Nat) : (hurtWork seq s).pending = s.pending := rfl
@[simp] theorem hurtWork_free (seq : Nat) : (hurtWork seq s).free = s.free := rfl
@[simp] theorem hurtWork_now (seq : Nat) : (hurtWork seq s).now = s.now := rfl
@[simp] theorem hurtWork_counters (seq : Nat) : (hurtWork seq s).counters = s.counters := rfl
@[simp] theorem hurtWork_settings (seq : Nat) : (hurtWork seq s).settings = s.settings := rfl
@[simp] theorem hurtWork_ahp (seq : Nat) : (hurtWork seq s).ahp = s.ahp := rfl
@[simp] theorem hurtWork_net (seq : Nat) : (hurtWork seq s).net = s.net := rfl
@[simp] theorem hurtWork_hbm (seq : Nat) : (hurtWork seq s).hbm = s.hbm := rfl
@[simp] theorem hurtWork_cold (seq : Nat) : (hurtWork seq s).cold = s.cold := rfl
@[simp] theorem hurtWork_dap (seq : Nat) : (hurtWork seq s).dap = s.dap := rfl
@[simp] theorem hurtWork_sec (seq : Nat) : (hurtWork seq s).sec = s.sec := rfl
@[simp] theorem hurtWork_power (seq : Nat) : (hurtWork seq s).power = s.power := rfl
@[simp] theorem hurtWork_box (seq : Nat) : (hurtWork seq s).box = s.box := rfl

@[simp] theorem coldWrite_pending (n : Nat) : (coldWrite n s).pending = s.pending := rfl
@[simp] theorem coldWrite_free (n : Nat) : (coldWrite n s).free = s.free := rfl
@[simp] theorem coldWrite_now (n : Nat) : (coldWrite n s).now = s.now := rfl
@[simp] theorem coldWrite_counters (n : Nat) : (coldWrite n s).counters = s.counters := rfl
@[simp] theorem coldWrite_settings (n : Nat) : (coldWrite n s).settings = s.settings := rfl
@[simp] theorem coldWrite_ahp (n : Nat) : (coldWrite n s).ahp = s.ahp := rfl
@[simp] theorem coldWrite_search (n : Nat) : (coldWrite n s).search = s.search := rfl
@[simp] theorem coldWrite_mem (n : Nat) : (coldWrite n s).mem = s.mem := rfl
@[simp] theorem coldWrite_net (n : Nat) : (coldWrite n s).net = s.net := rfl
@[simp] theorem coldWrite_hbm (n : Nat) : (coldWrite n s).hbm = s.hbm := rfl
@[simp] theorem coldWrite_dap (n : Nat) : (coldWrite n s).dap = s.dap := rfl
@[simp] theorem coldWrite_sec (n : Nat) : (coldWrite n s).sec = s.sec := rfl
@[simp] theorem coldWrite_power (n : Nat) : (coldWrite n s).power = s.power := rfl
@[simp] theorem coldWrite_box (n : Nat) : (coldWrite n s).box = s.box := rfl

@[simp] theorem coldProgram_pending (n : Nat) : (coldProgram n s).pending = s.pending := rfl
@[simp] theorem coldProgram_free (n : Nat) : (coldProgram n s).free = s.free := rfl
@[simp] theorem coldProgram_now (n : Nat) : (coldProgram n s).now = s.now := rfl
@[simp] theorem coldProgram_counters (n : Nat) : (coldProgram n s).counters = s.counters := rfl
@[simp] theorem coldProgram_settings (n : Nat) : (coldProgram n s).settings = s.settings := rfl
@[simp] theorem coldProgram_ahp (n : Nat) : (coldProgram n s).ahp = s.ahp := rfl
@[simp] theorem coldProgram_search (n : Nat) : (coldProgram n s).search = s.search := rfl
@[simp] theorem coldProgram_mem (n : Nat) : (coldProgram n s).mem = s.mem := rfl
@[simp] theorem coldProgram_net (n : Nat) : (coldProgram n s).net = s.net := rfl
@[simp] theorem coldProgram_hbm (n : Nat) : (coldProgram n s).hbm = s.hbm := rfl
@[simp] theorem coldProgram_dap (n : Nat) : (coldProgram n s).dap = s.dap := rfl
@[simp] theorem coldProgram_sec (n : Nat) : (coldProgram n s).sec = s.sec := rfl
@[simp] theorem coldProgram_power (n : Nat) : (coldProgram n s).power = s.power := rfl
@[simp] theorem coldProgram_box (n : Nat) : (coldProgram n s).box = s.box := rfl

@[simp] theorem clearLost_pending (kind owner : Nat) (lpns : List Nat) : (clearLost kind owner lpns s).pending = s.pending := rfl
@[simp] theorem clearLost_free (kind owner : Nat) (lpns : List Nat) : (clearLost kind owner lpns s).free = s.free := rfl
@[simp] theorem clearLost_now (kind owner : Nat) (lpns : List Nat) : (clearLost kind owner lpns s).now = s.now := rfl
@[simp] theorem clearLost_counters (kind owner : Nat) (lpns : List Nat) : (clearLost kind owner lpns s).counters = s.counters := rfl
@[simp] theorem clearLost_settings (kind owner : Nat) (lpns : List Nat) : (clearLost kind owner lpns s).settings = s.settings := rfl
@[simp] theorem clearLost_ahp (kind owner : Nat) (lpns : List Nat) : (clearLost kind owner lpns s).ahp = s.ahp := rfl
@[simp] theorem clearLost_search (kind owner : Nat) (lpns : List Nat) : (clearLost kind owner lpns s).search = s.search := rfl
@[simp] theorem clearLost_mem (kind owner : Nat) (lpns : List Nat) : (clearLost kind owner lpns s).mem = s.mem := rfl
@[simp] theorem clearLost_net (kind owner : Nat) (lpns : List Nat) : (clearLost kind owner lpns s).net = s.net := rfl
@[simp] theorem clearLost_hbm (kind owner : Nat) (lpns : List Nat) : (clearLost kind owner lpns s).hbm = s.hbm := rfl
@[simp] theorem clearLost_dap (kind owner : Nat) (lpns : List Nat) : (clearLost kind owner lpns s).dap = s.dap := rfl
@[simp] theorem clearLost_sec (kind owner : Nat) (lpns : List Nat) : (clearLost kind owner lpns s).sec = s.sec := rfl
@[simp] theorem clearLost_power (kind owner : Nat) (lpns : List Nat) : (clearLost kind owner lpns s).power = s.power := rfl
@[simp] theorem clearLost_box (kind owner : Nat) (lpns : List Nat) : (clearLost kind owner lpns s).box = s.box := rfl

@[simp] theorem updUnit_pending (tag : Nat) (f : CUnit → CUnit) : (updUnit tag f s).pending = s.pending := rfl
@[simp] theorem updUnit_free (tag : Nat) (f : CUnit → CUnit) : (updUnit tag f s).free = s.free := rfl
@[simp] theorem updUnit_now (tag : Nat) (f : CUnit → CUnit) : (updUnit tag f s).now = s.now := rfl
@[simp] theorem updUnit_counters (tag : Nat) (f : CUnit → CUnit) : (updUnit tag f s).counters = s.counters := rfl
@[simp] theorem updUnit_settings (tag : Nat) (f : CUnit → CUnit) : (updUnit tag f s).settings = s.settings := rfl
@[simp] theorem updUnit_ahp (tag : Nat) (f : CUnit → CUnit) : (updUnit tag f s).ahp = s.ahp := rfl
@[simp] theorem updUnit_mem (tag : Nat) (f : CUnit → CUnit) : (updUnit tag f s).mem = s.mem := rfl
@[simp] theorem updUnit_net (tag : Nat) (f : CUnit → CUnit) : (updUnit tag f s).net = s.net := rfl
@[simp] theorem updUnit_hbm (tag : Nat) (f : CUnit → CUnit) : (updUnit tag f s).hbm = s.hbm := rfl
@[simp] theorem updUnit_cold (tag : Nat) (f : CUnit → CUnit) : (updUnit tag f s).cold = s.cold := rfl
@[simp] theorem updUnit_dap (tag : Nat) (f : CUnit → CUnit) : (updUnit tag f s).dap = s.dap := rfl
@[simp] theorem updUnit_sec (tag : Nat) (f : CUnit → CUnit) : (updUnit tag f s).sec = s.sec := rfl
@[simp] theorem updUnit_power (tag : Nat) (f : CUnit → CUnit) : (updUnit tag f s).power = s.power := rfl
@[simp] theorem updUnit_box (tag : Nat) (f : CUnit → CUnit) : (updUnit tag f s).box = s.box := rfl

@[simp] theorem dropUnit_pending (tag : Nat) : (dropUnit tag s).pending = s.pending := rfl
@[simp] theorem dropUnit_free (tag : Nat) : (dropUnit tag s).free = s.free := rfl
@[simp] theorem dropUnit_now (tag : Nat) : (dropUnit tag s).now = s.now := rfl
@[simp] theorem dropUnit_counters (tag : Nat) : (dropUnit tag s).counters = s.counters := rfl
@[simp] theorem dropUnit_settings (tag : Nat) : (dropUnit tag s).settings = s.settings := rfl
@[simp] theorem dropUnit_ahp (tag : Nat) : (dropUnit tag s).ahp = s.ahp := rfl
@[simp] theorem dropUnit_mem (tag : Nat) : (dropUnit tag s).mem = s.mem := rfl
@[simp] theorem dropUnit_net (tag : Nat) : (dropUnit tag s).net = s.net := rfl
@[simp] theorem dropUnit_hbm (tag : Nat) : (dropUnit tag s).hbm = s.hbm := rfl
@[simp] theorem dropUnit_cold (tag : Nat) : (dropUnit tag s).cold = s.cold := rfl
@[simp] theorem dropUnit_dap (tag : Nat) : (dropUnit tag s).dap = s.dap := rfl
@[simp] theorem dropUnit_sec (tag : Nat) : (dropUnit tag s).sec = s.sec := rfl
@[simp] theorem dropUnit_power (tag : Nat) : (dropUnit tag s).power = s.power := rfl
@[simp] theorem dropUnit_box (tag : Nat) : (dropUnit tag s).box = s.box := rfl

@[simp] theorem updSub_pending (port sub : Nat) (f : SubPort → SubPort) : (updSub port sub f s).pending = s.pending := rfl
@[simp] theorem updSub_free (port sub : Nat) (f : SubPort → SubPort) : (updSub port sub f s).free = s.free := rfl
@[simp] theorem updSub_now (port sub : Nat) (f : SubPort → SubPort) : (updSub port sub f s).now = s.now := rfl
@[simp] theorem updSub_counters (port sub : Nat) (f : SubPort → SubPort) : (updSub port sub f s).counters = s.counters := rfl
@[simp] theorem updSub_settings (port sub : Nat) (f : SubPort → SubPort) : (updSub port sub f s).settings = s.settings := rfl
@[simp] theorem updSub_ahp (port sub : Nat) (f : SubPort → SubPort) : (updSub port sub f s).ahp = s.ahp := rfl
@[simp] theorem updSub_search (port sub : Nat) (f : SubPort → SubPort) : (updSub port sub f s).search = s.search := rfl
@[simp] theorem updSub_mem (port sub : Nat) (f : SubPort → SubPort) : (updSub port sub f s).mem = s.mem := rfl
@[simp] theorem updSub_hbm (port sub : Nat) (f : SubPort → SubPort) : (updSub port sub f s).hbm = s.hbm := rfl
@[simp] theorem updSub_cold (port sub : Nat) (f : SubPort → SubPort) : (updSub port sub f s).cold = s.cold := rfl
@[simp] theorem updSub_dap (port sub : Nat) (f : SubPort → SubPort) : (updSub port sub f s).dap = s.dap := rfl
@[simp] theorem updSub_sec (port sub : Nat) (f : SubPort → SubPort) : (updSub port sub f s).sec = s.sec := rfl
@[simp] theorem updSub_power (port sub : Nat) (f : SubPort → SubPort) : (updSub port sub f s).power = s.power := rfl
@[simp] theorem updSub_box (port sub : Nat) (f : SubPort → SubPort) : (updSub port sub f s).box = s.box := rfl

@[simp] theorem updIngest_pending (seq : Nat) (f : Ingest → Ingest) : (updIngest seq f s).pending = s.pending := rfl
@[simp] theorem updIngest_free (seq : Nat) (f : Ingest → Ingest) : (updIngest seq f s).free = s.free := rfl
@[simp] theorem updIngest_now (seq : Nat) (f : Ingest → Ingest) : (updIngest seq f s).now = s.now := rfl
@[simp] theorem updIngest_counters (seq : Nat) (f : Ingest → Ingest) : (updIngest seq f s).counters = s.counters := rfl
@[simp] theorem updIngest_settings (seq : Nat) (f : Ingest → Ingest) : (updIngest seq f s).settings = s.settings := rfl
@[simp] theorem updIngest_ahp (seq : Nat) (f : Ingest → Ingest) : (updIngest seq f s).ahp = s.ahp := rfl
@[simp] theorem updIngest_mem (seq : Nat) (f : Ingest → Ingest) : (updIngest seq f s).mem = s.mem := rfl
@[simp] theorem updIngest_net (seq : Nat) (f : Ingest → Ingest) : (updIngest seq f s).net = s.net := rfl
@[simp] theorem updIngest_hbm (seq : Nat) (f : Ingest → Ingest) : (updIngest seq f s).hbm = s.hbm := rfl
@[simp] theorem updIngest_cold (seq : Nat) (f : Ingest → Ingest) : (updIngest seq f s).cold = s.cold := rfl
@[simp] theorem updIngest_dap (seq : Nat) (f : Ingest → Ingest) : (updIngest seq f s).dap = s.dap := rfl
@[simp] theorem updIngest_sec (seq : Nat) (f : Ingest → Ingest) : (updIngest seq f s).sec = s.sec := rfl
@[simp] theorem updIngest_power (seq : Nat) (f : Ingest → Ingest) : (updIngest seq f s).power = s.power := rfl
@[simp] theorem updIngest_box (seq : Nat) (f : Ingest → Ingest) : (updIngest seq f s).box = s.box := rfl

@[simp] theorem unpin_pending (p : Plan) : (unpin p s).pending = s.pending := rfl
@[simp] theorem unpin_free (p : Plan) : (unpin p s).free = s.free := rfl
@[simp] theorem unpin_now (p : Plan) : (unpin p s).now = s.now := rfl
@[simp] theorem unpin_counters (p : Plan) : (unpin p s).counters = s.counters := rfl
@[simp] theorem unpin_settings (p : Plan) : (unpin p s).settings = s.settings := rfl
@[simp] theorem unpin_ahp (p : Plan) : (unpin p s).ahp = s.ahp := rfl
@[simp] theorem unpin_search (p : Plan) : (unpin p s).search = s.search := rfl
@[simp] theorem unpin_mem (p : Plan) : (unpin p s).mem = s.mem := rfl
@[simp] theorem unpin_net (p : Plan) : (unpin p s).net = s.net := rfl
@[simp] theorem unpin_hbm (p : Plan) : (unpin p s).hbm = s.hbm := rfl
@[simp] theorem unpin_dap (p : Plan) : (unpin p s).dap = s.dap := rfl
@[simp] theorem unpin_sec (p : Plan) : (unpin p s).sec = s.sec := rfl
@[simp] theorem unpin_power (p : Plan) : (unpin p s).power = s.power := rfl
@[simp] theorem unpin_box (p : Plan) : (unpin p s).box = s.box := rfl

@[simp] theorem dropEarly_pending (types : List Nat) (head step mb : Nat) : (dropEarly types head step mb s).pending = s.pending := rfl
@[simp] theorem dropEarly_free (types : List Nat) (head step mb : Nat) : (dropEarly types head step mb s).free = s.free := rfl
@[simp] theorem dropEarly_now (types : List Nat) (head step mb : Nat) : (dropEarly types head step mb s).now = s.now := rfl
@[simp] theorem dropEarly_counters (types : List Nat) (head step mb : Nat) : (dropEarly types head step mb s).counters = s.counters := rfl
@[simp] theorem dropEarly_settings (types : List Nat) (head step mb : Nat) : (dropEarly types head step mb s).settings = s.settings := rfl
@[simp] theorem dropEarly_ahp (types : List Nat) (head step mb : Nat) : (dropEarly types head step mb s).ahp = s.ahp := rfl
@[simp] theorem dropEarly_search (types : List Nat) (head step mb : Nat) : (dropEarly types head step mb s).search = s.search := rfl
@[simp] theorem dropEarly_net (types : List Nat) (head step mb : Nat) : (dropEarly types head step mb s).net = s.net := rfl
@[simp] theorem dropEarly_hbm (types : List Nat) (head step mb : Nat) : (dropEarly types head step mb s).hbm = s.hbm := rfl
@[simp] theorem dropEarly_cold (types : List Nat) (head step mb : Nat) : (dropEarly types head step mb s).cold = s.cold := rfl
@[simp] theorem dropEarly_dap (types : List Nat) (head step mb : Nat) : (dropEarly types head step mb s).dap = s.dap := rfl
@[simp] theorem dropEarly_sec (types : List Nat) (head step mb : Nat) : (dropEarly types head step mb s).sec = s.sec := rfl
@[simp] theorem dropEarly_power (types : List Nat) (head step mb : Nat) : (dropEarly types head step mb s).power = s.power := rfl
@[simp] theorem dropEarly_box (types : List Nat) (head step mb : Nat) : (dropEarly types head step mb s).box = s.box := rfl

@[simp] theorem dropMem_pending (seq : Nat) : (dropMem seq s).pending = s.pending := rfl
@[simp] theorem dropMem_free (seq : Nat) : (dropMem seq s).free = s.free := rfl
@[simp] theorem dropMem_now (seq : Nat) : (dropMem seq s).now = s.now := rfl
@[simp] theorem dropMem_counters (seq : Nat) : (dropMem seq s).counters = s.counters := rfl
@[simp] theorem dropMem_settings (seq : Nat) : (dropMem seq s).settings = s.settings := rfl
@[simp] theorem dropMem_ahp (seq : Nat) : (dropMem seq s).ahp = s.ahp := rfl
@[simp] theorem dropMem_search (seq : Nat) : (dropMem seq s).search = s.search := rfl
@[simp] theorem dropMem_net (seq : Nat) : (dropMem seq s).net = s.net := rfl
@[simp] theorem dropMem_hbm (seq : Nat) : (dropMem seq s).hbm = s.hbm := rfl
@[simp] theorem dropMem_cold (seq : Nat) : (dropMem seq s).cold = s.cold := rfl
@[simp] theorem dropMem_dap (seq : Nat) : (dropMem seq s).dap = s.dap := rfl
@[simp] theorem dropMem_sec (seq : Nat) : (dropMem seq s).sec = s.sec := rfl
@[simp] theorem dropMem_power (seq : Nat) : (dropMem seq s).power = s.power := rfl
@[simp] theorem dropMem_box (seq : Nat) : (dropMem seq s).box = s.box := rfl

@[simp] theorem updFwd_pending (seq : Nat) (f : MemFwd → MemFwd) : (updFwd seq f s).pending = s.pending := rfl
@[simp] theorem updFwd_free (seq : Nat) (f : MemFwd → MemFwd) : (updFwd seq f s).free = s.free := rfl
@[simp] theorem updFwd_now (seq : Nat) (f : MemFwd → MemFwd) : (updFwd seq f s).now = s.now := rfl
@[simp] theorem updFwd_counters (seq : Nat) (f : MemFwd → MemFwd) : (updFwd seq f s).counters = s.counters := rfl
@[simp] theorem updFwd_settings (seq : Nat) (f : MemFwd → MemFwd) : (updFwd seq f s).settings = s.settings := rfl
@[simp] theorem updFwd_ahp (seq : Nat) (f : MemFwd → MemFwd) : (updFwd seq f s).ahp = s.ahp := rfl
@[simp] theorem updFwd_search (seq : Nat) (f : MemFwd → MemFwd) : (updFwd seq f s).search = s.search := rfl
@[simp] theorem updFwd_net (seq : Nat) (f : MemFwd → MemFwd) : (updFwd seq f s).net = s.net := rfl
@[simp] theorem updFwd_hbm (seq : Nat) (f : MemFwd → MemFwd) : (updFwd seq f s).hbm = s.hbm := rfl
@[simp] theorem updFwd_cold (seq : Nat) (f : MemFwd → MemFwd) : (updFwd seq f s).cold = s.cold := rfl
@[simp] theorem updFwd_dap (seq : Nat) (f : MemFwd → MemFwd) : (updFwd seq f s).dap = s.dap := rfl
@[simp] theorem updFwd_sec (seq : Nat) (f : MemFwd → MemFwd) : (updFwd seq f s).sec = s.sec := rfl
@[simp] theorem updFwd_power (seq : Nat) (f : MemFwd → MemFwd) : (updFwd seq f s).power = s.power := rfl
@[simp] theorem updFwd_box (seq : Nat) (f : MemFwd → MemFwd) : (updFwd seq f s).box = s.box := rfl

@[simp] theorem updBwd_pending (seq : Nat) (f : MemBwd → MemBwd) : (updBwd seq f s).pending = s.pending := rfl
@[simp] theorem updBwd_free (seq : Nat) (f : MemBwd → MemBwd) : (updBwd seq f s).free = s.free := rfl
@[simp] theorem updBwd_now (seq : Nat) (f : MemBwd → MemBwd) : (updBwd seq f s).now = s.now := rfl
@[simp] theorem updBwd_counters (seq : Nat) (f : MemBwd → MemBwd) : (updBwd seq f s).counters = s.counters := rfl
@[simp] theorem updBwd_settings (seq : Nat) (f : MemBwd → MemBwd) : (updBwd seq f s).settings = s.settings := rfl
@[simp] theorem updBwd_ahp (seq : Nat) (f : MemBwd → MemBwd) : (updBwd seq f s).ahp = s.ahp := rfl
@[simp] theorem updBwd_search (seq : Nat) (f : MemBwd → MemBwd) : (updBwd seq f s).search = s.search := rfl
@[simp] theorem updBwd_net (seq : Nat) (f : MemBwd → MemBwd) : (updBwd seq f s).net = s.net := rfl
@[simp] theorem updBwd_hbm (seq : Nat) (f : MemBwd → MemBwd) : (updBwd seq f s).hbm = s.hbm := rfl
@[simp] theorem updBwd_cold (seq : Nat) (f : MemBwd → MemBwd) : (updBwd seq f s).cold = s.cold := rfl
@[simp] theorem updBwd_dap (seq : Nat) (f : MemBwd → MemBwd) : (updBwd seq f s).dap = s.dap := rfl
@[simp] theorem updBwd_sec (seq : Nat) (f : MemBwd → MemBwd) : (updBwd seq f s).sec = s.sec := rfl
@[simp] theorem updBwd_power (seq : Nat) (f : MemBwd → MemBwd) : (updBwd seq f s).power = s.power := rfl
@[simp] theorem updBwd_box (seq : Nat) (f : MemBwd → MemBwd) : (updBwd seq f s).box = s.box := rfl

@[simp] theorem setSlot_pending (kind slot : Nat) (image : Bytes) : (setSlot kind slot image s).pending = s.pending := rfl
@[simp] theorem setSlot_free (kind slot : Nat) (image : Bytes) : (setSlot kind slot image s).free = s.free := rfl
@[simp] theorem setSlot_now (kind slot : Nat) (image : Bytes) : (setSlot kind slot image s).now = s.now := rfl
@[simp] theorem setSlot_counters (kind slot : Nat) (image : Bytes) : (setSlot kind slot image s).counters = s.counters := rfl
@[simp] theorem setSlot_settings (kind slot : Nat) (image : Bytes) : (setSlot kind slot image s).settings = s.settings := rfl
@[simp] theorem setSlot_ahp (kind slot : Nat) (image : Bytes) : (setSlot kind slot image s).ahp = s.ahp := rfl
@[simp] theorem setSlot_search (kind slot : Nat) (image : Bytes) : (setSlot kind slot image s).search = s.search := rfl
@[simp] theorem setSlot_mem (kind slot : Nat) (image : Bytes) : (setSlot kind slot image s).mem = s.mem := rfl
@[simp] theorem setSlot_net (kind slot : Nat) (image : Bytes) : (setSlot kind slot image s).net = s.net := rfl
@[simp] theorem setSlot_hbm (kind slot : Nat) (image : Bytes) : (setSlot kind slot image s).hbm = s.hbm := rfl
@[simp] theorem setSlot_cold (kind slot : Nat) (image : Bytes) : (setSlot kind slot image s).cold = s.cold := rfl
@[simp] theorem setSlot_dap (kind slot : Nat) (image : Bytes) : (setSlot kind slot image s).dap = s.dap := rfl
@[simp] theorem setSlot_power (kind slot : Nat) (image : Bytes) : (setSlot kind slot image s).power = s.power := rfl
@[simp] theorem setSlot_box (kind slot : Nat) (image : Bytes) : (setSlot kind slot image s).box = s.box := rfl

@[simp] theorem setPending_pending (kind : Nat) (slot : Option Nat) : (setPending kind slot s).pending = s.pending := rfl
@[simp] theorem setPending_free (kind : Nat) (slot : Option Nat) : (setPending kind slot s).free = s.free := rfl
@[simp] theorem setPending_now (kind : Nat) (slot : Option Nat) : (setPending kind slot s).now = s.now := rfl
@[simp] theorem setPending_counters (kind : Nat) (slot : Option Nat) : (setPending kind slot s).counters = s.counters := rfl
@[simp] theorem setPending_settings (kind : Nat) (slot : Option Nat) : (setPending kind slot s).settings = s.settings := rfl
@[simp] theorem setPending_ahp (kind : Nat) (slot : Option Nat) : (setPending kind slot s).ahp = s.ahp := rfl
@[simp] theorem setPending_search (kind : Nat) (slot : Option Nat) : (setPending kind slot s).search = s.search := rfl
@[simp] theorem setPending_mem (kind : Nat) (slot : Option Nat) : (setPending kind slot s).mem = s.mem := rfl
@[simp] theorem setPending_net (kind : Nat) (slot : Option Nat) : (setPending kind slot s).net = s.net := rfl
@[simp] theorem setPending_hbm (kind : Nat) (slot : Option Nat) : (setPending kind slot s).hbm = s.hbm := rfl
@[simp] theorem setPending_cold (kind : Nat) (slot : Option Nat) : (setPending kind slot s).cold = s.cold := rfl
@[simp] theorem setPending_dap (kind : Nat) (slot : Option Nat) : (setPending kind slot s).dap = s.dap := rfl
@[simp] theorem setPending_power (kind : Nat) (slot : Option Nat) : (setPending kind slot s).power = s.power := rfl
@[simp] theorem setPending_box (kind : Nat) (slot : Option Nat) : (setPending kind slot s).box = s.box := rfl

@[simp] theorem setStack_pending (stack : Nat) (x : Stack) : (setStack stack x s).pending = s.pending := rfl
@[simp] theorem setStack_free (stack : Nat) (x : Stack) : (setStack stack x s).free = s.free := rfl
@[simp] theorem setStack_now (stack : Nat) (x : Stack) : (setStack stack x s).now = s.now := rfl
@[simp] theorem setStack_counters (stack : Nat) (x : Stack) : (setStack stack x s).counters = s.counters := rfl
@[simp] theorem setStack_settings (stack : Nat) (x : Stack) : (setStack stack x s).settings = s.settings := rfl
@[simp] theorem setStack_ahp (stack : Nat) (x : Stack) : (setStack stack x s).ahp = s.ahp := rfl
@[simp] theorem setStack_search (stack : Nat) (x : Stack) : (setStack stack x s).search = s.search := rfl
@[simp] theorem setStack_mem (stack : Nat) (x : Stack) : (setStack stack x s).mem = s.mem := rfl
@[simp] theorem setStack_net (stack : Nat) (x : Stack) : (setStack stack x s).net = s.net := rfl
@[simp] theorem setStack_hbm (stack : Nat) (x : Stack) : (setStack stack x s).hbm = s.hbm := rfl
@[simp] theorem setStack_cold (stack : Nat) (x : Stack) : (setStack stack x s).cold = s.cold := rfl
@[simp] theorem setStack_dap (stack : Nat) (x : Stack) : (setStack stack x s).dap = s.dap := rfl
@[simp] theorem setStack_sec (stack : Nat) (x : Stack) : (setStack stack x s).sec = s.sec := rfl
@[simp] theorem setStack_box (stack : Nat) (x : Stack) : (setStack stack x s).box = s.box := rfl

@[simp] theorem takeReadings_pending (x : Sensors) : (takeReadings x s).pending = s.pending := rfl
@[simp] theorem takeReadings_free (x : Sensors) : (takeReadings x s).free = s.free := rfl
@[simp] theorem takeReadings_now (x : Sensors) : (takeReadings x s).now = s.now := rfl
@[simp] theorem takeReadings_counters (x : Sensors) : (takeReadings x s).counters = s.counters := rfl
@[simp] theorem takeReadings_settings (x : Sensors) : (takeReadings x s).settings = s.settings := rfl
@[simp] theorem takeReadings_ahp (x : Sensors) : (takeReadings x s).ahp = s.ahp := rfl
@[simp] theorem takeReadings_search (x : Sensors) : (takeReadings x s).search = s.search := rfl
@[simp] theorem takeReadings_mem (x : Sensors) : (takeReadings x s).mem = s.mem := rfl
@[simp] theorem takeReadings_net (x : Sensors) : (takeReadings x s).net = s.net := rfl
@[simp] theorem takeReadings_hbm (x : Sensors) : (takeReadings x s).hbm = s.hbm := rfl
@[simp] theorem takeReadings_cold (x : Sensors) : (takeReadings x s).cold = s.cold := rfl
@[simp] theorem takeReadings_dap (x : Sensors) : (takeReadings x s).dap = s.dap := rfl
@[simp] theorem takeReadings_sec (x : Sensors) : (takeReadings x s).sec = s.sec := rfl
@[simp] theorem takeReadings_box (x : Sensors) : (takeReadings x s).box = s.box := rfl

@[simp] theorem updSession_pending (id : Nat) (f : Session → Session) : (updSession id f s).pending = s.pending := rfl
@[simp] theorem updSession_free (id : Nat) (f : Session → Session) : (updSession id f s).free = s.free := rfl
@[simp] theorem updSession_now (id : Nat) (f : Session → Session) : (updSession id f s).now = s.now := rfl
@[simp] theorem updSession_counters (id : Nat) (f : Session → Session) : (updSession id f s).counters = s.counters := rfl
@[simp] theorem updSession_settings (id : Nat) (f : Session → Session) : (updSession id f s).settings = s.settings := rfl
@[simp] theorem updSession_ahp (id : Nat) (f : Session → Session) : (updSession id f s).ahp = s.ahp := rfl
@[simp] theorem updSession_search (id : Nat) (f : Session → Session) : (updSession id f s).search = s.search := rfl
@[simp] theorem updSession_mem (id : Nat) (f : Session → Session) : (updSession id f s).mem = s.mem := rfl
@[simp] theorem updSession_net (id : Nat) (f : Session → Session) : (updSession id f s).net = s.net := rfl
@[simp] theorem updSession_hbm (id : Nat) (f : Session → Session) : (updSession id f s).hbm = s.hbm := rfl
@[simp] theorem updSession_cold (id : Nat) (f : Session → Session) : (updSession id f s).cold = s.cold := rfl
@[simp] theorem updSession_sec (id : Nat) (f : Session → Session) : (updSession id f s).sec = s.sec := rfl
@[simp] theorem updSession_power (id : Nat) (f : Session → Session) : (updSession id f s).power = s.power := rfl
@[simp] theorem updSession_box (id : Nat) (f : Session → Session) : (updSession id f s).box = s.box := rfl

@[simp] theorem dropGone_pending (id : Nat) : (dropGone id s).pending = s.pending := rfl
@[simp] theorem dropGone_free (id : Nat) : (dropGone id s).free = s.free := rfl
@[simp] theorem dropGone_now (id : Nat) : (dropGone id s).now = s.now := rfl
@[simp] theorem dropGone_counters (id : Nat) : (dropGone id s).counters = s.counters := rfl
@[simp] theorem dropGone_settings (id : Nat) : (dropGone id s).settings = s.settings := rfl
@[simp] theorem dropGone_ahp (id : Nat) : (dropGone id s).ahp = s.ahp := rfl
@[simp] theorem dropGone_search (id : Nat) : (dropGone id s).search = s.search := rfl
@[simp] theorem dropGone_mem (id : Nat) : (dropGone id s).mem = s.mem := rfl
@[simp] theorem dropGone_net (id : Nat) : (dropGone id s).net = s.net := rfl
@[simp] theorem dropGone_hbm (id : Nat) : (dropGone id s).hbm = s.hbm := rfl
@[simp] theorem dropGone_cold (id : Nat) : (dropGone id s).cold = s.cold := rfl
@[simp] theorem dropGone_sec (id : Nat) : (dropGone id s).sec = s.sec := rfl
@[simp] theorem dropGone_power (id : Nat) : (dropGone id s).power = s.power := rfl
@[simp] theorem dropGone_box (id : Nat) : (dropGone id s).box = s.box := rfl

@[simp] theorem setLastResult_pending (r : Nat) : (setLastResult r s).pending = s.pending := rfl
@[simp] theorem setLastResult_free (r : Nat) : (setLastResult r s).free = s.free := rfl
@[simp] theorem setLastResult_now (r : Nat) : (setLastResult r s).now = s.now := rfl
@[simp] theorem setLastResult_counters (r : Nat) : (setLastResult r s).counters = s.counters := rfl
@[simp] theorem setLastResult_settings (r : Nat) : (setLastResult r s).settings = s.settings := rfl
@[simp] theorem setLastResult_ahp (r : Nat) : (setLastResult r s).ahp = s.ahp := rfl
@[simp] theorem setLastResult_search (r : Nat) : (setLastResult r s).search = s.search := rfl
@[simp] theorem setLastResult_mem (r : Nat) : (setLastResult r s).mem = s.mem := rfl
@[simp] theorem setLastResult_net (r : Nat) : (setLastResult r s).net = s.net := rfl
@[simp] theorem setLastResult_hbm (r : Nat) : (setLastResult r s).hbm = s.hbm := rfl
@[simp] theorem setLastResult_cold (r : Nat) : (setLastResult r s).cold = s.cold := rfl
@[simp] theorem setLastResult_sec (r : Nat) : (setLastResult r s).sec = s.sec := rfl
@[simp] theorem setLastResult_power (r : Nat) : (setLastResult r s).power = s.power := rfl
@[simp] theorem setLastResult_box (r : Nat) : (setLastResult r s).box = s.box := rfl

@[simp] theorem setUpd_pending (u : Update) : (setUpd u s).pending = s.pending := rfl
@[simp] theorem setUpd_free (u : Update) : (setUpd u s).free = s.free := rfl
@[simp] theorem setUpd_now (u : Update) : (setUpd u s).now = s.now := rfl
@[simp] theorem setUpd_counters (u : Update) : (setUpd u s).counters = s.counters := rfl
@[simp] theorem setUpd_settings (u : Update) : (setUpd u s).settings = s.settings := rfl
@[simp] theorem setUpd_ahp (u : Update) : (setUpd u s).ahp = s.ahp := rfl
@[simp] theorem setUpd_search (u : Update) : (setUpd u s).search = s.search := rfl
@[simp] theorem setUpd_net (u : Update) : (setUpd u s).net = s.net := rfl
@[simp] theorem setUpd_hbm (u : Update) : (setUpd u s).hbm = s.hbm := rfl
@[simp] theorem setUpd_cold (u : Update) : (setUpd u s).cold = s.cold := rfl
@[simp] theorem setUpd_dap (u : Update) : (setUpd u s).dap = s.dap := rfl
@[simp] theorem setUpd_sec (u : Update) : (setUpd u s).sec = s.sec := rfl
@[simp] theorem setUpd_power (u : Update) : (setUpd u s).power = s.power := rfl
@[simp] theorem setUpd_box (u : Update) : (setUpd u s).box = s.box := rfl

@[simp] theorem dropRedEarly_pending (head step : Nat) : (dropRedEarly head step s).pending = s.pending := rfl
@[simp] theorem dropRedEarly_free (head step : Nat) : (dropRedEarly head step s).free = s.free := rfl
@[simp] theorem dropRedEarly_now (head step : Nat) : (dropRedEarly head step s).now = s.now := rfl
@[simp] theorem dropRedEarly_counters (head step : Nat) : (dropRedEarly head step s).counters = s.counters := rfl
@[simp] theorem dropRedEarly_settings (head step : Nat) : (dropRedEarly head step s).settings = s.settings := rfl
@[simp] theorem dropRedEarly_ahp (head step : Nat) : (dropRedEarly head step s).ahp = s.ahp := rfl
@[simp] theorem dropRedEarly_search (head step : Nat) : (dropRedEarly head step s).search = s.search := rfl
@[simp] theorem dropRedEarly_net (head step : Nat) : (dropRedEarly head step s).net = s.net := rfl
@[simp] theorem dropRedEarly_hbm (head step : Nat) : (dropRedEarly head step s).hbm = s.hbm := rfl
@[simp] theorem dropRedEarly_cold (head step : Nat) : (dropRedEarly head step s).cold = s.cold := rfl
@[simp] theorem dropRedEarly_dap (head step : Nat) : (dropRedEarly head step s).dap = s.dap := rfl
@[simp] theorem dropRedEarly_sec (head step : Nat) : (dropRedEarly head step s).sec = s.sec := rfl
@[simp] theorem dropRedEarly_power (head step : Nat) : (dropRedEarly head step s).power = s.power := rfl
@[simp] theorem dropRedEarly_box (head step : Nat) : (dropRedEarly head step s).box = s.box := rfl

@[simp] theorem dirtyPages_pending (back : Bool) (pages : List Nat) : (dirtyPages back pages s).pending = s.pending := rfl
@[simp] theorem dirtyPages_free (back : Bool) (pages : List Nat) : (dirtyPages back pages s).free = s.free := rfl
@[simp] theorem dirtyPages_now (back : Bool) (pages : List Nat) : (dirtyPages back pages s).now = s.now := rfl
@[simp] theorem dirtyPages_counters (back : Bool) (pages : List Nat) : (dirtyPages back pages s).counters = s.counters := rfl
@[simp] theorem dirtyPages_settings (back : Bool) (pages : List Nat) : (dirtyPages back pages s).settings = s.settings := rfl
@[simp] theorem dirtyPages_ahp (back : Bool) (pages : List Nat) : (dirtyPages back pages s).ahp = s.ahp := rfl
@[simp] theorem dirtyPages_search (back : Bool) (pages : List Nat) : (dirtyPages back pages s).search = s.search := rfl
@[simp] theorem dirtyPages_mem (back : Bool) (pages : List Nat) : (dirtyPages back pages s).mem = s.mem := rfl
@[simp] theorem dirtyPages_net (back : Bool) (pages : List Nat) : (dirtyPages back pages s).net = s.net := rfl
@[simp] theorem dirtyPages_hbm (back : Bool) (pages : List Nat) : (dirtyPages back pages s).hbm = s.hbm := rfl
@[simp] theorem dirtyPages_dap (back : Bool) (pages : List Nat) : (dirtyPages back pages s).dap = s.dap := rfl
@[simp] theorem dirtyPages_sec (back : Bool) (pages : List Nat) : (dirtyPages back pages s).sec = s.sec := rfl
@[simp] theorem dirtyPages_power (back : Bool) (pages : List Nat) : (dirtyPages back pages s).power = s.power := rfl
@[simp] theorem dirtyPages_box (back : Bool) (pages : List Nat) : (dirtyPages back pages s).box = s.box := rfl

end Sys2Proof.Laws
end

