-- ==== Sys2Proof/WellFormed.lean ====
section
/-! DEFINITION. Which commands can come at all: the unit numbers of 02 R23, the priorities of 14 R326 and the sensor counts
of 18 R424. A command outside these names a unit that the module does not have. -/

namespace Sys2Proof

namespace Machine

/-- A read of HBM names units that the module has, and each symbol position once (12 R280). -/
def Scrub.wf (x : Scrub) : Bool := x.channel < 384 && x.bank < 64 && x.burst < 32 && x.symbols.all (· < 72) && decide x.symbols.Nodup

/-- A second mismatch follows a first, in a cluster or in the front end, at a chunk of 4 KiB (19 R437). -/
def CodeChecks.wf (x : CodeChecks) : Bool :=
  x.second.all fun m => 1 ≤ x.retries && (m.unit < 32 || m.unit == 0xFFFF) && m.chunk % 4096 == 0

/-- A lost word of 64 bits lies in a cluster's 12 MiB or in a bank of 8 MiB of the shared store (12 R268, R269, R275). -/
def SramWord.wf (x : SramWord) : Bool := x.unit < 112 && x.word < (if x.unit < 32 then 1572864 else 1048576)

/-- A read of the cold tier names units that the module has (13 R293). -/
def FlashRead.wf (r : FlashRead) : Bool := r.channel < 32 && r.die < 16 && r.kind ≤ 2 && r.lpn < 1099511627776 && r.dieFailed.getD 0 < 16

/-- What the codes find while a command runs. -/
def Upsets.wf (x : Upsets) : Bool := x.bursts.all (·.wf) && x.words.all (·.wf) && x.codes.wf

end Machine

open Machine in
/-- The command names only units that the module has. DESIGN CHOICE (log entry 3). -/
def Instr.wf : Instr → Bool
  | .loadPlan _ _ codes => codes.wf
  | .search _ _ upsets _ => upsets.wf
  | .uniqueCount run _ _ => run.upsets.wf
  | .buildIndex run => run.upsets.wf
  | .memlayerFwd _ _ upsets _ => upsets.wf
  | .memlayerBwd run _ _ => run.upsets.wf
  | .memlayerUpdate run _ _ => run.upsets.wf
  | .sloePass engine _ _ _ _ _ bursts => engine < 384 && bursts.all (·.wf)
  | .rerank _ reads => reads.bursts.all (·.wf)
  | .scrubPass x _ => x.wf
  | .tileRelocation _ channel bank _ _ => channel < 384 && bank < 64
  | .mediaRecovery channel _ => channel < 384
  | .stackDrainComplete stack => stack < 12
  | .flashReadComplete r _ => r.wf
  | .patrol reads _ => reads.read.wf
  | .dieRebuild channel die _ sparePct => channel < 32 && die < 16 && sparePct ≤ 100
  | .garbageCollection _ sparePct => sparePct ≤ 100
  | .tgRunComplete pins _ _ => pins.length == 72
  | .frameReceive port sub _ _ => port < 4 && sub < 4
  | .connectionRequest port sub _ _ _ _ _ => port < 4 && sub < 4
  | .linkTraining port sub _ _ => port < 4 && sub < 4
  | .linkDown port sub _ _ => port < 4 && sub < 4
  | .pfcPause port sub priority _ _ => port < 4 && sub < 4 && priority < 8
  | .pfcStorm port sub priority _ => port < 4 && sub < 4 && priority < 8
  | .pfcStormEnd port sub priority _ => port < 4 && sub < 4 && priority < 8
  | .cageInsert port _ _ => port < 4
  | .plugInRemoved port _ => port < 4
  | .plugInHighAlarm port _ => port < 4
  | .clusterClockGate cluster => cluster < 32
  | .sensorReading x _ => x.hbm.length == 12 && x.dies.length == 2
  | .heartbeatTimeout core _ => core < 2
  | .startUp f _ => f.failedChannels.all (· < 384) && f.plugs.length == 4 && f.slotId < 64
  | _ => true

end Sys2Proof
end

