-- ==== Sys2Proof/Tests/Slice0.lean ====
section
/-! SUPPORT. Tests of the model: for every statement a state and operands that meet its hypotheses (`test_witness_<statement>`), for every check of
WellFormed a command that it refuses (`test_wf_…`), and worked examples of the spec. -/

namespace Sys2Proof.Tests

open Machine Laws

set_option maxRecDepth 20000
set_option Elab.async false

/-- A module entry of an installation descriptor with the ports 0 and 1. -/
def tModule (i digest : Nat) : Bytes := toLE 2 i ++ [0x03] ++ zeros 5 ++ toLE 8 digest ++ zeros 64

/-- An installation descriptor of eight modules, this one at position `own`, with the parts `rest` behind the module table. -/
def tDesc (own groups rings maps : Nat) (rest : Bytes) : Bytes :=
  withCrc (toLE 4 0x44494C41 ++ zeros 36 ++ toLE 8 1 ++ zeros 4 ++ toLE 2 8 ++ toLE 2 groups ++ toLE 2 maps ++ toLE 2 rings) ++
    ((List.range 8).map fun i => tModule i (if i = own then identityDigest else identityDigest + 1 + i)).flatten ++ rest

/-- A state whose live descriptor is `d`. -/
def tInstalled (d : Bytes) : State := { State.reset with settings := [(Key.installationDescriptor, d)] }

/-- Position 0 of the installation, with nothing but modules. -/
def tPeer : State := tInstalled (tDesc 0 0 0 0 [])
/-- Position 1 of the installation. -/
def tPeer1 : State := tInstalled (tDesc 1 0 0 0 [])

theorem tDesc_index (g r m : Nat) (rest : Bytes) : moduleIndex (tInstalled (tDesc 0 g r m rest)) = 0 := by
  have h : moduleCount (tInstalled (tDesc 0 g r m rest)) = 8 := rfl
  have h0 : moduleDigest (liveDesc (tInstalled (tDesc 0 g r m rest))) 0 = leNat (toLE 8 identityDigest) := rfl
  unfold moduleIndex
  rw [h]
  have : (moduleDigest (liveDesc (tInstalled (tDesc 0 g r m rest))) 0 == identityDigest) = true := by
    rw [h0, leNat_toLE, Nat.mod_eq_of_lt identityDigest_lt]; simp
  simp [List.range_succ, this]

theorem tPeer_index : moduleIndex tPeer = 0 := tDesc_index 0 0 0 []

theorem tDesc1_index (g r m : Nat) (rest : Bytes) : moduleIndex (tInstalled (tDesc 1 g r m rest)) = 1 := by
  have h : moduleCount (tInstalled (tDesc 1 g r m rest)) = 8 := rfl
  have h0 : moduleDigest (liveDesc (tInstalled (tDesc 1 g r m rest))) 0 = leNat (toLE 8 (identityDigest + 1)) := rfl
  have h1 : moduleDigest (liveDesc (tInstalled (tDesc 1 g r m rest))) 1 = leNat (toLE 8 identityDigest) := rfl
  unfold moduleIndex
  rw [h]
  have e0 : (moduleDigest (liveDesc (tInstalled (tDesc 1 g r m rest))) 0 == identityDigest) = false := by
    have := identityDigest_lt
    rw [h0, leNat_toLE]; simp; omega
  have e1 : (moduleDigest (liveDesc (tInstalled (tDesc 1 g r m rest))) 1 == identityDigest) = true := by
    rw [h1, leNat_toLE, Nat.mod_eq_of_lt identityDigest_lt]; simp
  simp [List.range_succ, e0, e1]

theorem tPeer1_index : moduleIndex tPeer1 = 1 := tDesc1_index 0 0 0 []

/-! ## The attachment -/

/-- A module whose attachment is `n`. -/
def tNet (n : Net) : State := { State.reset with net := n }
/-- Port 0 with its link up. -/
def tSub : SubPort := { port := 0, sub := 0, up := true, downSince := 0, pauses := [] }
/-- An open host connection of port 0. -/
def tConn : Conn := { newConn State.reset 0 0 7 4096 0xFFFF false with phase := .open_, proto := 1, major := 1 }
/-- A module with that port and the connection `c`. -/
def tOne (c : Conn) : State := tNet { Net.reset with subs := [tSub], conns := [c] }
/-- An open SPP connection to module 1. -/
def tSpp : Conn := { tConn with proto := 2, minor := 2, peer := 1 }

theorem test_witness_ConnectionsAreMade :
    (netUp (tick 5 (tOne tConn)) = true ∧ linkUp (tick 5 (tOne tConn)) 0 0 = true ∧ strayRequest (tick 5 (tOne tConn)) 0 0 0xFFFF = false) ∧
    (let s := { tPeer with net := { Net.reset with subs := [{ tSub with sub := 1 }] } }
     netUp (tick 5 s) = true ∧ linkUp (tick 5 s) 0 1 = true ∧ strayRequest (tick 5 s) 0 1 7 = true) ∧
    (let s := { tPeer with net := { Net.reset with subs := [tSub], requests := [{ peer := 3, since := 0, repeated := false }] } }
     netUp (tick 5 s) = true ∧ linkUp (tick 5 s) 0 0 = true ∧ s.net.requests.any (·.peer == 3) = true ∧
     s.net.requests.any (fun r => r.peer == 3 && !r.repeated && r.since + 2000000 ≤ max s.now 2000000) = true) ∧
    (netUp (tick 5 tPeer) = true ∧ installMode (tick 5 tPeer) = 2 ∧ 7 ≠ moduleIndex (tick 5 tPeer) ∧ 7 < moduleCount (tick 5 tPeer) ∧
     peerConn (tick 5 tPeer) 7 = false ∧ (tick 5 tPeer).net.requests.any (·.peer == 7) = false ∧ peerPort (tick 5 tPeer) 7 = some 1 ∧
     connRoom (tick 5 tPeer) 1 = true) := by
  have e : moduleIndex (tick 5 tPeer) = 0 := tPeer_index
  refine ⟨by decide +kernel, by decide +kernel, by decide +kernel, ?_⟩
  unfold peerPort
  rw [e]
  decide +kernel

theorem test_witness_KeysAndHandshakeOpenConnections :
    (∃ c, findConn (tick 5 (tOne { tConn with phase := .keying })) 2 = some c ∧ (c.phase = .established ∨ c.phase = .keying) ∧ c.initiator = false ∧ c.keyStep = 0) ∧
    (∃ c, findConn (tick 5 (tOne { tConn with phase := .established })) 2 = some c ∧ (c.phase = .established ∨ c.phase = .keying) ∧ c.initiator = false ∧ c.keyStep = 0) ∧
    (∃ c, findConn (tick 5 (tOne { tConn with phase := .keying, initiator := true })) 2 = some c ∧ c.phase = .keying ∧ c.initiator = true ∧ c.keyStep = 0) ∧
    (∃ c, findConn (tick 5 (tOne { tConn with phase := .keying, keyStep := 1 })) 2 = some c ∧ c.phase = .keying ∧ c.initiator = false ∧ c.keyStep = 1) ∧
    (∃ c, findConn (tOne { tConn with txPackets := 4294967296 }) 2 = some c ∧ settingNat (tOne tConn) Key.linkRekeyPackets ≤ c.txPackets) ∧
    (∃ c, findConn (tick 5 (tOne { tConn with phase := .negotiating })) 2 = some c ∧ c.phase = .negotiating ∧ c.peer = 0xFFFF ∧
      helloResult (tick 5 (tOne { tConn with phase := .negotiating, role := 1 })) { c with role := 1 } (withCrc (toLE 4 0x4C484C41 ++ [1, 1, 0, 0] ++ zeros 44 ++ toLE 2 0xFFFF ++ zeros 6)) = 0) ∧
    (∃ c, findConn (tick 5 { tPeer1 with net := { Net.reset with conns := [{ tSpp with phase := .negotiating, peer := 0 }] } }) 2 = some c ∧ c.phase = .negotiating ∧
      (c.peer ≠ 0xFFFF ∧ c.peer < moduleIndex (tick 5 { tPeer1 with net := { Net.reset with conns := [{ tSpp with phase := .negotiating, peer := 0 }] } })) ∧
      helloFormed 0x52484C41 true (withCrc (toLE 4 0x52484C41 ++ [2, 1, 2, 2, 0] ++ zeros 51)) = true ∧
      replyAccepts c (withCrc (toLE 4 0x52484C41 ++ [2, 1, 2, 2, 0] ++ zeros 51)) = true) := by
  have e : moduleIndex (tick 5 { tPeer1 with net := { Net.reset with conns := [{ tSpp with phase := .negotiating, peer := 0 }] } }) = 1 := tPeer1_index
  rw [e]
  exact ⟨⟨_, rfl, by decide +kernel⟩, ⟨_, rfl, by decide +kernel⟩, ⟨_, rfl, by decide +kernel⟩, ⟨_, rfl, by decide +kernel⟩, ⟨_, rfl, by decide +kernel⟩,
    ⟨_, rfl, by decide +kernel⟩, ⟨_, rfl, by decide +kernel⟩⟩

/-- A CREDIT message of three messages and 640 bytes. -/
def tCredit : Bytes := let h := toLE 4 0x46534C41 ++ toLE 2 0 ++ toLE 2 1 ++ [1, 2] ++ toLE 2 3 ++ toLE 4 640 ++ zeros 8 ++ toLE 4 0
  withCrc h

theorem test_witness_CreditAndTimersOfConnections :
    (∃ c, findConn (tick 5 (tOne tSpp)) 2 = some c ∧ c.phase = .open_ ∧ c.proto = 2 ∧ u16At tCredit 6 = 1 ∧ sppFormed c tCredit = true ∧
      u8At tCredit 8 = c.major ∧ u8At tCredit 9 = c.minor ∧ (tOne tSpp).net.waits = []) ∧
    (∃ c, findConn (tick 5 (tOne { tSpp with owedMsgs := 1, owedBytes := 40 })) 2 = some c ∧ c.phase = .open_ ∧ c.proto = 2 ∧ c.owedMsgs ≠ 0) ∧
    (∃ c, findConn (tick 1000000000000 (tOne { tSpp with phase := .suspended })) 2 = some c ∧ c.phase = .suspended ∧ c.proto = 2 ∧
      c.suspendedAt + settingNat (tick 1000000000000 (tOne tSpp)) Key.sppSuspendMs * 1000000 ≤ (tick 1000000000000 (tOne tSpp)).now ∧ (tOne tSpp).net.waits = []) ∧
    (∃ c, findConn (tick 1000000000000000 (tOne tSpp)) 2 = some c ∧ c.proto = 2 ∧
      c.lastTraffic + settingNat (tick 1000000000000000 (tOne tSpp)) Key.sppIdleCloseS * 1000000000 ≤ (tick 1000000000000000 (tOne tSpp)).now ∧
      (tOne tSpp).net.waits.any (·.peer == c.peer) = false) ∧
    (∃ c, findConn (tick 1000000000 (tOne { tSpp with unacked := 2 })) 2 = some c ∧ c.unacked ≠ 0 ∧
      c.sentAt + ackTimeout (tick 1000000000 (tOne tSpp)) ≤ max (tOne tSpp).now 1000000000) := by
  exact ⟨⟨_, rfl, by decide +kernel⟩, ⟨_, rfl, by decide +kernel⟩, ⟨_, rfl, by decide +kernel⟩, ⟨_, rfl, by decide +kernel⟩, ⟨_, rfl, by decide +kernel⟩⟩

/-- A submission entry: opcode, command, target, then ARG0 and ARG1. -/
def tEntry (op : Nat) (head rest : Bytes) : Bytes := withCrc (toLE 1 op ++ head ++ rest)

/-- The role of a tenant. -/
def tRole : Role := { id := 1, ahp := 1, dap := 0, key := zeros 64 }
/-- A queue of that tenant on the connection 2. -/
def tQueue : Queue := { qid := 0, conn := 2, role := 1, admin := false, minor := 4, depth := 16, cls := 0, suspended := false }
/-- A connection of a tenant with a queue. -/
def tFront : State := { tOne { tConn with role := 1, minor := 4 } with
  ahp := { Ahp.reset with queues := [tQueue] }, sec := { Sec.reset with roles := [tRole] } }
/-- COLLECTION_INFO of collection 9 with 64 bytes of output. -/
def tInfoEntry : Bytes := tEntry 0x22 ([0] ++ zeros 2 ++ toLE 4 77 ++ toLE 4 9) (zeros 32 ++ toLE 8 4096 ++ toLE 4 5 ++ toLE 4 64)

theorem test_witness_FramesAreReceived :
    netUp (tick 5 tFront) = true ∧ linkUp (tick 5 tFront) 0 0 = true ∧ counter tFront Key.icrcDrops + 1 < 2 ^ 64 ∧ counter tFront Key.ipv4OptionDrops + 1 < 2 ^ 64 ∧
    counter tFront Key.unacceptedFrames + 1 < 2 ^ 64 ∧ Table.wf (fun _ => 0) tFront.counters = true ∧ Table.wf settingDefault tFront.settings = true ∧
    (let p : Packet := { qpn := 2, psn := 0, packets := 1, op := .send, ce := false, authentic := true, keyPhase := false, payload := tInfoEntry }
     ∃ c q r, findConn (tick 5 tFront) p.qpn = some c ∧ queueOfConn (tick 5 tFront) c.qpn = some q ∧ checkEntry (tick 5 tFront) (rekeyed p c) (some q) p.payload = .ok r ∧
       c.phase = .open_ ∧ c.proto = 1 ∧ p.authentic = true ∧ badOp p.op = none ∧ p.op ≠ .ack ∧ p.op ≠ .readResponse ∧ p.psn = c.psn ∧ p.ce = false ∧
       bufferPosted (tick 5 tFront) c = true ∧ r.op ≠ 0x01) ∧
    (∃ c, findConn (tick 5 tFront) 2 = some c ∧ c.phase ≠ .established ∧ c.phase ≠ .keying ∧ c.authRun + 1 < 16 ∧
      counter tFront Key.authFailures + 1 < 2 ^ 64) ∧
    (∃ c, findConn (tick 5 (tOne { tConn with authRun := 15 })) 2 = some c ∧ c.phase ≠ .established ∧ 16 ≤ c.authRun + 1) ∧
    badOp .atomic = some 2 ∧ badOp .readRequest = some 3 ∧ (8388608 + 16777216 - 0) % 16777216 ≠ 0 ∧ (8388607 + 16777216 - 0) % 16777216 < 8388608 ∧
    (∃ c, findConn (tick 5 (tOne { tConn with phase := .suspended })) 2 = some c ∧ 0 = c.psn ∧
      bufferPosted (tick 5 (tOne { tConn with phase := .suspended })) c = false) := by
  refine ⟨by decide +kernel, by decide +kernel, by decide +kernel, by decide +kernel, by decide +kernel, by decide +kernel, by decide +kernel,
    ⟨_, _, ⟨0x22, 0, true, true, .coll, false, 0, 0, 0, false, true, 64⟩, rfl, rfl, by decide +kernel⟩, ⟨_, rfl, by decide +kernel⟩, ⟨_, rfl, by decide +kernel⟩,
    by decide +kernel, by decide +kernel, by decide +kernel, by decide +kernel, ⟨_, rfl, by decide +kernel⟩⟩

theorem test_witness_PfcPausesAndStorms :
    (let s : State := { tFront with settings := [(Key.pfcEnableMask, [8])] }
     netUp (tick 5 s) = true ∧ bit (settingNat (tick 5 s) Key.pfcEnableMask) 3 = true ∧ findSub s 0 0 = some tSub ∧ pauseOf tSub 3 = none) ∧
    (let p : Pause := { prio := 3, since := 0, last := 0, storm := false }
     let s := tNet { Net.reset with subs := [{ tSub with pauses := [p] }] }
     findSub s 0 0 = some { tSub with pauses := [p] } ∧ pauseOf { tSub with pauses := [p] } 3 = some p ∧
       p.since + settingNat (tick 10000000000 s) Key.pfcStormMs * 1000000 ≤ max s.now 10000000000) ∧
    (let p : Pause := { prio := 3, since := 0, last := 0, storm := true }
     findSub (tNet { Net.reset with subs := [{ tSub with pauses := [p] }] }) 0 0 = some { tSub with pauses := [p] } ∧
       pauseOf { tSub with pauses := [p] } 3 = some p ∧ p.last + 100000000 ≤ max 0 100000000) := by
  decide +kernel

theorem test_witness_SendingRateFollowsCongestion : (findConn (tOne tConn) 2).isSome = true ∧ (100 : Rat) ≤ (subRate (tOne tConn) 0 : Rat) := by
  decide +kernel

theorem test_witness_LinksAndCages :
    (let s := tNet { Net.reset with cages := [2, 0, 0, 1], subs := [{ tSub with up := false }] }
     netUp (tick 5 s) = true ∧ cageMedium s 0 = 2 ∧ cageMedium s 3 = 1 ∧ findSub s 0 0 = some { tSub with up := false } ∧ 3 < s.net.cages.length ∧
       counter s Key.cageModulesRefused + 1 < 2 ^ 64) ∧
    (findSub (tOne tConn) 0 0 = some tSub ∧ tSub.up = true) ∧
    (let s := tNet { Net.reset with subs := [{ tSub with up := false }] }
     findSub s 0 0 = some { tSub with up := false } ∧
       0 + (settingNat s Key.retryCount + 1) * (4096 * 2 ^ settingNat s Key.ackTimeoutExp) ≤ max s.now 600000000000) := by
  decide +kernel

theorem test_witness_TimeBaseFollowsPtp :
    (netUp (tick 5 State.reset) = true ∧ State.reset.net.locked = false ∧ max State.reset.now 5 ≤ 1000) ∧
    (let s := tNet { Net.reset with locked := true, timeState := 1 }
     netUp (tick 5 s) = true ∧ s.net.locked = true ∧ s.net.timeState = 1 ∧ s.net.lastSync + 3000000000 ≤ max s.now 3000000000) ∧
    (let s := tNet { Net.reset with locked := true, timeState := 2 }
     netUp (tick 5 s) = true ∧ s.net.locked = true ∧ s.net.timeState ≠ 1 ∧ 4 < max s.now 5 ∧ 1000 < (-1001 : Int).natAbs ∧ ¬1000 < (1000 : Int).natAbs) ∧
    State.reset.net.locked = false ∧ 4 < max State.reset.now 5 ∧ State.reset.net.lastSync + 3000000000 ≤ max State.reset.now 3000000000 := by
  decide +kernel

/-! ## Memories and the front end -/

/-- A module whose HBM state is `h`. -/
def tHbm (h : Hbm) : State := { State.reset with hbm := h }
/-- A module whose cold tier is `c`. -/
def tCold (c : Cold) : State := { State.reset with cold := c }

/-- A schema for HAMMING with codes of 64 bits. -/
def tSchema : Bytes :=
  withCrc (toLE 4 0x53434C41 ++ toLE 4 64 ++ zeros 19 ++ [1, 0, 0, 0, 1] ++ toLE 2 2 ++ toLE 2 64 ++ toLE 2 0 ++ toLE 2 0 ++ zeros 12 ++ toLE 4 1024 ++ toLE 4 2048)
/-- Collection 9 of tenant 1. -/
def tColl : Coll := newColl State.reset 9 1 4096 tSchema
/-- A state that holds collection `c`. -/
def tHolds (c : Coll) : State := { State.reset with search := { Search.reset with colls := [c] } }

/-- A burst of the last channel, bank and page with the symbols `l` in error. -/
def tScrub (l : List Nat) : Scrub := { channel := 383, bank := 63, row := 9, burst := 31, symbols := l, silent := false }
/-- The tile of the append list of collection 9: two units of every channel. -/
def tTile : HbmTile := { id := 3, obj := .append 9, piece := 0, placement := 2, depth := 1, groups := 512, runs := [{ slot := 0, count := 2, lack := [] }], old := [] }
/-- Collection 9 with its tile in HBM, and the rest of the HBM state of `h`. -/
def tLaid (h : Hbm) : State := { tHolds tColl with hbm := { h with tiles := [tTile], nextTile := 4 } }
/-- Page 0 of bank 0 of channel 1 is retired. -/
def tRetired : BankRec := { channel := 1, bank := 0, fails := 1, remapped := 0, pages := [0], retired := false }
/-- The move of that tile out of it. -/
def tReloc : Reloc := { tile := 3, channel := 1, bank := 0, runs := [{ slot := 8, count := 2, lack := [] }] }

theorem test_witness_FailingMemoryLeavesUse :
    (let s := tHbm { Hbm.reset with lostPins := [(383, 4)] }
     s.power.state = .p0 ∧ s.hbm.mappedOut.contains 383 = false ∧ s.hbm.fenced = [] ∧ isRetired s 383 63 (some 9) = false ∧
       (slotAt (tick 5 s) 383 63 9 31).isSome = true ∧ 3 < (badSymbols s (tScrub [0, 1, 2, 3, 4])).length ∧ ¬3 < (badSymbols s (tScrub [1, 2, 3, 4])).length ∧
       (badSymbols s (tScrub [4, 70, 71])).length = 2 ∧ (badSymbols s (tScrub [4, 71])).length = 1 ∧ rowPasses (tick 5 s) (tScrub [71]) < settingNat s Key.rowCeThreshold ∧
       0 < rowPasses (tick 5 s) (tScrub [71])) ∧
    (let s := tLaid { Hbm.reset with banks := [tRetired] }
     isRetired (placeTiles s) 1 0 (some 0) = true ∧ (placeTiles s).hbm.tiles.find? (·.id == 3) = some tTile ∧ tileIn (placeTiles s) tTile 1 0 (some 0) = true ∧
       (placeTiles s).hbm.relocs.any (·.tile == 3) = false ∧ writerAtWork (placeTiles s) tTile.obj = false ∧
       (allocate (placeTiles s) tTile.placement tTile.depth tTile.groups).isSome = true) ∧
    (let s := tLaid { Hbm.reset with relocs := [tReloc] }
     s.hbm.relocs.find? (·.tile == 3) = some tReloc ∧ s.hbm.tiles.find? (·.id == 3) = some tTile ∧
       (s.hbm.hurt.filter fun h => tTile.runs.any (runHolds s tTile.placement h.channel h.slot)).all (·.recovered) = true) ∧
    (let s := tLaid { Hbm.reset with relocs := [tReloc], hurt := [{ channel := 5, slot := 1, obj := .append 9, recovered := false }] }
     (s.hbm.hurt.filter fun h => tTile.runs.any (runHolds s tTile.placement h.channel h.slot)).all (·.recovered) = false) ∧
    (let s := { State.reset with power := { Power.reset with draining := [11] } }
     s.power.draining.contains 11 = true ∧ memoryCmds s = []) := by
  decide +kernel

theorem test_witness_MediaServeAgain :
    (let h : Hurt := { channel := 5, slot := 1, obj := .append 9, recovered := false }
     let s := tLaid { Hbm.reset with hurt := [h] }
     s.hbm.hurt.find? (fun x => x.channel == 5 && x.slot == 1 && !x.recovered) = some h ∧ sramObject h.obj = false ∧ s.hbm.fenced.contains 5 = false ∧
       ((hbmTileAt s 5 1).any fun t => s.hbm.relocs.any (·.tile == t.id)) = false ∧ slotRetired s 5 1 = false ∧ counter s Key.mediaRecoveries + 1 < 2 ^ 64 ∧
       ((hbmTileAt { s with hbm := { s.hbm with relocs := [tReloc] } } 5 1).any fun t => [tReloc].any (·.tile == t.id)) = true ∧
       slotRetired { s with hbm := { s.hbm with banks := [{ tRetired with channel := 5 }] } } 5 1 = true ∧ [5].contains 5 = true) ∧
    (let s := tHbm { Hbm.reset with waiters := [{ seq := 1, banks := settingNat State.reset Key.scratchBankCount }, { seq := 2, banks := 1 }] }
     banksFree s = settingNat State.reset Key.scratchBankCount ∧ banksFree s < settingNat State.reset Key.scratchBankCount + 1) ∧
    (tHbm { Hbm.reset with tg := { TestGen.idle 72 with state := 1 } }).hbm.tg.state = 1 := by
  decide +kernel

/-- The read of a page of collection 9. -/
def tRead (result : FlashResult) : FlashRead :=
  { kind := 1, owner := 9, lpn := 0, copyHeld := false, result := result, refresh := false, channel := 0, block := 2, dieFailed := none, die := 7, group := 1, use := .host }

theorem test_witness_ColdTierKeepsItsPages :
    (flashRuns (tick 5 State.reset) = true ∧ (tRead .lost).result = .lost ∧ (tRead .lost).channel ≠ parityChannel (tRead .lost).group ∧
      (tCold { Cold.reset with deadDies := [(0, 7)] }).cold.deadDies.contains (0, 7) = true ∧ State.reset.cold.deadDies.contains (0, 7) = false) ∧
    flashRuns (tick 5 { State.reset with power := { Power.reset with state := .p3 } }) = false ∧
    (State.reset.power.state = .p0 ∧ readResult (tRead .first) State.reset = .first ∧ coldPages (tick 5 State.reset) ≤ (patrolStart (tick 5 State.reset)).cold.patrolled ∧
      (patrolStart (tick 5 (tHolds tColl))).cold.patrolled < coldPages (tick 5 (tHolds tColl))) ∧
    (tCold { Cold.reset with deadDies := [(31, 7)] }).cold.deadDies.contains (31, 7) = true ∧
    (let s := tCold { Cold.reset with ftg := { TestGen.idle 0 with state := 1 } }
     s.cold.ftg.state = 1 ∧ bits (settingNat { s with settings := [(Key.ftgControl, toLE 4 0x01000000)] } Key.ftgControl) 25 24 = 1) := by
  decide +kernel

theorem test_witness_WindowServesItsPages :
    (let c : Copy := { page := 4, region := 0, state := .promoting, holders := [], released := 0, bad := false, dirty := false, pinned := false }
     c ∈ (tCold { Cold.reset with copies := [c] }).cold.copies ∧ c.state = .promoting) ∧
    (let w : SpaceWait := { seq := 1, region := 0, capacity := 2, pinned := false, pages := [4, 5] }
     let s := tCold { Cold.reset with waits := [w] }
     s.cold.waits.find? (fun w => w.region == 0 && w.capacity == 2) = some w ∧ hasRoom s 0 2 w.pages = true) ∧
    (let w : SpaceWait := { seq := 1, region := 0, capacity := 1, pinned := false, pages := [4, 5] }
     let s := tCold { Cold.reset with waits := [w] }
     s.cold.waits.find? (fun w => w.region == 0 && w.capacity == 1) = some w ∧ hasRoom s 0 1 w.pages = false) := by
  decide +kernel

/-- QUEUE_CREATE with depth 65535 and class 3. -/
def tCreateEntry : Bytes := tEntry 0x01 ([0] ++ zeros 2 ++ toLE 4 77 ++ zeros 4) (toLE 8 0x0003FFFF ++ zeros 40)

theorem test_witness_SubmissionEntriesAreChecked :
    (∃ c r, findConn (tOne { tConn with role := 1 }) 2 = some c ∧ c.phase = .open_ ∧ c.proto = 1 ∧ u8At tCreateEntry 0 = 0x01 ∧
      checkEntry (tOne { tConn with role := 1 }) c (queueOfConn (tOne { tConn with role := 1 }) c.qpn) tCreateEntry = .ok r ∧
      freeQueueIndex (tOne { tConn with role := 1 }) c.port = some 0) ∧
    (∃ c x, findConn tFront 2 = some c ∧ c.phase = .open_ ∧ c.proto = 1 ∧ u8At tCreateEntry 0 = 0x01 ∧
      checkEntry tFront c (queueOfConn tFront c.qpn) tCreateEntry = .bad x ∧ counter tFront Key.entriesRejected + 1 < 2 ^ 64) := by
  exact ⟨⟨_, ⟨0x01, 0, true, true, .zero, false, 24, 0, 0, false, true, 0⟩, rfl, by decide +kernel⟩,
    ⟨_, { status := Status.invalidField, source := .entry, offset := 0 }, rfl, by decide +kernel⟩⟩

/-- A command whose opcode and target are given. -/
def tCmd (op target : Nat) : Cmd where
  seq := 5
  queue := 0
  entry := { opcode := op, fence := false, arg2 := 0, cmdId := 77, target := target, arg0 := 0, arg1 := 0, inAddr := 0, inKey := 0, inLen := 0, outAddr := 4096, outKey := 5, outLen := 4096 }
  arrived := 0
  phase := .admitted
  dispatchedAt := 0
  dispatchEpoch := 0
  epoch := 0
  held := []
  deadline := 0
  config := []
  late := false
  internal := false
  order := 1
  plan := none
  report := []
  replica := 0
  stalledAt := none
  waitsFor := []
  tileFlags := 0
  comp := none

/-- The command with the input `b` announced. -/
def tLen (c : Cmd) (b : Bytes) : Cmd := { c with entry := { c.entry with inLen := b.length } }

/-- `s` with one command in its queue. -/
def tWith (s : State) (c : Cmd) : State :=
  { s with ahp := { s.ahp with queues := [tQueue], cmds := [c], nextOrder := 2 }, sec := { s.sec with roles := [tRole] } }

theorem test_witness_CommandsRunFromDispatchToCompletion :
    (let c := { tCmd 0x05 0xFFFFFFFF with phase := .received, order := 0 }
     let s := tWith State.reset c
     frontOpen (tick 9 s) = true ∧ nextDispatch (tick 9 s) = (some (0, tQueue, c), [0, 0, 0]) ∧ findCmd s c.seq = some c ∧ c.internal = false) ∧
    (let c := { tCmd 0x05 0xFFFFFFFF with phase := .dispatched, order := 0 }
     let s := tWith State.reset c
     findCmd s 5 = some c ∧ c.phase = .dispatched ∧ holdEnded s c = true ∧ s.ahp.admissionOpen = true ∧ targetFail s c = none ∧ planFail s c = none ∧
       (memoryLayer c.entry.opcode && s.power.degraded) = false ∧ targetPending s c = false ∧ [0x02, 0x04, 0x11, 0x21, 0x22, 0x23, 0x24, 0x31].contains c.entry.opcode = false) ∧
    (let c := { tCmd 0x22 9 with phase := .dispatched, order := 0 }
     let s := tWith State.reset c
     findCmd s 5 = some c ∧ holdEnded s c = true ∧ targetFail s c = some Status.collectionNotFound ∧ targetPending s c = false ∧ c.internal = false) ∧
    (let c := { tCmd 0x05 0xFFFFFFFF with phase := .done, comp := some { status := Status.success }, deadline := 3 }
     let s := tWith State.reset c
     findCmd s 5 = some c ∧ maySend s c = true ∧ s.power.state ≠ .p4 ∧ counter s Key.commandsCompleted + 1 < 2 ^ 64) ∧
    (let c := { tCmd 0x02 0 with report := toLE 8 6 }
     admittedCmd (tWith State.reset c) 5 0x02 = some c ∧ resetPending (tWith State.reset c) c = false ∧
       ((endable (tWith State.reset c) (c.entry.target % 65536)).filter (·.seq < u64At c.report 0)).any (·.seq == 5) = true) ∧
    (let c := { tCmd 0x02 1024 with report := toLE 8 6 }
     admittedCmd (tWith State.reset c) 5 0x02 = some c ∧ resetPending (tWith State.reset c) c = false ∧
       ((endable (tWith State.reset c) (c.entry.target % 65536)).filter (·.seq < u64At c.report 0)).any (·.seq == 5) = false) ∧
    (let c := { tCmd 0x02 0 with phase := .dispatched, order := 0 }
     let s := tWith State.reset c
     findCmd s 5 = some c ∧ c.phase = .dispatched ∧ holdEnded s c = true ∧ s.ahp.admissionOpen = true ∧ c.entry.opcode = 0x02 ∧ targetFail s c = none) ∧
    (∀ op ∈ [0x06, 0x10, 0x20, 0x25, 0x26, 0x29, 0x2A, 0x2B, 0x30, 0x33, 0x34, 0x35],
      admittedCmd (tWith State.reset (tCmd op 9)) 5 op = some (tCmd op 9) ∧ (tCmd op 9).internal = false ∧ (zeros 1).length ≠ (tCmd op 9).entry.inLen) := by
  decide +kernel

theorem test_schema_is_valid : schemaFail tSchema = none := by decide +kernel

theorem test_witness_ReportsAreWritten :
    (let c := { tCmd 0x04 0 with entry := { (tCmd 0x04 0).entry with arg0 := 0, arg1 := 1 } }
     let d := { c with phase := .dispatched, order := 0 }
     admittedCmd (tWith State.reset c) 5 0x04 = some c ∧ c.internal = false ∧ c.entry.arg1 % 2 ^ 32 ≠ 0 ∧
       findCmd (tWith State.reset d) 5 = some d ∧ holdEnded (tWith State.reset d) d = true ∧ targetFail (tWith State.reset d) d = none) ∧
    (let c := tCmd 0x05 0xFFFFFFFF
     admittedCmd (tWith State.reset c) 5 0x05 = some c ∧ c.internal = false ∧ counter (tWith State.reset c) Key.attestations + 1 < 2 ^ 64) ∧
    (let c := tCmd 0x22 9
     let d := { c with phase := .dispatched, order := 0 }
     admittedCmd (tWith (tHolds tColl) { c with report := [1] }) 5 0x22 = some { c with report := [1] } ∧ c.internal = false ∧
       findCmd (tWith (tHolds tColl) d) 5 = some d ∧ holdEnded (tWith (tHolds tColl) d) d = true ∧ targetFail (tWith (tHolds tColl) d) d = none ∧
       findColl (tWith (tHolds tColl) d) d.entry.target = some tColl) := by
  decide +kernel

/-- A plan of kind `kind` for the target digest `digest`: no region, no tile, and the stages of the kind. -/
def tPlan (kind id digest : Nat) (stages : Bytes) : Bytes :=
  let n := stages.length
  let head := withCrc (toLE 4 0x4C504C41 ++ [0, 2, BitVec.ofNat 8 kind, 0] ++ toLE 4 256 ++ zeros 12 ++ toLE 8 digest ++ zeros 4 ++ toLE 2 4 ++ zeros 2 ++ toLE 8 id ++ zeros 12)
  let sect := fun t k z => toLE 2 t ++ zeros 2 ++ toLE 4 128 ++ toLE 4 z ++ toLE 4 k
  let body := head ++ sect 1 0 0 ++ sect 2 0 0 ++ sect 3 0 0 ++ sect 4 n (8 * n) ++ (stages.map fun c => [0, c] ++ zeros 6).flatten ++ zeros (96 - 8 * n)
  body ++ sm3 body
/-- A SEARCH plan bound to the schema. -/
def tSearchPlan : Bytes := tPlan 1 3 (sm3Low64 tSchema) [0x01, 0x02, 0x03, 0x05, 0x07]

theorem test_plan_is_valid : planFailAt tSearchPlan = none := by decide +kernel

/-! ## Roles, plans, collections and snapshots -/

/-- A role request of a host: CREATE makes a tenant. -/
def tRoleReq (action role : Nat) (key : Bytes) : Bytes :=
  withCrc (toLE 4 0x4D524C41 ++ toLE 4 (64 + key.length) ++ zeros 43 ++ [0, if action = 1 then 1 else 0] ++ toLE 1 action ++ toLE 2 role ++ zeros 4) ++ key

/-- The role of an administrator. -/
def tAdmin : Role := { id := 2, ahp := 0, dap := 3, key := List.replicate 64 1 }

/-- A command of collection 9 with the plan of index `p`. -/
def tOn (op : Nat) (c : Coll) : State := tWith (tHolds c) (tCmd op 9)

theorem test_witness_RolesAndPlansAreManaged :
    (let b := tRoleReq 1 0 (List.replicate 64 3)
     let c := tLen (tCmd 0x06 0) b
     let s := { tWith State.reset c with sec := { Sec.reset with roles := [tRole, tAdmin] } }
     admittedCmd s 5 0x06 = some c ∧ b.length = c.entry.inLen ∧ roleRequestFail s true b = none ∧
       roleRequestFail s true (tRoleReq 5 0 (List.replicate 64 3)) = some (Status.invalidField, 53)) ∧
    (let c := tLen (tCmd 0x10 9) tSearchPlan
     let s := tWith (tHolds tColl) c
     admittedCmd s 5 0x10 = some c ∧ tSearchPlan.length = c.entry.inLen ∧ planFailAt tSearchPlan = none ∧ targetVisible s c (planKind tSearchPlan == 2, 9) = true ∧
       checkBinding s (planKind tSearchPlan) 9 tSearchPlan (freeHbm s / 1048576) = none ∧ s.ahp.plans.length < settingNat s Key.maxPlans ∧
       planFailAt (zeros tSearchPlan.length) = some 8 ∧ targetVisible State.reset c (planKind tSearchPlan == 2, 9) = false ∧
       (checkBinding s 1 9 (tPlan 1 3 5 [0x01, 0x02, 0x03, 0x05, 0x07]) (freeHbm s / 1048576)).isSome = true ∧
       settingNat { s with settings := [(Key.maxPlans, [])] } Key.maxPlans ≤ s.ahp.plans.length ∧ s.ahp.plans.any (samePlan 1 9 3) = false) ∧
    (let s := tOn 0x11 tColl
     let c := { tCmd 0x11 9 with phase := .dispatched, order := 0 }
     let v := tWith (tHolds tColl) c
     admittedCmd s 5 0x11 = some (tCmd 0x11 9) ∧ findCmd v 5 = some c ∧ holdEnded v c = true ∧ v.ahp.admissionOpen = true ∧ targetFail v c = none ∧
       v.ahp.plans.any (samePlan 1 9 0) = false ∧ { v with ahp := { v.ahp with plans := [⟨3, 9, 0, [], true, []⟩] } }.ahp.plans.any (samePlan 1 9 0) = true) := by
  decide +kernel

theorem test_witness_CollectionsAreMadeAndDeleted :
    (let c := tLen (tCmd 0x20 9) tSchema
     let s := tWith State.reset c
     admittedCmd s 5 0x20 = some c ∧ tSchema.length = c.entry.inLen ∧ notOwner s 9 = false ∧ findColl s 9 = none ∧ s.search.colls.length < 4096 ∧ schemaFail tSchema = none ∧
       coldRefuses s (ceilDiv tSchema.length 4096) = false ∧ cmdSetting c Key.appendListLimit * appendEntryBytes tSchema ≤ freeHbm s ∧
       (schemaFail (zeros tSchema.length)).isSome = true) ∧
    (let c := tLen (tCmd 0x20 9) tSchema
     let s := tWith (tHolds tColl) c
     admittedCmd s 5 0x20 = some c ∧ notOwner s 9 = false ∧ findColl s 9 = some tColl) ∧
    (let c := { tCmd 0x21 9 with phase := .dispatched, order := 0 }
     let s := tWith (tHolds tColl) c
     findCmd s 5 = some c ∧ holdEnded s c = true ∧ s.ahp.admissionOpen = true ∧ targetFail s c = none ∧ findColl s 9 = some tColl) ∧
    admittedCmd (tOn 0x21 tColl) 5 0x21 = some (tCmd 0x21 9) ∧
    (let k := { tColl with deleting := true, deleteSeq := some 5 }
     findColl (tOn 0x21 k) 9 = some k ∧ objectInUse (tOn 0x21 k) 1 9 k.deleteSeq = false) := by
  decide +kernel

/-- A state in which a command of collection `k` waits for its admission. -/
def tHeldBack (op : Nat) (k : Coll) : State := tWith (tHolds k) { tCmd op 9 with phase := .dispatched, order := 0 }

theorem test_witness_SnapshotsAreHeldAndReleased :
    (let k := { tColl with snapshots := List.replicate 15 2 }
     let c := { tCmd 0x23 9 with phase := .dispatched, order := 0 }
     findCmd (tHeldBack 0x23 k) 5 = some c ∧ holdEnded (tHeldBack 0x23 k) c = true ∧ (tHeldBack 0x23 k).ahp.admissionOpen = true ∧
       targetFail (tHeldBack 0x23 k) c = none ∧ findColl (tHeldBack 0x23 k) 9 = some k ∧ k.snapshots.length < 16 ∧ c.report = []) ∧
    (let k := { tColl with snapshots := List.replicate 16 2 }
     findColl (tHeldBack 0x23 k) 9 = some k ∧ ¬k.snapshots.length < 16) ∧
    (let k := { tColl with snapshots := [0, 3] }
     let c := { tCmd 0x24 9 with phase := .dispatched, order := 0 }
     findCmd (tHeldBack 0x24 k) 5 = some c ∧ holdEnded (tHeldBack 0x24 k) c = true ∧ targetFail (tHeldBack 0x24 k) c = none ∧
       findColl (tHeldBack 0x24 k) 9 = some k ∧ k.snapshots.contains 0 = true ∧ tColl.snapshots.contains 0 = false) ∧
    (let c := { tCmd 0x23 9 with report := [1] }
     let k := { tColl with shard := some (newShard State.reset 0) }
     admittedCmd (tWith (tHolds tColl) c) 5 0x23 = some c ∧ findColl (tWith (tHolds tColl) c) 9 = some tColl ∧ tColl.shard = none ∧
       admittedCmd (tWith (tHolds k) c) 5 0x23 = some c ∧ findColl (tWith (tHolds k) c) 9 = some k ∧ k.shard ≠ none ∧
       admittedCmd (tOn 0x23 tColl) 5 0x23 = some (tCmd 0x23 9) ∧ (tCmd 0x23 9).report = []) ∧
    (let c := { tCmd 0x24 9 with report := [1] }
     admittedCmd (tWith (tHolds tColl) c) 5 0x24 = some c ∧ admittedCmd (tOn 0x24 tColl) 5 0x24 = some (tCmd 0x24 9)) := by
  decide +kernel

/-! ## Batches and units -/

/-- Insert records of `n` vectors with the identifiers from `first` on. -/
def tRecords (first n : Nat) : Bytes := ((List.range n).map fun i => toLE 8 (first + i) ++ toLE 8 (5 + i)).flatten
/-- A live row. -/
def tRow (id : Nat) : Row := { id := id, code := toLE 8 id, attr := [], full := [], pq := [], epoch := 1 }
/-- A command with ARG_1. -/
def tCount (op n : Nat) : Cmd := { tCmd op 9 with entry := { (tCmd op 9).entry with arg1 := n } }

theorem test_witness_InsertsAndDeletesStartTheirBatches :
    (let c := tLen (tCount 0x25 2) (tRecords 1 2)
     let s := tWith (tHolds tColl) c
     let n := c.entry.arg1 % 2 ^ 32
     admittedCmd s 5 0x25 = some c ∧ (tRecords 1 2).length = c.entry.inLen ∧ findColl s 9 = some tColl ∧ shardMapOf s 9 = none ∧ findIngest s 5 = none ∧
       (tRecords 1 2).length = n * recordSize tSchema ∧ n ≠ 0 ∧ recordsFail tSchema (tRecords 1 2) n [] 0 = none ∧
       (chunksOf (min 256 (65536 / recordSize tSchema)) (recordRows tSchema (tRecords 1 2) n)).length = 1 ∧
       (∀ rows ∈ (chunksOf (min 256 (65536 / recordSize tSchema)) (recordRows tSchema (tRecords 1 2) n)).head?,
         roomFor s tColl (cmdSetting (tCount 0x25 2) Key.appendListLimit) (cmdSetting (tCount 0x25 2) Key.autoMergeAppend) (.insert rows) = .yes)) ∧
    (let c := tLen (tCount 0x26 2) (toLE 8 3 ++ toLE 8 4)
     let s := tWith (tHolds tColl) c
     admittedCmd s 5 0x26 = some c ∧ (toLE 8 3 ++ toLE 8 4).length = c.entry.inLen ∧ findColl s 9 = some tColl ∧ shardMapOf s 9 = none ∧ findIngest s 5 = none ∧
       (toLE 8 3 ++ toLE 8 4).length = 8 * ((tCount 0x26 2).entry.arg1 % 2 ^ 32) ∧
       chunksOf 8192 ((List.range ((tCount 0x26 2).entry.arg1 % 2 ^ 32)).map fun i => u64At (toLE 8 3 ++ toLE 8 4) (8 * i)) = [3, 4] :: [] ∧
       roomFor s tColl (cmdSetting (tCount 0x26 2) Key.appendListLimit) (cmdSetting (tCount 0x26 2) Key.autoMergeAppend) (.delete [3, 4]) = .yes) ∧
    (let c := fun (op n : Nat) (b : Bytes) => tLen (tCount op n) b
     (∀ op ∈ [0x25, 0x26], ∀ b ∈ [[], zeros 8], admittedCmd (tWith (tHolds tColl) (c op 0 b)) 5 op = some (c op 0 b) ∧ b.length = (c op 0 b).entry.inLen) ∧
       (zeros 8).length ≠ 8 * ((c 0x26 0 (zeros 8)).entry.arg1 % 2 ^ 32) ∧ (zeros 8).length ≠ (c 0x25 0 (zeros 8)).entry.arg1 % 2 ^ 32 * recordSize tSchema) ∧
    (let b := tRecords 18446744073709551615 1
     let c := tLen (tCount 0x25 1) b
     admittedCmd (tWith (tHolds tColl) c) 5 0x25 = some c ∧ b.length = c.entry.inLen ∧ (recordsFail tSchema b 1 [] 0).isSome = true ∧
       b.length = c.entry.arg1 % 2 ^ 32 * recordSize tSchema) := by
  decide +kernel

/-- A state with free cold space, or with none. -/
def tCommand (c : Cmd) (k : Coll) (readOnly : Bool) : State := { tWith (tHolds k) c with cold := { Cold.reset with readOnly := readOnly } }

theorem test_witness_InsertsAndDeletesStartTheirBatches_waits :
    (let c := tCount 0x25 2
     let rows := recordRows tSchema (tRecords 1 2) 2
     roomFor (tCommand c tColl false) tColl 1 8 (.insert rows) = .wait ∧ roomFor (tCommand c tColl false) tColl 1 0 (.insert rows) = .full ∧
       roomFor (tCommand c tColl false) tColl 2 0 (.insert rows) = .yes ∧ roomFor (tCommand c tColl true) tColl 8 8 (.insert rows) = .beyond) ∧
    (let c := tCount 0x26 2
     let k := { tColl with deleting := true }
     roomFor (tCommand c tColl false) tColl 0 8 (.delete [3, 4]) = .wait ∧ roomFor (tCommand c k false) k 0 8 (.delete [3, 4]) = .full ∧
       roomFor (tCommand c tColl true) tColl 8 8 (.delete [3, 4]) = .beyond) ∧
    (let c := { tCount 0x25 2 with config := [(Key.autoMergeAppend, zeros 4), (Key.appendListLimit, toLE 4 1)] }
     admittedCmd (tCommand c tColl false) 5 0x25 = some c ∧ cmdSetting c Key.appendListLimit = 1 ∧ cmdSetting c Key.autoMergeAppend = 0) := by
  decide +kernel

/-- A unit of collection 9 in its writing. -/
def tUnit (b : UnitBody) : CUnit := { tag := 1, coll := 9, body := b, origin := .local_, phase := .writing, limit := 8, auto := 8 }
/-- A tree with one partition. -/
def tTree (rows : List Row) : Tree := { epoch := 1, rootChildren := 1, levels := [[{ first := 0, count := 0, vectors := rows.length, centroid := zeros 8 }]], parts := [rows], codebook := [] }
/-- Collection 9 at epoch 1 with rows in one partition and others in its append list. -/
def tFull (rows more : List Row) : Coll := { tColl with epoch := 1, trees := [tTree rows], append := more.map fun r => { row := r, foldedAt := none } }
/-- A state with a unit of collection `c`. -/
def tUnits (c : Coll) (b : UnitBody) : State := { State.reset with search := { Search.reset with colls := [c], units := [tUnit b] } }

theorem test_witness_UnitsCommitAtTheNextEpoch :
    (let s := tUnits (tFull [tRow 2] []) (.insert [tRow 2, tRow 7])
     findUnit s 1 = some (tUnit (.insert [tRow 2, tRow 7])) ∧ findColl s 9 = some (tFull [tRow 2] []) ∧ shardMapOf s 9 = none ∧
       commitWaits (tick 5 s) (tFull [tRow 2] []) = false ∧ commitWaits (tick 5 { s with hbm := (tLaid { Hbm.reset with relocs := [tReloc] }).hbm }) (tFull [tRow 2] []) = true) ∧
    (let s := tUnits (tFull [tRow 2] [tRow 3]) (.delete [2, 3])
     findUnit s 1 = some (tUnit (.delete [2, 3])) ∧ shardMapOf s 9 = none ∧ ∀ i ∈ [2, 3], (liveRows (tFull [tRow 2] [tRow 3]) 1).any (·.id == i) = true) ∧
    (let s := tUnits (tFull [tRow 2] []) (.version (tTree []) 1 0)
     findUnit s 1 = some (tUnit (.version (tTree []) 1 0)) ∧ findColl s 9 = some (tFull [tRow 2] []) ∧ shardMapOf s 9 = none) := by
  decide +kernel

theorem test_witness_AppendListsAreFolded :
    (let u := { tUnit (.insert [tRow 2]) with phase := .waits }
     let s := { State.reset with search := { Search.reset with colls := [tColl], units := [u] } }
     s.search.units.find? (fun u => u.coll == 9 && u.phase == .waits) = some u ∧ findColl s 9 = some tColl ∧
       roomFor s tColl u.limit u.auto u.body = .yes ∧ roomFor s tColl 0 u.auto u.body = .wait) ∧
    (let c := tFull [tRow 2] [tRow 3]
     let s := { tHolds c with settings := [(Key.autoMergeAppend, toLE 4 1)] }
     findColl s 9 = some c ∧ c.trees ≠ [] ∧ c.autoOff = false ∧ c.deleting = false ∧ mergeDue s c = true ∧
       (s.ahp.cmds.any fun d => d.internal && d.entry.target == 9) = false) ∧
    (let s := tOn 0x27 tColl
     admittedCmd s 5 0x27 = some (tCmd 0x27 9) ∧ findColl s 9 = some tColl ∧ planMerge tColl (buildCfg (tCmd 0x27 9)) 0 (freeHbm s) = .nothing) ∧
    (let c := { tCmd 0x27 9 with epoch := 1 }
     let k := tFull [tRow 2] [tRow 3]
     let s := tWith (tHolds k) c
     admittedCmd s 5 0x27 = some c ∧ findColl s 9 = some k ∧
       (match planMerge k (buildCfg c) c.epoch (freeHbm s) with
         | .version tree folded => folded == 1 && !coldRefuses s (versionPages k.schema tree)
         | _ => false) = true) ∧
    (let c := { tCmd 0x27 9 with epoch := 1 }
     let k := { tFull [] [tRow 3] with trees := [{ tTree [] with rootChildren := 0, levels := [[]], parts := [] }] }
     let s := tWith (tHolds k) c
     admittedCmd s 5 0x27 = some c ∧ findColl s 9 = some k ∧ planMerge k (buildCfg c) c.epoch (freeHbm s) = .full) := by
  refine ⟨?_, ?_, ?_, ?_, ?_⟩ <;> decide +kernel

/-! ## Indexes -/

/-- The image of a tree of one partition that holds the identifiers 2 and 3. -/
def tImage : Bytes :=
  withCrc (toLE 4 0x58494C41 ++ toLE 8 128 ++ zeros 20 ++ toLE 8 (sm3Low64 tSchema) ++ toLE 4 1 ++ toLE 4 1 ++ toLE 8 2 ++ toLE 4 1) ++
    ([0, 1] ++ zeros 10 ++ toLE 4 2 ++ toLE 8 6) ++ toLE 4 2 ++ toLE 8 2 ++ toLE 8 3 ++ zeros 20

theorem test_witness_IndexesAreBuiltAndLoaded :
    (let s := tOn 0x28 tColl
     admittedCmd s 5 0x28 = some (tCmd 0x28 9) ∧ awaitsBanks (takeBanks (tCmd 0x28 9) s) 5 = false ∧ findColl s 9 = some tColl ∧ tColl.damaged = [] ∧
       ((tCmd 0x28 9).plan.bind fun p => allTilesFail (livePlan s p)) = none ∧ liveRows tColl 0 = []) ∧
    (let c := { tCmd 0x28 9 with epoch := 1 }
     let k := tFull [tRow 2] [tRow 3]
     let s := tWith (tHolds k) c
     admittedCmd s 5 0x28 = some c ∧ awaitsBanks (takeBanks c s) 5 = false ∧ findColl s 9 = some k ∧ liveRows k c.epoch ≠ [] ∧
       partitionCount k.schema (liveRows k c.epoch).length ≤ partitionLimit k.schema ∧ coldRefuses s (versionPages k.schema (builtVersion c k)) = false ∧
       versionHbm k.schema (builtVersion c k) ≤ freeHbm s ∧ coldRefuses (tCommand c k true) (versionPages k.schema (builtVersion c k)) = true) ∧
    (let c := { tLen (tCmd 0x29 9) tImage with epoch := 1 }
     let k := tFull [tRow 2] [tRow 3]
     let s := tWith (tHolds k) c
     admittedCmd s 5 0x29 = some c ∧ tImage.length = c.entry.inLen ∧ findColl s 9 = some k ∧ imageFail k.schema tImage ((liveRows k c.epoch).map (·.id)) (heldBook k != []) = none ∧
       coldRefuses s (versionPages k.schema (imageTree k.schema tImage (liveRows k c.epoch) (heldBook k))) = false ∧
       versionHbm k.schema (imageTree k.schema tImage (liveRows k c.epoch) (heldBook k)) ≤ freeHbm s ∧
       imageFail k.schema (zeros tImage.length) ((liveRows k c.epoch).map (·.id)) (heldBook k != []) = some (Status.invalidField, 0)) := by
  refine ⟨?_, ?_, ?_⟩ <;> decide +kernel

/-! ## Queries -/

/-- A query record for the schema: K, PROBE_COUNT, PROBE_BUDGET and MODE given. -/
def tQuery (k probes budget mode : Nat) : Bytes :=
  withCrc (toLE 4 0x59514C41 ++ toLE 4 80 ++ toLE 8 0xFFFFFFFFFFFFFFFF ++ toLE 4 0 ++ toLE 4 k ++ toLE 4 0 ++ toLE 4 0 ++ toLE 4 probes ++ toLE 4 budget ++ toLE 2 1 ++
    toLE 1 0 ++ toLE 1 mode ++ [0, 1] ++ zeros 2 ++ toLE 4 1000 ++ zeros 8) ++ toLE 8 6 ++ zeros 8
/-- A UNIQUE_COUNT request over a column of values. -/
def tColumn (values : Nat) : Bytes :=
  withCrc (toLE 4 0x43554C41 ++ toLE 4 64 ++ zeros 33 ++ [1, 0, 0] ++ toLE 4 values ++ toLE 8 0xFFFFFFFFFFFFFFFF ++ zeros 4)
/-- A UNIQUE_COUNT request over the results of a query. -/
def tResults (values : Nat) (q : Bytes) : Bytes :=
  withCrc (toLE 4 0x43554C41 ++ toLE 4 (64 + q.length) ++ zeros 33 ++ [2, 0, 0] ++ toLE 4 values ++ zeros 8 ++ zeros 4) ++ q
/-- The schema with one U32 field. -/
def tAttrSchema : Bytes :=
  withCrc (toLE 4 0x53434C41 ++ toLE 4 80 ++ zeros 19 ++ [1, 0, 0, 1, 1] ++ toLE 2 2 ++ toLE 2 64 ++ toLE 2 0 ++ toLE 2 0 ++ zeros 12 ++ toLE 4 1024 ++ toLE 4 2048) ++
    [0, 3] ++ zeros 14

/-- The SEARCH plan as it is held. -/
def tHeldPlan : Plan := { kind := 1, target := 9, planId := 3, bytes := tSearchPlan, bound := true, tiles := [] }
/-- A query command with its plan. -/
def tAsk (op : Nat) : Cmd := { tCmd op 9 with epoch := 1, held := [], plan := some tHeldPlan }
/-- Collection 9 under the schema with a field. -/
def tAttr : Coll := { tFull [{ tRow 2 with attr := zeros 4 }] [{ tRow 3 with attr := zeros 4 }] with schema := tAttrSchema }

/-- A query of key 1 on a collection, at work in phase `ph`. -/
def tQ (c : Coll) (record : Bytes) (ph : QPhase) : Query :=
  { newQuery 1 c { origin := .search 5, plan := 3, stages := [1, 2, 3, 5, 7], tag := 0, record := record, request := [], epoch := 1, deadline := 1000000, order := 1, cutBase := 1000000, finishUs := 100, adcUs := 100 } with phase := ph }
/-- A state with that query. -/
def tQs (c : Coll) (q : Query) : State := let s := tWith (tHolds c) { tAsk 0x2A with phase := .working }; { s with search := { s.search with queries := [q] } }
/-- The probe of partition 0. -/
def tProbe (done : Bool) : Probe := { part := 0, groups := [], matched := 0, damaged := false, complete := done }
/-- A candidate from the tree. -/
def tCand : Cand := { score := 0, id := 2, stage := 1, shard := 0, part := 0 }
/-- Collection 9 with one row in its partition and one in its append list. -/
def tK : Coll := tFull [tRow 2] [tRow 3]

theorem test_witness_QueriesStart :
    (let c := tLen (tAsk 0x2A) (tQuery 2 1 1 1)
     let s := tWith (tHolds tK) c
     admittedCmd s 5 0x2A = some c ∧ [tQuery 2 1 1 1, tQuery 300 1 1 2, tQuery 0 0 0 1, zeros 80].all (fun b => b.length == c.entry.inLen) = true ∧
       awaitsBanks (takeBanks c (tick 5 s)) 5 = false ∧ findColl s 9 = some tK ∧ shardMapOf s 9 = none ∧ findQuery s s.search.nextQuery = none ∧
       queryFail (commandCtx (tick 5 s) c tK tHeldPlan (queryEpoch c (tQuery 2 1 1 1))) (tQuery 2 1 1 1) = none ∧ Qr.k (tQuery 2 1 1 1) ≠ 0 ∧
       minOutput (tQuery 2 1 1 1) ≤ c.entry.outLen ∧ c.entry.outLen < minOutput (tQuery 300 1 1 2) ∧
       queryFail (commandCtx (tick 5 s) c tK tHeldPlan 1) (tQuery 300 1 1 2) = none ∧
       queryFail (commandCtx (tick 5 s) c tK tHeldPlan 1) (tQuery 0 0 0 1) = none ∧ Qr.k (tQuery 0 0 0 1) = 0 ∧
       allTilesFail (livePlan s tHeldPlan) = none ∧ (queryFail (commandCtx (tick 5 s) c tK tHeldPlan 1) (zeros 80)).isSome = true) ∧
    (let c := tLen (tAsk 0x2B) (tColumn 4)
     let s := tWith (tHolds tAttr) c
     admittedCmd s 5 0x2B = some c ∧ [tColumn 4, tColumn 0, tColumn 300, zeros 64].all (fun b => b.length == c.entry.inLen) = true ∧
       awaitsBanks (takeBanks c (tick 5 s)) 5 = false ∧ findColl s 9 = some tAttr ∧ shardMapOf s 9 = none ∧ findQuery s s.search.nextQuery = none ∧
       countFail (commandCtx (tick 5 s) c tAttr tHeldPlan (countEpoch c (tColumn 4))) (tColumn 4) = none ∧ u8At (tColumn 4) 41 = 1 ∧
       u32At (tColumn 4) 44 ≠ 0 ∧ 64 + 16 * u32At (tColumn 4) 44 ≤ c.entry.outLen ∧
       countFail (commandCtx (tick 5 s) c tAttr tHeldPlan 1) (tColumn 0) = none ∧ u32At (tColumn 0) 44 = 0 ∧
       (let b := tResults 4 (tQuery 2 1 1 1)
        let c := tLen (tAsk 0x2B) b
        admittedCmd (tWith (tHolds tAttr) c) 5 0x2B = some c ∧ b.length = c.entry.inLen ∧
        countFail (commandCtx (tick 5 s) c tAttr tHeldPlan (countEpoch c b)) b = none ∧ u32At b 44 ≠ 0 ∧ u8At b 41 ≠ 1 ∧
          minOutput (b.drop 64) + 64 + 16 * u32At b 44 ≤ c.entry.outLen ∧ Qr.k (b.drop 64) ≠ 0) ∧
       (let b := tResults 4 (tQuery 0 0 0 1)
        let c := tLen (tAsk 0x2B) b
        admittedCmd (tWith (tHolds tAttr) c) 5 0x2B = some c ∧ b.length = c.entry.inLen ∧
        countFail (commandCtx (tick 5 s) c tAttr tHeldPlan (countEpoch c b)) b = none ∧ u32At b 44 ≠ 0 ∧ u8At b 41 ≠ 1 ∧ Qr.k (b.drop 64) = 0) ∧
       countFail (commandCtx (tick 5 s) c tAttr tHeldPlan 1) (tColumn 300) = none ∧ c.entry.outLen < 64 + 16 * u32At (tColumn 300) 44 ∧
       (countFail (commandCtx (tick 5 s) c tAttr tHeldPlan 1) (zeros 64)).isSome = true) := by
  refine ⟨?_, ?_⟩ <;> decide +kernel

theorem test_witness_ProbesAreScannedInRounds :
    (let q := { tQ tK (tQuery 2 1 1 1) .scanning with probes := [tProbe false] }
     let s := tQs tK q
     383 < 384 ∧ [1].length ≤ 64 ∧ [1].Nodup ∧ findColl s tK.id = some tK ∧ tK.unrestored.contains 0 = false ∧ findQuery s 1 = some q ∧ q.coll = tK.id ∧
       s.hbm.fenced = [] ∧ q.phase = .scanning ∧ q.exact = false ∧ s.now < q.tsc ∧ q.tsc ≤ { s with now := 800000 }.now ∧
       q.probes.find? (·.part == 0) = some (tProbe false) ∧ (tProbe false).complete = false) ∧
    (let q := { tQ tK (tQuery 2 1 1 1) .scanning with probes := [tProbe true], probeList := [0, 1], taken := 1 }
     let s := tQs tK q
     findQuery s 1 = some q ∧ findColl s q.coll = some tK ∧ q.phase = .scanning ∧ roundDone q = true ∧ levelLost s q.coll = false ∧ mustWiden q = true ∧ s.now < q.tsc ∧
       counter s Key.wideningRounds + 1 < 2 ^ 64) ∧
    (let q := { tQ tK (tQuery 2 1 1 2) .scanning with probes := [tProbe true], probeList := [0], taken := 1 }
     findQuery (tQs tK q) 1 = some q ∧ findColl (tQs tK q) q.coll = some tK ∧ roundDone q = true ∧ mustWiden q = false) := by
  refine ⟨?_, ?_, ?_⟩ <;> decide +kernel

theorem test_witness_StagesScoreTheCandidates :
    (let q := { tQ tK (tQuery 2 1 1 1) .adc with cands := [tCand] }
     findQuery (tQs tK q) 1 = some q ∧ findColl (tQs tK q) q.coll = some tK ∧ q.phase = .adc ∧ (tQs tK q).now ≤ q.tls) ∧
    (let q := { tQ tK (tQuery 2 1 1 2) .rerank with cands := [tCand] }
     findQuery (tQs tK q) 1 = some q ∧ findColl (tQs tK q) q.coll = some tK ∧ q.phase = .rerank ∧ q.exact = true) ∧
    (let q := { tQ tK (tQuery 2 1 1 2) .final with cands := [tCand] }
     findQuery (tQs tK q) 1 = some q ∧ findColl (tQs tK q) q.coll = some tK ∧ q.origin = .search 5 ∧ q.shards = [] ∧
       findCmd (tQs tK q) 5 = some { tAsk 0x2A with phase := .working } ∧ Qr.wantsDigest q.record = false ∧
       (resultBody q (ownFound tK.schema 0 q) 0).length ≤ (tAsk 0x2A).entry.outLen ∧
       Qr.wantsDigest ((tQuery 2 1 1 2).take 46 ++ [1]) = true ∧
       let r := { tQ tK (tQuery 300 1 1 2) .final with cands := List.replicate 300 tCand }
       findQuery (tQs tK r) 1 = some r ∧ (tAsk 0x2A).entry.outLen < (resultBody r (ownFound tK.schema 0 r) 0).length) ∧
    (let q := { tQ tAttr (tColumn 4) .final with origin := .column 5, request := tColumn 4 }
     findQuery (tQs tAttr q) 1 = some q ∧ findColl (tQs tAttr q) q.coll = some tAttr ∧
       (countTable 3 (countLimit q) 1 ((columnRows tAttr q).map fun r => countedValue 3 (fieldValue tAttrSchema r.attr (countField q))) []).length ≤ (tAsk 0x2A).entry.outLen) ∧
    (let q := { tQ tK (tQuery 2 1 1 2) .final with origin := .peer 1 77 }
     findQuery (tQs tK q) 1 = some q ∧ findColl (tQs tK q) q.coll = some tK ∧ q.shards = []) := by
  refine ⟨?_, ?_, ?_, ?_, ?_⟩ <;> decide +kernel

theorem test_witness_DeadlinesCutQueries :
    (let q := { tQ tK (tQuery 2 1 1 1) .scanning with probes := [tProbe false] }
     findQuery (tQs tK q) 1 = some q ∧ findColl (tQs tK q) q.coll = some tK ∧ q.exact = false ∧ q.tsc ≤ max (tQs tK q).now 800000) ∧
    (let q := tQ tK (tQuery 2 1 1 1) .rerank
     findQuery (tQs tK q) 1 = some q ∧ q.exact = false ∧ q.tls ≤ max (tQs tK q).now 900000) ∧
    (let q := tQ tK (tQuery 2 1 1 1) .adc
     findQuery (tQs tK q) 1 = some q ∧ q.exact = false ∧ q.tls ≤ max (tQs tK q).now 900000) ∧
    (let q := tQ tK (tQuery 2 1 1 2) .scanning
     findQuery (tQs tK q) 1 = some q ∧ q.exact = true ∧ q.stalled = false ∧ q.deadline ≠ 0 ∧ q.deadline ≤ max (tQs tK q).now 1000000 ∧ waitsForData q = true ∧
       counter (tQs tK q) Key.queryStalls + 1 < 2 ^ 64) := by
  refine ⟨?_, ?_, ?_, ?_⟩ <;> decide +kernel

theorem test_witness_ExactQueriesTakeNoCut :
    let q := tQ tK (tQuery 2 1 1 2) .scanning
    findQuery (tQs tK q) 1 = some q ∧ q.exact = true ∧ findQuery (tQs tK { q with stalled := true }) 1 = some { q with stalled := true } := by
  decide +kernel

/-! ## Memory heads -/

/-- A group entry with its members. -/
def tGroup (members : List Nat) : Bytes := toLE 2 0 ++ toLE 1 members.length ++ zeros 5 ++ (members.map (toLE 2)).flatten ++ List.replicate (32 - 2 * members.length) 0xFF ++ zeros 24
/-- The installation with one group. -/
def tGrouped (members : List Nat) : State := tInstalled (tDesc 0 1 0 0 (tGroup members))
/-- The descriptor of head 4: one sub-key on each side, one value slot of 16 elements. -/
def tHeadDesc : Bytes :=
  withCrc (toLE 4 0x484D4C41 ++ toLE 4 64 ++ toLE 4 4 ++ zeros 19 ++ [1, 1, 1, 0, 0, 2, 2, 1, 1] ++ toLE 2 0 ++ toLE 2 8 ++ toLE 2 16 ++ toLE 2 0 ++ toLE 4 1 ++ toLE 4 1 ++ toLE 4 4)
/-- A scale tile of `n` channels in BF16. -/
def tScale (n : Nat) : Bytes :=
  toLE 4 0x43534C41 ++ [0, 1, 2, 0] ++ zeros 4 ++ toLE 4 n ++ toLE 4 0 ++ toLE 4 0xFFFFFFFF ++ toLE 4 0x3F800000 ++ toLE 4 0 ++ zeros (4 * n)
/-- Head 4 of tenant 1. -/
def tHead (members : List Nat) : Head := { newHead (tGrouped members) 4 1 tHeadDesc with tiles := [(5, tScale 1), (6, tScale 1), (8, tScale 16)] }
/-- A state with that head and a command on it. -/
def tLayer (h : Head) (c : Cmd) : State :=
  let s := tWith (tGrouped h.members) c; { s with mem := { s.mem with heads := [h] } }
/-- A command of head 4 with ARG_2 and an input length. -/
def tArg (op arg2 len : Nat) : Cmd := { tCmd op 4 with entry := { (tCmd op 4).entry with arg2 := arg2, inLen := len } }

/-- A tile of the head that is being relocated. -/
def tHeadTile : HbmTile := { tTile with obj := .replicated 4 1 }
/-- A write of two units to the head's tensor `t`. -/
def tWrite (t : Nat) : HeadWrite := { tag := 7, seq := 5, head := 4, tensor := t, first := 0, landed := [], stored := 0, units := [zeros 16, zeros 16] }
/-- The head while such a write is at work. -/
def tWriting (c : Cmd) (w : HeadWrite) : State := let s := tLayer (tHead [0]) c; { s with mem := { s.mem with writes := [w] } }

theorem test_witness_HeadsAreMadeWrittenAndDeleted :
    (let s := tWith (tGrouped [0]) (tLen (tCmd 0x30 4) tHeadDesc)
     admittedCmd s 5 0x30 = some (tLen (tCmd 0x30 4) tHeadDesc) ∧ findHead s 4 = none ∧ s.mem.heads.length < 1024 ∧ headFail s 4 tHeadDesc = none ∧ coldRefuses s (ceilDiv tHeadDesc.length 4096) = false ∧
       tHeadDesc.length = (tLen (tCmd 0x30 4) tHeadDesc).entry.inLen ∧ (headFail s 4 (zeros tHeadDesc.length)).isSome = true) ∧
    (let s := tLayer (tHead [0]) (tLen (tCmd 0x30 4) tHeadDesc)
     admittedCmd s 5 0x30 = some (tLen (tCmd 0x30 4) tHeadDesc) ∧ findHead s 4 = some (tHead [0])) ∧
    (let c := { tCmd 0x31 4 with phase := .dispatched, order := 0 }
     let s := tLayer (tHead [0]) c
     admittedCmd (tLayer (tHead [0]) (tCmd 0x31 4)) 5 0x31 = some (tCmd 0x31 4) ∧ findCmd s 5 = some c ∧ holdEnded s c = true ∧ s.ahp.admissionOpen = true ∧
       targetFail s c = none ∧ findHead s 4 = some (tHead [0]) ∧ headIsSource s 4 = false ∧
       headIsSource { s with mem := { s.mem with heads := [tHead [0], { tHead [0] with id := 6 }] } } 4 = true) ∧
    (let c := tArg 0x32 8 (32 + 64)
     let s := tLayer (tHead [0]) c
     admittedCmd s 5 0x32 = some c ∧ findHead s 4 = some (tHead [0]) ∧ (readersAhead s c (changedHeads s (tHead [0]) 8) ||
       writersAhead s c (changedHeads s (tHead [0]) 8) || (changedHeads s (tHead [0]) 8).any (headMoves s)) = false ∧ tensorEntryFail (tHead [0]) 8 0 96 = none ∧
       (tScale 16).length = 96 ∧ coldRefuses s (ceilDiv 96 4096) = false ∧ tensorEntryFail (tHead [0]) 8 1 96 = some 12 ∧
       (changedHeads s (tHead [0]) 8).any (headMoves { s with hbm := { s.hbm with tiles := [tHeadTile], relocs := [tReloc] } }) = true) ∧
    (let c := tArg 0x32 1 16
     let s := tLayer (tHead [0]) c
     admittedCmd s 5 0x32 = some c ∧ findHead s 4 = some (tHead [0]) ∧ (readersAhead s c (changedHeads s (tHead [0]) 1) ||
       writersAhead s c (changedHeads s (tHead [0]) 1) || (changedHeads s (tHead [0]) 1).any (headMoves s)) = false ∧ tensorEntryFail (tHead [0]) 1 0 16 = none ∧
       elementFail (Hd.fmt tHeadDesc 1) (16 / Hd.rowBytes tHeadDesc 1 * Hd.cols tHeadDesc 1) (List.replicate 16 1) 0 = none ∧
       elementFail (Hd.fmt tHeadDesc 1) (16 / Hd.rowBytes tHeadDesc 1 * Hd.cols tHeadDesc 1) (List.replicate 16 255) 0 = some 0 ∧
       16 ≤ unitBytes (tHead [0]) 1) ∧
    (let c := tArg 0x32 8 65537
     let s := tLayer (tHead [0]) c
     admittedCmd s 5 0x32 = some c ∧ tensorEntryFail (tHead [0]) 8 0 65537 = none ∧ coldRefuses s (ceilDiv 65537 4096) = false ∧ unitBytes (tHead [0]) 8 < 65537) ∧
    (let c := { tArg 0x32 8 65537 with phase := .working }
     let w := tWrite 8
     let s := tWriting c w
     findUnit s 7 = none ∧ s.mem.writes.find? (·.tag == 7) = some w ∧ findHead s w.head = some (tHead [0]) ∧ findCmd s w.seq = some c ∧ c.internal = false ∧
       headMoves s w.head = false ∧ headMoves { s with hbm := { s.hbm with tiles := [tHeadTile], relocs := [tReloc] } } w.head = true ∧
       (tWriting c (tWrite 4)).mem.writes.find? (·.tag == 7) = some (tWrite 4)) := by
  refine ⟨?_, ?_, ?_, ?_, ?_, ?_, ?_⟩
  · have e : moduleIndex (tWith (tGrouped [0]) (tLen (tCmd 0x30 4) tHeadDesc)) = 0 := tDesc_index 1 0 0 (tGroup [0])
    have h : headFail (tWith (tGrouped [0]) (tLen (tCmd 0x30 4) tHeadDesc)) 4 tHeadDesc = none := by
      unfold headFail headFieldFail
      rw [e]
      decide +kernel
    exact ⟨by decide +kernel, by decide +kernel, by decide +kernel, h, by decide +kernel, by decide +kernel, by decide +kernel⟩
  all_goals decide +kernel

/-! ## Memory-layer commands -/

/-- A MEMORY_LAYER plan with `mib` MiB of stash and a gradient calibration tile. -/
def tMemPlan (mib : Nat) : Plan where
  kind := 2
  target := 4
  planId := 3
  bytes := zeros 16 ++ toLE 4 mib ++ zeros 44
  bound := true
  tiles := [(7, toLE 4 0x43534C41 ++ [0, 2, 4, 4] ++ zeros 4 ++ toLE 4 16 ++ toLE 4 0 ++ toLE 4 0xFFFFFFFF ++ toLE 4 0x3F800000 ++ toLE 4 0 ++ zeros 320)]
/-- A forward request of `n` tokens; flag bit 0 is STASH. -/
def tForward (flags step mb n : Nat) : Bytes :=
  withCrc (toLE 4 Fw.magic ++ toLE 4 (64 + 64 * n) ++ zeros 32 ++ toLE 4 4 ++ [0] ++ toLE 1 flags ++ toLE 2 mb ++ toLE 8 step ++ toLE 4 n) ++ zeros (64 * n)
/-- A backward request of `n` tokens that trains nothing. -/
def tBackward (step mb n : Nat) : Bytes :=
  withCrc (toLE 4 Bw.magic ++ toLE 4 (160 + 64 * n) ++ zeros 31 ++ [1] ++ toLE 4 4 ++ [0, 0] ++ toLE 2 mb ++ toLE 8 step ++ toLE 4 n) ++ zeros 96 ++ zeros (64 * n)
/-- An update request in a ring of its own. -/
def tUpdate (step : Nat) : Bytes :=
  withCrc (toLE 4 Up.magic ++ toLE 4 64 ++ zeros 10 ++ [0, 1, 1, 0] ++ toLE 2 0xFFFF ++ toLE 4 4 ++ toLE 8 step ++ zeros 20 ++ toLE 4 4096)
/-- A command on head 4 with its plan. -/
def tMem (op mib : Nat) : Cmd := { tCmd op 4 with plan := some (tMemPlan mib) }
/-- The stash of micro-batch 0 of step 1. -/
def tStash (tokens bytes : Nat) : StashMb where
  step := 1
  mb := 0
  order := 0
  plan := 3
  tokens := tokens
  recompute := false
  ready := true
  toks := []
  inputs := []
  wides := []
  actScale := 0
  stashBytes := bytes
  inputBytes := 0
/-- An open gradient step. -/
def tStep (step mb : Nat) : BwdStep := { step := step, mask := zeros 96, noted := [(0, mb)], records := [], table := [], accums := [] }
/-- A layer with its plan loaded. -/
def tLive (h : Head) (c : Cmd) (mib : Nat) : State := let s := tLayer h c; { s with ahp := { s.ahp with plans := [tMemPlan mib] } }

/-- The plan with one scratchpad bank. -/
def tBanked : Plan := { tMemPlan 1 with bytes := zeros 16 ++ toLE 4 1 ++ [1, 0] ++ zeros 42 }
/-- Every scratchpad bank is held by another command. -/
def tNoBanks (s : State) : State := { s with hbm := { s.hbm with holds := [{ seq := 4, banks := settingNat s Key.scratchBankCount }] } }
/-- A group with a failed member. -/
def tBroken (s : State) : State := { s with mem := { s.mem with failed := [(0, 3)] } }

theorem test_witness_MemoryLayerCommandsStart :
    (let h := tHead [0]
     let b := tForward 1 1 0 1
     let c := tLen (tMem 0x33 1) b
     let s := tLive h c 1
     let c0 := tLen (tMem 0x33 1) (tForward 0 1 0 0)
     admittedCmd s 5 0x33 = some c ∧ b.length = c.entry.inLen ∧ admittedCmd (tLive h c0 1) 5 0x33 = some c0 ∧ findHead s 4 = some h ∧ c.plan = some (tMemPlan 1) ∧
       (heldAhead s c h || writersAhead s c [h.id, (sourceHead s h).id] || lowerStepAhead s h (Fw.step b)) = false ∧ (h.restoring || (sourceHead s h).restoring) = false ∧
       layerFail s h = none ∧ fwdFail h c.order b = none ∧ fwdFail h c.order (tForward 0 1 0 0) = none ∧ Fw.tokens (tForward 0 1 0 0) = 0 ∧ Fw.tokens b ≠ 0 ∧
       fwdRefused (tick 7 s) c h (tMemPlan 1) b = none ∧ findFwd s 5 = none ∧ Fw.stash b = true ∧
       needFits (stashNeed h.desc (Fw.tokens b) ((stashMode h.desc (tMemPlan 1) (Fw.tokens b)).getD false)) (stashUsed h 3) (stashSpace (tMemPlan 1)) = true ∧
       awaitsBanks (takeBanks c s) 5 = false ∧ awaitsBanks (takeBanks { c with plan := some tBanked } (tNoBanks s)) 5 = true ∧ fwdRefused (tick 7 s) c h tBanked b = none ∧
       layerFail (tBroken s) h = some (Status.groupUnavailable, 3) ∧ fwdFail h c.order (zeros b.length) = some (Status.invalidField, 0)) ∧
    (let h := { tHead [0] with stash := [tStash 1 1048576] }
     let b := tForward 1 1 1 1
     let c := tLen (tMem 0x33 1) b
     let s := tLive h c 1
     admittedCmd s 5 0x33 = some c ∧ b.length = c.entry.inLen ∧ findHead s 4 = some h ∧ layerFail s h = none ∧ fwdFail h c.order b = none ∧ fwdRefused (tick 7 s) c h (tMemPlan 1) b = none ∧
       needFits (stashNeed h.desc (Fw.tokens b) ((stashMode h.desc (tMemPlan 1) (Fw.tokens b)).getD false)) (stashUsed h 3) (stashSpace (tMemPlan 1)) = false) ∧
    (let h := { tHead [0] with restoring := true }
     let f := { newFwd (tMem 0x33 1) 3 h (tForward 1 1 0 1) false with seq := 4, phase := .held }
     let c := tMem 0x33 1
     let s := tLive h c 1
     let s1 := { s with mem := { s.mem with fwds := [f] }, ahp := { s.ahp with cmds := [{ c with seq := 4 }, c] } }
     findHead s 4 = some h ∧ (h.restoring || (sourceHead s h).restoring) = true ∧ findHead s1 4 = some h ∧ heldAhead s1 c h = true) ∧
    (let h := { tHead [0] with stash := [tStash 1 64] }
     let b := tBackward 1 0 1
     let c := tLen (tMem 0x34 1) b
     let c0 := tLen (tMem 0x34 1) (tBackward 1 0 0)
     let s := tLive h c 1
     let noted := updHead h.id (noteBwd c.order b) (takeBanks c (tick 7 s))
     let roomy := foldForRoom h (tMemPlan 1) (Fw.step b) (ownedUses noted h (tStash 1 64)) noted
     admittedCmd s 5 0x34 = some c ∧ b.length = c.entry.inLen ∧ admittedCmd (tLive h c0 1) 5 0x34 = some c0 ∧ findHead s 4 = some h ∧ c.plan = some (tMemPlan 1) ∧ bwdWaits s c h (sourceHead s h) b = false ∧ layerFail s h = none ∧
       bwdFail h c.order b = none ∧ Fw.tokens b ≠ 0 ∧ awaitsBanks (takeBanks c s) 5 = false ∧ stashOf h (Fw.step b) (Fw.mb b) = some (tStash 1 64) ∧
       (findHead roomy h.id).any (fun k => bwdRefused roomy c k (tMemPlan 1) b == none) = true ∧
       bwdFail (tHead [0]) c.order b = none ∧ stashOf (tHead [0]) (Fw.step b) (Fw.mb b) = none ∧ bwdFail (tHead [0]) c.order (tBackward 1 0 0) = none ∧
       Fw.tokens (tBackward 1 0 0) = 0 ∧ awaitsBanks (takeBanks { c with plan := some tBanked } (tNoBanks s)) 5 = true ∧ bwdFail h c.order (zeros b.length) = some (Status.invalidField, 0) ∧
       bwdWaits s c { h with restoring := true } h b = true) ∧
    (let h := { tHead [0] with steps := [tStep 1 0], gradStep := some 1 }
     let c := tLen (tMem 0x35 1) (tUpdate 1)
     let s := tLive h c 1
     let ids := (tableHeads s h).map (·.id)
     admittedCmd s 5 0x35 = some c ∧ (tUpdate 1).length = c.entry.inLen ∧ findHead s 4 = some h ∧
       (heldAhead s c h || h.restoring || readersAhead s c ids || writersAhead s c ids || ids.any (headMoves s)) = false ∧
       layerFail s h = none ∧ updFail s h (tUpdate 1) = none ∧ stepBegun s h (Up.step (tUpdate 1)) = true ∧ awaitsBanks (takeBanks c s) 5 = false ∧
       updRefused (takeBanks c (tick 7 s)) c h (livePlan s (tMemPlan 1)) (gradientG h (Up.step (tUpdate 1))) = none ∧
       updFail s h (tUpdate 2) = none ∧ stepBegun s h (Up.step (tUpdate 2)) = false ∧ awaitsBanks (takeBanks { c with plan := some tBanked } (tNoBanks s)) 5 = true ∧
       updFail s h (zeros 64) = some (Status.invalidField, 0)) := by
  refine ⟨?_, ?_, ?_, ?_, ?_⟩ <;> decide +kernel

/-! ## Shards -/

/-- A shard map of collection 9: two shards with the owners 0 and 1, every bucket of shard 0. -/
def tMapBytes (keeper : Nat) : Bytes := toLE 4 0x4D534C41 ++ toLE 4 8264 ++ zeros 8 ++ toLE 4 9 ++ toLE 2 2 ++ toLE 2 keeper ++ zeros 40 ++ toLE 2 0 ++ toLE 2 1 ++ zeros 4 ++ zeros 8192
/-- Position `own` of an installation with that map. -/
def tSharded (own keeper : Nat) : State := tInstalled (tDesc own 0 0 1 (tMapBytes keeper))

/-- A SHARD_SEARCH of query 77 to shard 0 from module 1, with the digest `dg` of the shard map and the record `q` of 80 bytes. -/
def tRequest (dg : Nat) (q : Bytes) : Bytes :=
  withCrc ([0x41, 0x4C, 0x53, 0x51, 0, 0, 0, 0, 1, 0, 0, 0, 9, 0, 0, 0] ++ (toLE 8 dg ++
    [77, 0, 0, 0, 0, 0, 0, 0, 3, 0, 0, 0, 0, 0, 0, 0, 1, 0, 0, 0, 0, 0, 0, 0, 255, 255, 255, 255, 255, 255, 255, 255, 80, 0, 0, 0])) ++ q
/-- Collection 9 with its sharding state. -/
def tShardColl : Coll := { tK with shard := some (newShard State.reset 1) }
/-- Module `own` holds a shard of collection 9 and the SEARCH plan. -/
def tOwner (own keeper : Nat) : State := { tSharded own keeper with search := { Search.reset with colls := [tShardColl] }, ahp := { Ahp.reset with plans := [tHeldPlan] } }
/-- A SHARD_SEARCH reply of shard 1 to query `qid` with one candidate. -/
def tReply (qid : Nat) : Bytes :=
  let l := toLE 4 0x54504C41 ++ toLE 2 1 ++ [0, 3] ++ toLE 4 2 ++ toLE 4 1 ++ toLE 4 0 ++ zeros 12 ++ toLE 2 1 ++ [0, 1] ++ toLE 4 0 ++ toLE 8 2
  withCrc (toLE 4 0x52534C41 ++ zeros 20 ++ toLE 4 0 ++ toLE 2 0 ++ toLE 2 1 ++ toLE 8 qid ++ toLE 8 1 ++ toLE 4 0 ++ toLE 4 0 ++ toLE 4 l.length) ++ l
/-- What a query waits for from shard 1 at module 1. -/
def tWait : ShardWait := { shard := 1, owner := 1, list := none, degraded := false, skips := [], stages := 0, media := [], status := 0, offset := 0, skipped := false, replied := false }
/-- A query that waits for shard 1. -/
def tGather (mode : Nat) : Query := { tQ tK (tQuery 2 1 1 mode) .shards with shards := [tWait], tsh := 700000 }

theorem u32At_skip {h r : Bytes} {k : Nat} (e : h.length = k) : u32At (h ++ r) k = leNat (r.take 4) := by
  subst e; simp [u32At, leAt, slice]

theorem withCrc_checks (h r : Bytes) {k : Nat} (e : h.length = k) : (u32At (withCrc h ++ r) k == crc32c (slice (withCrc h ++ r) 0 k)) = true := by
  have l : slice (h ++ (toLE 4 (crc32c h) ++ r)) 0 k = h := by subst e; simp [slice]
  have c : crc32c h < 256 ^ 4 := BitVec.isLt _
  have w : u32At (h ++ (toLE 4 (crc32c h) ++ r)) k = crc32c h := by
    rw [u32At_skip e, List.take_append_of_le_length (by simp), List.take_of_length_le (by simp), leNat_toLE, Nat.mod_eq_of_lt c]
  simp [withCrc, List.append_assoc, l, w]

theorem shardMapDigest_lt {s : State} {c x : Nat} (h : shardMapDigest s c = some x) : x < 256 ^ 8 := by
  unfold shardMapDigest at h
  dsimp only at h
  split at h
  · cases h
  · obtain ⟨o, -, rfl⟩ := Option.map_eq_some_iff.1 h
    refine Nat.lt_of_lt_of_le (leNat_lt _) (Nat.pow_le_pow_right (by decide) ?_)
    simp [slice]

theorem tRequest_fields (dg : Nat) {r : Bytes} (q : r.length = 80) : requestFormed 1 (tRequest dg r) = true ∧ u64At (tRequest dg r) 16 = dg % 256 ^ 8 ∧
    u32At (tRequest dg r) 12 = 9 ∧ u16At (tRequest dg r) 10 = 0 ∧ u64At (tRequest dg r) 40 = 1 ∧ u64At (tRequest dg r) 32 = 3 ∧ (tRequest dg r).drop 64 = r := by
  have c : (u32At (tRequest dg r) 60 == crc32c (slice (tRequest dg r) 0 60)) = true := by
    unfold tRequest
    exact withCrc_checks _ _ (by simp)
  have l : (tRequest dg r).length = 144 := by simp [tRequest, withCrc, q]
  have d : leNat (toLE 8 dg) = dg % 256 ^ 8 := leNat_toLE 8 dg
  generalize ht : toLE 4 (crc32c ([0x41, 0x4C, 0x53, 0x51, 0, 0, 0, 0, 1, 0, 0, 0, 9, 0, 0, 0] ++ (toLE 8 dg ++
    [77, 0, 0, 0, 0, 0, 0, 0, 3, 0, 0, 0, 0, 0, 0, 0, 1, 0, 0, 0, 0, 0, 0, 0, 255, 255, 255, 255, 255, 255, 255, 255, 80, 0, 0, 0]))) = x
  have hx : x.length = 4 := by simp [← ht]
  have f : tRequest dg r = [0x41, 0x4C, 0x53, 0x51, 0, 0, 0, 0, 1, 0, 0, 0, 9, 0, 0, 0] ++ (toLE 8 dg ++ ([77, 0, 0, 0, 0, 0, 0, 0, 3, 0, 0, 0, 0, 0, 0, 0, 1, 0, 0, 0, 0, 0, 0, 0, 255, 255, 255, 255, 255, 255, 255, 255, 80, 0, 0, 0] ++ (x ++ r))) := by
    simp only [tRequest, withCrc, ht, List.append_assoc]
  refine ⟨?_, ?_, ?_, ?_, ?_, ?_, ?_⟩
  · simp only [requestFormed, l, c]; rw [f]; simp [toLE, u32At, u16At, leAt, slice, leNat]
  · rw [f, ← d]; simp [toLE, u64At, leAt, slice]
  · rw [f]; simp [toLE, u32At, leAt, slice, leNat]
  · rw [f]; simp [toLE, u16At, leAt, slice, leNat]
  · rw [f]; simp [toLE, u64At, leAt, slice, leNat]
  · rw [f]; simp [toLE, u64At, leAt, slice, leNat]
  · rw [f]; simp [toLE, hx]

/-- What the owner `s` finds in a request with its own map: its state, its plan, and the record. -/
def tAsked (s : State) (c : Coll) (r : Bytes) (held formed fits : Bool) : Prop :=
  findColl s 9 = some c ∧ c.deleting = false ∧ ownShardNo (tick 5 s) 9 = 0 ∧ shardHolds c 1 = held ∧
    s.ahp.plans.find? (fun p => p.kind == 1 && p.target == 9 && p.planId == 3 && p.bound) = some tHeldPlan ∧ queryMalformed c.schema r = !formed ∧
    (queryFail (ownerCtx c tHeldPlan 1 0) r).isNone = fits

theorem test_witness_ShardOwnersServeRequests :
    (requestFormed 1 [] = false ∧ Table.wf (fun _ => 0) State.reset.counters = true ∧ counter State.reset Key.sppMalformedDrops + 1 < 2 ^ 64) ∧
    (requestFormed 1 (tRequest 0 (tQuery 2 1 1 1)) = true ∧
      shardMapDigest (tick 5 tPeer) (u32At (tRequest 0 (tQuery 2 1 1 1)) 12) ≠ some (u64At (tRequest 0 (tQuery 2 1 1 1)) 16)) ∧
    (∀ r : Bytes, r.length = 80 → ∃ dg, let b := tRequest dg r; requestFormed 1 b = true ∧ u32At b 12 = 9 ∧ u16At b 10 = 0 ∧ u64At b 40 = 1 ∧ u64At b 32 = 3 ∧
      b.drop 64 = r ∧ shardMapDigest (tick 5 (tOwner 0 0)) 9 = some (u64At b 16)) ∧
    tAsked (tOwner 0 0) tShardColl (tQuery 2 1 1 1) true true true ∧ findQuery (tOwner 0 0) (tOwner 0 0).search.nextQuery = none ∧
    tAsked (tOwner 0 0) tShardColl ((tQuery 2 1 1 1).set 0 0) true true false ∧
    queryMalformed (zeros 38 ++ [1, 0]) ((((tQuery 2 1 1 1).set 44 1).take 64) ++ List.replicate 16 0xFF) = true ∧
    (findColl (tSharded 0 0) 9).all (·.deleting) = true ∧ ownShardNo (tick 5 (tOwner 1 0)) 9 = 1 ∧ shardHolds { tShardColl with epoch := 0 } 1 = false ∧
    [({ tHeldPlan with bound := false } : Plan)].find? (fun p => p.kind == 1 && p.target == 9 && p.planId == 3 && p.bound) = none ∧
    (toLE 8 77 ++ toLE 4 9 ++ zeros 4).length = 16 ∧ u16At (toLE 8 77 ++ toLE 4 9 ++ zeros 4) 14 = 0 := by
  have e : moduleIndex (tick 5 (tOwner 0 0)) = 0 := tDesc_index 0 0 1 (tMapBytes 0)
  have e1 : moduleIndex (tick 5 (tOwner 1 0)) = 1 := tDesc1_index 0 0 1 (tMapBytes 0)
  have o : ownShardNo (tick 5 (tOwner 0 0)) 9 = 0 := by unfold ownShardNo ownShard; rw [e]; decide +kernel
  have hd : (shardMapDigest (tick 5 (tOwner 0 0)) 9).isSome = true := by decide +kernel
  obtain ⟨dg, hd⟩ := Option.isSome_iff_exists.1 hd
  refine ⟨by decide +kernel, ⟨(tRequest_fields 0 (by decide +kernel)).1, by decide +kernel⟩, fun r h => ⟨dg, ?_⟩, ⟨?_, ?_, o, ?_⟩, ?_, ⟨?_, ?_, o, ?_⟩, ?_, ?_, ?_, ?_⟩
  · obtain ⟨g0, g1, g2, g3, g4, g5, g6⟩ := tRequest_fields dg h
    exact ⟨g0, g2, g3, g4, g5, g6, by rw [g1, Nat.mod_eq_of_lt (shardMapDigest_lt hd), hd]⟩
  on_goal 10 => unfold ownShardNo ownShard; rw [e1]
  all_goals decide +kernel

theorem test_witness_ShardRepliesAreGathered :
    (let q := { tGather 1 with shards := [tWait, { tWait with shard := 2 }] }
     let s := tQs tK q
     let b := tReply (queryId s 1)
     replyFormed b = true ∧ replyReplayFormed b = true ∧ (tick 5 s).search.queries.find? (fun q => q.phase == .shards && queryId (tick 5 s) q.key == u64At b 32) = some q ∧
       findQuery s q.key = some q ∧ q.shards.find? (fun w => w.shard == u16At b 30 && w.owner == 1) = some tWait ∧ tWait.skipped = false ∧ max s.now 5 ≤ q.tsh ∧
       tWait.replied = false ∧ u64At b 40 = q.epoch ∧ u64At b 40 ≠ ({ q with epoch := 2 } : Query).epoch ∧ u16At b 28 = Status.success ∧ (parsePlist .shard (slice b 64 (u32At b 56)) (Qr.k q.record) (u16At b 30)).isSome = true ∧ parsePlist .shard (slice b 64 (u32At b 56)) 0 (u16At b 30) = none) ∧
    (let q := { tGather 1 with shards := [{ tWait with replied := true }] }
     let s := tQs tK q
     let b := tReply (queryId s 1)
     (tick 5 s).search.queries.find? (fun q => q.phase == .shards && queryId (tick 5 s) q.key == u64At b 32) = some q ∧
       q.shards.find? (fun w => w.shard == u16At b 30 && w.owner == 1) = some { tWait with replied := true } ∧ counter s Key.lateShardReplies + 1 < 2 ^ 64) ∧
    (findQuery (tQs tK (tGather 1)) 1 = some (tGather 1) ∧ (tGather 1).phase = .shards ∧ (tGather 1).exact = false ∧ (tGather 1).tsh ≤ max 0 700000) ∧
    (let q := tGather 2
     let c := { tAsk 0x2A with phase := .working }
     let s := tQs tK q
     findQuery s 1 = some q ∧ q.phase = .shards ∧ q.exact = true ∧ q.origin = .search 5 ∧ findCmd s 5 = some c ∧ c.internal = false ∧
       q.shardSince + 1000 * cmdSetting c Key.shardTimeoutUs ≤ max s.now 10000000000000) := by
  refine ⟨?_, ?_, ?_, ?_⟩ <;> decide +kernel

/-- ROW_FORWARD of the records of `n` vectors for shard 0. -/
def tForwardRows (n : Nat) : Bytes := toLE 4 9 ++ [1, 0, 0, 0] ++ toLE 8 31 ++ toLE 4 n ++ toLE 4 (16 * n) ++ toLE 2 0 ++ zeros 6 ++ tRecords 1 n
/-- An insert of this module with a part forwarded to module 1. -/
def tFwd : Fwd := { tag := 31, shard := 1, owner := 1, count := 1, body := tRecords 1 1 }
/-- The insert with the units `pending` still to commit. -/
def tIngest (pending : List Nat) : Ingest :=
  { seq := 5, coll := 9, insert := true, rows := [], ids := [], pending := pending, fwds := [tFwd], batch := 2, committed := 0, live := 0, lastEpoch := 0, limit := 100, auto := 0, since := 0 }
/-- ROW_RESULT of the forwarded part. -/
def tRowResult (status : Nat) : Bytes := toLE 8 31 ++ toLE 8 4 ++ toLE 4 1 ++ toLE 2 status ++ zeros 6 ++ zeros 4
/-- The owner with the insert at work. -/
def tIngests (pending : List Nat) : State :=
  let s := tWith (tOwner 0 0) { tCount 0x25 2 with phase := .working }
  { s with search := { s.search with ingests := [tIngest pending], units := pending.map fun t => { tUnit (.insert [tRow 2]) with tag := t, origin := .command 5 } } }
/-- A grant of epoch 2 to module 1. -/
def tGrant : Grant := { epoch := 2, tag := 31, owner := 1, state := .granted, at_ := 0, due := 2000000 }
/-- The keeper with the grants `l`. -/
def tKeeper (l : List Grant) : State :=
  { tOwner 0 0 with search := { Search.reset with colls := [{ tShardColl with shard := some { newShard State.reset 1 with grants := l, nextEpoch := 3 } }] } }

theorem test_witness_ForwardedRowsCommitAtTheirOwner :
    (let s := tOwner 0 0
     let b := tForwardRows 2
     ¬(b.length < 32 ∨ leAt b 5 3 ≠ 0 ∨ u32At b 28 ≠ 0 ∨ (u8At b 4 ≠ 1 ∧ u8At b 4 ≠ 2) ∨ u32At b 20 ≠ (b.drop 32).length ∨
       65536 < (b.drop 32).length ∨ u32At b 16 = 0 ∨ (if u8At b 4 = 1 then 256 else 8192) < u32At b 16) ∧
     findColl s (u32At b 0) = some tShardColl ∧ (b.drop 32).length = (if u8At b 4 = 1 then recordSize tShardColl.schema else 8) * u32At b 16 ∧ unitKnown s 1 (u64At b 8) = false ∧
     (if u8At b 4 = 1 then recordsFail tShardColl.schema (b.drop 32) (u32At b 16) [] 0 else none) = none ∧
     recordsMalformed tShardColl.schema (b.drop 32) (u32At b 16) = false ∧
     roomFor (tick 5 s) tShardColl (liveLimits s).1 (liveLimits s).2 (bodyOf tShardColl.schema (u8At b 4) (u32At b 16) (b.drop 32)) = .yes ∧
     roomFor (tick 5 s) tShardColl 1 8 (bodyOf tShardColl.schema (u8At b 4) (u32At b 16) (b.drop 32)) = .wait ∧
     unitKnown { s with search := { s.search with units := [{ tUnit (.insert []) with origin := .peer 1 31 }] } } 1 (u64At b 8) = true ∧
     (recordsFail tShardColl.schema (tRecords 18446744073709551615 1 ++ tRecords 1 1) 2 [] 0).isSome = true ∧
     ((b.drop 32).drop 16).length ≠ (if u8At b 4 = 1 then recordSize tShardColl.schema else 8) * u32At b 16) ∧
    (shardMapOf (tick 5 (tOwner 0 0)) (u32At (tForwardRows 2) 0)).any (fun m =>
      decide ((bodyIds 16 2 ((tForwardRows 2).drop 32)).find? (fun p => m.buckets.getD (bucketOf p.2) 0 != u16At (tForwardRows 2) 24) = none ∧
        (bodyIds 16 2 ((tForwardRows 2).drop 32)).find? (fun p => liveOwnerOf tShardColl m (bucketOf p.2) != moduleIndex (tick 5 (tOwner 0 0))) = none ∧
        ((bodyIds 16 2 ((tForwardRows 2).drop 32)).find? (fun p => liveOwnerOf { tShardColl with shard := some { newShard State.reset 1 with liveOwner := [(bucketOf 1, 6)] } } m (bucketOf p.2) != moduleIndex (tick 5 (tOwner 0 0)))).isSome = true)) = true ∧
    (let s := tIngests [3]
     let b := tRowResult 0
     rowResultFormed b = true ∧ rowResultFormed [] = false ∧ s.search.ingests.find? (fun g => g.fwds.any (·.tag == u64At b 0)) = some (tIngest [3]) ∧ (tIngest [3]).fwds.find? (·.tag == u64At b 0) = some tFwd ∧
       findIngest s 5 = some (tIngest [3]) ∧ findCmd s 5 = some { tCount 0x25 2 with phase := .working } ∧ u16At b 20 = Status.success ∧ (tIngest [3]).pending ≠ [] ∧
       (tIngest [3]).fwds.filter (·.tag ≠ tFwd.tag) = [] ∧ (tIngest []).pending = [] ∧ rowResultFormed (tRowResult Status.capacityExceeded) = true ∧
       rowResultFormed (tRowResult Status.notOwner) = true ∧ (findColl s (tIngest [3]).coll).isSome = true ∧ u16At (tRowResult Status.notOwner) 22 = 0 ∧
       u16At ((tRowResult Status.notOwner).set 22 2) 22 ≠ 0) := by
  have e : moduleIndex (tick 5 (tOwner 0 0)) = 0 := tDesc_index 0 0 1 (tMapBytes 0)
  refine ⟨by decide +kernel, ?_, by decide +kernel⟩
  rw [e]
  decide +kernel

/-- EPOCH_ALLOC for the unit `tag`. -/
def tAlloc (tag : Nat) : Bytes := toLE 4 9 ++ zeros 4 ++ toLE 8 tag
/-- A module that is not the keeper with an insert whose log record is durable. -/
def tLogged : State := let s := tOwner 0 1; { s with search := { s.search with units := [{ tUnit (.insert [tRow 2, tRow 4]) with phase := .logged }] } }

theorem test_witness_EpochsAreGrantedInOrder :
    ((tAlloc 40).length = 16 ∧ u16At (tAlloc 40) 6 = 0 ∧
      ((findColl (tKeeper [tGrant]) 9).bind (·.shard)).any (fun x => decide (grantOf x (u64At (tAlloc 40) 8) = none ∧ grantOf x (u64At (tAlloc 31) 8) = some tGrant)) = true ∧
      (shardMapOf (tick 5 (tKeeper [tGrant])) (u32At (tAlloc 40) 0)).any (isKeeper (tick 5 (tKeeper [tGrant]))) = true) ∧
    ((tAlloc 31 ++ toLE 8 2).length = 24 ∧ u32At (tAlloc 31 ++ toLE 8 2) 4 = 0) ∧
    (shardMapOf (tick 5 (tOwner 0 1)) (u32At (tAlloc 6) 0)).any (fun m => !isKeeper (tick 5 (tOwner 0 1)) m && u16At (toLE 4 9 ++ [1, 0, 0, 0] ++ toLE 8 6) 4 == m.keeper) = true ∧
    (let b := toLE 4 9 ++ zeros 4 ++ toLE 8 1 ++ toLE 8 6
     b.length = 24 ∧ leAt b 5 3 = 0 ∧ u8At b 4 = 0 ∧ findUnit tLogged (u64At b 8) = some { tUnit (.insert [tRow 2, tRow 4]) with phase := .logged } ∧
       (shardMapOf (tick 5 tLogged) (u32At b 0)).any (fun m => m.keeper == 1) = true ∧ findColl tLogged 9 = some tShardColl ∧
       1 < u8At (b.set 4 255) 4 ∧ u8At (b.set 4 1) 4 = 1) := by
  have e : moduleIndex (tick 5 (tKeeper [tGrant])) = 0 := tDesc_index 0 0 1 (tMapBytes 0)
  have e1 : moduleIndex (tick 5 (tOwner 0 1)) = 0 := tDesc_index 0 0 1 (tMapBytes 1)
  refine ⟨⟨by decide +kernel, by decide +kernel, by decide +kernel, ?_⟩, by decide +kernel, ?_, by decide +kernel⟩
  · unfold isKeeper; rw [e]; decide +kernel
  · unfold isKeeper; rw [e1]; decide +kernel

theorem test_witness_EpochsFollowTheirTimes :
    (let s := tKeeper [tGrant]
     ((findColl s 9).bind (·.shard)).any (fun x => decide (x.grants.find? (fun g => g.epoch == 2 && g.state == .granted) = some tGrant)) = true ∧
       (shardMapOf (tick 10000000000000 s) 9).any (isKeeper (tick 10000000000000 s)) = true ∧
       tGrant.due ≤ max s.now 2000000 ∧ max s.now 1999999 < tGrant.due ∧ counter s Key.epochsVoided + 1 < 2 ^ 64) ∧
    findColl (tOwner 0 1) 9 = some tShardColl ∧
    (let s := tKeeper [tGrant]
     (findColl s 9).any (fun c => c.shard.any fun x => decide (x.stableSent < c.epoch ∧ x.stableAt + settingUs s Key.stableIntervalUs ≤ max s.now 10000000000000)) = true) ∧
    (let s := tIngests [3]
     findIngest s 5 = some (tIngest [3]) ∧ findCmd s 5 = some { tCount 0x25 2 with phase := .working } ∧
       ((s.search.units.any fun u => unitOf 5 u && u.phase == .logged) || !(tIngest [3]).fwds.isEmpty) = true ∧
       max s.now 5 < (tIngest [3]).since + settingUs s Key.shardTimeoutUs ∧ (tIngest [3]).since + settingUs s Key.shardTimeoutUs ≤ max s.now 9000000000001) ∧
    ((newShard State.reset 1).learned.all fun p => decide (p.2 + settingUs State.reset Key.epochHoldUs ≤ max 0 10000000000000)) = true ∧
    (newShard State.reset 1).learned = [(1, 0)] := by
  have e : moduleIndex (tick 10000000000000 (tKeeper [tGrant])) = 0 := tDesc_index 0 0 1 (tMapBytes 0)
  refine ⟨⟨by decide +kernel, ?_, by decide +kernel, by decide +kernel, by decide +kernel⟩, by decide +kernel, by decide +kernel, by decide +kernel, by decide +kernel, by decide +kernel⟩
  unfold isKeeper; rw [e]; decide +kernel

/-- Shard 0 with bucket `bucketOf 2` still to move. -/
def tMoves : State := { tOwner 0 0 with search := { Search.reset with colls := [{ tShardColl with shard := some { newShard State.reset 1 with toMove := [bucketOf 2, 4095] } }] } }
/-- BUCKET_COPY of the rows of two vectors. -/
def tCopyRows : Bytes := toLE 4 9 ++ toLE 2 4095 ++ [1, 0] ++ toLE 8 31 ++ toLE 4 2 ++ toLE 4 32 ++ zeros 8 ++ tRecords 1 2
/-- BUCKET_CUTOVER of bucket 4095 at epoch 5 with one vector. -/
def tCutover : Bytes := toLE 4 9 ++ toLE 2 4095 ++ [1, 0] ++ toLE 8 32 ++ toLE 4 1 ++ toLE 4 16 ++ zeros 8 ++ toLE 8 5 ++ tRecords 1 1

theorem test_witness_BucketsMove :
    (((findColl tMoves 9).bind (·.shard)).any (fun x => decide (x.move = none ∧ x.toMove = bucketOf 2 :: [4095])) = true ∧ (shardMapOf tMoves 9).isSome = true ∧
      ({ newShard State.reset 1 with move := some { bucket := 3, target := 1, targetShard := 1, unsent := [], unsentDel := [], sent := none, cutover := none } } : Shard).move ≠ none) ∧
    (let s := tOwner 0 0
     let b := tCopyRows
     bucketFormed b 32 = true ∧ findColl s (u32At b 0) = some tShardColl ∧ (b.drop 32).length = (if u8At b 6 = 1 then recordSize tShardColl.schema else 8) * u32At b 16 ∧
       unitKnown s 1 (u64At b 8) = false ∧ u32At b 16 ≠ 0 ∧ (if u8At b 6 = 1 then recordsFail tShardColl.schema (b.drop 32) (u32At b 16) [] 0 else none) = none ∧
       recordsMalformed tShardColl.schema (b.drop 32) (u32At b 16) = false ∧ bucketFormed ((b.take 16) ++ zeros 16) 32 = true ∧ bucketFormed b 32 = true ∧
       roomFor (dropTaken 9 (u16At b 4) 1 (tick 5 s)) tShardColl (liveLimits s).1 (liveLimits s).2 (bodyOf tShardColl.schema (u8At b 6) (u32At b 16) (b.drop 32)) = .yes) ∧
    (let s := tOwner 0 0
     let b := tCutover
     bucketFormed b 40 = true ∧ findColl s (u32At b 0) = some tShardColl ∧ (b.drop 40).length = recordSize tShardColl.schema * u32At b 16 ∧ unitKnown s 1 (u64At b 8) = false ∧
       recordsFail tShardColl.schema (b.drop 40) (u32At b 16) [] 0 = none ∧ recordsMalformed tShardColl.schema (b.drop 40) (u32At b 16) = false ∧
       roomFor (dropTaken 9 (u16At b 4) 1 (tick 5 s)) tShardColl (liveLimits s).1 (liveLimits s).2
         (.takeOver (u16At b 4) (u64At b 32) (recordRows tShardColl.schema (b.drop 40) (u32At b 16))) = .yes) := by
  refine ⟨?_, ?_, ?_⟩ <;> decide +kernel

/-- A command at work on the owner, with its shard map. -/
def tOnOwner (keeper : Nat) (c : Cmd) : State := tWith (tOwner 0 keeper) c

theorem test_witness_ShardedBatchesStart :
    (let s := tOnOwner 1 (tCount 0x25 2)
     admittedCmd s 5 0x25 = some (tCount 0x25 2) ∧ findColl s 9 = some tShardColl ∧ findIngest s 5 = none ∧
       (shardMapOf s 9).any (fun m => (recordRows tSchema (tRecords 1 2) 2).all fun r => (routeOf tShardColl m r.id).2 == 0) = true ∧
       (shardMapOf s 9).any (fun m => (recordRows tSchema (tRecords 1 2) 2).all fun r =>
         routeOf { tShardColl with shard := some { newShard State.reset 1 with liveOwner := [(bucketOf 1, 1), (bucketOf 2, 1)] } } m r.id == (0, 1)) = true) ∧
    (let s := { tOwner 0 1 with search := { (tOwner 0 1).search with units := [tUnit (.insert [tRow 2])] } }
     findUnit s 1 = some (tUnit (.insert [tRow 2])) ∧ findColl s 9 = some tShardColl ∧ (shardMapOf s 9).isSome = true ∧ commitWaits (tick 5 s) tShardColl = false ∧
       (shardMapOf s 9).any (isKeeper (tick 5 s)) = false) ∧
    (let c := tLen (tAsk 0x2A) (tQuery 2 1 1 1)
     let s := tOnOwner 1 c
     admittedCmd s 5 0x2A = some c ∧ (tQuery 2 1 1 1).length = c.entry.inLen ∧ findColl s 9 = some tShardColl ∧ (shardMapOf s tShardColl.id).isSome = true ∧
       queryFail (commandCtx (tick 5 s) c tShardColl tHeldPlan (queryEpoch c (tQuery 2 1 1 1))) (tQuery 2 1 1 1) = none) := by
  have e : moduleIndex (tick 5 { tOwner 0 1 with search := { (tOwner 0 1).search with units := [tUnit (.insert [tRow 2])] } }) = 0 := tDesc_index 0 0 1 (tMapBytes 1)
  refine ⟨by decide +kernel, ⟨by decide +kernel, by decide +kernel, by decide +kernel, by decide +kernel, ?_⟩, by decide +kernel⟩
  unfold isKeeper; rw [e]; decide +kernel

/-! ## Exchanges and reductions -/

/-- A forward of two tokens that waits for its exchange with module 1. -/
def tFwdEx (attempt : Nat) : MemFwd := { newFwd (tMem 0x33 1) 3 (tHead [0, 1]) (tForward 0 1 0 2) false with digest := 0, replica := 0, phase := .exchange, attempt := attempt }
/-- A backward of the same kind. -/
def tBwdEx (attempt : Nat) : MemBwd := { newBwd (tMem 0x33 1) 3 (tHead [0, 1]) (tBackward 1 0 2) with digest := 0, replica := 0, phase := .exchange, attempt := attempt }
/-- The state in which they are at work. -/
def tExchange (fs : List MemFwd) (bs : List MemBwd) (us : List Update) : State :=
  let s := tLive (tHead [0, 1]) { tMem 0x33 1 with phase := .working } 1
  { s with mem := { s.mem with fwds := fs, bwds := bs, upds := us } }
/-- The partial row of module 1 for token 0. -/
def tPart (magic digest : Nat) (rest : Bytes) : Bytes := partHeader ⟨magic, 4, 1, 0, 1, 0, digest, 0, false⟩ true 0 1 rest.length ++ rest
/-- A payload of the exchange's control messages. -/
def tCtl (attempt cause : Nat) : Bytes := exchangePayload 4 0 1 1 attempt cause (some 0)
/-- An update of 33 elements in the ring of modules 0 and 1, reduced in BINARY32. -/
def tUpd (attempt : Nat) : Update where
  seq := 5
  head := 4
  plan := 3
  step := 1
  request := tUpdate 1
  digest := 0
  ring := [0, 1]
  rank := 0
  g := List.replicate 33 0
  attempt := attempt
  buckets := [{ idx := 0, amax := [], inbox := [], chain := none, leader := none, final := none, ovf := false, fell := false, result := none }]
  samples := []
  verdicts := []
  mismatches := 0
  since := 0
  pages := []
  media := []
/-- A reduction message of module 1. -/
def tRed (digest attempt count : Nat) (body : Bytes) : Bytes := redMessage { tUpd attempt with digest := digest, rank := 1 } false false 0 0 count body

/-- Bitmap and rows of one token. -/
def tRows : Bytes := [1] ++ zeros 7 ++ zeros 64
/-- Mask and dw value of one token. -/
def tDwRows : Bytes := [1] ++ zeros 7 ++ toLE 4 0 ++ zeros 4

theorem test_witness_ExchangeMessagesAct :
    (let b := tPart Fw.partMagic 0 tRows
     let s := tExchange [tFwdEx 0] [] []
     let h := tHead [0, 1]
     Part.formed Fw.partMagic b = true ∧ s.mem.fwds.find? (fun f => f.head == Part.head b && f.step == Part.step b && f.mb == Part.mb b) = some (tFwdEx 0) ∧
       findFwd s 5 = some (tFwdEx 0) ∧ findHead s 4 = some h ∧ h.members[Part.pos b]? = some 1 ∧ Part.span b ≤ 65536 ∧
       b.length = 64 + roundUp 8 (ceilDiv (Part.span b) 8) + ((List.range (Part.span b)).filter fun i => bitOf (b.drop 64) i).length * Hd.dv h.desc * 4 ∧
       (List.range 64).any (fun i => decide (Part.span b ≤ i) && bitOf (b.drop 64) i) = false ∧ Part.formed Fw.partMagic [] = false ∧ Part.formed Bw.partMagic [] = false ∧
       (tPart Fw.partMagic 0 (tRows.set 0 3)).length ≠ 64 + 8 + 2 * Hd.dv h.desc * 4 ∧ Part.formed Fw.partMagic (tPart Fw.partMagic 0 (tRows.set 0 3)) = true ∧
       Part.digest b = (tFwdEx 0).digest ∧ Part.replica b = (tFwdEx 0).replica ∧ Part.digest (tPart Fw.partMagic 1 tRows) ≠ (tFwdEx 0).digest ∧
       findCmd s 5 = some { tMem 0x33 1 with phase := .working } ∧
       (tExchange [] [] []).mem.fwds.find? (fun f => f.head == Part.head b && f.step == Part.step b && f.mb == Part.mb b) = none) ∧
    (let b := tCtl 2 0
     Ctl.formed Spp.memfwdDone b = true ∧ Ctl.formed Spp.memfwdRepeat b = true ∧ Ctl.formed Spp.memfwdAbort (tCtl 0 1) = true ∧ Ctl.formed Spp.membwdDone b = true ∧
       Ctl.formed Spp.membwdRepeat b = true ∧ Ctl.formed Spp.membwdAbort (tCtl 0 2) = true ∧ Ctl.attempt b ≤ (tFwdEx 2).attempt ∧ (tFwdEx 0).attempt < Ctl.attempt b ∧ Ctl.head b = 4 ∧ Ctl.step b = 1 ∧ Ctl.mb b = 0 ∧ (tHead [0, 1]).members[Ctl.pos b]? = some 1) ∧
    (let b := tPart Bw.partMagic 0 tDwRows
     let s := tExchange [] [tBwdEx 0] []
     let h := tHead [0, 1]
     Part.formed Bw.partMagic b = true ∧ s.mem.bwds.find? (fun f => f.head == Part.head b && f.step == Part.step b && f.mb == Part.mb b) = some (tBwdEx 0) ∧
       findBwd s 5 = some (tBwdEx 0) ∧ h.members[Part.pos b]? = some 1 ∧ Part.span b ≤ 65536 ∧ (readDw (Part.span b) (Part.first b) h.members.length (b.drop 64)).isSome = true ∧
       readDw (Part.span b) (Part.first b) h.members.length (zeros 7) = none ∧ Part.digest (tPart Bw.partMagic 1 tDwRows) ≠ (tBwdEx 0).digest ∧
       Part.digest b = (tBwdEx 0).digest ∧ Part.replica b = (tBwdEx 0).replica ∧
       (tExchange [] [] []).mem.bwds.find? (fun f => f.head == Part.head b && f.step == Part.step b && f.mb == Part.mb b) = none) := by
  refine ⟨?_, ?_, ?_⟩ <;> decide +kernel

theorem test_witness_ExchangesTimeOut :
    (let t := 9000000000000
     let s := tExchange [tFwdEx 2] [tBwdEx 2] []
     findFwd s 5 = some (tFwdEx 2) ∧ findBwd s 5 = some (tBwdEx 2) ∧ findHead s 4 = some (tHead [0, 1]) ∧ missingParts (ownPos (tick t s) (tHead [0, 1])) 2 [] = 1 :: [] ∧
       (tFwdEx 2).since + settingUs s Key.stepTimeoutUs ≤ max s.now t ∧ max s.now 5 < (tFwdEx 2).since + settingUs s Key.stepTimeoutUs ∧ (tFwdEx 2).attempt < 3 ∧ 3 ≤ (tFwdEx 3).attempt ∧ (tBwdEx 2).attempt < 3) ∧
    (let f := { newFwd (tMem 0x33 1) 3 (tHead [0, 1]) (tForward 1 1 0 1) false with phase := .held }
     let c := { tMem 0x33 1 with phase := .working }
     let s := tExchange [f] [] []
     findFwd s 5 = some f ∧ findCmd s 5 = some c ∧ c.internal = false ∧ c.plan = some (tMemPlan 1) ∧ f.stash = true ∧
       needFits (stashNeed (tHead [0, 1]).desc f.tokens f.recompute) (stashUsed (tHead [0, 1]) f.plan) (stashSpace (tMemPlan 1)) = true ∧
       needFits (stashNeed (tHead [0, 1]).desc f.tokens f.recompute) (stashUsed (tHead [0, 1]) f.plan) (stashSpace (tMemPlan 0)) = false ∧
       max s.now 5 < f.since + settingUs s Key.stashWaitUs ∧ f.since + settingUs s Key.stashWaitUs ≤ max s.now 9000000000000) := by
  have e : moduleIndex (tick 9000000000000 (tExchange [tFwdEx 2] [tBwdEx 2] [])) = 0 := tDesc_index 1 0 0 (tGroup [0, 1])
  refine ⟨⟨by decide +kernel, by decide +kernel, by decide +kernel, ?_, by decide +kernel⟩, by decide +kernel⟩
  unfold ownPos ownPosition
  rw [e]
  decide +kernel

theorem test_witness_ReductionMessagesJoin :
    let s := tExchange [] [] [tUpd 0]
    let u := tUpd 0
    let a := tRed 0 0 1 (zeros 8)
    let p := tRed 0 0 33 (zeros 136)
    let n := (sampled u 0).length
    let x := tRed 0 0 n (zeros (16 * n))
    let v := tRed 0 0 0 ([2] ++ zeros 7)
    s.mem.upds.find? (fun u => u.head == Red.head a && u.step == Red.step a) = some u ∧ findUpd s u.seq = some u ∧ Red.digest a = u.digest ∧ Red.attempt a = u.attempt ∧
      Red.formed Spp.reduceAmax a = true ∧ redFits u 1 Spp.reduceAmax a = true ∧ (u.buckets.find? (·.idx == Red.bucket a)).isSome = true ∧
      Red.formed Spp.reducePartial p = true ∧ redFits u 1 Spp.reducePartial p = true ∧ Red.formed Spp.reduceResult p = true ∧ redFits u 1 Spp.reduceResult p = true ∧
      Red.formed Spp.reduceSample x = true ∧ redFits u 1 Spp.reduceSample x = true ∧ Red.formed Spp.updateVerdict v = true ∧ redFits u 1 Spp.updateVerdict v = true ∧
      u.verdicts.any (·.1 == Red.rank v) = false ∧ redFits u 2 Spp.reduceAmax a = false ∧ Red.digest (tRed 7 0 1 (zeros 8)) ≠ u.digest ∧
      redFits u 1 Spp.reduceAmax (tRed 7 0 1 (zeros 8)) = true ∧ Red.attempt a < (tUpd 1).attempt ∧ redFits (tUpd 1) 1 Spp.reduceAmax a = true ∧
      u.attempt < Red.attempt (tRed 0 3 1 (zeros 8)) ∧ Red.formed Spp.reduceAmax (tRed 0 3 1 (zeros 8)) = true ∧ redFits u 1 Spp.reduceAmax (tRed 0 3 1 (zeros 8)) = true ∧
      findCmd s u.seq = some { tMem 0x33 1 with phase := .working } ∧ findHead s u.head = some (tHead [0, 1]) ∧ Red.formed Spp.reduceAmax [] = false := by
  decide +kernel

theorem test_witness_ReductionsRepeatAndFail :
    (let s := tExchange [] [] [tUpd 0]
     let u := tUpd 0
     let r := tRed 0 2 0 []
     s.mem.upds.find? (fun u => u.head == Red.head r && u.step == Red.step r) = some u ∧ findUpd s u.seq = some u ∧ Red.formed Spp.reduceRepeat r = true ∧
       redFits u 1 Spp.reduceRepeat r = true ∧ Red.digest r = u.digest ∧ u.attempt < Red.attempt r ∧ Red.digest (tRed 7 2 0 []) ≠ u.digest ∧
       findHead s u.head = some (tHead [0, 1]) ∧ lacks u = (0, 1) :: [] ∧ lacks (tUpd 3) = (0, 1) :: [] ∧ u.since + settingUs s Key.stepTimeoutUs ≤ max s.now 9000000000000) ∧
    (max State.reset.now 5 < (tUpd 0).since + settingUs State.reset Key.stepTimeoutUs ∧ Red.attempt (tRed 0 2 0 []) ≤ (tUpd 2).attempt ∧ (tUpd 0).attempt < 3 ∧ 3 ≤ (tUpd 3).attempt ∧
      redFits (tUpd 2) 1 Spp.reduceRepeat (tRed 0 2 0 []) = true) ∧
    (let b := fun cause stack group : Nat => toLE 2 1 ++ toLE 1 cause ++ toLE 1 stack ++ zeros 12 ++ toLE 2 group ++ toLE 2 0xFFFF ++ zeros 12
     noticeFormed [1, 2, 3] 1 (b 3 0 0xFFFE) = true ∧ u16At (b 3 0 0xFFFE) 16 ≠ 0xFFFF ∧ noticeFormed [1, 2, 3] 1 (b 1 0 0xFFFF) = true ∧ u16At (b 1 0 0xFFFF) 16 = 0xFFFF ∧
       noticeFormed [1, 2, 3] 1 (b 4 0 0) = false ∧ noticeFormed [1, 2, 3] 1 (b 1 1 0) = false ∧ noticeFormed [4, 5] 12 (b 4 11 0) = true ∧ u16At (b 4 11 0) 16 ≠ 0xFFFF ∧
       noticeFormed [4, 5] 12 (b 5 12 0) = false) := by
  refine ⟨?_, ?_, ?_⟩ <;> decide +kernel

/-! ## The management protocol -/

/-- An item of a DAP request with a value of one segment. -/
def tItem (key type : Nat) (value : Bytes) : Bytes :=
  toLE 2 (key / 256) ++ toLE 1 (key % 256) ++ toLE 1 type ++ [0, 1, 0, 0] ++ toLE 4 value.length ++ zeros 4 ++ padTo 8 value
/-- An item without a value. -/
def tName (key : Nat) : Bytes := toLE 2 (key / 256) ++ toLE 1 (key % 256) ++ [0, 0, 1, 0, 0] ++ zeros 8
/-- A DAP request frame of `n` items. -/
def tFrame (op n : Nat) (items : Bytes) : Bytes :=
  withCrc (toLE 4 0x50444C41 ++ zeros 2 ++ [1, 0] ++ toLE 1 op ++ zeros 9 ++ toLE 2 n ++ toLE 4 7 ++ toLE 4 items.length) ++ items
/-- A session of an administrator on the management port. -/
def tSession : Session :=
  { id := 3, mgmt := true, level := 3, role := 2, lastFrame := 0, staged := [], groups := [], phase := .empty, kept := [], outstanding := [], highest := none, readFrom := 0, gone := false }
/-- A module with that session. -/
def tDap (x : Session) : State := { State.reset with dap := { Dap.reset with sessions := [x] }, sec := { Sec.reset with roles := [tAdmin] } }
/-- Staged values of two entries in commit group `g`. -/
def tStaged (key : Nat) (value : Bytes) (g : Nat) (p : StagePhase) : Session := { tSession with staged := [{ key := key, value := value, closed := true }], groups := [g], phase := p }

/-- A frame of one WRITE item that is a new request, belongs to the command `row` and passes its checks. -/
def tFits (row : DapRow) (b : Bytes) (s : State) : Bool :=
  dapNew (tick 9 s) 3 b && rowOf b == row &&
    (match findSession (dapAccepted 3 b (tick 9 s)) 3, frameItems b with
      | some y, [it] => writeCheck (dapAccepted 3 b (tick 9 s)) y [it] it == 0
      | _, _ => false)

theorem test_witness_DapSessionsOpenAndClose :
    dapServes (tick 5 State.reset) true = true ∧ findSession (tDap tSession) 3 = some tSession ∧
      tSession.lastFrame + settingNat (tDap tSession) Key.dapIdleTimeoutS * 1000000000 ≤ max (tDap tSession).now 9000000000000000 ∧
      max (tDap tSession).now 5 < tSession.lastFrame + settingNat (tDap tSession) Key.dapIdleTimeoutS * 1000000000 := by
  decide +kernel

theorem test_witness_DapReadsAreAnswered :
    let s := tDap tSession
    (let b := tFrame 1 2 (tName 0x300203 ++ tName 0x123456); dapNew (tick 9 s) 3 b = true ∧ rowOf b = .read ∧ dapOp b = 1) ∧
    (let b := tFrame 4 1 (tName 0x300203); dapNew (tick 9 s) 3 b = true ∧ rowOf b = .readStaged) ∧
    (let b := tFrame 5 1 (tName 0x300203); dapNew (tick 9 s) 3 b = true ∧ rowOf b = .describe ∧ rowOf b ≠ .read ∧ rowOf b ≠ .write ∧ rowOf b ≠ .stage ∧ rowOf b ≠ .commitApply) ∧
    (let b := tFrame 1 1 (tName Key.blackboxWindow); dapNew (tick 9 s) 3 b = true ∧ rowOf b = .blackboxWindow) := by
  decide +kernel

theorem test_witness_DapWritesAndStages :
    let s := tDap tSession
    (let b := tFrame 2 1 (tItem 0x300203 3 (toLE 4 2097152))
     tFits .write b s = true ∧ (frameItems b).all (fun it => decide (it.key ∉ [Key.tgControl, Key.ftgControl, Key.imageLoadControl])) = true ∧ Table.wf settingDefault s.settings = true) ∧
    (let b := tFrame 2 1 (tItem 0x300203 3 (toLE 4 1))
     dapNew (tick 9 s) 3 b = true ∧ rowOf b = .write ∧ (frameItems b).map (writeCheck (dapAccepted 3 b (tick 9 s)) { tSession with lastFrame := 9, highest := some 7 } (frameItems b)) = [Er.outOfRange] ∧
       findSession (dapAccepted 3 b (tick 9 s)) 3 = some { tSession with lastFrame := 9, highest := some 7 }) ∧
    (let b := tFrame 3 1 (tItem 0x200301 1 [7])
     dapNew (tick 9 s) 3 b = true ∧ rowOf b = .stage ∧ (frameItems b).map (stageCheck (dapAccepted 3 b (tick 9 s)) { tSession with lastFrame := 9, highest := some 7 }) = [0] ∧
       findSession (dapAccepted 3 b (tick 9 s)) 3 = some { tSession with lastFrame := 9, highest := some 7 } ∧ (dictEntry 0x200301).isSome = true) ∧
    (let b := tFrame 3 1 (tItem 0x123456 1 [7])
     dapNew (tick 9 s) 3 b = true ∧ rowOf b = .stage ∧ (frameItems b).map (stageCheck (dapAccepted 3 b (tick 9 s)) { tSession with lastFrame := 9, highest := some 7 }) = [Er.noSuchEntry]) := by
  decide +kernel

/-- A session's apply of its staged values, received at 9 ns. -/
def tApply : Apply := { session := 3, requestId := 7, received := 9 }
/-- The state in which it runs. -/
def tApplies (x : Session) : State := let s := tDap x; { s with dap := { s.dap with applies := [tApply] } }

theorem test_witness_StagedValuesAreCommitted :
    (let s := tDap (tStaged 0x200301 [7] 2 .staged)
     dapNew (tick 9 s) 3 (tFrame 6 0 []) = true ∧ rowOf (tFrame 6 0 []) = .commitCheck ∧ (findSession (dapAccepted 3 (tFrame 6 0 []) (tick 9 s)) 3).map (·.phase) = some .staged) ∧
    (let s := tDap (tStaged 0x200301 [7] 2 .checked)
     dapNew (tick 9 s) 3 (tFrame 7 0 []) = true ∧ rowOf (tFrame 7 0 []) = .commitApply ∧ dapNew (tick 9 s) 3 (tFrame 8 0 []) = true ∧ rowOf (tFrame 8 0 []) = .commitAbort ∧
       (findSession (dapAccepted 3 (tFrame 7 0 []) (tick 9 s)) 3).map (·.phase) = some .checked) ∧
    (let x := tStaged 0x600401 [80] 16 .applying
     let s := tApplies x
     runningApply (tick 20 s) = some (tApply, x) ∧ atBoundary (tick 20 s) x = true ∧ max s.now 20 ≤ applyDeadline s tApply ∧ commitFail (tick 20 s) x = none ∧
       x.groups.all (fun g => 4 ≤ g) = true ∧ Table.wf settingDefault s.settings = true ∧ (x.staged.map (·.key)).Nodup) ∧
    (let x := tStaged 0x200301 [70] 2 .applying
     let s := tApplies x
     runningApply (tick 20 s) = some (tApply, x) ∧ atBoundary (tick 20 s) x = true ∧ (commitFail (tick 20 s) x).isSome = true ∧ applyDeadline s tApply ≤ max s.now 9000000000000 ∧
       atBoundary (tick 20 { s with hbm := { s.hbm with holds := [{ seq := 4, banks := 1 }] } }) x = false) := by
  decide +kernel

/-- The module with both test generators free to run. -/
def tDiag : State := let s := tDap tSession; { s with box := { s.box with diag := 2 } }

theorem test_witness_TrafficGeneratorsStart :
    tFits .tgWriteRead (tFrame 2 1 (tItem Key.tgControl 3 (toLE 4 (2147483648 + 66047)))) tDiag = true ∧
    tFits .tgReadOnly (tFrame 2 1 (tItem Key.tgControl 3 (toLE 4 (2147483648 + 66047 + 16384)))) tDiag = true ∧
    tFits .tgWriteOnly (tFrame 2 1 (tItem Key.tgControl 3 (toLE 4 (2147483648 + 66047 + 32768)))) tDiag = true ∧
    tFits .ftgWriteRead (tFrame 2 1 (tItem Key.ftgControl 3 (toLE 4 (2147483648 + 65599)))) tDiag = true ∧
    tFits .ftgReadVerify (tFrame 2 1 (tItem Key.ftgControl 3 (toLE 4 (2147483648 + 65599 + 16777216)))) tDiag = true ∧
    tFits .ftgEraseTest (tFrame 2 1 (tItem Key.ftgControl 3 (toLE 4 (2147483648 + 65599 + 33554432)))) tDiag = true ∧
    Table.wf settingDefault tDiag.settings = true := by
  decide +kernel

/-- A value of IMAGE_LOAD_CONTROL. -/
def tImgCtl (action kind slot : Nat) : Bytes := tFrame 2 1 (tItem Key.imageLoadControl 3 ([0] ++ toLE 1 slot ++ toLE 1 kind ++ toLE 1 action))
/-- An open load of kind 2 with two bytes received. -/
def tLoad : State := let s := tDap tSession; { s with sec := { s.sec with load := some { session := 3, kind := 2, received := [1, 2] }, loadState := 1 } }

theorem test_witness_ImagesAreLoaded :
    tFits .imageBegin (tImgCtl 1 2 0) (tDap tSession) = true ∧ tFits .imageFinish (tImgCtl 2 2 0) tLoad = true ∧ tFits .imageAbandon (tImgCtl 3 2 0) tLoad = true ∧
    tFits .imageClearPending (tImgCtl 5 2 0) (tDap tSession) = true ∧
    tFits .imageBlock (tFrame 2 1 (tItem Key.imageBlock 10 (toLE 4 2 ++ zeros 4 ++ [9, 9]))) tLoad = true ∧
    tFits .imageBlock (tFrame 2 1 (tItem Key.imageBlock 10 (toLE 4 1 ++ zeros 4 ++ [9, 9]))) tLoad = true := by
  decide +kernel

theorem test_witness_ActingEntriesAct :
    (let s := tDap tSession
     tFits .roleRecord (tFrame 2 1 (tItem Key.roleRecord 10 (tRoleReq 1 0 (List.replicate 64 3)))) s = true ∧ tFits .imageActivate (tFrame 2 1 (tItem Key.imageActivate 7 [1])) s = true ∧
       tFits .moduleReset (tFrame 2 1 (tItem Key.moduleReset 7 [1])) s = true ∧ tFits .diagnosticMode (tFrame 2 1 (tItem Key.diagnosticMode 7 [1])) s = true ∧
       tFits .blackboxReadFrom (tFrame 2 1 (tItem Key.blackboxReadFrom 4 (toLE 8 12))) s = true ∧ s.power.resetting = none ∧ s.power.state = .p0) ∧
    (let w : DiagWait := { session := 3, since := 5, frame := tFrame 2 1 [] }
     let s := tDap { tSession with outstanding := [7] }
     let d := { s with dap := { s.dap with diagRequest := some w } }
     idle (diagDone w (tick 9 d)) = true ∧ idle (diagDone w (tick 9 { d with ahp := { d.ahp with cmds := [tCmd 5 5] } })) = false ∧ w.since + 10000000000 ≤ max d.now 10000000005) := by
  decide +kernel

/-- The value that FACTORY_RESET takes passes its checks. -/
theorem test_factory_reset_fits : tFits .factoryReset (tFrame 2 1 (tItem Key.factoryReset 3 (toLE 4 (identityDigest % 4294967296)))) (tDap tSession) = true := by
  have a : (dapNew (tick 9 (tDap tSession)) 3 (tFrame 2 1 (tItem Key.factoryReset 3 (toLE 4 (identityDigest % 4294967296)))) &&
    rowOf (tFrame 2 1 (tItem Key.factoryReset 3 (toLE 4 (identityDigest % 4294967296)))) == .factoryReset) = true := by decide +kernel
  have hv : leNat (toLE 4 (identityDigest % 4294967296)) = identityDigest % 4294967296 := by rw [leNat_toLE]; omega
  have i : frameItems (tFrame 2 1 (tItem Key.factoryReset 3 (toLE 4 (identityDigest % 4294967296)))) =
      [{ off := 32, key := Key.factoryReset, type := 3, last := true, len := 4, seg := 0, value := toLE 4 (identityDigest % 4294967296) }] := by
    obtain ⟨w, hw⟩ : ∃ w, toLE 4 (identityDigest % 4294967296) = w := ⟨_, rfl⟩
    have hl : w.length = 4 := by rw [← hw]; simp
    have h : (toLE 4 0x50444C41 ++ zeros 2 ++ [1, 0] ++ toLE 1 2 ++ zeros 9 ++ toLE 2 1 ++ toLE 4 7 ++ toLE 4 24 : Bytes) =
        [0x41, 0x4C, 0x44, 0x50, 0, 0, 1, 0, 2, 0, 0, 0, 0, 0, 0, 0, 0, 0, 1, 0, 7, 0, 0, 0, 24, 0, 0, 0] := by decide +kernel
    have p : tItem Key.factoryReset 3 w = [0x04, 0x50, 0x01, 3, 0, 1, 0, 0, 4, 0, 0, 0, 0, 0, 0, 0] ++ (w ++ [0, 0, 0, 0]) := by
      simp [tItem, padTo, hl, toLE, zeros]; decide
    rw [hw]
    have l : (tItem Key.factoryReset 3 w).length = 24 := by simp [p, hl]
    unfold tFrame
    rw [l, h, p]
    unfold withCrc
    generalize crc32c _ = c
    match w, hl with
    | [a, b, c, d], _ => simp [frameItems, itemsGo, itemAt, dapOp, u8At, u16At, u32At, leAt, slice, leNat, toLE, carriesValue, bit]
  have y : findSession (dapAccepted 3 (tFrame 2 1 (tItem Key.factoryReset 3 (toLE 4 (identityDigest % 4294967296)))) (tick 9 (tDap tSession))) 3 =
      some { tSession with lastFrame := 9, highest := some 7 } := by decide +kernel
  have r : (dapAccepted 3 (tFrame 2 1 (tItem Key.factoryReset 3 (toLE 4 (identityDigest % 4294967296)))) (tick 9 (tDap tSession))).power.state = .p0 := by decide +kernel
  have d : dictEntry Key.factoryReset = some ⟨0x500401, 3, .wo, 3, 0, 0, 4294967295, 0, 4⟩ := by decide +kernel
  unfold tFits
  rw [a, y, i]
  generalize dapAccepted 3 _ _ = A at *
  have o : identityDigest % 4294967296 ≤ 4294967295 := by omega
  simp [writeCheck, d, unavailable, r, inRange, writeRule, hv, tSession, o, typeSize, Key.factoryReset, Key.autoMergeAppend, Key.autoMergeTombstones]

/-- Where the image of a slot is good, the value that marks the slot passes its checks. -/
theorem test_mark_pending_fits (h : imageReason (tDap tSession) 2 (slotImage (tDap tSession) 2 1) = 0) : tFits .imageMarkPending (tImgCtl 4 2 1) (tDap tSession) = true := by
  have a : (dapNew (tick 9 (tDap tSession)) 3 (tImgCtl 4 2 1) && rowOf (tImgCtl 4 2 1) == .imageMarkPending) = true := by decide +kernel
  have i : frameItems (tImgCtl 4 2 1) = [{ off := 32, key := Key.imageLoadControl, type := 3, last := true, len := 4, seg := 0, value := [0, 1, 2, 4] }] := by decide +kernel
  have y : findSession (dapAccepted 3 (tImgCtl 4 2 1) (tick 9 (tDap tSession))) 3 = some { tSession with lastFrame := 9, highest := some 7 } := by decide +kernel
  have r : (dapAccepted 3 (tImgCtl 4 2 1) (tick 9 (tDap tSession))).power.state = .p0 := by decide +kernel
  have n : (dapAccepted 3 (tImgCtl 4 2 1) (tick 9 (tDap tSession))).sec.load = none := by decide +kernel
  have g : imageReason (dapAccepted 3 (tImgCtl 4 2 1) (tick 9 (tDap tSession))) 2 (slotImage (dapAccepted 3 (tImgCtl 4 2 1) (tick 9 (tDap tSession))) 2 1) = 0 := h
  have d : dictEntry Key.imageLoadControl = some ⟨0x501101, 3, .wo, 3, 0, 0, 4294967295, 0, 4⟩ := by decide +kernel
  have v : leNat [0, 1, 2, 4] = 0x04020100 := by decide +kernel
  unfold tFits
  rw [a, y, i]
  generalize dapAccepted 3 _ _ = A at *
  generalize ([0, 1, 2, 4] : Bytes) = q at *
  simp [writeCheck, d, unavailable, r, inRange, writeRule, v, tSession, typeSize, Key.imageLoadControl, Key.autoMergeAppend, Key.autoMergeTombstones, loadControlOk, ilAction, ilKind, ilSlot,
    mayLoad, otherLoad, n, g]

/-! ## Power, the black box and the control cores -/

/-- A module whose power state is changed by `f`. -/
def tPower (f : Power → Power) : State := { State.reset with power := f Power.reset }
/-- Cool sensors. -/
def tSensors (hub : Int) : Sensors := { hbm := List.replicate 12 300, dies := [400, 410], hub := hub, coolant := 250, inputMv := 54000, inputW := 900 }
/-- A start-up that finds everything in order, or not the identity. -/
def tStart (puf : Bool) : StartFacts :=
  { pufOk := puf, badRecords := [], failedChannels := [], mapReadable := true, holdupMj := 9000, slotId := 1, plugs := [.none, .none, .none, .none], inputAbsent := false, ms := 800 }
/-- An event. -/
def tEvent : Event := { code := Ev.memberFailed, severity := Ev.error, unit := 4, detail := zeros 24, time := 7, boot := 0 }
/-- A black box changed by `f`. -/
def tBlack (f : BlackBox → BlackBox) : State := { State.reset with box := f State.reset.box }

theorem test_witness_PowerStatesFollowTheWork :
    (let s := tPower fun p => { p with entry := some (2, 0) }
     s.power.entry = some (2, 0) ∧ 0 + 80000 ≤ max s.now 80000 ∧ stillIdle 0 (tick 80000 s) = true ∧ counter s Key.p2Entries + 1 < 2 ^ 64 ∧ max s.now 79999 < 0 + lastStepAt 2 ∧ counter s Key.entriesAbandoned + 1 < 2 ^ 64) ∧
    (let s := State.reset
     s.power.entry = none ∧ s.power.state = .p0 ∧ mayDeepen (tick 9000000000000 s) = true ∧ 2 ≤ settingNat s Key.deepestState ∧
       idleStart s + settingNat s Key.p2IdleMs * 1000000 ≤ max s.now 9000000000000) ∧
    (let s := tPower fun p => { p with entry := some (3, 0), state := .p2 }
     s.power.entry = some (3, 0) ∧ 0 + 3000000 ≤ max s.now 3000000 ∧ stillIdle 0 (tick 3000000 s) = true ∧
       stillIdle 0 (tick 3000000 { s with net := { s.net with lastOut := 5 } }) = false ∧ counter s Key.entriesAbandoned + 1 < 2 ^ 64) ∧
    (let s := tPower fun p => { p with entry := some (2, 0), idleSince := 7 }
     s.power.entry = some (2, 0) ∧ 0 + 80000 ≤ max s.now 80000 ∧ stillIdle 0 (tick 80000 s) = false) ∧
    (let s := { (tPower fun p => { p with state := .p2 }) with settings := [(Key.deepestState, [3])] }
     s.power.entry = none ∧ s.power.state = .p2 ∧ mayDeepen (tick 9000000000000 s) = true ∧ settingNat s Key.deepestState = 3 ∧
       s.power.p2Since + settingNat s Key.p3IdleS * 1000000000 ≤ max s.now 9000000000000) ∧
    (tPower fun p => { p with state := .p3 }).power.state = .p3 := by
  decide +kernel

theorem test_witness_PowerFailsTripsAndReturns :
    State.reset.power.state ≠ .p4 ∧ (tripSensor (tSensors 920)).isSome = true ∧ tripSensor (tSensors 919) = none ∧ supervisorDown (tick 5 State.reset) = false ∧
    (beginStart (tStart true) 9 (tPower fun p => { p with state := .p4 })).isSome = true ∧ (beginStart (tStart false) 9 (tPower fun p => { p with resetting := some (2, 5) })).isSome = true ∧
    (tPower fun p => { p with state := .p4, tripAt := some 1 }).power.tripAt = some 1 := by
  decide +kernel

/-- A lost word of cluster 3 that held rows of partition 0 and of the append list, and a chunk that differs twice. -/
def tUpsets : Upsets where
  bursts := []
  corrected := 1
  words := [{ unit := 3, word := 8, copyLost := false, media := [0, 0xFFFFFFFF] }]
  codes := { retries := 1, second := some { unit := 3, chunk := 4096 } }

/-- A burst of channel 7 beyond correction. -/
def tLost : Scrub := { channel := 7, bank := 0, row := 0, burst := 0, symbols := [1, 2, 3, 4, 5, 6], silent := false }

theorem test_witness_BlackBoxAndControlCores :
    (let s := tBlack fun b => { b with queue := [tEvent] }
     s.box.queue = tEvent :: [] ∧ serviceDown (tick 9 s) = false ∧ s.box.fault = false ∧ s.box.recent.any (coalesces tEvent) = false) ∧
    (tBlack fun b => { b with recent := [{ event := tEvent, count := 0 }] }).box.recent.any (coalesces tEvent) = true ∧
    (let s := tBlack fun b => { b with recent := [{ event := tEvent, count := 3 }] }
     let ended := fun r : Recent => r.event.code == Ev.memberFailed && r.event.unit == 4 && u64At r.event.detail 0 == 0 && decide (r.event.time + 1000000000 ≤ max s.now 1000000007)
     sumOf ((s.box.recent.filter ended).map (·.count)) ≠ 0 ∧ s.box.queue.length < 256) ∧
    coresRun State.reset = true ∧ State.reset.power.resetting = none ∧
    (let c := tLen (tAsk 0x2A) (tQuery 2 1 1 1)
     let s := tWith (tHolds tK) c
     admittedCmd s 5 0x2A = some c ∧ (tQuery 2 1 1 1).length = c.entry.inLen ∧ awaitsBanks (takeBanks c (tick 5 s)) 5 = false ∧ tUpsets.codes.second = some { unit := 3, chunk := 4096 } ∧
       tUpsets.bursts = [] ∧ findColl s 9 = some tK ∧ tUpsets.words.all (fun w => w.unit < 32 || bankRole s ((w.unit - 32) % 40) == .scratch) = true ∧
       s.power.resetting = none ∧ s.power.state = .p0 ∧ Table.wf (fun _ => 0) s.counters = true ∧ counter s Key.sramUncorrectable + tUpsets.words.length < 2 ^ 64 ∧
       counter s Key.checkCodeRetries + tUpsets.codes.retries < 2 ^ 64 ∧ ({ tUpsets with codes := CodeChecks.match_ }).codes.second = none ∧
       allTilesFail (livePlan s tHeldPlan) = none ∧ shardMapOf s tK.id = none ∧ findQuery s s.search.nextQuery = none) ∧
    (let c := tLen (tCmd 0x10 9) tSearchPlan
     let s := tWith (tHolds tColl) c
     admittedCmd s 5 0x10 = some c ∧ tSearchPlan.length = c.entry.inLen ∧ s.power.resetting = none ∧ s.power.state = .p0) ∧
    (let h := tHead [0]
     let c := tLen (tMem 0x33 1) (tForward 1 1 0 1)
     let s := tLive h c 1
     admittedCmd s 5 0x33 = some c ∧ (tForward 1 1 0 1).length = c.entry.inLen ∧ findHead s c.entry.target = some h ∧ c.plan = some (tMemPlan 1) ∧
       (heldAhead s c h || writersAhead s c [h.id, (sourceHead s h).id] || lowerStepAhead s h 1 || h.restoring || (sourceHead s h).restoring) = false ∧
       s.power.resetting = none ∧ s.power.state = .p0) ∧
    (let c := tLen (tAsk 0x2A) (tQuery 2 1 1 1)
     let s := tWith (tHolds tK) c
     let placed := placeTiles (takeBanks c (tick 5 s))
     findColl s tK.id = some tK ∧ placed.hbm.mappedOut.contains 7 = false ∧ correctable placed tLost = false ∧ tLost.silent = false ∧
       (slotAt placed 7 0 0 0).isSome = true ∧ (slotAt placed 7 0 0 0).all (fun slot => objectAt placed 7 slot == some (.partition 9 0)) = true) := by
  refine ⟨?_, ?_, ?_, ?_, ?_, ?_, ?_, ?_, ?_⟩ <;> decide +kernel

/-! ## Claims about every command: some command of each kind goes on -/

theorem test_witness_BlockRunsTheCommandInFront : ({ State.reset with pending := [.wake 5] } : State).pending = .wake 5 :: [] ∧ State.reset.pending = [] := by decide +kernel

theorem test_witness_EveryStepKeepsTheInvariant : State.reset.Inv := by
  unfold State.Inv State.Canonical
  decide +kernel

theorem test_witness_ConfigurationIsProtected : (∃ u, exec (.wake 5) State.reset = .next u) ∧ mayConfigure (.wake 5) = false ∧ mayChangeRoles (.wake 5) = false ∧ mayMeasure (.wake 5) = false :=
  ⟨⟨_, rfl⟩, rfl, rfl, rfl⟩

theorem test_witness_BlackBoxIsOnlyAppended :
    (∃ u, exec (.wake 5) State.reset = .next u) ∧ mayAppend (.wake 5) = false ∧ (∃ u, exec (.blackboxAppend true 9) (tBlack fun b => { b with queue := [tEvent] }) = .next u) ∧ mayAppend (.blackboxAppend true 9) = true :=
  ⟨⟨_, rfl⟩, rfl, ⟨_, rfl⟩, rfl⟩

theorem test_witness_DomainsKeepToThemselves :
    (∃ u, exec (.pfcPause 0 0 3 true 5) State.reset = .next u) ∧ netRow (.pfcPause 0 0 3 true 5) = true ∧ (∃ u, exec (.plugInRemoved 0 5) State.reset = .next u) ∧ netEventRow (.plugInRemoved 0 5) = true ∧
    (∃ u, exec .scratchBanksGranted State.reset = .next u) ∧ hbmRow .scratchBanksGranted = true ∧ (State.reset.hbm.fenced = [] ∧ State.reset.mem.fwds.all (·.phase != .banks) = true) ∧ (∃ u, exec (.garbageCollection 5 9) State.reset = .next u) ∧ coldEventRow (.garbageCollection 5 9) = true ∧
    (∃ u, exec (.wake 5) State.reset = .next u) ∧ powerRow (.wake 5) = true ∧ (∃ u, exec (.p2Entry 5) State.reset = .next u) ∧ powerEventRow (.p2Entry 5) = true ∧
    (∃ u, exec (.dapSessionClose 3) (tDap tSession) = .next u) ∧ sessionRow (.dapSessionClose 3) = true ∧ (∃ u, exec (.blackboxCoalesced 1 2 3 4) State.reset = .next u) ∧ boxRow (.blackboxCoalesced 1 2 3 4) = true :=
  ⟨⟨_, rfl⟩, rfl, ⟨_, rfl⟩, rfl, ⟨_, rfl⟩, rfl, ⟨rfl, rfl⟩, ⟨_, rfl⟩, rfl, ⟨_, rfl⟩, rfl, ⟨_, rfl⟩, rfl, ⟨_, rfl⟩, rfl, ⟨_, rfl⟩, rfl⟩

theorem test_witness_QueriesAndCollectionsKeepToThemselves :
    (∃ u, exec (.probeRound 1) State.reset = .next u) ∧ searchRow (.probeRound 1) = true ∧ (∃ u, exec (.epochHoldExpiry 9 5) State.reset = .next u) ∧ searchNetRow (.epochHoldExpiry 9 5) = true ∧
    (∃ u, exec (.merge 5) State.reset = .next u) ∧ collectionRow (.merge 5) = true ∧ (∃ u, exec (.collectionInfo 5) State.reset = .next u) ∧ planRow (.collectionInfo 5) = true :=
  ⟨⟨_, rfl⟩, rfl, ⟨_, rfl⟩, rfl, ⟨_, rfl⟩, rfl, ⟨_, rfl⟩, rfl⟩

theorem test_witness_MemoryLayersLeaveTheCollectionsAlone : layerRow (.stashHoldRelease 5 9) = true ∧ ∃ u, exec (.stashHoldRelease 5 9) State.reset = .next u := ⟨rfl, _, rfl⟩

theorem test_witness_SumsFollowTheTree : 2 ≤ ([.zero, .zero] : List Machine.Num).length := by decide

theorem test_witness_HammingDistanceCountsBits : ([3, 0] : Bytes).length = ([0, 255] : Bytes).length ∧ hamming [3, 0] [0, 255] = 10 := by decide +kernel

theorem test_witness_CutsKeepTheFirstCandidates : findQuery (tQs tK (tQ tK (tQuery 2 1 1 1) .adc)) 1 = some (tQ tK (tQuery 2 1 1 1) .adc) := by decide +kernel

/-! ## Ill-formed commands are refused, one for each check -/

theorem test_wf_units : [Instr.sloePass 384 9 0 0 [] [] [], .sloePass 3 9 0 0 [] [] [{ tScrub [71] with channel := 384 }], .rerank 1 ⟨[], [{ tScrub [71] with bank := 64 }]⟩,
    .tileRelocation 1 384 0 true 0, .tileRelocation 1 0 64 true 0, .mediaRecovery 384 0, .stackDrainComplete 12, .dieRebuild 32 0 1 5, .dieRebuild 0 16 1 5, .dieRebuild 0 0 1 101,
    .garbageCollection 1 101, .tgRunComplete [0] 0 0, .clusterClockGate 32, .heartbeatTimeout 2 5].all (fun i => !i.wf) = true := by decide +kernel

theorem test_wf_ports : [Instr.frameReceive 4 0 .pfc 5, .frameReceive 0 4 .pfc 5, .connectionRequest 4 0 7 4096 7 false 5, .connectionRequest 0 4 7 4096 7 false 5,
    .linkTraining 4 0 true 5, .linkTraining 0 4 true 5, .linkDown 4 0 true 5, .linkDown 0 4 true 5, .pfcPause 4 0 0 true 5, .pfcPause 0 4 0 true 5, .pfcPause 0 0 8 true 5, .pfcStorm 4 0 0 5, .pfcStorm 0 4 0 5,
    .pfcStorm 0 0 8 5, .pfcStormEnd 4 0 0 5, .pfcStormEnd 0 4 0 5, .pfcStormEnd 0 0 8 5, .cageInsert 4 .none 5, .plugInRemoved 4 5, .plugInHighAlarm 4 5].all (fun i => !i.wf) = true := by decide +kernel

theorem test_wf_reads : (Instr.scrubPass (tScrub [71]) 5).wf = true ∧ [Instr.scrubPass { tScrub [71] with channel := 384 } 5, .scrubPass { tScrub [71] with bank := 64 } 5,
    .scrubPass (tScrub [72]) 5, .scrubPass (tScrub [7, 7]) 5, .scrubPass { tScrub [71] with burst := 32 } 5].all (fun i => !i.wf) = true := by decide +kernel

/-- Commands whose check codes and codes of memory show `x`. -/
def tFound (x : Upsets) : List Instr := [.search 5 [] x 5, .uniqueCount ⟨5, x⟩ [] 5, .buildIndex ⟨5, x⟩, .memlayerFwd 5 [] x 5, .memlayerBwd ⟨5, x⟩ [] 5, .memlayerUpdate ⟨5, x⟩ [] 5]

theorem test_wf_upsets : (tFound tUpsets).all (fun i => i.wf) = true ∧ (Instr.loadPlan 5 [] tUpsets.codes).wf = true ∧
    ([{ tUpsets with bursts := [{ tScrub [71] with channel := 384 }] }, { tUpsets with words := [{ unit := 112, word := 8, copyLost := true, media := [] }] },
      { tUpsets with words := [{ unit := 3, word := 1572864, copyLost := false, media := [] }] }, { tUpsets with words := [{ unit := 32, word := 1048576, copyLost := false, media := [] }] },
      { tUpsets with codes := { retries := 0, second := some { unit := 3, chunk := 4096 } } }].flatMap tFound).all (fun i => !i.wf) = true ∧
    [CodeChecks.mk 0 (some ⟨3, 4096⟩), .mk 1 (some ⟨32, 4096⟩), .mk 1 (some ⟨3, 4097⟩)].all (fun c => !(Instr.loadPlan 5 [] c).wf) = true := by decide +kernel

theorem test_wf_flash : (Instr.flashReadComplete (tRead .first) 5).wf = true ∧ (Instr.patrol ⟨tRead .first, 6⟩ 5).wf = true ∧
    ([{ tRead .first with channel := 32 }, { tRead .first with die := 16 }, { tRead .first with kind := 3 }, { tRead .first with lpn := 1099511627776 },
      { tRead .first with dieFailed := some 16 }].flatMap fun r => [Instr.flashReadComplete r 5, .patrol ⟨r, 6⟩ 5]).all (fun i => !i.wf) = true := by
  decide +kernel

theorem test_wf_start : (Instr.startUp (tStart true) 5).wf = true ∧ (Instr.sensorReading (tSensors 5) 5).wf = true ∧ [Instr.startUp { tStart true with failedChannels := [384] } 5,
    .startUp { tStart true with plugs := [] } 5, .startUp { tStart true with slotId := 64 } 5, .sensorReading { tSensors 5 with hbm := [] } 5, .sensorReading { tSensors 5 with dies := [] } 5].all (fun i => !i.wf) = true := by
  decide +kernel

/-! ## Worked examples of the spec -/

/-- 00, "Worked example: extracting a field". -/
theorem test_field : bits (u32At (zeros 12 ++ [0x34, 0xA2, 0x7C, 0x01]) 12) 19 8 = 3234 := by decide +kernel

/-- 03, "Worked example: unpacking one BF16 element": the element's code and its value. -/
theorem test_bf16_element : code32 (Fmt.bf16.value 0x3DD8) = 0x3DD80000 ∧ code32 (.fin false 27 (-8)) = 0x3DD80000 ∧ 0x3DD8 = 123 * 128 + 0x58 := by decide +kernel

/-- 04, "Worked example: one output row through three kinds of channel": the row's codes under the scale 9 × 2^−10. -/
theorem test_quantise_row : (quantRow .e4m3 (.fin false 9 (-10)) [.fin false 3 (-2), .fin true 3 (-1), .fin false 2 0, .fin false 1 (-1)]).1 = [0x6B, 0xF3, 0x76, 0x66] := by decide +kernel

/-- The scale of channel 0 and the output of channel 1 of that example. -/
theorem test_channel_scale : scale8Value 0x5A = .fin false 10 (-8) ∧
    code32 (scaledOutput (.fin false 0 0) (.fin false 192 0) true .zero (Fmt.bf16.value 0x3EC0) (.fin false 9 (-10))) = code32 (.fin false 81 (-7)) := by decide +kernel

/-- 05, "Worked example: one dot product, plain and transposed": the chunk tree gives 1. -/
theorem test_dot : narrowCode .bf16 (dot .bf16 .bf16 .bf16 [.fin false 256 0, .fin false 1 0, .fin false 1 0, .fin true 256 0] [.fin false 256 0, .fin false 1 0, .fin false 1 0, .fin false 256 0]) = 0x3F80 := by
  decide +kernel

/-- A result entry. -/
def tEntryOf (score id stage shard : Nat) : Cand := { score := score, id := id, stage := stage, shard := shard, part := 0 }

/-- 08, "Worked example: a coordinator merge with a duplicate and tie carries". -/
theorem test_merge :
    (let m := mergeLists [{ list := [tEntryOf 0x3F000000 0x90 3 0, tEntryOf 0x3F800000 0x20 3 0, tEntryOf 0x40000000 0x11 3 0, tEntryOf 0x40000000 0x12 3 0], ties := 1, k := 4 },
       { list := [tEntryOf 0x3F400000 0x20 2 5, tEntryOf 0x3FC00000 0x61 2 5, tEntryOf 0x40000000 0x77 2 5, tEntryOf 0x40000000 0x7A 2 5], ties := 2, k := 4 }] 4
     (m.1.list.map (·.id), m.1.ties, m.2)) = ([0x90, 0x20, 0x61, 0x11], 6, 1) := by decide +kernel

/-- 08, "Worked example: a truncated count of a signed field": the values in signed order. -/
theorem test_count : tally 5 [0xFFFFFFFD, 5, 0xFFFFFFFD, 0, 7, 5, 0xFFFFFFFD, 12] = [(0xFFFFFFFD, 3), (0, 1), (5, 2), (7, 1), (12, 1)] := by decide +kernel

/-- 13, "Worked example: one value page shared and then evicted": the slot's local row, and its page and row in the run. -/
theorem test_example_value_page : localRow 13107205 4 = 3276805 ∧
    rowPages { copyBase := 0, runBase := 0x3A100000, rowsPerPage := 4, rows := 4096, pages := 1024 } (13107205 % 4096) 1024 = (0x3A100001, 1, 1) := by decide

/-- 12, "Worked example: one DRAM bank through three failures": the capacity after each, with one spare row of the bank left. -/
theorem test_bank_fails :
    (let s0 := { State.reset with hbm := { State.reset.hbm with spareUse := [(137, 21, 1)] } }
     let s1 := rowFails 137 21 0x3A10 s0
     let s2 := rowFails 137 21 0x3A10 s1
     let s3 := rowFails 137 21 0x0112 s2
     [hbmCapacityKib s0, hbmCapacityKib s1, hbmCapacityKib s2, hbmCapacityKib s3]) = [805306368, 805306368, 805306366, 805273600] := by decide +kernel

end Sys2Proof.Tests
end

section
/-! SUPPORT. Repeats, failures and degradation in the reduction of a step (11 R260, R264, R265): what an update in flight is after a new attempt
has begun, what a digest difference leaves of it, and what the end of a group's commands leaves of the record of failed members. -/

namespace Sys2Proof.Reductions

open Machine Laws

variable {s : State}

/-! ## The update in flight -/

theorem findUpd_seq {q : Nat} {u : Update} (h : findUpd s q = some u) : u.seq = q := by
  simpa using List.find?_some h

theorem findUpd_congr {v : State} (h : v.mem = s.mem) (q : Nat) : findUpd v q = findUpd s q := by
  unfold findUpd; rw [h]

/-- An update that takes the place of the one with its number is found there. -/
theorem findUpd_setUpd {u w : Update} (h : findUpd s u.seq = some w) : findUpd (setUpd u s) u.seq = some u := by
  have e := find_mapIf (p := fun x : Update => x.seq == u.seq) (f := fun _ => u) (fun _ _ => by simp) s.mem.upds
  exact e.trans (congrArg (Option.map fun _ => u) h)

@[simp] theorem sendRed_mem (u : Update) (l : List RedSend) (s : State) : (sendRed u l s).mem = s.mem :=
  foldl_same (f := fun v (x : RedSend) => sendSpp (u.ring.getD x.rank 0) x.type x.payload v) (·.mem) (fun v x => sendSpp_mem v _ x.type x.payload) l s

@[simp] theorem sendRed_now (u : Update) (l : List RedSend) (s : State) : (sendRed u l s).now = s.now :=
  foldl_same (f := fun v (x : RedSend) => sendSpp (u.ring.getD x.rank 0) x.type x.payload v) (·.now) (fun v x => sendSpp_now v _ x.type x.payload) l s

@[simp] theorem sendOthers_mem (u : Update) (type : Nat) (p : Bytes) (s : State) : (sendOthers u type p s).mem = s.mem := sendRed_mem u _ s

@[simp] theorem sendOthers_now (u : Update) (type : Nat) (p : Bytes) (s : State) : (sendOthers u type p s).now = s.now := sendRed_now u _ s

/-! ## A new attempt (R264) -/

/-- A message that joins leaves the update's number, its attempt and the instant from which it waits. -/
theorem takeRed_keeps (type : Nat) (b : Bytes) (u : Update) :
    (takeRed type b u).seq = u.seq ∧ (takeRed type b u).attempt = u.attempt ∧ (takeRed type b u).since = u.since := by
  unfold takeRed updBucket
  dsimp only
  split_ifs <;> exact ⟨rfl, rfl, rfl⟩

theorem foldl_takeRed_keeps (l : List Early) (u : Update) :
    let w := l.foldl (fun x e => takeRed e.type e.payload x) u
    w.seq = u.seq ∧ w.attempt = u.attempt ∧ w.since = u.since := by
  induction l generalizing u with
  | nil => exact ⟨rfl, rfl, rfl⟩
  | cons e r ih =>
    obtain ⟨hseq, hattempt, hsince⟩ := ih (takeRed e.type e.payload u)
    obtain ⟨kseq, kattempt, ksince⟩ := takeRed_keeps e.type e.payload u
    exact ⟨hseq.trans kseq, hattempt.trans kattempt, hsince.trans ksince⟩

/-- The beginning of an attempt sends messages and sets one update: that of the same number, in that attempt, which waits from now on. -/
theorem beginAttempt_sets (a : Nat) (u : Update) (s : State) :
    ∃ x w l, beginAttempt a u s = setUpd x (sendRed w l s) ∧ x.seq = u.seq ∧ x.attempt = a ∧ x.since = s.now :=
  ⟨_, _, _, rfl, foldl_takeRed_keeps _ _⟩

theorem findUpd_beginAttempt {a : Nat} {u w : Update} (h : findUpd s u.seq = some w) :
    (findUpd (beginAttempt a u s) u.seq).map (fun x => (x.attempt, x.since)) = some (a, s.now) := by
  obtain ⟨x, v, l, hset, hseq, rfl, hsince⟩ := beginAttempt_sets a u s
  have hfound : findUpd (sendRed v l s) x.seq = some w := by rw [findUpd_congr (sendRed_mem v l s), hseq, h]
  rw [hset, ← hseq, findUpd_setUpd hfound, ← hsince]
  rfl

/-- A repeat runs the update on from the beginning of its new attempt. -/
theorem repeatUpd_begins {a : Nat} {u w : Update} (h : findUpd s u.seq = some w) :
    ∃ v, repeatUpd a u s = advanceUpd attempts u.seq v ∧
      (findUpd v u.seq).map (fun x => (x.attempt, x.since)) = some (a, s.now) := by
  refine ⟨beginAttempt a u (bump Key.reduceRepeats s), rfl, ?_⟩
  rw [findUpd_beginAttempt (w := w) (by rw [findUpd_congr (bump_mem ..), h]), bump_now]

/-- What a formed and fitting REDUCE_REPEAT does to the update of its head and step. -/
theorem redDeliver_repeat {peer : Nat} {b : Bytes} {u : Update}
    (hu : s.mem.upds.find? (fun u => u.head == Red.head b && u.step == Red.step b) = some u)
    (hb : Red.formed Spp.reduceRepeat b = true) (hfit : redFits u peer Spp.reduceRepeat b = true) :
    redDeliver peer Spp.reduceRepeat b s =
      if Red.digest b ≠ u.digest then endMismatch u.seq (dropRedEarly u.head u.step s)
      else if Red.attempt b ≤ u.attempt then s
      else repeatUpd (Red.attempt b) u s := by
  unfold redDeliver
  rw [hb, hu]
  dsimp only
  rw [hfit]
  rcases Nat.lt_trichotomy (Red.attempt b) u.attempt with hlt | heq | hgt
  · simp [hlt, hlt.le]
  · simp [heq]
  · simp [hgt.not_gt, hgt.ne', hgt.not_ge]

/-- What a timeout does to an update that lacks a message: nothing before its time, then a repeat up to attempt 3, then a declared failure. -/
theorem exec_reduceTimeout {seq t bucket rank : Nat} {rest : List (Nat × Nat)} {u : Update} {h : Head} (hu : findUpd s seq = some u)
    (hh : findHead s u.head = some h) (hl : lacks u = (bucket, rank) :: rest) :
    exec (.reduceTimeout seq t) s =
      if max s.now t < u.since + settingUs s Key.stepTimeoutUs then .next (tick t s)
      else if u.attempt < 3 then
        .next (repeatUpd (u.attempt + 1) u (sendOthers { u with attempt := u.attempt + 1 } Spp.reduceRepeat
          (redMessage { u with attempt := u.attempt + 1 } false false 0 bucket 0 []) (tick t s)))
      else
        .next (declareFailed h (u.ring.getD ((rest.map (·.2)).foldl min rank) 0) 1 u.step (some (Up.ringId u.request, u.ring)) (tick t s)) := by
  change execReduceTimeout seq t s = _
  have hu' : findUpd (tick t s) seq = some u := hu
  have hh' : findHead (tick t s) u.head = some h := hh
  unfold execReduceTimeout
  dsimp only
  rw [hu']
  dsimp only
  rw [hh', hl]
  rfl

/-! ## The end of a command without its effect -/

/-- Failed members by group, the member declared failed last, and how many heads the module holds. -/
def failureView (s : State) : List (Nat × Nat) × Nat × Nat := (s.mem.failed, s.mem.lastFailed, s.mem.heads.length)

theorem dropStash_failureView (head : Nat) (gone : StashMb → Bool) (s : State) : failureView (dropStash head gone s) = failureView s := by
  unfold dropStash
  split
  · rfl
  · simp [failureView, updHead, length_mapIf]

theorem endMem_failureView (seq : Nat) (comp : Comp) (out : Bytes) (s : State) : failureView (endMem seq comp out s) = failureView s := by
  have hfinish : ∀ v : State, failureView (finish seq comp out (dropMem seq v)) = failureView v := fun v => by
    simp [failureView, dropMem]
  unfold endMem
  dsimp only
  split
  · exact (hfinish _).trans (dropStash_failureView _ _ s)
  · exact hfinish s

/-- A command that ends so is no update in flight any more. -/
theorem findUpd_endMem (seq : Nat) (comp : Comp) (out : Bytes) (s : State) : findUpd (endMem seq comp out s) seq = none := by
  unfold endMem
  rw [findUpd_congr (finish_mem ..)]
  simp [findUpd, dropMem]

theorem dropStash_ahp (head : Nat) (gone : StashMb → Bool) (s : State) : (dropStash head gone s).ahp = s.ahp := by
  unfold dropStash
  split <;> rfl

/-- A host's command that ends so has its completion ready. -/
theorem ready_endMem {seq : Nat} {comp : Comp} {out : Bytes} {c : Cmd} (h : findCmd s seq = some c) (hi : c.internal = false) :
    ready (endMem seq comp out s) seq = some comp := by
  unfold endMem
  dsimp only
  split
  · exact ready_finish ((findCmd_congr (dropStash_ahp _ _ s) seq).trans h) hi
  · exact ready_finish h hi

/-! ## Failed members (R264) -/

/-- The end of a group's commands leaves the record of failed members with the group in it, and the heads. -/
theorem failGroup_failureView (group module : Nat) (s : State) :
    failureView (failGroup group module s) =
      (if s.mem.failed.any (·.1 == group) then s.mem.failed else s.mem.failed ++ [(group, module)], s.mem.lastFailed, s.mem.heads.length) := by
  unfold failGroup
  refine (foldl_same failureView (fun v q => endMem_failureView q _ _ v) _ _).trans ?_
  split <;> rfl

theorem failGroup_failed (group module : Nat) (s : State) : (failGroup group module s).mem.failed.any (·.1 == group) = true := by
  have e : (failGroup group module s).mem.failed = _ := congrArg (·.1) (failGroup_failureView group module s)
  rw [e]
  dsimp only
  split
  · assumption
  · simp

theorem failGroup_lastFailed (group module : Nat) (s : State) : (failGroup group module s).mem.lastFailed = s.mem.lastFailed :=
  congrArg (·.2.1) (failGroup_failureView group module s)

theorem failGroup_heads_length (group module : Nat) (s : State) : (failGroup group module s).mem.heads.length = s.mem.heads.length :=
  congrArg (·.2.2) (failGroup_failureView group module s)

/-- A member that this module declares failed is recorded, and its group is unavailable. -/
theorem declareFailed_spec (h : Head) (module cause step : Nat) (ring : Option (Nat × List Nat)) (s : State) :
    (declareFailed h module cause step ring s).mem.lastFailed = module ∧
      (declareFailed h module cause step ring s).mem.failed.any (·.1 == Hd.group h.desc) = true :=
  ⟨failGroup_lastFailed .., failGroup_failed ..⟩

/-! ## The four commands -/

/-- R264 R260: a repeat message of a later attempt begins that attempt, one of an attempt that is here changes nothing, and one with another digest
ends the update. -/
theorem exec_reduceRepeat_cases (peer t : Nat) (b : Bytes) (u : Update)
    (hu : s.mem.upds.find? (fun u => u.head == Red.head b && u.step == Red.step b) = some u) (hseq : findUpd s u.seq = some u)
    (hb : Red.formed Spp.reduceRepeat b = true) (hfit : redFits u peer Spp.reduceRepeat b = true) :
    (Red.digest b = u.digest → u.attempt < Red.attempt b →
      ∃ v, exec (.reduceRepeat peer b t) s = .next (advanceUpd attempts u.seq v) ∧
        (findUpd v u.seq).map (fun w => (w.attempt, w.since)) = some (Red.attempt b, max s.now t)) ∧
    (Red.digest b = u.digest → Red.attempt b ≤ u.attempt → exec (.reduceRepeat peer b t) s = .next (tick t s)) ∧
    (∀ c, Red.digest b ≠ u.digest → findCmd s u.seq = some c → c.internal = false →
      ∃ v, exec (.reduceRepeat peer b t) s = .next v ∧ findUpd v u.seq = none ∧ ready v u.seq = some { status := Status.groupMismatch }) := by
  have hexec : exec (.reduceRepeat peer b t) s = .next (redDeliver peer Spp.reduceRepeat b (tick t s)) := rfl
  rw [hexec, redDeliver_repeat (s := tick t s) hu hb hfit]
  refine ⟨fun hd hlt => ?_, fun hd hle => ?_, fun c hd hc hi => ?_⟩
  · obtain ⟨v, hrun, hv⟩ := repeatUpd_begins (s := tick t s) (a := Red.attempt b) hseq
    exact ⟨v, by rw [if_neg (not_not.2 hd), if_neg (Nat.not_le.2 hlt), hrun], hv⟩
  · rw [if_neg (not_not.2 hd), if_pos hle]
  · have hc' : findCmd (bump Key.groupMismatches (dropRedEarly u.head u.step (tick t s))) u.seq = some c :=
      (findCmd_congr (by simp) u.seq).trans hc
    exact ⟨endMismatch u.seq (dropRedEarly u.head u.step (tick t s)), by rw [if_pos hd], findUpd_endMem .., ready_endMem hc' hi⟩

/-- R264: the three outcomes of a timeout. -/
theorem exec_reduceTimeout_cases (seq t bucket rank : Nat) (rest : List (Nat × Nat)) (u : Update) (h : Head) (hu : findUpd s seq = some u)
    (hh : findHead s u.head = some h) (hl : lacks u = (bucket, rank) :: rest) :
    (max s.now t < u.since + settingUs s Key.stepTimeoutUs → exec (.reduceTimeout seq t) s = .next (tick t s)) ∧
    (u.since + settingUs s Key.stepTimeoutUs ≤ max s.now t → u.attempt < 3 → ∃ v, exec (.reduceTimeout seq t) s = .next (advanceUpd attempts seq v) ∧
      (findUpd v seq).map (fun w => (w.attempt, w.since)) = some (u.attempt + 1, max s.now t)) ∧
    (u.since + settingUs s Key.stepTimeoutUs ≤ max s.now t → 3 ≤ u.attempt → ∃ v, exec (.reduceTimeout seq t) s = .next v ∧
      v.mem.lastFailed = u.ring.getD ((rest.map (·.2)).foldl min rank) 0 ∧ v.mem.failed.any (·.1 == Hd.group h.desc) = true) := by
  rw [exec_reduceTimeout hu hh hl]
  refine ⟨fun hearly => if_pos hearly, fun hdue hlow => ?_, fun hdue hlast => ?_⟩
  · rw [if_neg (Nat.not_lt.2 hdue), if_pos hlow]
    obtain rfl := findUpd_seq hu
    obtain ⟨v, hrun, hv⟩ := repeatUpd_begins (a := u.attempt + 1) ((findUpd_congr (sendOthers_mem _ _ _ (tick t s)) u.seq).trans hu)
    exact ⟨v, congrArg _ hrun, by rw [hv, sendOthers_now, tick_now]⟩
  · rw [if_neg (Nat.not_lt.2 hdue), if_neg (Nat.not_lt.2 hlast)]
    exact ⟨_, rfl, declareFailed_spec ..⟩

/-- R260 R264: a notice of a failed member makes its group unavailable; one that names no group changes nothing, and one out of form is dropped. -/
theorem exec_memberFailed_cases (peer t : Nat) (b : Bytes) (s : State) :
    (noticeFormed [1, 2, 3] 1 b = true → u16At b 16 ≠ 0xFFFF →
      ∃ u, exec (.memberFailed peer b t) s = .next u ∧ u.mem.failed.any (·.1 == u16At b 16) = true ∧ u.mem.heads.length = s.mem.heads.length) ∧
    (noticeFormed [1, 2, 3] 1 b = true → u16At b 16 = 0xFFFF → exec (.memberFailed peer b t) s = .next (tick t s)) ∧
    (noticeFormed [1, 2, 3] 1 b = false → exec (.memberFailed peer b t) s = .next (malformed (tick t s))) := by
  rw [show exec (.memberFailed peer b t) s = execMemberFailed peer b t s from rfl]
  unfold execMemberFailed
  refine ⟨fun hb hg => ?_, fun hb hg => ?_, fun hb => if_pos hb⟩
  · exact ⟨failGroup (u16At b 16) (u16At b 0) (tick t s), by simp [hb, hg], failGroup_failed .., failGroup_heads_length ..⟩
  · simp [hb, hg]

/-- R260 R265: a notice of a degraded member notes its group and leaves the failed ones and the collections; one out of form is dropped. -/
theorem exec_memberDegraded_cases (peer : Nat) (b : Bytes) (s : State) :
    (noticeFormed [4, 5] 12 b = true → u16At b 16 ≠ 0xFFFF →
      ∃ u, exec (.memberDegraded peer b) s = .next u ∧ u.mem.degraded.contains (u16At b 16) = true ∧ u.mem.failed = s.mem.failed ∧ u.search = s.search) ∧
    (noticeFormed [4, 5] 12 b = false → exec (.memberDegraded peer b) s = .next (malformed s)) := by
  rw [show exec (.memberDegraded peer b) s = execMemberDegraded peer b s from rfl]
  unfold execMemberDegraded
  refine ⟨fun hb hg => ?_, fun hb => if_pos hb⟩
  rw [if_neg (by simp [hb])]
  refine ⟨_, rfl, ?_⟩
  by_cases hin : s.mem.degraded.contains (u16At b 16) = true
  · rw [if_pos (.inr hin)]
    exact ⟨hin, rfl, rfl⟩
  · rw [if_neg (not_or.2 ⟨hg, hin⟩)]
    exact ⟨List.contains_iff_mem.2 (mem_insertBy.2 (.inl rfl)), rfl, rfl⟩

/-- Settles O50: a new attempt is `beginAttempt`, whose update is found again by its number; a failure goes through `failGroup`, which ends commands and
leaves the record of failed members. -/
theorem reductionsRepeatAndFail : Obligations.ReductionsRepeatAndFail :=
  ⟨fun peer t b u _ hu hseq hb hfit => exec_reduceRepeat_cases peer t b u hu hseq hb hfit,
    fun seq t bucket rank rest u h _ hu hh hl => exec_reduceTimeout_cases seq t bucket rank rest u h hu hh hl,
    fun peer t b s =>
      have ⟨hfails, hnoGroup, hmalformed⟩ := exec_memberFailed_cases peer t b s
      have ⟨hdegraded, hdropped⟩ := exec_memberDegraded_cases peer b s
      ⟨hfails, hnoGroup, hmalformed, hdegraded, hdropped⟩⟩

end Sys2Proof.Reductions
end

section
/-! SUPPORT. Idleness and the power states (02 R28; 18 R419 to R423): what ends each entry into P2 and P3, what an abandoned entry leaves, what a
wake does from each state, and which clusters are gated. -/

namespace Sys2Proof.PowerStates

open Machine Laws

variable {s : State}

/-! ## An abandoned entry (R422) -/

theorem wf_logEvent {code severity unit : Nat} {detail : Bytes} (hw : Table.wf (fun _ => 0) s.counters = true) :
    Table.wf (fun _ => 0) (logEvent code severity unit detail s).counters = true := by
  unfold logEvent
  split
  · exact hw
  · exact wf_bump hw

/-- The module is in P0 again, without an entry; what an entry into P3 had spent in P2 does not count for the patrols. -/
theorem abandonEntry_power (target start : Nat) (s : State) :
    (abandonEntry target start s).power =
      { s.power with
        state := .p0, entry := none, idleSince := s.now
        suspended := if target = 3 then s.power.suspended + (s.now - s.power.p2Since) else s.power.suspended } := by
  unfold abandonEntry
  by_cases h3 : target = 3
  · by_cases hrec : start + 500000 ≤ s.now <;> simp [h3, endP2, hrec]
  · simp [h3]

/-- What the entry counter is raised from: a state whose counter of abandoned entries is that of `s`, written record or not. -/
theorem abandonEntry_bumps (target start : Nat) (hw : Table.wf (fun _ => 0) s.counters = true) :
    ∃ v, abandonEntry target start s = bump Key.entriesAbandoned v ∧ Table.wf (fun _ => 0) v.counters = true ∧
      counter v Key.entriesAbandoned = counter s Key.entriesAbandoned := by
  have hended : (if target = 3 then endP2 s else s).counters = s.counters := by split <;> rfl
  refine ⟨_, rfl, ?_⟩
  dsimp only
  generalize (if target = 3 then endP2 s else s) = v at hended
  split
  · exact ⟨wf_logEvent (hended.symm ▸ hw), (counter_logEvent (hended.symm ▸ hw) (by decide)).trans (counter_congr hended _)⟩
  · exact ⟨hended.symm ▸ hw, counter_congr hended _⟩

/-- The entry counts as abandoned. -/
theorem counter_abandonEntry (target start : Nat) (hw : Table.wf (fun _ => 0) s.counters = true)
    (hlt : counter s Key.entriesAbandoned + 1 < 2 ^ 64) :
    counter (abandonEntry target start s) Key.entriesAbandoned = counter s Key.entriesAbandoned + 1 := by
  obtain ⟨v, hv, hvw, hvc⟩ := abandonEntry_bumps target start hw
  rw [hv, counter_bump hvw (hvc.symm ▸ hlt), hvc]

/-- What R422 asks of an entry that is undone: P0, no entry, and one more of ENTRIES_ABANDONED. -/
theorem abandonEntry_spec (target start : Nat) (hw : Table.wf (fun _ => 0) s.counters = true)
    (hlt : counter s Key.entriesAbandoned + 1 < 2 ^ 64) :
    (abandonEntry target start s).power.state = .p0 ∧ (abandonEntry target start s).power.entry = none ∧
      counter (abandonEntry target start s) Key.entriesAbandoned = counter s Key.entriesAbandoned + 1 := by
  rw [abandonEntry_power]
  exact ⟨rfl, rfl, counter_abandonEntry target start hw hlt⟩

/-! ## The two phases of an entry (R421) -/

/-- The second coming of P2_ENTRY: P2 where the idleness has held, and an abandoned entry where it has not. -/
theorem exec_p2Entry_due {t start : Nat} (hentry : s.power.entry = some (2, start)) (hdue : start + 80000 ≤ max s.now t) :
    exec (.p2Entry t) s = .next (if stillIdle start (tick t s) then
        bump Key.p2Entries { tick t s with power := { s.power with state := .p2, entry := none, p2Since := max s.now t } }
      else abandonEntry 2 start (tick t s)) := by
  change execP2Entry t s = _
  unfold execP2Entry
  simp only [tick_power, hentry]
  exact if_pos ⟨trivial, hdue⟩

/-- The first coming of P2_ENTRY: the entry starts, and the module is in P0 still. -/
theorem exec_p2Entry_begins {t : Nat} (hentry : s.power.entry = none) (hstate : s.power.state = .p0) (hidle : mayDeepen (tick t s) = true)
    (hdeepest : 2 ≤ settingNat s Key.deepestState) (hlong : idleStart s + settingNat s Key.p2IdleMs * 1000000 ≤ max s.now t) :
    exec (.p2Entry t) s = .next { tick t s with power := { s.power with entry := some (2, max s.now t) } } := by
  change execP2Entry t s = _
  unfold execP2Entry
  simp only [tick_power, hentry]
  exact if_pos ⟨hstate, hidle, hdeepest, hlong⟩

/-- The second coming of P3_ENTRY: the last step into P3 where the idleness has held, and an abandoned entry where it has not. -/
theorem exec_p3Entry_due {t start : Nat} (hentry : s.power.entry = some (3, start)) (hdue : start + 3000000 ≤ max s.now t) :
    exec (.p3Entry t) s = .next (if stillIdle start (tick t s) then enterP3 (tick t s) else abandonEntry 3 start (tick t s)) := by
  change execP3Entry t s = _
  unfold execP3Entry
  simp only [tick_power, hentry]
  exact if_pos ⟨trivial, hdue⟩

/-- The first coming of P3_ENTRY: the entry starts, and the module is in P2 still. -/
theorem exec_p3Entry_begins {t : Nat} (hentry : s.power.entry = none) (hstate : s.power.state = .p2) (hidle : mayDeepen (tick t s) = true)
    (hdeepest : settingNat s Key.deepestState = 3) (hlong : s.power.p2Since + settingNat s Key.p3IdleS * 1000000000 ≤ max s.now t) :
    exec (.p3Entry t) s = .next { tick t s with power := { s.power with entry := some (3, max s.now t) } } := by
  change execP3Entry t s = _
  unfold execP3Entry
  simp only [tick_power, hentry]
  exact if_pos ⟨hstate, hidle, hdeepest, hlong⟩

/-- R274 R421: the last step into P3 stops every port but port 0 and loses the lines of the cache banks. -/
theorem enterP3_spec (s : State) :
    (enterP3 s).power.state = .p3 ∧ (enterP3 s).power.entry = none ∧ (∀ x ∈ (enterP3 s).net.subs, x.port ≠ 0 → x.up = false) ∧
      (enterP3 s).hbm.cache = [] := by
  unfold enterP3
  dsimp only
  simp only [bump_power, bump_net, bump_hbm, loseCache_power, loseCache_net]
  refine ⟨trivial, trivial, fun x hx hport => ?_, rfl⟩
  obtain ⟨y, -, rfl⟩ := List.mem_map.1 hx
  split_ifs at hport ⊢ with hup
  · rfl
  · simpa [hport] using hup

/-- R422: an entry that has not reached its last step is undone when work comes. -/
theorem exec_entryAbandon_early {t k start : Nat} (hentry : s.power.entry = some (k, start)) (hearly : max s.now t < start + lastStepAt k) :
    exec (.entryAbandon t) s = .next (abandonEntry k start (tick t s)) := by
  change execEntryAbandon t s = _
  unfold execEntryAbandon
  simp only [tick_power, hentry]
  exact congrArg _ (if_neg (Nat.not_le.2 hearly))

/-! ## Waking (R28, R420, R422, R423) -/

theorem exec_wake_p2 {t : Nat} (hstate : s.power.state = .p2) (hentry : s.power.entry = none) :
    exec (.wake t) s = .next { endP2 (tick t s) with power := { (endP2 (tick t s)).power with state := .p0, idleSince := max s.now t } } := by
  change execWake t s = _
  simp [execWake, hstate, hentry, endP2, tick]

theorem exec_wake_p3 {t : Nat} (hstate : s.power.state = .p3) :
    exec (.wake t) s = .next { endP2 (restartTime t s) with
      power := { (endP2 (restartTime t s)).power with state := .p0, idleSince := max s.now (t / 10 * 10) } } := by
  change execWake t s = _
  simp [execWake, hstate, endP2, restartTime]

/-! ## Gated clusters (R419) -/

/-- A cluster without work is gated, and every other cluster is as it was. -/
theorem exec_clusterClockGate {cluster : Nat} (hunit : cluster < 32) (s : State) :
    ∃ u, exec (.clusterClockGate cluster) s = .next u ∧ ∀ k, u.power.gated.contains k = true ↔ k = cluster ∨ s.power.gated.contains k = true := by
  refine ⟨_, rfl, fun k => ?_⟩
  by_cases hin : s.power.gated.contains cluster = true
  · rw [if_pos (.inl hin)]
    exact ⟨.inr, fun h => h.elim (fun e => e ▸ hin) id⟩
  · rw [if_neg (not_or.2 ⟨hin, Nat.not_le.2 hunit⟩)]
    simp only [List.contains_iff_mem, mem_insertBy]

/-! ## The claim -/

/-- Settles O58: each phase of an entry is one equation, an abandoned entry goes through `abandonEntry_spec`, and a wake's time is counted by `endP2`. -/
theorem powerStatesFollowTheWork : Obligations.PowerStatesFollowTheWork := by
  refine ⟨?reachP2, ?beginP2, ?reachP3, ?turnBack, ?beginP3, ?abandon, ?wakes, ?gates⟩
  case reachP2 =>
    intro t start s hentry hdue hidle hw hlt
    refine ⟨_, (exec_p2Entry_due hentry hdue).trans (by rw [if_pos hidle]), ?_⟩
    simp only [bump_power]
    exact ⟨trivial, trivial, trivial, counter_bump_from (s := s) rfl hw hlt⟩
  case beginP2 =>
    exact fun t s hentry hstate hidle hdeepest hlong => ⟨_, exec_p2Entry_begins hentry hstate hidle hdeepest hlong, rfl, hstate⟩
  case reachP3 =>
    exact fun t start s hentry hdue hidle => ⟨_, (exec_p3Entry_due hentry hdue).trans (by rw [if_pos hidle]), enterP3_spec _⟩
  case turnBack =>
    intro t start s hidle hw hlt
    refine ⟨fun hentry hdue => ⟨_, (exec_p2Entry_due hentry hdue).trans (by rw [hidle]; rfl), abandonEntry_spec (s := tick t s) 2 start hw hlt⟩,
      fun hentry hdue => ?_⟩
    obtain ⟨hstate, hgone, hcount⟩ := abandonEntry_spec (s := tick t s) 3 start hw hlt
    exact ⟨_, (exec_p3Entry_due hentry hdue).trans (by rw [hidle]; rfl), hstate, hgone, by rw [abandonEntry_power]; rfl, hcount⟩
  case beginP3 =>
    exact fun t s hentry hstate hidle hdeepest hlong => ⟨_, exec_p3Entry_begins hentry hstate hidle hdeepest hlong, rfl, hstate⟩
  case abandon =>
    exact fun t k start s hentry hearly hw hlt => ⟨_, exec_entryAbandon_early hentry hearly, abandonEntry_spec (s := tick t s) k start hw hlt⟩
  case wakes =>
    exact fun t s => ⟨fun hstate hentry => ⟨_, exec_wake_p2 hstate hentry, rfl, rfl, rfl, rfl⟩,
      fun hstate => ⟨_, exec_wake_p3 hstate, rfl, rfl, rfl, rfl, rfl⟩⟩
  case gates =>
    intro cluster s hunit
    obtain ⟨u, hrun, hgated⟩ := exec_clusterClockGate hunit s
    exact ⟨u, hrun, (hgated cluster).2 (.inl rfl), fun k hk => Bool.eq_iff_iff.2 ((hgated k).trans (or_iff_right hk))⟩

end Sys2Proof.PowerStates
end

section
/-! SUPPORT. Roles and plans (02 R39; 15 R358; 17 R410 to R412): what a role request does, which of its outcomes a LOAD_PLAN has, and what the admission
of an UNLOAD_PLAN leaves. -/

namespace Sys2Proof.RolesAndPlans

open Machine Laws

variable {s : State}

/-! ## The end of a command that changes no plan -/

@[simp] theorem finish_plans (seq : Nat) (comp : Comp) (output : Bytes) (s : State) : (finish seq comp output s).ahp.plans = s.ahp.plans := by
  have hemit : ∀ o, (if output.isEmpty then s else emit o s).ahp.plans = s.ahp.plans := fun o => by split <;> simp
  unfold finish
  split
  · rfl
  · dsimp only
    split
    · exact hemit _
    · exact hemit _

/-- An admitted command of a host that ends leaves the plans, and its completion is ready. -/
theorem admitted_finish {seq op : Nat} {c : Cmd} {comp : Comp} {output : Bytes} (hc : admittedCmd s seq op = some c) (hhost : c.internal = false) :
    (finish seq comp output s).ahp.plans = s.ahp.plans ∧ ready (finish seq comp output s) seq = some comp :=
  ⟨finish_plans .., ready_finish (admittedCmd_findCmd hc) hhost⟩

theorem not_wrongTransfer {c : Cmd} {b : Bytes} (hlen : b.length = c.entry.inLen) : wrongTransfer c b = false := by
  simp [wrongTransfer, hlen]

/-! ## Deletions of what a role owns leave a host's command in its place (R410) -/

/-- The command of this number is there, and a host sent it. -/
def HostCmd (seq : Nat) (s : State) : Prop := ∃ c, findCmd s seq = some c ∧ c.internal = false

theorem HostCmd.congr {seq : Nat} {u : State} (h : HostCmd seq s) (hu : u.ahp = s.ahp) : HostCmd seq u := by
  obtain ⟨c, hc, hhost⟩ := h
  exact ⟨c, (findCmd_congr hu seq).trans hc, hhost⟩

theorem HostCmd.ready_finish {seq : Nat} {comp : Comp} {output : Bytes} (h : HostCmd seq s) : ready (finish seq comp output s) seq = some comp := by
  obtain ⟨c, hc, hhost⟩ := h
  exact Laws.ready_finish hc hhost

/-- The end of any command leaves it there: done where it is the one that ends, as it was where it is another. -/
theorem HostCmd.finish {seq q : Nat} {comp : Comp} {output : Bytes} (h : HostCmd seq s) : HostCmd seq (finish q comp output s) := by
  obtain ⟨c, hc, hhost⟩ := h
  by_cases hq : seq = q
  · subst hq
    exact ⟨_, findCmd_finish hc hhost, hhost⟩
  · exact ⟨c, (findCmd_finish_ne hq).trans hc, hhost⟩

theorem HostCmd.foldl {α : Type} {seq : Nat} {f : State → α → State} (hf : ∀ u x, HostCmd seq u → HostCmd seq (f u x)) (l : List α)
    (h : HostCmd seq s) : HostCmd seq (l.foldl f s) := by
  induction l generalizing s with
  | nil => exact h
  | cons x r ih => exact ih (hf s x h)

theorem HostCmd.abandonJob {seq : Nat} (k : Coll) (h : HostCmd seq s) : HostCmd seq (abandonJob k s) :=
  HostCmd.foldl (fun u d (hu : HostCmd seq u) => (hu.congr (u := stopJob d.seq u) rfl).finish) _ h

theorem HostCmd.beginDeleteColl {seq : Nat} (id : Nat) (del : Option Nat) (h : HostCmd seq s) : HostCmd seq (beginDeleteColl id del s) := by
  unfold Machine.beginDeleteColl
  split
  · exact h
  · exact (h.abandonJob _).congr rfl

theorem HostCmd.deleteOwned {seq : Nat} (role : Nat) (h : HostCmd seq s) : HostCmd seq (deleteOwned role s) :=
  HostCmd.foldl (fun v i (hv : HostCmd seq v) => hv.congr (u := beginDeleteHead i none v) rfl) _
    (HostCmd.foldl (fun _ i hv => hv.beginDeleteColl i none) _ h)

theorem HostCmd.applyRole {seq : Nat} (b : Bytes) (h : HostCmd seq s) : HostCmd seq (applyRole b s) := by
  unfold Machine.applyRole
  dsimp only
  split
  · exact (h.deleteOwned _).congr rfl
  · exact h.congr rfl

/-! ## ROLE_MANAGE (R410 to R412) -/

theorem exec_roleManage_accepted {seq : Nat} {b : Bytes} {c : Cmd} (hc : admittedCmd s seq 0x06 = some c) (hlen : b.length = c.entry.inLen)
    (hpass : roleRequestFail s true b = none) :
    exec (.roleManage seq b) s = .next (succeed seq 0 (roleReply s (applyRole b s) b c.entry.outLen) (applyRole b s)) := by
  change execRoleManage seq b s = _
  simp [execRoleManage, hc, not_wrongTransfer hlen, hpass]

theorem exec_roleManage_refused {seq st off : Nat} {b : Bytes} {c : Cmd} (hc : admittedCmd s seq 0x06 = some c) (hlen : b.length = c.entry.inLen)
    (hfail : roleRequestFail s true b = some (st, off)) :
    exec (.roleManage seq b) s = .next (if st = Status.invalidField then failPayload seq off s else fail seq st s) := by
  change execRoleManage seq b s = _
  simp [execRoleManage, hc, not_wrongTransfer hlen, hfail]

/-- A request that passes takes effect on the roles, and completes with SUCCESS. -/
theorem roleManage_accepted_spec {seq : Nat} {b : Bytes} {c : Cmd} (hc : admittedCmd s seq 0x06 = some c) (hhost : c.internal = false)
    (hlen : b.length = c.entry.inLen) (hpass : roleRequestFail s true b = none) :
    ∃ u, exec (.roleManage seq b) s = .next u ∧ u.sec.roles = rolesAfter s b ∧
      (ready u seq).map (fun x => (x.status, x.info)) = some (Status.success, 0) := by
  have hthere : HostCmd seq (applyRole b s) := HostCmd.applyRole b ⟨c, admittedCmd_findCmd hc, hhost⟩
  refine ⟨_, exec_roleManage_accepted hc hlen hpass, by rw [succeed_sec]; rfl, ?_⟩
  unfold succeed
  rw [hthere.ready_finish]
  rfl

/-- A request that fails completes with the status of its check, and changes no role and no collection. -/
theorem roleManage_refused_spec {seq st off : Nat} {b : Bytes} {c : Cmd} (hc : admittedCmd s seq 0x06 = some c) (hhost : c.internal = false)
    (hlen : b.length = c.entry.inLen) (hfail : roleRequestFail s true b = some (st, off)) :
    ∃ u, exec (.roleManage seq b) s = .next u ∧ u.sec = s.sec ∧ u.search = s.search ∧ (ready u seq).map (·.status) = some st := by
  refine ⟨_, exec_roleManage_refused hc hlen hfail, ?_⟩
  split
  case isTrue hfield =>
    exact ⟨failPayload_sec .., failPayload_search .., by unfold failPayload; rw [(admitted_finish hc hhost).2, hfield]; rfl⟩
  case isFalse =>
    exact ⟨fail_sec .., fail_search .., by unfold fail; rw [(admitted_finish hc hhost).2]; rfl⟩

/-! ## LOAD_PLAN (R39, R358) -/

theorem exec_loadPlan {seq : Nat} {b : Bytes} {c : Cmd} (hc : admittedCmd s seq 0x10 = some c) (hlen : b.length = c.entry.inLen) :
    exec (.loadPlan seq b CodeChecks.match_) s = .next (loadPlan seq c b s) := by
  change execLoadPlan seq b CodeChecks.match_ s = _
  simp [execLoadPlan, hc, not_wrongTransfer hlen, CodeChecks.match_, retried]

section
variable {seq : Nat} {b : Bytes} {c : Cmd}

theorem loadPlan_invalid {o : Nat} (hfail : planFailAt b = some o) : loadPlan seq c b s = failPlan seq o s := by
  simp [loadPlan, hfail]

theorem loadPlan_hidden (hvalid : planFailAt b = none) (hhidden : targetVisible s c (planKind b == 2, c.entry.target) = false) :
    loadPlan seq c b s = fail seq (if planKind b = 2 then Status.headNotFound else Status.collectionNotFound) s := by
  simp [loadPlan, hvalid, hhidden]

theorem loadPlan_unbound {o : Nat} (hvalid : planFailAt b = none) (hseen : targetVisible s c (planKind b == 2, c.entry.target) = true)
    (hfail : checkBinding s (planKind b) c.entry.target b (freeHbm s / 1048576) = some o) : loadPlan seq c b s = failPlan seq o s := by
  simp [loadPlan, hvalid, hseen, hfail]

/-- A plan that is bound is loaded, where it replaces one of its name or MAX_PLANS leaves a place. -/
theorem loadPlan_bound (hvalid : planFailAt b = none) (hseen : targetVisible s c (planKind b == 2, c.entry.target) = true)
    (hbound : checkBinding s (planKind b) c.entry.target b (freeHbm s / 1048576) = none) :
    loadPlan seq c b s =
      if settingNat s Key.maxPlans ≤ s.ahp.plans.length ∧ s.ahp.plans.any (samePlan (planKind b) c.entry.target (planIdOf b)) = false then
        fail seq Status.capacityExceeded s
      else succeed seq (planIdOf b) [] (putPlan c.entry.target b s) := by
  simp [loadPlan, hvalid, hseen, hbound]

/-- A LOAD_PLAN that only ends leaves the plans, and completes with what it ends with. -/
theorem exec_loadPlan_ends {comp : Comp} (hc : admittedCmd s seq 0x10 = some c) (hhost : c.internal = false) (hlen : b.length = c.entry.inLen)
    (hends : loadPlan seq c b s = finish seq comp [] s) :
    ∃ u, exec (.loadPlan seq b CodeChecks.match_) s = .next u ∧ u.ahp.plans = s.ahp.plans ∧ ready u seq = some comp :=
  ⟨_, (exec_loadPlan hc hlen).trans (congrArg _ hends), admitted_finish hc hhost⟩

end

/-- The plan that a LOAD_PLAN makes of its input. -/
def planOf (target : Nat) (b : Bytes) : Plan :=
  { kind := planKind b, target := target, planId := planIdOf b, bytes := b, bound := true, tiles := (constantsOf b).2 }

theorem putPlan_ahp (target : Nat) (b : Bytes) (s : State) :
    (putPlan target b s).ahp = { s.ahp with
      plans := s.ahp.plans.filter (fun q => !samePlan (planKind b) target (planIdOf b) q) ++ [planOf target b] } := rfl

/-- A plan has its own name. -/
theorem samePlan_planOf (target : Nat) (b : Bytes) : samePlan (planKind b) target (planIdOf b) (planOf target b) = true := by
  simp [samePlan, planOf]

/-- The new plan is the only one of its name. -/
theorem putPlan_sole (target : Nat) (b : Bytes) (s : State) :
    (putPlan target b s).ahp.plans.filter (samePlan (planKind b) target (planIdOf b)) = [planOf target b] := by
  simp [putPlan_ahp, List.filter_append, List.filter_filter, samePlan_planOf]

/-- A plan that passes and has a place is loaded, and completes with its PLAN_ID. -/
theorem loadPlan_loads {seq : Nat} {b : Bytes} {c : Cmd} (hc : admittedCmd s seq 0x10 = some c) (hhost : c.internal = false) (target : Nat) :
    ∃ p, (succeed seq (planIdOf b) [] (putPlan target b s)).ahp.plans.filter (samePlan (planKind b) target (planIdOf b)) = [p] ∧
      p.bytes = b ∧ p.bound = true ∧
      ready (succeed seq (planIdOf b) [] (putPlan target b s)) seq = some { status := Status.success, info := planIdOf b } := by
  have hthere : findCmd (putPlan target b s) seq = some c := admittedCmd_findCmd hc
  exact ⟨planOf target b, by unfold succeed; rw [finish_plans, putPlan_sole], rfl, rfl, ready_finish hthere hhost⟩

/-! ## UNLOAD_PLAN (R358) -/

theorem beginUnload_ahp (c : Cmd) (s : State) :
    (beginUnload c s).ahp = { s.ahp with
      plans := s.ahp.plans.filter fun p => !samePlan (if bit c.entry.arg2 0 then 2 else 1) c.entry.target c.entry.arg0 p } := by
  have hunpin : ∀ (l : List Plan) (v : State), (l.foldl (fun u p => unpin p u) v).ahp = v.ahp := foldl_same (·.ahp) fun _ _ => rfl
  unfold beginUnload
  dsimp only
  split
  · exact (Reductions.dropStash_ahp ..).trans (hunpin ..)
  · exact hunpin ..

/-- The plans of the name that a command gives are gone, and the command notes whether there were any. -/
theorem atAdmission_unload {c : Cmd} (hc : findCmd s c.seq = some c) (hop : c.entry.opcode = 0x11) :
    let mine := samePlan (if bit c.entry.arg2 0 then 2 else 1) c.entry.target c.entry.arg0
    (atAdmission c s).ahp.plans = s.ahp.plans.filter (fun p => !mine p) ∧
      findCmd (atAdmission c s) c.seq = some { c with report := if s.ahp.plans.any mine then [1] else c.report } := by
  intro mine
  have hrun : atAdmission c s = if s.ahp.plans.any mine then updCmd c.seq (fun d => { d with report := [1] }) (beginUnload c s) else s := by
    unfold atAdmission
    rw [hop]
    rfl
  rw [hrun]
  by_cases hany : s.ahp.plans.any mine = true
  · rw [if_pos hany, if_pos hany]
    have hleft : findCmd (beginUnload c s) c.seq = some c := by
      unfold findCmd
      rw [beginUnload_ahp]
      exact hc
    exact ⟨congrArg Ahp.plans (beginUnload_ahp c s), findCmd_upd (f := fun d => { d with report := [1] }) (fun _ => rfl) hleft⟩
  · rw [if_neg hany, if_neg hany]
    refine ⟨(List.filter_eq_self.2 fun p hp => ?_).symm, hc⟩
    simpa using (List.any_eq_false.1 (Bool.eq_false_iff.2 hany)) p hp

/-- A command whose opcode names no plan, on a target that it can name, is admitted as it is: the plans are left, and so are its entry and its report. -/
theorem admitNow_without_plan {c : Cmd} (hc : findCmd s c.seq = some c) (htarget : targetFail s c = none) (hplan : planKindOf c.entry.opcode = none)
    (hlayer : memoryLayer c.entry.opcode = false) :
    ∃ d, findCmd (admitNow c s) c.seq = some d ∧ d.seq = c.seq ∧ d.phase = .admitted ∧ d.entry = c.entry ∧ d.report = c.report ∧
      (admitNow c s).ahp.plans = s.ahp.plans := by
  unfold admitNow
  have hnone : planFail s c = none := by simp [planFail, hplan]
  simp only [htarget, hnone, hlayer, Bool.false_and, Bool.false_eq_true, if_false]
  exact ⟨_, findCmd_upd (fun _ => rfl) hc, rfl, rfl, rfl, rfl, rfl⟩

theorem exec_commandAdmit_ended {seq : Nat} {c : Cmd} (hc : findCmd s seq = some c) (hphase : c.phase = .dispatched) (hended : holdEnded s c = true)
    (hopen : s.ahp.admissionOpen = true) : exec (.commandAdmit seq) s = .next (endHold c s) := by
  change execCommandAdmit seq s = _
  simp [execCommandAdmit, hc, hphase, hended, hopen]

/-- A command that is admitted has what its opcode does at once. -/
theorem endHold_admitted {c d : Cmd} (hd : findCmd (admitNow c s) c.seq = some d) (hphase : d.phase = .admitted) (hentry : d.entry = c.entry) :
    endHold c s = atAdmission d (admitNow c s) := by
  have hadmitted : admittedCmd (admitNow c s) c.seq c.entry.opcode = some d := by simp [admittedCmd, hd, hphase, hentry]
  unfold endHold
  dsimp only
  rw [hadmitted]

/-- R358: the admission of an UNLOAD_PLAN leaves no plan of the name. -/
theorem commandAdmit_unload_spec {seq : Nat} {c : Cmd} (hc : findCmd s seq = some c) (hphase : c.phase = .dispatched) (hended : holdEnded s c = true)
    (hopen : s.ahp.admissionOpen = true) (hop : c.entry.opcode = 0x11) (htarget : targetFail s c = none) :
    let mine := samePlan (if bit c.entry.arg2 0 then 2 else 1) c.entry.target c.entry.arg0
    ∃ u d, exec (.commandAdmit seq) s = .next u ∧ findCmd u seq = some d ∧ d.phase = .admitted ∧ u.ahp.plans = s.ahp.plans.filter (fun p => !mine p) ∧
      d.report = if s.ahp.plans.any mine then [1] else c.report := by
  intro mine
  obtain rfl := findCmd_seq hc
  obtain ⟨d, hd, hseq, hadmitted, hentry, hreport, hplans⟩ := admitNow_without_plan hc htarget (by rw [hop]; decide) (by rw [hop]; decide)
  obtain ⟨hgone, hnoted⟩ := atAdmission_unload (hseq.symm ▸ hd) (hentry ▸ hop)
  rw [hseq] at hnoted
  rw [hentry, hplans] at hgone hnoted
  exact ⟨_, _, (exec_commandAdmit_ended hc hphase hended hopen).trans (congrArg _ (endHold_admitted hd hadmitted hentry)), hnoted, hadmitted, hgone,
    by rw [hreport]⟩

theorem exec_unloadPlan {seq : Nat} {c : Cmd} (hc : admittedCmd s seq 0x11 = some c) :
    exec (.unloadPlan seq) s =
      .next (finish seq { status := if c.report = [] then Status.planNotBound else Status.success } [] s) := by
  change execUnloadPlan seq s = _
  unfold execUnloadPlan
  rw [hc]
  by_cases hnone : c.report = []
  · simp [hnone, fail]
  · simp [hnone, succeed]

/-! ## The claim -/

/-- Settles O28: a role request goes through `applyRole`, which leaves its command in its place; `loadPlan` has one equation per outcome; the plan that
`putPlan` lists is the only one of its name, and `beginUnload` lists none of the name. -/
theorem rolesAndPlansAreManaged : Obligations.RolesAndPlansAreManaged := by
  refine ⟨?roles, ?loads, ?invalid, ?unplaced, ?unloadAdmission, ?unload⟩
  case roles =>
    exact fun seq b c s hc hhost hlen => ⟨roleManage_accepted_spec hc hhost hlen, fun st off => roleManage_refused_spec hc hhost hlen⟩
  case loads =>
    intro seq b c s hc hhost hlen hvalid hseen hbound hplace
    obtain ⟨p, hsole, hbytes, hbnd, hready⟩ := loadPlan_loads (b := b) hc hhost c.entry.target
    exact ⟨_, p, (exec_loadPlan hc hlen).trans (by rw [loadPlan_bound hvalid hseen hbound, if_neg hplace]), hsole, hbytes, hbnd, hready⟩
  case invalid =>
    exact fun seq o b c s hc hhost hlen hfail => exec_loadPlan_ends hc hhost hlen (loadPlan_invalid hfail)
  case unplaced =>
    exact fun seq b c s hc hhost hlen hvalid =>
      ⟨fun hhidden => exec_loadPlan_ends hc hhost hlen (loadPlan_hidden hvalid hhidden),
        fun o hseen hfail => exec_loadPlan_ends hc hhost hlen (loadPlan_unbound hvalid hseen hfail),
        fun hseen hbound hfull hnew => exec_loadPlan_ends hc hhost hlen ((loadPlan_bound hvalid hseen hbound).trans (if_pos ⟨hfull, hnew⟩))⟩
  case unloadAdmission =>
    exact fun seq c s hc hphase hended hopen hop htarget => commandAdmit_unload_spec hc hphase hended hopen hop htarget
  case unload =>
    exact fun seq c s hc hhost => ⟨_, exec_unloadPlan hc, admitted_finish hc hhost⟩

end Sys2Proof.RolesAndPlans
end

section
/-! SUPPORT. Binary codes (03 R46): the bits of a byte string are those of the number that it spells, and the 1 bits of a string are counted by its bit
indices. -/

namespace Sys2Proof.BinaryCodes

open Machine

/-! ## Code bits -/

/-- The low eight bits of a string's number are its first byte, and the others those of the rest. -/
theorem testBit_leNat_cons (x : Byte) (r : Bytes) (i : Nat) :
    (leNat (x :: r)).testBit i = if i < 8 then x.toNat.testBit i else (leNat r).testBit (i - 8) := by
  have hspell : leNat (x :: r) = 2 ^ 8 * leNat r + x.toNat := Nat.add_comm ..
  rw [hspell, Nat.testBit_two_pow_mul_add _ x.isLt]

theorem bitOf_nil (i : Nat) : bitOf [] i = false := by
  simp [bitOf, u8At, leAt, slice, leNat]

theorem bitOf_cons (x : Byte) (r : Bytes) (i : Nat) : bitOf (x :: r) i = if i < 8 then x.toNat.testBit i else bitOf r (i - 8) := by
  unfold bitOf u8At leAt slice
  split
  case isTrue hlow =>
    rw [Nat.div_eq_of_lt hlow, Nat.mod_eq_of_lt hlow]
    simp [leNat]
  case isFalse hhigh =>
    obtain ⟨k, rfl⟩ := Nat.exists_eq_add_of_le (Nat.not_lt.1 hhigh)
    simp [Nat.add_comm 8 k]

/-- R7: bit i mod 8 of byte i div 8 is bit i of the number that the string spells. -/
theorem bitOf_eq_testBit (b : Bytes) (i : Nat) : bitOf b i = (leNat b).testBit i := by
  induction b generalizing i with
  | nil => exact (bitOf_nil i).trans (Nat.zero_testBit i).symm
  | cons x r ih => rw [bitOf_cons, testBit_leNat_cons, ih]

theorem bitOf_slice (b : Bytes) (off : Nat) {n i : Nat} (hi : i < 8 * n) : bitOf (slice b off n) i = bitOf b (8 * off + i) := by
  have hbyte : (((b.drop off).take n).drop (i / 8)).take 1 = (b.drop (off + i / 8)).take 1 := by
    rw [List.drop_take, List.drop_drop, List.take_take, Nat.min_eq_left (by omega)]
  have hat : (8 * off + i) / 8 = off + i / 8 ∧ (8 * off + i) % 8 = i % 8 := by omega
  unfold bitOf u8At leAt
  rw [hat.1, hat.2]
  unfold slice
  rw [hbyte]

/-- R46: bit i mod 64 of the little-endian word i div 64. -/
theorem bitOf_eq_word (a : Bytes) (i : Nat) : bitOf a i = (leAt a (8 * (i / 64)) 8).testBit (i % 64) := by
  have hplace : 8 * (8 * (i / 64)) + i % 64 = i := by omega
  unfold leAt
  rw [← bitOf_eq_testBit, bitOf_slice _ _ (by omega), hplace]

/-! ## The distance -/

/-- Summing bits counts the indices at which they are 1. -/
theorem sumOf_b2n (p : Nat → Bool) (l : List Nat) : sumOf (l.map fun i => b2n (p i)) = l.countP p := by
  unfold sumOf
  rw [← List.sum_eq_foldl_nat]
  induction l with
  | nil => rfl
  | cons i r ih =>
    rw [List.map_cons, List.sum_cons, ih, List.countP_cons, Nat.add_comm]
    rfl

theorem popcount_cons (x : Byte) (r : Bytes) : popcount (x :: r) = (List.range 8).countP x.toNat.testBit + popcount r := by
  have hbits : sumOf ((List.range 8).map fun i => b2n (x.toNat.testBit i)) = (List.range 8).countP x.toNat.testBit := sumOf_b2n ..
  unfold popcount
  rw [List.map_cons, hbits]
  unfold sumOf
  rw [← List.sum_eq_foldl_nat, ← List.sum_eq_foldl_nat, List.sum_cons]

/-- The 1 bits of a string are those of its bit indices at which the bit is 1. -/
theorem popcount_eq_countP (b : Bytes) : popcount b = (List.range (8 * b.length)).countP (bitOf b) := by
  induction b with
  | nil => rfl
  | cons x r ih =>
    have hfirst : (List.range 8).countP (bitOf (x :: r)) = (List.range 8).countP x.toNat.testBit :=
      List.countP_congr fun i hi => by rw [bitOf_cons, if_pos (List.mem_range.1 hi)]
    have hrest : bitOf (x :: r) ∘ (8 + ·) = bitOf r := funext fun i => by
      rw [Function.comp_apply, bitOf_cons, if_neg (by omega), Nat.add_sub_cancel_left]
    rw [popcount_cons, ih, List.length_cons, Nat.mul_succ, Nat.add_comm (8 * r.length), List.range_add, List.countP_append, List.countP_map,
      hfirst, hrest]

/-- The bits of an exclusive or are 1 where the bits of its two strings differ. -/
theorem bitOf_xorBytes {a b : Bytes} (h : a.length = b.length) (i : Nat) : bitOf (xorBytes a b) i = (bitOf a i != bitOf b i) := by
  induction a generalizing b i with
  | nil =>
    obtain rfl := List.eq_nil_of_length_eq_zero h.symm
    exact (bitOf_nil i).trans (bne_self_eq_false _).symm
  | cons x r ih =>
    obtain ⟨y, t, rfl⟩ := List.exists_cons_of_length_eq_add_one h.symm
    have hrest : xorBytes (x :: r) (y :: t) = (x ^^^ y) :: xorBytes r t := rfl
    rw [hrest, bitOf_cons, bitOf_cons, bitOf_cons, BitVec.toNat_xor, Nat.testBit_xor, ih (Nat.succ.inj h)]
    split <;> simp

/-- R46: the distance is the number of indices at which two codes of one length differ. -/
theorem hamming_eq_countP {a b : Bytes} (h : a.length = b.length) :
    hamming a b = (List.range (8 * a.length)).countP fun i => bitOf a i != bitOf b i := by
  have hlength : (xorBytes a b).length = a.length := by simp [xorBytes, h]
  have hbits : bitOf (xorBytes a b) = fun i => bitOf a i != bitOf b i := funext (bitOf_xorBytes h)
  rw [hamming, popcount_eq_countP, hlength, hbits]

/-! ## The claim -/

/-- Settles O10: bytes and words read the same number, and a count of 1 bits is a count of bit indices. -/
theorem hammingDistanceCountsBits : Obligations.HammingDistanceCountsBits :=
  ⟨bitOf_eq_word, fun _ _ h => (hamming_eq_countP h).trans List.countP_eq_length_filter⟩

end Sys2Proof.BinaryCodes
end

section
/-! SUPPORT. Units that other modules send, and the INSERT or DELETE that sent parts of its batch away (06 R118 to R121; 09 R188, R200). -/

namespace Sys2Proof.PeerUnits

open Machine Laws

variable {s : State}

/-! ## A unit from another module -/

theorem findColl_tick (t id : Nat) : findColl (tick t s) id = findColl s id := rfl

theorem unitKnown_tick (t peer tag : Nat) : unitKnown (tick t s) peer tag = unitKnown s peer tag := rfl

/-- A new unit takes from the state the next tag and the module's index alone. -/
theorem newUnit_congr {u : State} (hsettings : u.settings = s.settings) (htag : u.search.nextTag = s.search.nextTag) : newUnit u = newUnit s := by
  have hindex : moduleIndex u = moduleIndex s := by unfold moduleIndex moduleCount liveDesc setting; rw [hsettings]
  have htags : unitTag u = unitTag s := by rw [unitTag, unitTag, hindex, htag]
  funext coll body origin phase limits
  simp only [newUnit, htags]

theorem liveLimits_congr {u : State} (h : u.settings = s.settings) : liveLimits u = liveLimits s := by
  simp only [liveLimits, settingNat, setting, h]

theorem peerUnit_writes {c : Coll} {peer tag : Nat} {body : UnitBody} (h : roomFor s c (liveLimits s).1 (liveLimits s).2 body = .yes) :
    (peerUnit c peer tag body s).search.units = s.search.units ++ [newUnit s c.id body (.peer peer tag) .writing (liveLimits s)] := by
  unfold peerUnit
  rw [h]
  rfl

theorem peerUnit_waits {c : Coll} {peer tag : Nat} {body : UnitBody} (h : roomFor s c (liveLimits s).1 (liveLimits s).2 body = .wait) :
    (peerUnit c peer tag body s).search.units = s.search.units ++ [newUnit s c.id body (.peer peer tag) .waits (liveLimits s)] := by
  unfold peerUnit
  rw [h]
  rfl

/-! ## The INSERT or DELETE of a command -/

theorem findIngest_congr {u : State} (h : u.search.ingests = s.search.ingests) (seq : Nat) : findIngest u seq = findIngest s seq := by
  unfold findIngest; rw [h]

/-- A change that leaves the command its number is found in its place. -/
theorem findIngest_updIngest {seq : Nat} {g : Ingest} {f : Ingest → Ingest} (hf : ∀ x, x.seq = seq → (f x).seq = seq)
    (h : findIngest s seq = some g) : findIngest (updIngest seq f s) seq = some (f g) := by
  have hfind := find_mapIf (p := fun x : Ingest => x.seq == seq) (f := f) (fun x hx => by simpa using hf x (by simpa using hx)) s.search.ingests
  exact hfind.trans (congrArg (Option.map f) h)

/-- The end of an INSERT or DELETE takes it off, and gives its command's completion the status. -/
theorem endIngest_spec {g : Ingest} {c : Cmd} {status : Nat} (hc : findCmd s g.seq = some c) (hhost : c.internal = false) :
    (ready (endIngest g status s) g.seq).map (·.status) = some status ∧ findIngest (endIngest g status s) g.seq = none := by
  unfold endIngest
  rw [hc]
  dsimp only
  have hthere : ∀ search, findCmd (noteReach g.coll c.queue g.lastEpoch { s with search := search }) g.seq = some c := fun _ => hc
  constructor
  · rw [ready_finish (hthere _) hhost]
    rfl
  · rw [findIngest_congr (congrArg Search.ingests (finish_search ..))]
    simp [findIngest, noteReach, updColl]

/-- The INSERT or DELETE once a part has committed at `e` with `count` rows. -/
def partCommitted (e count : Nat) (g : Ingest) : Ingest :=
  { g with lastEpoch := max g.lastEpoch e, live := if g.insert then g.live else g.live + count }

section
variable {g : Ingest} {mine : Ingest → Ingest} {e count : Nat} (hg : findIngest s g.seq = some g)

include hg

/-- R200: while parts of the batch are left, the command waits for them. -/
theorem partDone_left (h : (mine (partCommitted e count g)).pending ≠ [] ∨ (mine (partCommitted e count g)).fwds ≠ []) :
    partDone g.seq mine e count s = updIngest g.seq (fun _ => mine (partCommitted e count g)) s := by
  unfold partDone
  rw [hg]
  exact if_neg (by simpa [partCommitted, imp_iff_not_or] using h)

/-- R118: the batch is committed with its last part. -/
theorem partDone_last (hpending : (mine (partCommitted e count g)).pending = []) (hfwds : (mine (partCommitted e count g)).fwds = []) :
    partDone g.seq mine e count s = nextBatch g.seq (updIngest g.seq (fun _ =>
      { mine (partCommitted e count g) with committed := (mine (partCommitted e count g)).committed + (mine (partCommitted e count g)).batch, batch := 0 }) s) := by
  unfold partDone
  rw [hg]
  exact if_pos (by simpa [partCommitted] using And.intro hpending hfwds)

end

end Sys2Proof.PeerUnits
end

section
/-! SUPPORT. Shard requests at an owner (09 R193, R199 to R202): what a query keeps from its start on, and what is left once queries are dropped. -/

namespace Sys2Proof.ShardOwners

open Machine Laws PeerUnits

variable {s : State}

/-! ## What a query is, whatever its stages do -/

/-- What no stage of a query changes: where it came from, its collection, its record, its epoch, and its place in the order of admission. -/
def identity (q : Query) : QFrom × Nat × Bytes × Nat × Nat := (q.origin, q.coll, q.record, q.epoch, q.order)

/-- Under one key there is a query of this identity, or none. -/
def identityAt (s : State) (key : Nat) : Option (QFrom × Nat × Bytes × Nat × Nat) := (findQuery s key).map identity

theorem identityAt_congr {u : State} (h : u.search = s.search) (key : Nat) : identityAt u key = identityAt s key := by
  unfold identityAt findQuery; rw [h]

/-- An update that leaves keys and identities leaves every identity in its place. -/
theorem identityAt_updQuery {q key : Nat} {f : Query → Query} (hf : ∀ x, (f x).key = x.key ∧ identity (f x) = identity x) :
    identityAt (updQuery q f s) key = identityAt s key := by
  unfold identityAt
  by_cases hq : key = q
  · subst hq
    rw [findQuery_updQuery fun x => (hf x).1, Option.map_map]
    exact congrArg (Option.map · _) (funext fun x => (hf x).2)
  · refine congrArg (Option.map identity) (find_mapIf_ne (fun x hx => ?_) _)
    have hx : x.key = q := by simpa using hx
    simp [(hf x).1, hx, Ne.symm hq]

@[simp] theorem identityAt_issue (c : Coll) (n q key : Nat) : identityAt (updQuery q (issue c n) s) key = identityAt s key :=
  identityAt_updQuery fun _ => ⟨rfl, rfl⟩

@[simp] theorem identityAt_scanCut (q key : Nat) : identityAt (updQuery q scanCut s) key = identityAt s key :=
  identityAt_updQuery fun _ => ⟨rfl, rfl⟩

@[simp] theorem identityAt_setPhase (p : QPhase) (q key : Nat) :
    identityAt (updQuery q (fun x => { x with phase := p }) s) key = identityAt s key :=
  identityAt_updQuery fun _ => ⟨rfl, rfl⟩

@[simp] theorem identityAt_countPasses (n key : Nat) : identityAt (countPasses n s) key = identityAt s key :=
  identityAt_congr (bumpBy_search ..) key

@[simp] theorem identityAt_cutTo (q n key : Nat) : identityAt (cutTo q n s) key = identityAt s key :=
  (identityAt_countPasses n key).trans (identityAt_updQuery fun _ => ⟨rfl, rfl⟩)

@[simp] theorem identityAt_toRerank (q key : Nat) : identityAt (toRerank q s) key = identityAt s key := by
  unfold toRerank
  split
  · rfl
  · split_ifs <;> exact identityAt_updQuery fun _ => ⟨rfl, rfl⟩

@[simp] theorem identityAt_skipAdc (q key : Nat) : identityAt (skipAdc q s) key = identityAt s key := by
  unfold skipAdc
  split
  · rfl
  · rw [identityAt_toRerank, identityAt_cutTo]
    exact identityAt_updQuery fun _ => ⟨rfl, rfl⟩

/-- The end of a scan leads a query on, and leaves it what it is. -/
@[simp] theorem identityAt_afterScan (q key : Nat) : identityAt (afterScan q s) key = identityAt s key := by
  unfold afterScan
  dsimp only
  split
  · rfl
  · split
    · rfl
    · split_ifs <;> simp

@[simp] theorem identityAt_appendPass (c : Coll) (shard : Nat) (q : Query) (key : Nat) : identityAt (appendPass c shard q s) key = identityAt s key := by
  unfold appendPass
  dsimp only
  split_ifs
  · exact identityAt_updQuery fun _ => ⟨rfl, rfl⟩
  · exact identityAt_updQuery fun _ => ⟨rfl, rfl⟩
  · exact identityAt_updQuery fun _ => ⟨rfl, rfl⟩
  · exact (identityAt_countPasses ..).trans (identityAt_updQuery fun _ => ⟨rfl, rfl⟩)

/-- A query that starts under a free key is there, as its start gives it. -/
theorem identityAt_startQuery (c : Coll) (a : Start) (hfree : findQuery s s.search.nextQuery = none) :
    identityAt (startQuery c a s) s.search.nextQuery = some (a.origin, c.id, a.record, a.epoch, a.order) := by
  have hnew : ∀ n, identityAt { s with search := { s.search with queries := s.search.queries ++ [newQuery s.search.nextQuery c a], nextQuery := n } }
      s.search.nextQuery = some (a.origin, c.id, a.record, a.epoch, a.order) := fun n => by
    unfold identityAt findQuery
    rw [List.find?_append, show s.search.queries.find? (·.key == s.search.nextQuery) = none from hfree]
    simp [newQuery, identity]
  unfold startQuery
  dsimp only
  split
  · rw [identityAt_afterScan, identityAt_scanCut, identityAt_issue, identityAt_appendPass, hnew]
  · rw [identityAt_issue, identityAt_appendPass, hnew]

/-! ## SHARD_SEARCH_REQ (R193, R202) -/

/-- An answer without a list to the request `b`. -/
def refusal (peer : Nat) (b : Bytes) (status offset : Nat) (s : State) : State :=
  sendSpp peer Spp.shardSearchReply (errorReply (u64At b 24) (u16At b 10) status offset (u64At b 40)) s

/-- The plan that a request names, where it is bound here. -/
def askedPlan (b : Bytes) (s : State) : Option Plan :=
  s.ahp.plans.find? fun p => p.kind == 1 && p.target == u32At b 12 && p.planId == u64At b 32 && p.bound

/-- The query of a request that passes its checks. -/
def requestStart (peer : Nat) (b : Bytes) (p : Plan) (s : State) : Start :=
  shardStart (.peer peer (u64At b 24)) p s.ahp.nextOrder (b.drop 64) (u64At b 40) (if u64At b 48 = 0xFFFFFFFFFFFFFFFF then 0 else u64At b 48)
    (u64At b 48) (settingNat s Key.finishReserveUs) (settingNat s Key.adcReserveUs)

/-- What becomes of a request for a shard of this module at an epoch that it keeps: its plan and its record decide. -/
def serveRequest (peer : Nat) (b : Bytes) (c : Coll) (s : State) : Res :=
  match askedPlan b s with
  | none => .next (refusal peer b Status.planNotBound 0 s)
  | some p =>
    if queryMalformed c.schema (b.drop 64) then .next (malformed s)
    else match queryFail (ownerCtx c p (u64At b 40) (u16At b 10)) (b.drop 64) with
      | some x => .next (refusal peer b Status.invalidField (if x.1 = Status.invalidField then x.2 else if x.1 = Status.epochUnavailable then 8 else 4) s)
      | none => .next (startQuery c (requestStart peer b p s) s)

section
variable {peer t : Nat} {b : Bytes} {c : Coll}

/-- R336: a request out of form is dropped and counted. -/
theorem exec_shardSearchReq_malformed (hb : requestFormed peer b = false) : exec (.shardSearchReq peer b t) s = .next (malformed (tick t s)) := by
  change execShardSearchReq peer b t s = _
  simp [execShardSearchReq, hb]

theorem exec_shardSearchReq_otherMap (hb : requestFormed peer b = true) (hmap : shardMapDigest (tick t s) (u32At b 12) ≠ some (u64At b 16)) :
    exec (.shardSearchReq peer b t) s = .next (refusal peer b Status.shardMapMismatch 0 (tick t s)) := by
  change execShardSearchReq peer b t s = _
  simp [execShardSearchReq, hb, hmap, refusal]

variable (hb : requestFormed peer b = true) (hmap : shardMapDigest (tick t s) (u32At b 12) = some (u64At b 16))

include hb hmap

/-- A collection that is being deleted is none. -/
theorem exec_shardSearchReq_noColl (hnone : (findColl s (u32At b 12)).all (·.deleting) = true) :
    exec (.shardSearchReq peer b t) s = .next (refusal peer b Status.collectionNotFound 0 (tick t s)) := by
  change execShardSearchReq peer b t s = _
  cases hc : findColl s (u32At b 12) with
  | none => simp [execShardSearchReq, hb, hmap, refusal, findColl_tick, hc]
  | some c =>
    have hgone : c.deleting = true := by simpa [hc] using hnone
    simp [execShardSearchReq, hb, hmap, refusal, findColl_tick, hc, hgone]

variable (hc : findColl s (u32At b 12) = some c) (hlive : c.deleting = false)

include hc hlive

theorem exec_shardSearchReq_otherShard (hshard : ownShardNo (tick t s) (u32At b 12) ≠ u16At b 10) :
    exec (.shardSearchReq peer b t) s = .next (malformed (tick t s)) := by
  change execShardSearchReq peer b t s = _
  simp [execShardSearchReq, hb, hmap, findColl_tick, hc, hlive, hshard]

variable (hshard : ownShardNo (tick t s) (u32At b 12) = u16At b 10)

include hshard

theorem exec_shardSearchReq_epochGone (hheld : shardHolds c (u64At b 40) = false) :
    exec (.shardSearchReq peer b t) s = .next (refusal peer b Status.epochUnavailable 0 (tick t s)) := by
  change execShardSearchReq peer b t s = _
  simp [execShardSearchReq, hb, hmap, refusal, findColl_tick, hc, hlive, hshard, hheld]

variable (hheld : shardHolds c (u64At b 40) = true)

include hheld

/-- Once its map, its collection, its shard and its epoch fit, a request is served. -/
theorem exec_shardSearchReq_held : exec (.shardSearchReq peer b t) s = serveRequest peer b c (tick t s) := by
  change execShardSearchReq peer b t s = _
  unfold execShardSearchReq
  dsimp only
  rw [if_neg (by simp [hb]), if_neg (not_not.2 hmap), findColl_tick, hc]
  dsimp only
  rw [if_neg (by simp [hlive]), if_neg (not_not.2 hshard), if_neg (by simp [hheld])]
  rfl

end

section
variable {peer : Nat} {b : Bytes} {c : Coll} {p : Plan}

theorem serveRequest_unbound (hplan : askedPlan b s = none) :
    serveRequest peer b c s = .next (refusal peer b Status.planNotBound 0 s) := by
  rw [serveRequest, hplan]

variable (hplan : askedPlan b s = some p)

include hplan

theorem serveRequest_malformed (hbad : queryMalformed c.schema (b.drop 64) = true) : serveRequest peer b c s = .next (malformed s) := by
  simp only [serveRequest, hplan, hbad, if_true]

/-- R202: a record that fails a check is answered with its offset. -/
theorem serveRequest_failed {x : Nat × Nat} (hgood : queryMalformed c.schema (b.drop 64) = false)
    (hfail : queryFail (ownerCtx c p (u64At b 40) (u16At b 10)) (b.drop 64) = some x) :
    serveRequest peer b c s = .next (refusal peer b Status.invalidField
      (if x.1 = Status.invalidField then x.2 else if x.1 = Status.epochUnavailable then 8 else 4) s) := by
  simp only [serveRequest, hplan, hgood, hfail, Bool.false_eq_true, if_false]

theorem serveRequest_starts (hgood : queryMalformed c.schema (b.drop 64) = false)
    (hpass : queryFail (ownerCtx c p (u64At b 40) (u16At b 10)) (b.drop 64) = none) :
    serveRequest peer b c s = .next (startQuery c (requestStart peer b p s) s) := by
  simp only [serveRequest, hplan, hgood, hpass, Bool.false_eq_true, if_false]

end

/-! ## SHARD_CANCEL (R198, R200) -/

theorem dropQuery_queries (q : Query) (s : State) : (dropQuery q s).search.queries = s.search.queries.filter (·.key ≠ q.key) := by
  unfold dropQuery settle
  split <;> rfl

/-- What is left once some queries are dropped was there before, and is none of them. -/
theorem mem_foldl_dropQuery {l : List Query} {x : Query} (h : x ∈ (l.foldl (fun u q => dropQuery q u) s).search.queries) :
    x ∈ s.search.queries ∧ x ∉ l := by
  induction l generalizing s with
  | nil => exact ⟨h, List.not_mem_nil⟩
  | cons q r ih =>
    obtain ⟨hleft, hr⟩ := ih h
    rw [dropQuery_queries, List.mem_filter] at hleft
    obtain ⟨hs, hkey⟩ := hleft
    refine ⟨hs, fun hx => ?_⟩
    rcases List.mem_cons.1 hx with rfl | hx
    · simp at hkey
    · exact hr hx

/-- No query is left that a cancel names. -/
theorem exec_shardCancel_spec (peer : Nat) (b : Bytes) (s : State) (hlen : b.length = 16) (hzero : u16At b 14 = 0) :
    ∃ u, exec (.shardCancel peer b) s = .next u ∧
      u.search.queries.any (fun q => q.origin == .peer peer (u64At b 0) && q.coll == u32At b 8) = false := by
  have hexec : exec (.shardCancel peer b) s = execShardCancel peer b s := rfl
  rw [hexec, execShardCancel, if_neg (by simp [hlen, hzero])]
  refine ⟨_, rfl, List.any_eq_false.2 fun x hx hmine => ?_⟩
  obtain ⟨hs, hnot⟩ := mem_foldl_dropQuery hx
  exact hnot (List.mem_filter.2 ⟨hs, hmine⟩)

/-! ## The claim -/

/-- Settles O41: a request has one equation per outcome, a query that starts keeps its identity through its first stages, and a cancel leaves none of the
queries that it names. -/
theorem shardOwnersServeRequests : Obligations.ShardOwnersServeRequests := by
  refine ⟨?malformed, ?served, exec_shardCancel_spec⟩
  case malformed =>
    exact fun peer t b s hb hw hlt =>
      ⟨_, exec_shardSearchReq_malformed hb, counter_bump (s := tick t s) hw hlt, bump_search .., bump_net ..⟩
  case served =>
    intro peer t b s hb refused
    refine ⟨exec_shardSearchReq_otherMap hb, exec_shardSearchReq_noColl hb, fun c hmap hc hlive => ?_⟩
    refine ⟨exec_shardSearchReq_otherShard hb hmap hc hlive, exec_shardSearchReq_epochGone hb hmap hc hlive, fun hshard hheld hplan => ?unbound,
      fun p hshard hheld hplan => ?planned⟩ <;> rw [exec_shardSearchReq_held hb hmap hc hlive hshard hheld]
    case unbound => exact serveRequest_unbound (s := tick t s) hplan
    case planned =>
      exact ⟨serveRequest_malformed (s := tick t s) hplan, fun x => serveRequest_failed (s := tick t s) hplan, fun hgood hpass hfree =>
        ⟨_, serveRequest_starts (s := tick t s) hplan hgood hpass, identityAt_startQuery (s := tick t s) c _ hfree⟩⟩

end Sys2Proof.ShardOwners
end

section
/-! SUPPORT. ROW_FORWARD and ROW_RESULT (09 R188, R200): what the owner does with rows sent to it, and what its answer does to the command that sent
them. -/

namespace Sys2Proof.ForwardedRows

open Machine Laws PeerUnits

variable {s : State}

/-! ## ROW_FORWARD (R188, R200) -/

/-- Bytes of a row or of an identifier, as the KIND of the ROW_FORWARD `b` has it. -/
def rowBytes (c : Coll) (b : Bytes) : Nat := if u8At b 4 = 1 then recordSize c.schema else 8

/-- The offset at which a forwarded record fails its check. -/
def rowsFail (c : Coll) (b : Bytes) : Option Nat := if u8At b 4 = 1 then recordsFail c.schema (b.drop 32) (u32At b 16) [] 0 else none

/-- The forwarded identifiers, with their offsets. -/
def rowIds (c : Coll) (b : Bytes) : List (Nat × Nat) := bodyIds (rowBytes c b) (u32At b 16) (b.drop 32)

/-- What the owner does with forwarded rows that are whole and finite: a unit that is here already is not taken again (log entry 13). -/
def takeRows (peer : Nat) (b : Bytes) (c : Coll) (m : ShardMap) (s : State) : Res :=
  if unitKnown s peer (u64At b 8) then .next s
  else match rowsFail c b with
    | some off => .next (answerRows peer (u64At b 8) 0 0 Status.invalidField 0xFFFF off s)
    | none =>
      match (rowIds c b).find? fun p => m.buckets.getD (bucketOf p.2) 0 != u16At b 24 with
      | some p => .next (answerRows peer (u64At b 8) 0 0 Status.invalidField 0xFFFF p.1 s)
      | none =>
        match (rowIds c b).find? fun p => liveOwnerOf c m (bucketOf p.2) != moduleIndex s with
        | some p => .next (answerRows peer (u64At b 8) 0 0 Status.notOwner (liveOwnerOf c m (bucketOf p.2)) 0 s)
        | none => .next (peerUnit c peer (u64At b 8) (bodyOf c.schema (u8At b 4) (u32At b 16) (b.drop 32)) s)

/-- The header of a ROW_FORWARD is not of the form that R200 gives it. -/
def HeaderBad (b : Bytes) : Prop :=
  b.length < 32 ∨ leAt b 5 3 ≠ 0 ∨ u32At b 28 ≠ 0 ∨ (u8At b 4 ≠ 1 ∧ u8At b 4 ≠ 2) ∨ u32At b 20 ≠ (b.drop 32).length ∨
    65536 < (b.drop 32).length ∨ u32At b 16 = 0 ∨ (if u8At b 4 = 1 then 256 else 8192) < u32At b 16

/-- What becomes of a ROW_FORWARD whose header is well formed, on a sharded collection. -/
theorem exec_rowForward_formed {peer t : Nat} {b : Bytes} {c : Coll} {m : ShardMap} (hb : ¬HeaderBad b)
    (hc : findColl s (u32At b 0) = some c) (hm : shardMapOf (tick t s) (u32At b 0) = some m) :
    exec (.rowForward peer b t) s =
      if (b.drop 32).length ≠ rowBytes c b * u32At b 16 ∨ (u8At b 4 = 1 ∧ recordsMalformed c.schema (b.drop 32) (u32At b 16) = true)
      then .next (malformed (tick t s)) else takeRows peer b c m (tick t s) := by
  unfold HeaderBad at hb
  change execRowForward peer b t s = _
  unfold execRowForward
  dsimp only
  rw [if_neg hb, findColl_tick, hc, hm]
  rfl

section
variable {peer : Nat} {b : Bytes} {c : Coll} {m : ShardMap}

theorem takeRows_known (hknown : unitKnown s peer (u64At b 8) = true) : takeRows peer b c m s = .next s := if_pos hknown

variable (hnew : unitKnown s peer (u64At b 8) = false)

include hnew

theorem takeRows_failed {off : Nat} (hfail : rowsFail c b = some off) :
    takeRows peer b c m s = .next (answerRows peer (u64At b 8) 0 0 Status.invalidField 0xFFFF off s) := by
  simp [takeRows, hnew, hfail]

variable (hpass : rowsFail c b = none)

include hpass

/-- R200: a row whose bucket lies in another shard than the one named. -/
theorem takeRows_outside {p : Nat × Nat} (hout : (rowIds c b).find? (fun p => m.buckets.getD (bucketOf p.2) 0 != u16At b 24) = some p) :
    takeRows peer b c m s = .next (answerRows peer (u64At b 8) 0 0 Status.invalidField 0xFFFF p.1 s) := by
  simp only [takeRows, hnew, hpass, hout, Bool.false_eq_true, if_false]

variable (hin : (rowIds c b).find? (fun p => m.buckets.getD (bucketOf p.2) 0 != u16At b 24) = none)

include hin

/-- R188: a row whose bucket another module owns by now. -/
theorem takeRows_moved {p : Nat × Nat} (haway : (rowIds c b).find? (fun p => liveOwnerOf c m (bucketOf p.2) != moduleIndex s) = some p) :
    takeRows peer b c m s = .next (answerRows peer (u64At b 8) 0 0 Status.notOwner (liveOwnerOf c m (bucketOf p.2)) 0 s) := by
  simp only [takeRows, hnew, hpass, hin, haway, Bool.false_eq_true, if_false]

theorem takeRows_taken (hown : (rowIds c b).find? (fun p => liveOwnerOf c m (bucketOf p.2) != moduleIndex s) = none) :
    takeRows peer b c m s = .next (peerUnit c peer (u64At b 8) (bodyOf c.schema (u8At b 4) (u32At b 16) (b.drop 32)) s) := by
  simp only [takeRows, hnew, hpass, hin, hown, Bool.false_eq_true, if_false]

end

/-! ## ROW_RESULT (R188, R200) -/

theorem exec_rowResult_malformed {peer t : Nat} {b : Bytes} (hb : rowResultFormed b = false) :
    exec (.rowResult peer b t) s = .next (malformed (tick t s)) := if_pos hb

/-- A result that is well formed goes to the part that it names. -/
theorem exec_rowResult_formed {peer t : Nat} {b : Bytes} {g : Ingest} {f : Fwd} (hb : rowResultFormed b = true)
    (hg : s.search.ingests.find? (fun g => g.fwds.any (·.tag == u64At b 0)) = some g) (hf : g.fwds.find? (·.tag == u64At b 0) = some f) :
    exec (.rowResult peer b t) s = .next (forwardResult g f b (tick t s)) := by
  change execRowResult peer b t s = _
  unfold execRowResult
  dsimp only
  rw [if_neg (by simp [hb]), tick_search, hg]
  dsimp only
  rw [hf]

section
variable {g : Ingest} {f : Fwd} {b : Bytes}

theorem forwardResult_success (hst : u16At b 20 = Status.success) : forwardResult g f b s =
    partDone g.seq (fun x => { x with fwds := x.fwds.filter (·.tag ≠ f.tag) }) (u64At b 8) (u32At b 16) s := if_pos hst

/-- R188: a part that another module owns by now goes there. -/
theorem forwardResult_again {k : Coll} (hst : u16At b 20 = Status.notOwner) (hg : findIngest s g.seq = some g) (hk : findColl s g.coll = some k)
    (hdest : u16At b 22 ≠ moduleIndex s) :
    ∃ u v, forwardResult g f b s = sendSpp (u16At b 22) Spp.rowForward v u ∧
      findIngest u g.seq = some { g with fwds := mapIf (fun y => y.tag == f.tag) (fun _ => { f with owner := u16At b 22 }) g.fwds } := by
  unfold forwardResult
  dsimp only
  rw [if_neg (by rw [hst]; decide), if_pos hst, hk]
  dsimp only
  rw [if_neg hdest]
  exact ⟨_, _, rfl, findIngest_updIngest (g := g) (fun _ hx => hx) hg⟩

/-- A part that this module owns by now commits here. -/
theorem forwardResult_here {k : Coll} (hst : u16At b 20 = Status.notOwner) (hg : findIngest s g.seq = some g) (hk : findColl s g.coll = some k)
    (hdest : u16At b 22 = moduleIndex s) :
    ∃ u, forwardResult g f b s = ownPart { g with fwds := g.fwds.filter (·.tag ≠ f.tag) } k
        (if g.insert then .insert (fwdRows g k.schema f) else .delete (fwdIds g f)) u ∧
      findIngest u g.seq = some { g with fwds := g.fwds.filter (·.tag ≠ f.tag) } := by
  unfold forwardResult
  dsimp only
  rw [if_neg (by rw [hst]; decide), if_pos hst, hk]
  dsimp only
  rw [if_pos hdest]
  exact ⟨_, rfl, findIngest_updIngest (g := g) (fun _ hx => hx) hg⟩

theorem forwardResult_ends (hsuccess : u16At b 20 ≠ Status.success) (howner : u16At b 20 ≠ Status.notOwner) :
    forwardResult g f b s = endIngest g (u16At b 20) s := by
  unfold forwardResult
  dsimp only
  rw [if_neg hsuccess, if_neg howner]

end

/-! ## The claim -/

/-- Settles O43: whole and finite rows go through `takeRows`, and a result through `forwardResult`, which counts a part as `partDone` does, sends it on,
makes it this module's own, or ends the command. -/
theorem forwardedRowsCommitAtTheirOwner : Obligations.ForwardedRowsCommitAtTheirOwner := by
  refine ⟨?forwards, fun peer t b s hb => exec_rowResult_malformed hb, ?results⟩
  case forwards =>
    intro peer t b c m s hb hc hm size ids bad away
    refine ⟨fun hunfit => (exec_rowForward_formed hb hc hm).trans (if_pos hunfit), fun hlen hfinite => ?_⟩
    have hfits : exec (.rowForward peer b t) s = takeRows peer b c m (tick t s) :=
      (exec_rowForward_formed hb hc hm).trans (if_neg (not_or.2 ⟨not_not.2 hlen, fun h => by simp [hfinite h.1] at h⟩))
    rw [hfits, ← unitKnown_tick t]
    refine ⟨takeRows_known, fun hnew => ?_⟩
    refine ⟨fun off => takeRows_failed hnew, fun p hpass => takeRows_outside hnew hpass, fun hpass hin => ?_⟩
    refine ⟨fun p => takeRows_moved hnew hpass hin, fun hown => ?_⟩
    rw [takeRows_taken hnew hpass hin hown]
    exact ⟨fun hroom => ⟨_, rfl, peerUnit_writes (s := tick t s) hroom⟩, fun hroom => ⟨_, rfl, peerUnit_waits (s := tick t s) hroom⟩⟩
  case results =>
    intro peer t b g f c s hb hfirst hf hg hc hhost rest live
    rw [exec_rowResult_formed hb hfirst hf]
    refine ⟨fun hst hleft => ?_, fun hst hpending hrest => ?_, fun k hst hk hdest => ?_, fun k hst hk hdest => ?_, fun hsuccess howner => ?_⟩
    · rw [forwardResult_success hst, partDone_left (s := tick t s) hg hleft]
      exact ⟨_, rfl, findIngest_updIngest (s := tick t s) (g := g) (fun _ _ => rfl) hg⟩
    · rw [forwardResult_success hst, partDone_last (s := tick t s) hg hpending hrest]
      simp only [partCommitted]
      rw [show g.fwds.filter (fun x => decide (x.tag ≠ f.tag)) = [] from hrest]
    · obtain ⟨u, v, hsend, hfound⟩ := forwardResult_again (s := tick t s) (f := f) hst hg hk hdest
      exact ⟨u, v, congrArg _ hsend, hfound⟩
    · obtain ⟨u, hown, hfound⟩ := forwardResult_here (s := tick t s) (f := f) hst hg hk hdest
      exact ⟨u, congrArg _ hown, hfound⟩
    · rw [forwardResult_ends hsuccess howner]
      exact ⟨_, rfl, endIngest_spec (s := tick t s) hc hhost⟩

end Sys2Proof.ForwardedRows
end

section
/-! SUPPORT. Bucket moves (09 R203): how a source begins one, and what the target does with rows and with the cutover. -/

namespace Sys2Proof.BucketMoves

open Machine Laws PeerUnits

variable {s : State}

/-! ## The source -/

theorem findColl_updShard {coll : Nat} {c : Coll} {f : Shard → Shard} (hc : findColl s coll = some c) :
    findColl (updShard coll f s) coll = some { c with shard := c.shard.map f } :=
  findColl_upd (f := fun c => { c with shard := c.shard.map f }) (fun _ => rfl) hc

/-- The move of a bucket at its beginning: every live row of the bucket is unsent. -/
def newMove (c : Coll) (m : ShardMap) (x : Shard) (bucket : Nat) : Move where
  bucket := bucket
  target := m.owners.getD (m.buckets.getD bucket 0) 0xFFFF
  targetShard := m.buckets.getD bucket 0
  unsent := (liveRows c (c.epoch + x.grants.length + x.nextEpoch)).filter fun q => bucketOf q.id == bucket
  unsentDel := []
  sent := none
  cutover := none

section
variable {coll : Nat} {c : Coll} {m : ShardMap} {x : Shard} (hc : findColl s coll = some c) (hm : shardMapOf s coll = some m)
  (hx : c.shard = some x)

include hc hm hx

theorem exec_bucketMoveStart_begins {b : Nat} {r : List Nat} (hmove : x.move = none) (hnext : x.toMove = b :: r) :
    exec (.bucketMoveStart coll) s =
      .next (pumpMove coll (updShard coll (fun y => { y with move := some (newMove c m x b), toMove := r }) s)) := by
  change execBucketMoveStart coll s = _
  simp only [execBucketMoveStart, hc, hm, hx, hmove, hnext]
  rfl

theorem exec_bucketMoveStart_goesOn (hmove : x.move ≠ none) : exec (.bucketMoveStart coll) s = .next (pumpMove coll s) := by
  obtain ⟨y, hy⟩ := Option.ne_none_iff_exists'.1 hmove
  change execBucketMoveStart coll s = _
  simp only [execBucketMoveStart, hc, hm, hx, hy]

end

/-! ## The target -/

/-- What the target takes back of an earlier copy changes its collection alone. -/
theorem dropTaken_cases (coll bucket source : Nat) (s : State) :
    dropTaken coll bucket source s = s ∨ ∃ f, dropTaken coll bucket source s = updColl coll f s := by
  unfold dropTaken
  split
  · exact .inl rfl
  · exact .inr ⟨_, rfl⟩

@[simp] theorem dropTaken_settings (coll bucket source : Nat) (s : State) : (dropTaken coll bucket source s).settings = s.settings := by
  rcases dropTaken_cases coll bucket source s with h | ⟨f, h⟩ <;> rw [h]
  rfl

@[simp] theorem dropTaken_units (coll bucket source : Nat) (s : State) : (dropTaken coll bucket source s).search.units = s.search.units := by
  rcases dropTaken_cases coll bucket source s with h | ⟨f, h⟩ <;> rw [h]
  rfl

@[simp] theorem dropTaken_nextTag (coll bucket source : Nat) (s : State) :
    (dropTaken coll bucket source s).search.nextTag = s.search.nextTag := by
  rcases dropTaken_cases coll bucket source s with h | ⟨f, h⟩ <;> rw [h]
  rfl

/-- Rows of a move that find room are a unit of their source, beside the units that are here. -/
theorem peerUnit_dropTaken {c : Coll} {coll bucket source peer tag : Nat} {body : UnitBody}
    (hroom : roomFor (dropTaken coll bucket source s) c (liveLimits s).1 (liveLimits s).2 body = .yes) :
    (peerUnit c peer tag body (dropTaken coll bucket source s)).search.units =
      s.search.units ++ [newUnit s c.id body (.peer peer tag) .writing (liveLimits s)] := by
  have hlimits : liveLimits (dropTaken coll bucket source s) = liveLimits s := liveLimits_congr (dropTaken_settings ..)
  have hunit : newUnit (dropTaken coll bucket source s) = newUnit s := newUnit_congr (dropTaken_settings ..) (dropTaken_nextTag ..)
  rw [peerUnit_writes (hlimits.symm ▸ hroom), dropTaken_units, hunit, hlimits]

/-- The rows or identifiers of a BUCKET_COPY have the length that its header gives, and every value of a row is finite. -/
def CopyFits (c : Coll) (b : Bytes) : Prop :=
  (b.drop 32).length = (if u8At b 6 = 1 then recordSize c.schema else 8) * u32At b 16 ∧
    (u8At b 6 = 1 → recordsMalformed c.schema (b.drop 32) (u32At b 16) = false)

/-- The rows of a BUCKET_CUTOVER have the length that its header gives, and every value is finite. -/
def CutoverFits (c : Coll) (b : Bytes) : Prop :=
  (b.drop 40).length = recordSize c.schema * u32At b 16 ∧ recordsMalformed c.schema (b.drop 40) (u32At b 16) = false

theorem not_copyFits {c : Coll} {b : Bytes} : ¬CopyFits c b ↔
    (b.drop 32).length ≠ (if u8At b 6 = 1 then recordSize c.schema else 8) * u32At b 16 ∨
      (u8At b 6 = 1 ∧ recordsMalformed c.schema (b.drop 32) (u32At b 16) = true) := by
  rw [CopyFits, not_and_or, Classical.not_imp, Bool.not_eq_false]

theorem not_cutoverFits {c : Coll} {b : Bytes} : ¬CutoverFits c b ↔
    (b.drop 40).length ≠ recordSize c.schema * u32At b 16 ∨ recordsMalformed c.schema (b.drop 40) (u32At b 16) = true := by
  rw [CutoverFits, not_and_or, Bool.not_eq_false]

/-- What the target does with a BUCKET_COPY that is whole and finite: it takes back what it committed of an earlier copy
(log entry 29), and takes the rows. -/
def takeCopy (peer : Nat) (b : Bytes) (c : Coll) (s : State) : Res :=
  if unitKnown s peer (u64At b 8) then .next s
  else if u32At b 16 = 0 then .next (answerRows peer (u64At b 8) 0 0 Status.success 0xFFFF 0 (dropTaken c.id (u16At b 4) peer s))
  else match if u8At b 6 = 1 then recordsFail c.schema (b.drop 32) (u32At b 16) [] 0 else none with
    | some off => .next (answerRows peer (u64At b 8) 0 0 Status.invalidField 0xFFFF off (dropTaken c.id (u16At b 4) peer s))
    | none => .next (peerUnit c peer (u64At b 8) (bodyOf c.schema (u8At b 6) (u32At b 16) (b.drop 32)) (dropTaken c.id (u16At b 4) peer s))

/-- What the target does with a BUCKET_CUTOVER that is whole and finite. -/
def takeCutover (peer : Nat) (b : Bytes) (c : Coll) (s : State) : Res :=
  if unitKnown s peer (u64At b 8) then .next s
  else match recordsFail c.schema (b.drop 40) (u32At b 16) [] 0 with
    | some off => .next (answerRows peer (u64At b 8) 0 0 Status.invalidField 0xFFFF off (dropTaken c.id (u16At b 4) peer s))
    | none => .next (peerUnit c peer (u64At b 8) (.takeOver (u16At b 4) (u64At b 32) (recordRows c.schema (b.drop 40) (u32At b 16)))
        (dropTaken c.id (u16At b 4) peer s))

section
variable {peer t : Nat} {b : Bytes} {c : Coll}

theorem exec_bucketCopy_formed (hb : bucketFormed b 32 = true) (hc : findColl s (u32At b 0) = some c) : exec (.bucketCopy peer b t) s =
    if (b.drop 32).length ≠ (if u8At b 6 = 1 then recordSize c.schema else 8) * u32At b 16 ∨
        (u8At b 6 = 1 ∧ recordsMalformed c.schema (b.drop 32) (u32At b 16) = true)
    then .next (malformed (tick t s)) else takeCopy peer b c (tick t s) := by
  change execBucketCopy peer b t s = _
  unfold execBucketCopy
  dsimp only
  rw [if_neg (by simp [hb]), findColl_tick, hc]
  rfl

theorem exec_bucketCutover_formed (hb : bucketFormed b 40 = true) (hc : findColl s (u32At b 0) = some c) : exec (.bucketCutover peer b t) s =
    if (b.drop 40).length ≠ recordSize c.schema * u32At b 16 ∨ recordsMalformed c.schema (b.drop 40) (u32At b 16) = true
    then .next (malformed (tick t s)) else takeCutover peer b c (tick t s) := by
  change execBucketCutover peer b t s = _
  unfold execBucketCutover
  dsimp only
  rw [if_neg (by simp [hb]), findColl_tick, hc]
  rfl

variable (hnew : unitKnown s peer (u64At b 8) = false)

include hnew

theorem takeCopy_empty (hzero : u32At b 16 = 0) :
    takeCopy peer b c s = .next (answerRows peer (u64At b 8) 0 0 Status.success 0xFFFF 0 (dropTaken c.id (u16At b 4) peer s)) := by
  simp [takeCopy, hnew, hzero]

theorem takeCopy_rows (hsome : u32At b 16 ≠ 0)
    (hpass : (if u8At b 6 = 1 then recordsFail c.schema (b.drop 32) (u32At b 16) [] 0 else none) = none) :
    takeCopy peer b c s = .next (peerUnit c peer (u64At b 8) (bodyOf c.schema (u8At b 6) (u32At b 16) (b.drop 32))
      (dropTaken c.id (u16At b 4) peer s)) := by
  simp only [takeCopy, hnew, hsome, hpass, Bool.false_eq_true, if_false]

/-- R203: the cutover's rows become the unit that takes the bucket over at the epoch that the message names. -/
theorem takeCutover_rows (hpass : recordsFail c.schema (b.drop 40) (u32At b 16) [] 0 = none) :
    takeCutover peer b c s = .next (peerUnit c peer (u64At b 8)
      (.takeOver (u16At b 4) (u64At b 32) (recordRows c.schema (b.drop 40) (u32At b 16))) (dropTaken c.id (u16At b 4) peer s)) := by
  simp only [takeCutover, hnew, hpass, Bool.false_eq_true, if_false]

end

/-! ## The claim -/

/-- Settles O46: the source's collection holds `newMove` before the move is pumped; what comes to the target is a unit of its source, which `dropTaken`,
that changes the collection alone, does not touch. -/
theorem bucketsMove : Obligations.BucketsMove := by
  refine ⟨?source, ?copy, ?cutover⟩
  case source =>
    exact fun coll c m x s hc hm hx =>
      ⟨fun b r hmove hnext => ⟨_, _, _, exec_bucketMoveStart_begins hc hm hx hmove hnext, findColl_updShard hc, congrArg (Option.map _) hx, rfl, rfl⟩,
        exec_bucketMoveStart_goesOn hc hm hx⟩
  case copy =>
    intro peer t b c s hb hc fits
    refine ⟨fun hunfit => (exec_bucketCopy_formed hb hc).trans (if_pos (not_copyFits.1 hunfit)), fun hfits hnew => ?_⟩
    rw [exec_bucketCopy_formed hb hc, if_neg (mt not_copyFits.2 (not_not.2 hfits))]
    rw [← unitKnown_tick t] at hnew
    exact ⟨takeCopy_empty hnew, fun hsome hpass hroom => ⟨_, takeCopy_rows hnew hsome hpass, peerUnit_dropTaken (s := tick t s) hroom⟩⟩
  case cutover =>
    intro peer t b c s hb hc fits body
    refine ⟨fun hunfit => (exec_bucketCutover_formed hb hc).trans (if_pos (not_cutoverFits.1 hunfit)), fun hfits hnew hpass hroom => ?_⟩
    rw [exec_bucketCutover_formed hb hc, if_neg (mt not_cutoverFits.2 (not_not.2 hfits))]
    rw [← unitKnown_tick t] at hnew
    exact ⟨_, takeCutover_rows hnew hpass, peerUnit_dropTaken (s := tick t s) hroom⟩

end Sys2Proof.BucketMoves
end

section
/-! SUPPORT. The fixed tree of summation (05 R88): the power of two at which a sum of two or more terms is cut, and that `tree`'s fuel covers its depth. -/

namespace Sys2Proof.SumTree

open Machine

/-! ## The left part -/

theorem leftPart_eq_two_pow (n : Nat) : leftPart n = 2 ^ Nat.log2 (n - 1) := by
  rw [leftPart, Nat.one_shiftLeft]

theorem leftPart_lt {n : Nat} (hn : 2 ≤ n) : leftPart n < n := by
  have hle : 2 ^ Nat.log2 (n - 1) ≤ n - 1 := Nat.log2_self_le (by omega)
  rw [leftPart_eq_two_pow]
  omega

/-- `leftPart` is the largest power of two below `n`: twice as much is no longer below. -/
theorem le_two_mul_leftPart (n : Nat) : n ≤ 2 * leftPart n := by
  have hlt : n - 1 < 2 ^ (Nat.log2 (n - 1) + 1) := Nat.lt_log2_self
  rw [leftPart_eq_two_pow]
  omega

theorem leftPart_le_two_pow {n k : Nat} (hn : 2 ≤ n) (hle : n ≤ 2 ^ (k + 1)) : leftPart n ≤ 2 ^ k := by
  have hlog : Nat.log2 (n - 1) < k + 1 := (Nat.log2_lt (by omega)).2 (by omega)
  rw [leftPart_eq_two_pow]
  exact Nat.pow_le_pow_right (by decide) (by omega)

/-! ## The tree and its fuel -/

section
variable {α : Type} (add : α → α → α) (d : α)

theorem treeGo_of_length_le_one {l : List α} (hl : l.length ≤ 1) (k : Nat) : treeGo add d k l = l.headD d := by
  cases k with
  | zero => rfl
  | succ k => exact if_pos hl

theorem treeGo_succ_of_two_le {l : List α} (hl : 2 ≤ l.length) (k : Nat) :
    treeGo add d (k + 1) l = add (treeGo add d k (l.take (leftPart l.length))) (treeGo add d k (l.drop (leftPart l.length))) :=
  if_neg (by omega)

/-- A depth of `k` is enough for `2 ^ k` terms: both parts of a cut fit the depth below. -/
theorem treeGo_add_fuel (j : Nat) : ∀ {k : Nat} {l : List α}, l.length ≤ 2 ^ k → treeGo add d (k + j) l = treeGo add d k l := by
  intro k
  induction k with
  | zero =>
    intro l hl
    rw [treeGo_of_length_le_one add d hl, treeGo_of_length_le_one add d hl]
  | succ k ih =>
    intro l hl
    obtain hone | htwo : l.length ≤ 1 ∨ 2 ≤ l.length := by omega
    · rw [treeGo_of_length_le_one add d hone, treeGo_of_length_le_one add d hone]
    · have hcut := leftPart_le_two_pow htwo hl
      have hrest := le_two_mul_leftPart l.length
      have hleft : (l.take (leftPart l.length)).length ≤ 2 ^ k := by simp [hcut]
      have hright : (l.drop (leftPart l.length)).length ≤ 2 ^ k := by rw [List.length_drop]; omega
      rw [Nat.add_right_comm, treeGo_succ_of_two_le add d htwo, treeGo_succ_of_two_le add d htwo, ih hleft, ih hright]

end

section
variable (add : Machine.Num → Machine.Num → Machine.Num)

/-- `tree` is the tree of every depth that covers its terms. -/
theorem treeGo_eq_tree {k : Nat} {l : List Machine.Num} (hl : l.length ≤ 2 ^ k) : treeGo add Machine.Num.zero k l = tree add l := by
  have hfuel : l.length ≤ 2 ^ (Nat.log2 l.length + 2) :=
    Nat.le_trans Nat.lt_log2_self.le (Nat.pow_le_pow_right (by decide) (by omega))
  rw [tree, ← treeGo_add_fuel add Machine.Num.zero (Nat.log2 l.length + 2) hl, Nat.add_comm, treeGo_add_fuel add Machine.Num.zero k hfuel]

theorem tree_singleton (x : Machine.Num) : tree add [x] = x :=
  treeGo_of_length_le_one add Machine.Num.zero (List.length_singleton (a := x)).le _

/-- R88's recursion, free of fuel. -/
theorem tree_of_two_le {l : List Machine.Num} (hl : 2 ≤ l.length) :
    tree add l = add (tree add (l.take (leftPart l.length))) (tree add (l.drop (leftPart l.length))) := by
  have hfuel : l.length ≤ 2 ^ (Nat.log2 l.length + 1) := Nat.lt_log2_self.le
  rw [tree, treeGo_succ_of_two_le add Machine.Num.zero hl, treeGo_eq_tree add (by rw [List.length_take]; omega),
    treeGo_eq_tree add (by rw [List.length_drop]; omega)]

end

/-! ## The claim -/

/-- Settles O9: the cut is `leftPart`, whose exponent is the binary logarithm of the last index. -/
theorem sumsFollowTheTree : Obligations.SumsFollowTheTree := by
  refine fun add l => ⟨?one, fun hl => ⟨Nat.log2 (l.length - 1), ?more⟩⟩
  case one =>
    rintro x rfl
    exact tree_singleton add x
  case more =>
    rw [← leftPart_eq_two_pow]
    exact ⟨leftPart_lt hl, le_two_mul_leftPart _, tree_of_two_le add hl⟩

end Sys2Proof.SumTree
end

section
/-! SUPPORT. The admission of a command on a collection that names no plan (06 R462): its record, the state, and what its opcode does at once. -/

namespace Sys2Proof.CollectionAdmission

open Machine Laws

variable {s : State} {c : Cmd}

/-- The record `d` of the command `c` once it is admitted. -/
def admittedAs (s : State) (c d : Cmd) : Cmd :=
  { d with
    phase := .admitted
    epoch := epochOf s c
    config := s.settings
    held := ((findColl s c.entry.target).map (·.snapshots)).getD []
    plan := none
    replica := 0
    order := s.ahp.nextOrder }

/-- The state once `c` is admitted and before it does anything. -/
def admission (c : Cmd) (s : State) : State :=
  { s with
    ahp := { s.ahp with cmds := mapIf (fun d => d.seq == c.seq) (admittedAs s c) s.ahp.cmds, nextOrder := s.ahp.nextOrder + 1 }
    power := { s.power with gated := [] } }

theorem admitNow_eq_admission (htarget : targetFail s c = none) (hplan : planKindOf c.entry.opcode = none) (hlayer : memoryLayer c.entry.opcode = false) :
    admitNow c s = admission c s := by
  have hnone : planFail s c = none := by simp [planFail, hplan]
  unfold admitNow
  simp only [htarget, hnone, hlayer, hplan, Bool.false_and, Bool.false_eq_true, if_false, Option.bind_none]
  rfl

theorem findCmd_admission {seq : Nat} (hc : findCmd s seq = some c) : findCmd (admission c s) seq = some (admittedAs s c c) := by
  obtain rfl := findCmd_seq hc
  exact findCmd_upd (f := admittedAs s c) (fun _ => rfl) hc

/-- What one of the commands of the management of collections does at its admission. -/
theorem atAdmission_collection {d : Cmd} {v : State} {k : Coll} (hk : findColl v d.entry.target = some k) (hop : d.entry.opcode ∈ [0x21, 0x22, 0x23, 0x24]) :
    atAdmission d v = collAtAdmission d k v := by
  have hother : ∀ op ∈ [0x21, 0x22, 0x23, 0x24], op ≠ 0x02 ∧ op ≠ 0x04 ∧ op ≠ 0x11 ∧ op ≠ 0x31 := by decide
  obtain ⟨hreset, hlog, hunload, hhead⟩ := hother _ hop
  unfold atAdmission
  dsimp only
  rw [if_neg hreset, if_neg hlog, if_neg hunload, if_neg hhead, hk]

section
variable {seq : Nat} (hc : findCmd s seq = some c) (hphase : c.phase = .dispatched) (hended : holdEnded s c = true) (hopen : s.ahp.admissionOpen = true)
  (htarget : targetFail s c = none)

include hc hphase hended hopen htarget

/-- The end of its hold: the command is admitted, and its opcode does what it does at once. -/
theorem exec_commandAdmit_admits (hplan : planKindOf c.entry.opcode = none) (hlayer : memoryLayer c.entry.opcode = false) :
    exec (.commandAdmit seq) s = .next (atAdmission (admittedAs s c c) (admission c s)) := by
  obtain rfl := findCmd_seq hc
  have hadmit := admitNow_eq_admission htarget hplan hlayer
  have hd : findCmd (admitNow c s) c.seq = some (admittedAs s c c) := hadmit ▸ findCmd_admission hc
  rw [RolesAndPlans.exec_commandAdmit_ended hc hphase hended hopen, RolesAndPlans.endHold_admitted hd rfl rfl, hadmit]

/-- The same of a command on a collection that is held. -/
theorem exec_commandAdmit_collection {k : Coll} (hk : findColl s c.entry.target = some k) (hop : c.entry.opcode ∈ [0x21, 0x22, 0x23, 0x24]) :
    exec (.commandAdmit seq) s = .next (collAtAdmission (admittedAs s c c) k (admission c s)) := by
  have hnoPlan : ∀ op ∈ [0x21, 0x22, 0x23, 0x24], planKindOf op = none ∧ memoryLayer op = false := by decide
  obtain ⟨hplan, hlayer⟩ := hnoPlan _ hop
  rw [exec_commandAdmit_admits hc hphase hended hopen htarget hplan hlayer]
  exact congrArg _ (atAdmission_collection hk hop)

end

/-- The command with what its admission gave. -/
def withReport (b : Bytes) (d : Cmd) : Cmd := { d with report := b }

theorem findCmd_withReport {seq : Nat} {v : State} {d : Cmd} (hd : findCmd v seq = some d) (b : Bytes) :
    findCmd (updCmd seq (withReport b) v) seq = some (withReport b d) :=
  findCmd_upd (f := withReport b) (fun _ => rfl) hd

end Sys2Proof.CollectionAdmission
end

section
/-! SUPPORT. The commands that report: LOG_READ (19 R445), ATTEST (17 R413) and COLLECTION_INFO (06 R126). -/

namespace Sys2Proof.Reports

open Machine Laws CollectionAdmission

variable {s : State} {c : Cmd} {seq : Nat}

/-- The report of a collection rests on the search state, the dictionary values and nothing that an admission changes. -/
theorem collInfo_admission (d : Cmd) (k : Coll) : collInfo (admission d s) k = collInfo s k := rfl

theorem logReport_admission : logReport (admission c s) (admittedAs s c c) = logReport s c := rfl

/-- R445: the records are read at the admission. -/
theorem commandAdmit_logRead (hc : findCmd s seq = some c) (hphase : c.phase = .dispatched) (hended : holdEnded s c = true) (hopen : s.ahp.admissionOpen = true)
    (hop : c.entry.opcode = 0x04) (htarget : targetFail s c = none) :
    ∃ u, exec (.commandAdmit seq) s = .next u ∧ findCmd u seq = some (withReport (logReport s c) (admittedAs s c c)) := by
  obtain rfl := findCmd_seq hc
  have hadmits := exec_commandAdmit_admits hc hphase hended hopen htarget (by rw [hop]; decide) (by rw [hop]; decide)
  have hnotes : atAdmission (admittedAs s c c) (admission c s) = updCmd c.seq (withReport (logReport s c)) (admission c s) := by
    unfold atAdmission
    rw [logReport_admission, show (admittedAs s c c).entry.opcode = 0x04 from hop]
    rfl
  exact ⟨_, hadmits.trans (congrArg _ hnotes), findCmd_withReport (findCmd_admission hc) _⟩

/-- R126: the report of the collection is taken at the admission. -/
theorem commandAdmit_collectionInfo {k : Coll} (hc : findCmd s seq = some c) (hphase : c.phase = .dispatched) (hended : holdEnded s c = true)
    (hopen : s.ahp.admissionOpen = true) (hop : c.entry.opcode = 0x22) (htarget : targetFail s c = none) (hk : findColl s c.entry.target = some k) :
    ∃ u, exec (.commandAdmit seq) s = .next u ∧ findCmd u seq = some (withReport (collInfo s k) (admittedAs s c c)) ∧ u.search = s.search := by
  obtain rfl := findCmd_seq hc
  have hadmits := exec_commandAdmit_collection hc hphase hended hopen htarget hk (by rw [hop]; decide)
  have hnotes : collAtAdmission (admittedAs s c c) k (admission c s) = updCmd c.seq (withReport (collInfo s k)) (admission c s) := by
    unfold collAtAdmission
    rw [collInfo_admission, show (admittedAs s c c).entry.opcode = 0x22 from hop]
    rfl
  exact ⟨_, hadmits.trans (congrArg _ hnotes), findCmd_withReport (findCmd_admission hc) _, rfl⟩

theorem epochOf_held {k : Coll} (hk : findColl s c.entry.target = some k) : epochOf s c = k.epoch := by
  rw [epochOf, hk]; rfl

/-! ## The ends of the commands -/

theorem exec_logRead (hc : admittedCmd s seq 0x04 = some c) :
    exec (.logRead seq) s = .next (if c.entry.arg1 % 2 ^ 32 = 0 then succeed seq 0 [] s
      else succeed seq ((c.report.length - 192) / 64) (c.report ++ signBytes s c.report) (Machine.signed s)) := by
  change execLogRead seq s = _
  unfold execLogRead
  rw [hc]
  exact (apply_ite Host.Outcome.next ..).symm

theorem exec_attest (hc : admittedCmd s seq 0x05 = some c) :
    exec (.attest seq) s = .next (succeed seq (reportBody s c ++ signBytes s (reportBody s c)).length (reportBody s c ++ signBytes s (reportBody s c))
      (bump Key.attestations (Machine.signed s))) := by
  change execAttest seq s = _
  unfold execAttest
  rw [hc]

theorem exec_collectionInfo (hc : admittedCmd s seq 0x22 = some c) : exec (.collectionInfo seq) s = .next (succeed seq c.epoch c.report s) := by
  change execCollectionInfo seq s = _
  unfold execCollectionInfo
  rw [hc]

/-- A signature is a fixed number of bytes. -/
theorem signBytes_ne_nil (b : Bytes) : signBytes s b ≠ [] := by
  intro h
  simpa [signBytes] using congrArg List.length h

/-- A command of a host that ends with SUCCESS has its INFO, whatever output it writes. -/
theorem ready_succeed {info : Nat} {output : Bytes} (hc : findCmd s seq = some c) (hhost : c.internal = false) :
    (ready (succeed seq info output s) seq).map (fun x => (x.status, x.info)) = some (Status.success, info) := by
  unfold succeed
  rw [ready_finish hc hhost]
  rfl

theorem succeed_out {info : Nat} {output : Bytes} (hc : findCmd s seq = some c) (hsome : output ≠ []) :
    (succeed seq info output s).net.out = s.net.out ++ [.write (connOf s c) c.entry.outAddr c.entry.outKey output] := by
  unfold succeed
  rw [finish_out hc, if_neg (by simpa using hsome)]

/-- ATTESTATIONS raises no error class. -/
theorem bump_attestations_box (s : State) : (bump Key.attestations s).box = s.box := by
  have hclass : counterClass Key.attestations = none := by decide
  unfold bump bumpBy
  rw [hclass]
  dsimp only
  unfold addCounter
  split <;> rfl

/-! ## The claim -/

/-- Settles O27: the records and the collection's report are noted by the admission from a state that it leaves as far as they rest on it, and each of the three
commands ends through `succeed`, which changes nothing but its completion and its output. -/
theorem reportsAreWritten : Obligations.ReportsAreWritten := by
  refine ⟨?logAdmission, ?logRead, ?attest, ?infoAdmission, ?info⟩
  case logAdmission =>
    intro seq c s hc hphase hended hopen hop htarget first n
    obtain ⟨u, hexec, hd⟩ := commandAdmit_logRead hc hphase hended hopen hop htarget
    exact ⟨u, _, hexec, hd, rfl, rfl⟩
  case logRead =>
    intro seq c s hc hhost
    have hthere := admittedCmd_findCmd hc
    refine ⟨_, _, exec_logRead hc, rfl, ?_⟩
    split
    case isTrue hzero =>
      exact ⟨ready_succeed hthere hhost, succeed_box .., succeed_search .., succeed_settings .., fun h => absurd hzero h⟩
    case isFalse hsome =>
      have hsigned : findCmd (Machine.signed s) seq = some c := hthere
      exact ⟨ready_succeed hsigned hhost, succeed_box .., succeed_search .., succeed_settings .., fun _ => succeed_out hsigned (by simp [signBytes_ne_nil])⟩
  case attest =>
    intro seq c s hc hhost hwf hlt
    have hthere : findCmd (bump Key.attestations (Machine.signed s)) seq = some c := (findCmd_congr (bump_ahp ..) seq).trans (admittedCmd_findCmd hc)
    refine ⟨_, _, exec_attest hc, ready_succeed hthere hhost, ?_, ?_, ?_, ?_, ?_, List.prefix_append ..⟩
    · rw [counter_congr (succeed_counters ..)]
      exact counter_bump_from (s := s) rfl hwf hlt
    · rw [succeed_box, bump_attestations_box]; rfl
    · rw [succeed_search, bump_search]; rfl
    · rw [succeed_settings, bump_settings]; rfl
    · rw [succeed_out hthere (by simp [signBytes_ne_nil]), bump_net]
      have hconn : connOf (bump Key.attestations (Machine.signed s)) c = connOf s c := by
        unfold connOf findQueue; rw [bump_ahp]; rfl
      rw [hconn]; rfl
  case infoAdmission =>
    intro seq c k s hc hphase hended hopen hop htarget hk
    obtain ⟨u, hexec, hd, hsearch⟩ := commandAdmit_collectionInfo hc hphase hended hopen hop htarget hk
    exact ⟨u, _, hexec, hd, rfl, epochOf_held hk, rfl, hsearch⟩
  case info =>
    intro seq c s hc hhost
    have hthere := admittedCmd_findCmd hc
    exact ⟨_, exec_collectionInfo hc, ready_succeed hthere hhost, succeed_out hthere, succeed_box .., succeed_search .., succeed_settings .., succeed_counters ..⟩

end Sys2Proof.Reports
end

section
/-! SUPPORT. What an operation leaves of a collection: the part of the collection under an identifier that a projection shows. -/

namespace Sys2Proof.CollectionViews

open Machine Laws

variable {s : State} {α : Type} {g : Coll → α}

/-- What `g` shows of the collection `id`, where it is held. -/
def viewAt (g : Coll → α) (s : State) (id : Nat) : Option α := (findColl s id).map g

theorem viewAt_congr {u : State} (h : u.search.colls = s.search.colls) (id : Nat) : viewAt g u id = viewAt g s id := by
  unfold viewAt findColl; rw [h]

theorem viewAt_some {id : Nat} {c : Coll} (hc : findColl s id = some c) : viewAt g s id = some (g c) := by
  rw [viewAt, hc]; rfl

theorem viewAt_eq_some {id : Nat} {x : α} : viewAt g s id = some x ↔ ∃ c, findColl s id = some c ∧ g c = x := Option.map_eq_some_iff

/-- A change of every collection that leaves identifiers and views leaves every view. -/
theorem view_map {f : Coll → Coll} (hid : ∀ c, (f c).id = c.id) (hg : ∀ c, g (f c) = g c) (l : List Coll) (id : Nat) :
    ((l.map f).find? (·.id == id)).map g = (l.find? (·.id == id)).map g := by
  have hfind : (fun c : Coll => c.id == id) ∘ f = fun c => c.id == id := funext fun c => by simp [hid]
  have hview : g ∘ f = g := funext hg
  rw [List.find?_map, hfind, Option.map_map, hview]

/-- A change of one collection that leaves its identifier and its view leaves every view. -/
theorem viewAt_updColl {f : Coll → Coll} (hid : ∀ c, (f c).id = c.id) (hg : ∀ c, g (f c) = g c) (j : Nat) (s : State) (id : Nat) :
    viewAt g (updColl j f s) id = viewAt g s id := by
  refine view_map (fun c => ?_) (fun c => ?_) s.search.colls id
  · split
    · exact hid c
    · rfl
  · split
    · exact hg c
    · rfl

/-- A view without the running structural command is left by that command's stop. -/
theorem viewAt_stopJob (hg : ∀ c, g { c with job := none } = g c) (seq : Nat) (s : State) (id : Nat) : viewAt g (stopJob seq s) id = viewAt g s id := by
  refine view_map (fun c => ?_) (fun c => ?_) s.search.colls id
  · split <;> rfl
  · split
    · exact hg c
    · rfl

/-- A view of what the visibility floor does not release is left when the floor rises. -/
theorem viewAt_settle (hg : ∀ f c, g (releaseBelow f c) = g c) (j : Nat) (s : State) (id : Nat) : viewAt g (settle j s) id = viewAt g s id := by
  unfold settle
  split
  · rfl
  · exact viewAt_updColl (f := releaseBelow _) (fun _ => rfl) (hg _) j s id

/-- The floor is no business of the front end. -/
theorem settle_ahp (j : Nat) (s : State) : (settle j s).ahp = s.ahp := by
  unfold settle
  split <;> rfl

end Sys2Proof.CollectionViews
end

section
/-! SUPPORT. Collections from their creation to the end of their key (06 R104, R105; 17 R407). -/

namespace Sys2Proof.CollectionLife

open Machine Laws CollectionAdmission CollectionViews

variable {s : State} {c : Cmd} {seq : Nat}

/-! ## CREATE_COLLECTION (R104) -/

/-- The completion of a check's failure has its status. -/
theorem ready_failCheck {x : Nat × Nat} (hc : findCmd s seq = some c) (hhost : c.internal = false) : (ready (failCheck seq x s) seq).map (·.status) = some x.1 := by
  unfold failCheck
  split
  case isTrue hfield =>
    unfold failPayload
    rw [ready_finish hc hhost, hfield]; rfl
  case isFalse =>
    unfold fail
    rw [ready_finish hc hhost]; rfl

theorem failCheck_search (seq : Nat) (x : Nat × Nat) (s : State) : (failCheck seq x s).search = s.search := by
  unfold failCheck
  split
  · exact failPayload_search ..
  · exact fail_search ..

/-- The state once collection `k` is made with the schema `b`: listed, with its key and its chain. -/
def made (k : Coll) (b : Bytes) (s : State) : State :=
  coldWrite b.length (chainStart 1 k.id b (createKey 1 k.id { s with search := { s.search with colls := s.search.colls ++ [k] } }))

section
variable {b : Bytes} (hc : admittedCmd s seq 0x20 = some c) (hlen : b.length = c.entry.inLen) (howner : notOwner s c.entry.target = false)

include hc hlen howner

theorem exec_createCollection_exists {k : Coll} (hk : findColl s c.entry.target = some k) :
    exec (.createCollection seq b) s = .next (fail seq Status.collectionExists s) := by
  change execCreateCollection seq b s = _
  simp [execCreateCollection, hc, RolesAndPlans.not_wrongTransfer hlen, howner, hk]

variable (hnew : findColl s c.entry.target = none) (hplace : s.search.colls.length < 4096)

include hnew hplace

theorem exec_createCollection_refused {x : Nat × Nat} (hfail : schemaFail b = some x) :
    exec (.createCollection seq b) s = .next (failCheck seq x s) := by
  change execCreateCollection seq b s = _
  simp [execCreateCollection, hc, RolesAndPlans.not_wrongTransfer hlen, howner, hnew, hplace, hfail]

theorem exec_createCollection_makes (hpass : schemaFail b = none) (hcold : coldRefuses s (ceilDiv b.length 4096) = false)
    (hroom : cmdSetting c Key.appendListLimit * appendEntryBytes b ≤ freeHbm s) :
    exec (.createCollection seq b) s =
      .next (succeed seq 0 [] (made (newColl s c.entry.target (roleOf s c) (cmdSetting c Key.appendListLimit) b) b s)) := by
  have hfits : ¬(coldRefuses s (ceilDiv b.length 4096) = true ∨ freeHbm s < cmdSetting c Key.appendListLimit * appendEntryBytes b) := by
    simpa [hcold] using hroom
  change execCreateCollection seq b s = _
  unfold execCreateCollection
  simp only [hc, RolesAndPlans.not_wrongTransfer hlen, howner, hnew, Option.isSome_none, Bool.false_eq_true, if_false, if_neg hplace.not_ge, hpass]
  exact if_neg hfits

end

/-- A collection that is made under a new identifier is found there. -/
theorem findColl_made {k : Coll} (b : Bytes) (hnew : findColl s k.id = none) : findColl (made k b s) k.id = some k := by
  have hnone : s.search.colls.find? (·.id == k.id) = none := hnew
  change (s.search.colls ++ [k]).find? (·.id == k.id) = some k
  rw [List.find?_append, hnone]
  simp

/-- R414: its chain starts as the digest of its schema. -/
theorem chain_made (k : Coll) (b : Bytes) (s : State) : ({ kind := 1, id := k.id, digest := sm3 b } : Chain) ∈ (made k b s).sec.chains :=
  List.mem_append_right _ (List.mem_singleton.2 rfl)

/-- R406: it has a data key. -/
theorem key_made (k : Coll) (b : Bytes) (s : State) : (made k b s).sec.keys.any (fun x => x.kind == 1 && x.id == k.id) = true := by
  refine List.any_eq_true.2 ⟨{ kind := 1, id := k.id, wrapped := Config.wrapKey s.free 1 k.id }, List.mem_append_right _ (List.mem_singleton.2 rfl), ?_⟩
  simp

/-! ## DELETE_COLLECTION (R105) -/

/-- A structural command that is abandoned leaves its collection with its owner and its schema. -/
theorem ownership_abandonJob (k : Coll) (s : State) (id : Nat) :
    viewAt (fun c => (c.owner, c.schema)) (abandonJob k s) id = viewAt (fun c => (c.owner, c.schema)) s id := by
  refine foldl_same (fun v => viewAt _ v id) (fun u d => ?_) _ s
  rw [viewAt_congr (congrArg Search.colls (fail_search ..)), viewAt_stopJob fun _ => rfl]

/-- From the admission of its deletion on a collection is marked with it. -/
theorem findColl_beginDeleteColl {id : Nat} {k : Coll} (del : Option Nat) (hk : findColl s id = some k) :
    ∃ d, findColl (beginDeleteColl id del s) id = some d ∧ d.deleting = true ∧ d.deleteSeq = del ∧ d.owner = k.owner ∧ d.schema = k.schema := by
  obtain ⟨d, hd, hown⟩ := viewAt_eq_some.1 ((ownership_abandonJob k s id).trans (viewAt_some hk))
  obtain ⟨howner, hschema⟩ := Prod.mk.inj hown
  unfold beginDeleteColl
  rw [hk]
  exact ⟨_, findColl_upd (f := fun x => { x with deleting := true, deleteSeq := del }) (fun _ => rfl) hd, rfl, rfl, howner, hschema⟩

/-- A collection that is being deleted can be named by nobody. -/
theorem collVisible_deleting {id : Nat} {k : Coll} (hk : findColl s id = some k) (hdeleting : k.deleting = true) (role : Nat) (admin : Bool) :
    collVisible s id role admin = false := by
  unfold collVisible
  simp [hk, hdeleting]

theorem commandAdmit_deleteCollection {k : Coll} (hc : findCmd s seq = some c) (hphase : c.phase = .dispatched) (hended : holdEnded s c = true)
    (hopen : s.ahp.admissionOpen = true) (hop : c.entry.opcode = 0x21) (htarget : targetFail s c = none) (hk : findColl s c.entry.target = some k) :
    ∃ u d, exec (.commandAdmit seq) s = .next u ∧ findColl u c.entry.target = some d ∧ d.deleting = true ∧ d.deleteSeq = some seq ∧
      d.owner = k.owner ∧ d.schema = k.schema := by
  obtain rfl := findCmd_seq hc
  have hadmits := exec_commandAdmit_collection hc hphase hended hopen htarget hk (by rw [hop]; decide)
  have hbegins : collAtAdmission (admittedAs s c c) k (admission c s) = beginDeleteColl k.id (some c.seq) (admission c s) := if_pos hop
  have hk' : findColl (admission c s) k.id = some k := (findColl_id hk).symm ▸ hk
  obtain ⟨d, hd, hmarked⟩ := findColl_beginDeleteColl (some c.seq) hk'
  exact ⟨_, d, hadmits.trans (congrArg _ hbegins), findColl_id hk ▸ hd, hmarked⟩

theorem exec_deleteCollection (hc : admittedCmd s seq 0x21 = some c) : exec (.deleteCollection seq) s = .next (startWork seq s) := by
  change execDeleteCollection seq s = _
  unfold execDeleteCollection
  rw [hc]

/-! ## The end of the key (R407) -/

/-- No key of the object is left. -/
theorem keys_destroyKey (kind id : Nat) (s : State) : (destroyKey kind id s).sec.keys.any (fun x => x.kind == kind && x.id == id) = false := by
  unfold destroyKey
  split
  case isTrue =>
    rw [bump_sec]
    exact List.any_eq_false.2 fun x hx => by simpa [imp_iff_not_or] using (List.mem_filter.1 hx).2
  case isFalse hnone => exact Bool.eq_false_iff.2 hnone

theorem findColl_removeObject (id : Nat) (s : State) : findColl (removeObject 1 id s) id = none := by
  refine List.find?_eq_none.2 fun x hx => ?_
  change x ∈ (destroyKey 1 id s).search.colls.filter (·.id ≠ id) at hx
  simpa using (List.mem_filter.1 hx).2

/-- A deletion that nothing holds any more completes, with the command that asked for it where there is one. -/
theorem exec_dataKeyDestroy_completes {id : Nat} {k : Coll} (hk : findColl s id = some k) (hdeleting : k.deleting = true)
    (hfree : objectInUse s 1 id k.deleteSeq = false) :
    ∃ u, exec (.dataKeyDestroy 1 id) s = .next u ∧ u.search = (removeObject 1 id s).search ∧ u.sec = (removeObject 1 id s).sec := by
  change ∃ u, execDataKeyDestroy 1 id s = .next u ∧ _
  unfold execDataKeyDestroy
  simp only [if_pos, hk, Option.map_some, hdeleting, hfree, Bool.false_eq_true, if_false]
  cases k.deleteSeq with
  | none => exact ⟨_, rfl, rfl, rfl⟩
  | some n => exact ⟨_, rfl, succeed_search .., succeed_sec ..⟩

/-! ## The claim -/

/-- Settles O29: a new collection is listed with its chain and its key, the admission of a deletion marks the collection, and the end of the key takes off what
has the collection's identifier. -/
theorem collectionsAreMadeAndDeleted : Obligations.CollectionsAreMadeAndDeleted := by
  refine ⟨?makes, ?exists_, ?refused, ?admission, ?delete, ?destroy⟩
  case makes =>
    intro seq b c s hc hhost hlen howner hnew hplace hpass hcold hroom
    have hthere : findCmd (made (newColl s c.entry.target (roleOf s c) (cmdSetting c Key.appendListLimit) b) b s) seq = some c := admittedCmd_findCmd hc
    refine ⟨_, exec_createCollection_makes hc hlen howner hnew hplace hpass hcold hroom, ?_, ?_, ?_, ready_finish hthere hhost⟩
    · rw [findColl, succeed_search]
      exact findColl_made (k := newColl s c.entry.target (roleOf s c) (cmdSetting c Key.appendListLimit) b) b hnew
    · rw [succeed_sec]; exact chain_made ..
    · rw [succeed_sec]; exact key_made ..
  case exists_ =>
    exact fun seq b c k s hc hhost hlen howner hk =>
      ⟨_, exec_createCollection_exists hc hlen howner hk, fail_search .., ready_finish (admittedCmd_findCmd hc) hhost⟩
  case refused =>
    exact fun seq b c s hc hhost hlen howner hnew hplace x hfail =>
      ⟨_, exec_createCollection_refused hc hlen howner hnew hplace hfail, failCheck_search .., ready_failCheck (admittedCmd_findCmd hc) hhost⟩
  case admission =>
    intro seq c k s hc hphase hended hopen hop htarget hk
    obtain ⟨u, d, hexec, hd, hdeleting, hseq, howner, hschema⟩ := commandAdmit_deleteCollection hc hphase hended hopen hop htarget hk
    exact ⟨u, d, hexec, hd, hdeleting, hseq, howner, hschema, collVisible_deleting hd hdeleting ..⟩
  case delete =>
    exact fun seq c s hc => ⟨_, exec_deleteCollection hc, findCmd_upd (f := fun d => { d with phase := .working }) (fun _ => rfl) (admittedCmd_findCmd hc), rfl⟩
  case destroy =>
    intro id k s hk hdeleting hfree
    obtain ⟨u, hexec, hsearch, hsec⟩ := exec_dataKeyDestroy_completes hk hdeleting hfree
    refine ⟨u, hexec, ?_, ?_⟩
    · rw [findColl, hsearch]; exact findColl_removeObject id s
    · rw [hsec]; exact keys_destroyKey 1 id s

end Sys2Proof.CollectionLife
end

section
/-! SUPPORT. Snapshots: the hold of an epoch and its release at the admission, and the ends of both commands (06 R125; 09 R191). -/

namespace Sys2Proof.Snapshots

open Machine Laws CollectionAdmission CollectionViews

variable {s : State} {c : Cmd} {k : Coll} {seq : Nat}

/-- One hold of the epoch `e` is dropped. -/
def dropHold (e : Nat) (k : Coll) : Coll := { k with snapshots := k.snapshots.erase e }

/-- One more hold of the present epoch `e`. -/
def addHold (e : Nat) (k : Coll) : Coll := { k with snapshots := k.snapshots ++ [e] }

/-- A hold is dropped on the collection of `k`, and the floor may rise. -/
theorem snapshots_dropHold {id : Nat} (hk : findColl s id = some k) (e : Nat) :
    viewAt (·.snapshots) (settle id (updColl id (dropHold e) s)) id = some (k.snapshots.erase e) := by
  rw [viewAt_settle fun _ _ => rfl]
  exact viewAt_some (findColl_upd (f := dropHold e) (fun _ => rfl) hk)

/-! ## The admission of a SNAPSHOT_COLLECTION or a RELEASE_SNAPSHOT -/

section
variable {d : Cmd} (hop : d.entry.opcode = 0x23)

include hop

theorem collAtAdmission_snapshot_full (hfull : 16 ≤ k.snapshots.length) : collAtAdmission d k s = s := by
  unfold collAtAdmission
  rw [hop]
  exact if_pos hfull

theorem collAtAdmission_snapshot_holds (hplace : k.snapshots.length < 16) :
    collAtAdmission d k s =
      updCmd d.seq (withReport [1]) (updColl k.id (addHold k.epoch) s) := by
  unfold collAtAdmission
  rw [hop]
  exact if_neg hplace.not_ge

end

section
variable {d : Cmd} (hop : d.entry.opcode = 0x24)

include hop

theorem collAtAdmission_release_held (hheld : k.snapshots.contains d.entry.arg0 = true) :
    collAtAdmission d k s =
      updCmd d.seq (withReport [1]) (settle k.id (updColl k.id (dropHold d.entry.arg0) s)) := by
  unfold collAtAdmission
  rw [hop]
  exact if_pos hheld

theorem collAtAdmission_release_other (hother : k.snapshots.contains d.entry.arg0 = false) : collAtAdmission d k s = s := by
  unfold collAtAdmission
  rw [hop]
  exact if_neg (Bool.eq_false_iff.1 hother)

end

section
variable (hc : findCmd s seq = some c) (hphase : c.phase = .dispatched) (hended : holdEnded s c = true) (hopen : s.ahp.admissionOpen = true)
  (htarget : targetFail s c = none) (hk : findColl s c.entry.target = some k) (hreport : c.report = [])

include hc hphase hended hopen htarget hk hreport

theorem commandAdmit_snapshot (hop : c.entry.opcode = 0x23) :
    ∃ u, exec (.commandAdmit seq) s = .next u ∧
      findCmd u seq = some (withReport (if k.snapshots.length < 16 then [1] else []) (admittedAs s c c)) ∧
      viewAt (·.snapshots) u c.entry.target = some (if k.snapshots.length < 16 then k.snapshots ++ [k.epoch] else k.snapshots) := by
  obtain rfl := findCmd_seq hc
  have hid := findColl_id hk
  have hadmits := exec_commandAdmit_collection hc hphase hended hopen htarget hk (by rw [hop]; decide)
  have hthere := findCmd_admission hc
  refine ⟨_, hadmits, ?_⟩
  by_cases hplace : k.snapshots.length < 16
  · rw [collAtAdmission_snapshot_holds (d := admittedAs s c c) hop hplace, if_pos hplace, if_pos hplace, hid]
    exact ⟨findCmd_withReport hthere _,
      viewAt_some (findColl_upd (s := admission c s) (f := addHold k.epoch) (fun _ => rfl) hk)⟩
  · rw [collAtAdmission_snapshot_full (d := admittedAs s c c) hop (not_lt.1 hplace), if_neg hplace, if_neg hplace, ← hreport]
    exact ⟨hthere, viewAt_some (s := admission c s) hk⟩

theorem commandAdmit_release (hop : c.entry.opcode = 0x24) :
    ∃ u, exec (.commandAdmit seq) s = .next u ∧
      findCmd u seq = some (withReport (if k.snapshots.contains c.entry.arg0 then [1] else []) (admittedAs s c c)) ∧
      viewAt (·.snapshots) u c.entry.target = some (k.snapshots.erase c.entry.arg0) := by
  obtain rfl := findCmd_seq hc
  have hid := findColl_id hk
  have hadmits := exec_commandAdmit_collection hc hphase hended hopen htarget hk (by rw [hop]; decide)
  have hthere := findCmd_admission hc
  refine ⟨_, hadmits, ?_⟩
  cases hheld : k.snapshots.contains c.entry.arg0 with
  | true =>
    rw [collAtAdmission_release_held (d := admittedAs s c c) hop hheld, hid]
    refine ⟨findCmd_withReport ?_ _, snapshots_dropHold (s := admission c s) hk _⟩
    exact (findCmd_congr (settle_ahp ..) _).trans hthere
  | false =>
    rw [collAtAdmission_release_other (d := admittedAs s c c) hop hheld, List.erase_of_not_mem (by simpa using hheld)]
    refine ⟨?_, viewAt_some (s := admission c s) hk⟩
    rw [if_neg (by decide), ← hreport]
    exact hthere

end

/-! ## The ends of the commands -/

section
variable {t : Nat} {others : Bool} (hc : admittedCmd s seq 0x23 = some c) (hk : findColl s c.entry.target = some k)

include hc hk

theorem exec_snapshotCollection_noPlace (hnone : c.report = []) :
    exec (.snapshotCollection seq others t) s = .next (fail seq Status.capacityExceeded (tick t s)) := by
  change execSnapshotCollection seq others t s = _
  have hc' : admittedCmd (tick t s) seq 0x23 = some c := hc
  have hk' : findColl (tick t s) c.entry.target = some k := hk
  simp [execSnapshotCollection, hc', hk', hnone]

theorem exec_snapshotCollection_held (hheld : c.report ≠ []) (hall : k.shard = none ∨ others = true) :
    exec (.snapshotCollection seq others t) s = .next (succeed seq c.epoch [] (tick t s)) := by
  change execSnapshotCollection seq others t s = _
  have hc' : admittedCmd (tick t s) seq 0x23 = some c := hc
  have hk' : findColl (tick t s) c.entry.target = some k := hk
  have hnot : ¬(k.shard.isSome = true ∧ others = false) := by rcases hall with h | h <;> simp [h]
  unfold execSnapshotCollection
  simp only [hc', hk', hheld, if_false, hnot]

theorem exec_snapshotCollection_refused (hheld : c.report ≠ []) (hshard : k.shard ≠ none) (hothers : others = false) :
    exec (.snapshotCollection seq others t) s =
      .next (settle k.id (fail seq Status.shardUnavailable (updColl k.id (dropHold c.epoch) (tick t s)))) := by
  change execSnapshotCollection seq others t s = _
  have hc' : admittedCmd (tick t s) seq 0x23 = some c := hc
  have hk' : findColl (tick t s) c.entry.target = some k := hk
  have hsome : k.shard.isSome = true ∧ others = false := ⟨Option.isSome_iff_ne_none.2 hshard, hothers⟩
  unfold execSnapshotCollection
  simp only [hc', hk', hheld, if_false, hsome]
  rfl

end

/-- R191: the hold is dropped. -/
theorem snapshots_refused (t : Nat) (hk : findColl s c.entry.target = some k) :
    viewAt (·.snapshots) (settle k.id (fail seq Status.shardUnavailable (updColl k.id (dropHold c.epoch) (tick t s)))) c.entry.target =
    some (k.snapshots.erase c.epoch) := by
  rw [viewAt_settle fun _ _ => rfl, viewAt_congr (congrArg Search.colls (fail_search ..)), findColl_id hk]
  exact viewAt_some (findColl_upd (s := tick t s) (f := dropHold c.epoch) (fun _ => rfl) hk)

theorem exec_releaseSnapshot (hc : admittedCmd s seq 0x24 = some c) :
    exec (.releaseSnapshot seq) s = .next (if c.report = [] then failEntry seq 12 s else succeed seq 0 [] s) := by
  change execReleaseSnapshot seq s = _
  unfold execReleaseSnapshot
  rw [hc]

/-! ## The claim -/

/-- Settles O30: what the admission did is noted in the command's report, by which the command ends. -/
theorem snapshotsAreHeldAndReleased : Obligations.SnapshotsAreHeldAndReleased := by
  refine ⟨?admission, ?snapshot, ?release⟩
  case admission =>
    intro seq c k s hc hphase hended hopen htarget hk hreport
    refine ⟨fun hop => ?_, fun hop => ?_⟩
    · obtain ⟨u, hexec, hd, hview⟩ := commandAdmit_snapshot hc hphase hended hopen htarget hk hreport hop
      exact ⟨u, _, hexec, hd, rfl, Reports.epochOf_held hk, hview, rfl⟩
    · obtain ⟨u, hexec, hd, hview⟩ := commandAdmit_release hc hphase hended hopen htarget hk hreport hop
      exact ⟨u, _, hexec, hd, rfl, hview, rfl⟩
  case snapshot =>
    intro seq t others c k s hc hhost hk
    have hthere : findCmd (tick t s) seq = some c := admittedCmd_findCmd hc
    refine ⟨fun hheld hall => ?_, fun hheld hshard hothers => ?_, fun hnone => ?_⟩
    · exact ⟨_, exec_snapshotCollection_held hc hk hheld hall, succeed_search .., ready_finish hthere hhost⟩
    · refine ⟨_, exec_snapshotCollection_refused hc hk hheld hshard hothers, snapshots_refused t hk, ?_⟩
      unfold ready
      rw [findCmd_congr (settle_ahp ..)]
      exact ready_finish (s := updColl k.id (dropHold c.epoch) (tick t s)) hthere hhost
    · exact ⟨_, exec_snapshotCollection_noPlace hc hk hnone, fail_search .., ready_finish hthere hhost⟩
  case release =>
    intro seq c s hc hhost
    have hthere := admittedCmd_findCmd hc
    refine ⟨fun hheld => ?_, fun hnone => ?_⟩
    · exact ⟨_, (exec_releaseSnapshot hc).trans (congrArg _ (if_neg hheld)), succeed_search .., ready_finish hthere hhost⟩
    · exact ⟨_, (exec_releaseSnapshot hc).trans (congrArg _ (if_pos hnone)), failEntry_search .., ready_finish hthere hhost⟩

end Sys2Proof.Snapshots
end

section
/-! SUPPORT. What the start of a command's stream leaves alone, and the unit that a structural command writes (06 R117, R123). -/

namespace Sys2Proof.VersionUnits

open Machine Laws

variable {s : State}

/-! ## What counting and the requests of a stream leave -/

section
variable {α : Type} (f : State → α)

/-- What rests neither on the counters nor on the free values nor on the black box is left by counting. -/
theorem bumpBy_same (hcounters : ∀ (s : State) x, f { s with counters := x } = f s) (hfree : ∀ (s : State) x, f { s with free := x } = f s)
    (hbox : ∀ (s : State) x, f { s with box := x } = f s) (k n : Nat) (s : State) : f (bumpBy k n s) = f s := by
  have hadd : f (addCounter k n s) = f s := by
    unfold addCounter
    split
    · exact hcounters ..
    · exact (hfree ..).trans (hcounters ..)
  unfold bumpBy
  split
  · exact hadd
  · exact (foldl_same f (fun _ _ => hbox ..) _ _).trans hadd

variable (hcount : ∀ k n s, f (bumpBy k n s) = f s) (hcold : ∀ (s : State) x, f { s with cold := x } = f s)

include hcount hcold

theorem requestPage_same (seq region : Nat) (pinned : Bool) (page : Nat) (s : State) : f (requestPage seq region pinned page s) = f s := by
  unfold requestPage
  split
  · exact (hcount ..).trans (hcold ..)
  · dsimp only
    split
    · exact (hcount ..).trans (hcold ..)
    · exact hcold ..

theorem evict_same (region n : Nat) (s : State) : f (evict region n s) = f s := by
  unfold evict
  exact (hcount ..).trans (hcold ..)

theorem grantPages_same (seq region capacity : Nat) (pinned : Bool) (pages : List Nat) (s : State) : f (grantPages seq region capacity pinned pages s) = f s := by
  have hall : ∀ (l : List Nat) (v : State), f (l.foldl (fun u p => requestPage seq region pinned p u) v) = f v :=
    foldl_same f fun u p => requestPage_same f hcount hcold seq region pinned p u
  unfold grantPages
  dsimp only
  rw [hall]
  exact (evict_same f hcount hcold ..).trans (hall ..)

theorem requestPages_same (seq region capacity : Nat) (pinned : Bool) (pages : List Nat) (s : State) :
    f (requestPages seq region capacity pinned pages s) = f s := by
  unfold requestPages
  dsimp only
  split
  · exact grantPages_same f hcount hcold ..
  · exact (hcount ..).trans (hcold ..)

/-- What also does not rest on the front end is left by the start of a command's stream. -/
theorem startStream_same (hahp : ∀ (s : State) x, f { s with ahp := x } = f s) (seq : Nat) (s : State) : f (startStream seq s) = f s := by
  have hrun : ∀ v : State, f (runStream seq v) = f v := fun v => by
    unfold runStream
    split
    · rfl
    · split
      · rfl
      · dsimp only
        split
        · rfl
        · rw [hcount, hcount, hcount]
          exact (hahp (updCmd seq _ v) _).trans (hahp v _)
  have hask : ∀ v : State, f (askTiles seq v) = f v := fun v => by
    unfold askTiles
    split
    · rfl
    · split
      · rfl
      · exact foldl_same f (fun u x => requestPages_same f hcount hcold ..) _ _
  exact ((hask _).trans (hrun _)).trans (hahp ..)

end

@[simp] theorem startStream_search (seq : Nat) (s : State) : (startStream seq s).search = s.search :=
  startStream_same (·.search) (fun k n u => bumpBy_search u k n) (fun _ _ => rfl) (fun _ _ => rfl) seq s

@[simp] theorem startStream_settings (seq : Nat) (s : State) : (startStream seq s).settings = s.settings :=
  startStream_same (·.settings) (fun k n u => bumpBy_settings u k n) (fun _ _ => rfl) (fun _ _ => rfl) seq s

/-! ## The unit of a structural command -/

/-- The collection's one structural command (R124). -/
def withJob (seq kind : Nat) (k : Coll) : Coll := { k with job := some { seq := seq, kind := kind } }

/-- R124: the command is the collection's structural command. -/
theorem startVersion_job {seq coll kind cut folded : Nat} {tree : Tree} {k : Coll} (hk : findColl s coll = some k) :
    (findColl (startVersion seq coll kind tree cut folded s) coll).bind (·.job) = some { seq := seq, kind := kind } := by
  have hstream : findColl (startStream seq s) coll = some k := by
    unfold findColl; rw [startStream_search]; exact hk
  have hjob : findColl (startVersion seq coll kind tree cut folded s) coll = some (withJob seq kind k) :=
    findColl_upd (f := withJob seq kind) (fun _ => rfl) hstream
  rw [hjob]; rfl

/-- R117: it writes its version as one unit. -/
theorem startVersion_units (seq coll kind : Nat) (tree : Tree) (cut folded : Nat) (s : State) :
    (startVersion seq coll kind tree cut folded s).search.units =
      s.search.units ++ [newUnit s coll (.version tree cut folded) (.command seq) .writing (liveLimits s)] := by
  have htag : (updColl coll (withJob seq kind) (startStream seq s)).search.nextTag = s.search.nextTag := by
    change (startStream seq s).search.nextTag = _
    rw [startStream_search]
  have hnew : newUnit (updColl coll (withJob seq kind) (startStream seq s)) = newUnit s := PeerUnits.newUnit_congr (startStream_settings ..) htag
  change (startStream seq s).search.units ++ [newUnit (updColl coll (withJob seq kind) (startStream seq s)) _ _ _ _ _] = _
  rw [hnew, startStream_search]

end Sys2Proof.VersionUnits
end

section
/-! SUPPORT. Room in the append list, the automatic merge and MERGE (06 R121, R123, R124). -/

namespace Sys2Proof.AppendLists

open Machine Laws VersionUnits CollectionAdmission

variable {s : State}

/-! ## A batch that waits (R121) -/

/-- The unit as it is being written. -/
def inWriting (u : CUnit) : CUnit := { u with phase := .writing }

section
variable {coll : Nat} {x : CUnit} {c : Coll} (hx : s.search.units.find? (fun u => u.coll == coll && u.phase == .waits) = some x) (hc : findColl s coll = some c)

include hx hc

/-- The oldest batch that waits on the collection is looked at again. -/
theorem exec_appendRoomResume_waits (hroom : roomFor s c x.limit x.auto x.body = .wait) : exec (.appendRoomResume coll) s = .next s := by
  obtain ⟨hcoll, -⟩ : x.coll = coll ∧ x.phase = .waits := by simpa using List.find?_some hx
  change execAppendRoomResume coll s = _
  unfold execAppendRoomResume retryUnit
  rw [hx]
  dsimp only
  rw [hcoll, hc]
  dsimp only
  rw [hroom]

theorem exec_appendRoomResume_writes (hroom : roomFor s c x.limit x.auto x.body = .yes) :
    exec (.appendRoomResume coll) s = .next (updUnit x.tag inWriting s) := by
  obtain ⟨hcoll, -⟩ : x.coll = coll ∧ x.phase = .waits := by simpa using List.find?_some hx
  change execAppendRoomResume coll s = _
  unfold execAppendRoomResume retryUnit
  rw [hx]
  dsimp only
  rw [hcoll, hc]
  dsimp only
  rw [hroom]
  rfl

omit hc in
/-- The unit of its tag is being written. -/
theorem findUnit_writing : (findUnit (updUnit x.tag inWriting s) x.tag).map (·.phase) = some .writing := by
  have hsome : (s.search.units.find? (·.tag == x.tag)).isSome = true := List.find?_isSome.2 ⟨x, List.mem_of_find?_eq_some hx, by simp⟩
  obtain ⟨y, hy⟩ := Option.isSome_iff_exists.1 hsome
  have hfind : findUnit (updUnit x.tag inWriting s) x.tag = (findUnit s x.tag).map inWriting :=
    find_mapIf (p := fun u : CUnit => u.tag == x.tag) (f := inWriting) (fun u hu => hu) _
  rw [hfind, findUnit, hy]
  rfl

end

/-! ## The automatic merge (R124) -/

/-- A MERGE that the module started on a collection is there. -/
def autoMerging (s : State) (coll : Nat) : Bool := s.ahp.cmds.any fun d => d.internal && d.entry.target == coll && d.entry.opcode == 0x27

/-- A MERGE does nothing at its admission. -/
theorem atAdmission_merge {d : Cmd} (hop : d.entry.opcode = 0x27) (v : State) : atAdmission d v = v := by
  unfold atAdmission collAtAdmission
  rw [hop]
  simp only [Nat.reduceEqDiff, if_false]
  split <;> rfl

theorem targetFail_autoMerge {coll : Nat} {c : Coll} {v : State} (hc : findColl v coll = some c) (hlive : c.deleting = false) (s : State) :
    targetFail v (autoMergeCmd s coll) = none := by
  have hany : (findColl v coll).any (fun k => !k.deleting) = true := by simp [hc, hlive]
  exact if_pos hany

/-- The end of its hold leaves the search state, and the commands with their entries. -/
theorem endHold_autoMerge {coll : Nat} {c : Coll} {v : State} (hc : findColl v coll = some c) (hlive : c.deleting = false) (s : State)
    (hmerging : autoMerging v coll = true) :
    autoMerging (endHold (autoMergeCmd s coll) v) coll = true ∧ (endHold (autoMergeCmd s coll) v).search = v.search := by
  have hadmit : admitNow (autoMergeCmd s coll) v = admission (autoMergeCmd s coll) v :=
    admitNow_eq_admission (targetFail_autoMerge hc hlive s) rfl rfl
  have hends : endHold (autoMergeCmd s coll) v = admission (autoMergeCmd s coll) v := by
    unfold endHold
    rw [hadmit]
    dsimp only
    split
    case h_1 d hd => exact atAdmission_merge (admittedCmd_phase hd).2 _
    case h_2 => rfl
  rw [hends]
  refine ⟨?_, rfl⟩
  obtain ⟨d, hd, hauto⟩ := List.any_eq_true.1 hmerging
  refine List.any_eq_true.2 ⟨_, List.mem_map_of_mem hd, ?_⟩
  split <;> exact hauto

/-- The state once the module's own MERGE is dispatched. -/
def autoMergeDispatched (coll : Nat) (s : State) : State :=
  { s with ahp := { s.ahp with cmds := s.ahp.cmds ++ [autoMergeCmd s coll], nextSeq := s.ahp.nextSeq + 1 } }

theorem autoMerging_dispatched (coll : Nat) (s : State) : autoMerging (autoMergeDispatched coll s) coll = true :=
  List.any_eq_true.2 ⟨autoMergeCmd s coll, List.mem_append_right _ (List.mem_singleton.2 rfl), by simp [autoMergeCmd]⟩

theorem exec_autoMergeStart_starts {coll : Nat} {c : Coll} (hc : findColl s coll = some c) (htrees : c.trees ≠ []) (hauto : c.autoOff = false)
    (hlive : c.deleting = false) (hdue : mergeDue s c = true) (hnone : (s.ahp.cmds.any fun d => d.internal && d.entry.target == coll) = false) :
    exec (.autoMergeStart coll) s = .next (if holdEnded (autoMergeDispatched coll s) (autoMergeCmd s coll)
      then endHold (autoMergeCmd s coll) (autoMergeDispatched coll s) else autoMergeDispatched coll s) := by
  change execAutoMergeStart coll s = _
  unfold execAutoMergeStart
  rw [hc]
  dsimp only
  rw [hauto, hlive, hdue, hnone, List.isEmpty_eq_false_iff.2 htrees]
  rfl

/-! ## MERGE (R123) -/

section
variable {seq : Nat} {c : Cmd} {k : Coll} (hc : admittedCmd s seq 0x27 = some c) (hk : findColl s c.entry.target = some k)

include hc hk

theorem exec_merge_nothing (hplan : planMerge k (buildCfg c) c.epoch (freeHbm s) = .nothing) : exec (.merge seq) s = .next (succeed seq k.epoch [] s) := by
  change execMerge seq s = _
  unfold execMerge
  rw [hc]
  dsimp only
  rw [hk]
  dsimp only
  rw [hplan]

theorem exec_merge_full (hhost : c.internal = false) (hplan : planMerge k (buildCfg c) c.epoch (freeHbm s) = .full) :
    exec (.merge seq) s = .next (fail seq Status.capacityExceeded s) := by
  change execMerge seq s = _
  unfold execMerge
  rw [hc]
  dsimp only
  rw [hk]
  dsimp only
  rw [hplan]
  dsimp only
  rw [hhost]
  rfl

theorem exec_merge_version {tree : Tree} {folded : Nat} (hplan : planMerge k (buildCfg c) c.epoch (freeHbm s) = .version tree folded)
    (hcold : coldRefuses s (versionPages k.schema tree) = false) :
    exec (.merge seq) s = .next (startVersion seq c.entry.target 1 tree c.epoch folded s) := by
  change execMerge seq s = _
  unfold execMerge
  rw [hc]
  dsimp only
  rw [hk]
  dsimp only
  rw [hplan, findColl_id hk]
  exact if_neg (Bool.eq_false_iff.1 hcold)

end

/-! ## The claim -/

/-- Settles O33: a batch is looked at again by `roomFor`, the module's own MERGE is a command that its admission leaves in its place, and a MERGE follows its plan. -/
theorem appendListsAreFolded : Obligations.AppendListsAreFolded := by
  refine ⟨?room, ?auto, ?merge⟩
  case room =>
    exact fun coll x c s hx hc =>
      ⟨fun hroom => ⟨_, exec_appendRoomResume_writes hx hc hroom, findUnit_writing hx, rfl⟩, exec_appendRoomResume_waits hx hc⟩
  case auto =>
    intro coll c s hc htrees hauto hlive hdue hnone
    refine ⟨_, exec_autoMergeStart_starts hc htrees hauto hlive hdue hnone, ?_⟩
    split
    · exact endHold_autoMerge (v := autoMergeDispatched coll s) hc hlive s (autoMerging_dispatched coll s)
    · exact ⟨autoMerging_dispatched coll s, rfl⟩
  case merge =>
    intro seq c k s hc hhost hk
    have hthere := admittedCmd_findCmd hc
    refine ⟨fun hplan => ?_, fun hplan => ?_, fun tree folded hplan hcold => ?_⟩
    · exact ⟨_, exec_merge_nothing hc hk hplan, succeed_search .., ready_finish hthere hhost⟩
    · exact ⟨_, exec_merge_full hc hk hhost hplan, fail_search .., ready_finish hthere hhost⟩
    · exact ⟨_, exec_merge_version hc hk hplan hcold, startVersion_job hk, startVersion_units ..⟩

end Sys2Proof.AppendLists
end

section
/-! SUPPORT. BUILD_INDEX and LOAD_INDEX (06 R112 to R117). -/

namespace Sys2Proof.IndexBuilds

open Machine Laws VersionUnits

variable {s : State} {seq : Nat} {c : Cmd} {k : Coll}

/-! ## What a command's scratchpad banks leave (12 R273) -/

@[simp] theorem takeBanks_search (c : Cmd) (s : State) : (takeBanks c s).search = s.search := takeBanks_same (·.search) (fun _ _ => rfl) (fun k u => bump_search u k) c s

@[simp] theorem takeBanks_settings (c : Cmd) (s : State) : (takeBanks c s).settings = s.settings :=
  takeBanks_same (·.settings) (fun _ _ => rfl) (fun k u => bump_settings u k) c s

@[simp] theorem takeBanks_ahp (c : Cmd) (s : State) : (takeBanks c s).ahp = s.ahp := takeBanks_same (·.ahp) (fun _ _ => rfl) (fun k u => bump_ahp u k) c s

@[simp] theorem coldRefuses_takeBanks (c : Cmd) (s : State) (pages : Nat) : coldRefuses (takeBanks c s) pages = coldRefuses s pages :=
  takeBanks_same (coldRefuses · pages) (fun _ _ => rfl) (fun k u => bumpBy_same (coldRefuses · pages) (fun _ _ => rfl) (fun _ _ => rfl) (fun _ _ => rfl) k 1 u) c s

/-- R276: no HBM is taken from what is free. -/
@[simp] theorem freeHbm_takeBanks (c : Cmd) (s : State) : freeHbm (takeBanks c s) = freeHbm s := by
  obtain h | ⟨w, -, h⟩ | ⟨l, h⟩ := takeBanks_cases c s <;> rw [h]
  · rfl
  · exact bumpBy_same freeHbm (fun _ _ => rfl) (fun _ _ => rfl) (fun _ _ => rfl) Key.scratchWaits 1 { s with hbm := { s.hbm with waiters := l } }

/-! ## BUILD_INDEX -/

section
variable (hc : admittedCmd s seq 0x28 = some c) (hbanks : awaitsBanks (takeBanks c s) seq = false) (hk : findColl s c.entry.target = some k)
  (hwhole : k.damaged = []) (htiles : (c.plan.bind fun p => allTilesFail (livePlan s p)) = none)

include hc hbanks hk hwhole htiles

/-- A build that has its banks and reads a whole collection through a plan whose tiles pass. -/
theorem exec_buildIndex_reads :
    exec (.buildIndex ⟨seq, Upsets.quiet⟩) s =
      if (liveRows k c.epoch).isEmpty then .next (succeed seq k.epoch [] (takeBanks c s))
      else if partitionLimit k.schema < partitionCount k.schema (liveRows k c.epoch).length then .next (fail seq Status.capacityExceeded (takeBanks c s))
      else if coldRefuses s (versionPages k.schema (builtVersion c k)) ∨ freeHbm s < versionHbm k.schema (builtVersion c k)
      then .next (fail seq Status.capacityExceeded (takeBanks c s))
      else .next (startVersion seq c.entry.target 2 (builtVersion c k) c.epoch (inputEntries k c.epoch) (takeBanks c s)) := by
  have hk' : findColl (takeBanks c s) c.entry.target = some k := by
    unfold findColl; rw [takeBanks_search]; exact hk
  have htiles' : (c.plan.bind fun p => allTilesFail (livePlan (takeBanks c s) p)) = none := by
    unfold livePlan; rw [takeBanks_ahp]; exact htiles
  have hunhurt : buildHurt (takeBanks c s) Upsets.quiet c = false := by
    simp [buildHurt, lostMedia, Upsets.quiet, hk', hwhole, dedup, sortOn, sortBy]
  change execBuildIndex ⟨seq, Upsets.quiet⟩ s = _
  unfold execBuildIndex
  rw [hc]
  dsimp only
  rw [if_neg (Bool.eq_false_iff.1 hbanks), guarded_quiet, if_neg (by decide), if_neg (Bool.eq_false_iff.1 hunhurt), hk', htiles']
  dsimp only
  rw [coldRefuses_takeBanks, freeHbm_takeBanks, findColl_id hk]

theorem exec_buildIndex_empty (hempty : liveRows k c.epoch = []) :
    exec (.buildIndex ⟨seq, Upsets.quiet⟩) s = .next (succeed seq k.epoch [] (takeBanks c s)) := by
  rw [exec_buildIndex_reads hc hbanks hk hwhole htiles, if_pos (List.isEmpty_iff.2 hempty)]

/-- R112: the version is one unit where the number of partitions, the cold tier and free HBM allow it. -/
theorem exec_buildIndex_builds (hlive : liveRows k c.epoch ≠ []) (hparts : partitionCount k.schema (liveRows k c.epoch).length ≤ partitionLimit k.schema)
    (hcold : coldRefuses s (versionPages k.schema (builtVersion c k)) = false) (hroom : versionHbm k.schema (builtVersion c k) ≤ freeHbm s) :
    exec (.buildIndex ⟨seq, Upsets.quiet⟩) s = .next (startVersion seq c.entry.target 2 (builtVersion c k) c.epoch (inputEntries k c.epoch) (takeBanks c s)) := by
  have hfits : ¬(coldRefuses s (versionPages k.schema (builtVersion c k)) = true ∨ freeHbm s < versionHbm k.schema (builtVersion c k)) := by
    simpa [hcold] using hroom
  rw [exec_buildIndex_reads hc hbanks hk hwhole htiles, if_neg (by simpa using hlive), if_neg hparts.not_gt, if_neg hfits]

theorem exec_buildIndex_noRoom (hlive : liveRows k c.epoch ≠ []) (hfull : partitionLimit k.schema < partitionCount k.schema (liveRows k c.epoch).length ∨
      coldRefuses s (versionPages k.schema (builtVersion c k)) = true ∨ freeHbm s < versionHbm k.schema (builtVersion c k)) :
    exec (.buildIndex ⟨seq, Upsets.quiet⟩) s = .next (fail seq Status.capacityExceeded (takeBanks c s)) := by
  rw [exec_buildIndex_reads hc hbanks hk hwhole htiles, if_neg (by simpa using hlive)]
  by_cases hparts : partitionLimit k.schema < partitionCount k.schema (liveRows k c.epoch).length
  · rw [if_pos hparts]
  · rw [if_neg hparts, if_pos (hfull.resolve_left hparts)]

end

/-- A version written after the banks are taken is the one that the state before them writes. -/
theorem startVersion_takeBanks_units (coll kind : Nat) (tree : Tree) (cut folded : Nat) (c : Cmd) (s : State) :
    (startVersion seq coll kind tree cut folded (takeBanks c s)).search.units =
      s.search.units ++ [newUnit s coll (.version tree cut folded) (.command seq) .writing (liveLimits s)] := by
  rw [startVersion_units, PeerUnits.newUnit_congr (takeBanks_settings c s) (congrArg Search.nextTag (takeBanks_search c s)),
    PeerUnits.liveLimits_congr (takeBanks_settings c s), takeBanks_search]

/-! ## LOAD_INDEX (R115, R116) -/

section
variable {b : Bytes} (hc : admittedCmd s seq 0x29 = some c) (hlen : b.length = c.entry.inLen) (hk : findColl s c.entry.target = some k)

include hc hlen hk

theorem exec_loadIndex_refused {x : Nat × Nat} (hfail : imageFail k.schema b ((liveRows k c.epoch).map (·.id)) (heldBook k != []) = some x) :
    exec (.loadIndex seq b) s = .next (failCheck seq x s) := by
  change execLoadIndex seq b s = _
  unfold execLoadIndex
  rw [hc]
  dsimp only
  rw [RolesAndPlans.not_wrongTransfer hlen, if_neg (by decide), hk]
  dsimp only
  rw [hfail]

theorem exec_loadIndex_loads (hpass : imageFail k.schema b ((liveRows k c.epoch).map (·.id)) (heldBook k != []) = none)
    (hcold : coldRefuses s (versionPages k.schema (imageTree k.schema b (liveRows k c.epoch) (heldBook k))) = false)
    (hroom : versionHbm k.schema (imageTree k.schema b (liveRows k c.epoch) (heldBook k)) ≤ freeHbm s) :
    exec (.loadIndex seq b) s =
      .next (startVersion seq c.entry.target 3 (imageTree k.schema b (liveRows k c.epoch) (heldBook k)) c.epoch (inputEntries k c.epoch) s) := by
  have hfits : ¬(coldRefuses s (versionPages k.schema (imageTree k.schema b (liveRows k c.epoch) (heldBook k))) = true ∨
      freeHbm s < versionHbm k.schema (imageTree k.schema b (liveRows k c.epoch) (heldBook k))) := by
    simpa [hcold] using hroom
  change execLoadIndex seq b s = _
  unfold execLoadIndex
  rw [hc]
  dsimp only
  rw [RolesAndPlans.not_wrongTransfer hlen, if_neg (by decide), hk]
  dsimp only
  rw [hpass, findColl_id hk]
  exact if_neg hfits

end

/-! ## The claim -/

/-- Settles O34: a build reads its collection once it has its banks, which take nothing that it tests, and both commands write through `startVersion`. -/
theorem indexesAreBuiltAndLoaded : Obligations.IndexesAreBuiltAndLoaded := by
  refine ⟨?build, ?load⟩
  case build =>
    intro seq c k s hc hhost hbanks hk hwhole htiles
    have hthere : findCmd (takeBanks c s) seq = some c := (findCmd_congr (takeBanks_ahp c s) seq).trans (admittedCmd_findCmd hc)
    have hk' : findColl (takeBanks c s) c.entry.target = some k := by
      unfold findColl; rw [takeBanks_search]; exact hk
    refine ⟨fun hempty => ?_, fun hlive hparts hcold hroom => ?_, fun hlive hfull => ?_⟩
    · exact ⟨_, exec_buildIndex_empty hc hbanks hk hwhole htiles hempty, (succeed_search ..).trans (takeBanks_search c s), ready_finish hthere hhost⟩
    · exact ⟨_, exec_buildIndex_builds hc hbanks hk hwhole htiles hlive hparts hcold hroom, startVersion_job hk', startVersion_takeBanks_units ..⟩
    · exact ⟨_, exec_buildIndex_noRoom hc hbanks hk hwhole htiles hlive hfull, (fail_search ..).trans (takeBanks_search c s), ready_finish hthere hhost⟩
  case load =>
    intro seq b c k s hc hhost hlen hk
    refine ⟨fun hpass hcold hroom => ?_, fun x hfail => ?_⟩
    · exact ⟨_, exec_loadIndex_loads hc hlen hk hpass hcold hroom, startVersion_job hk, startVersion_units ..⟩
    · exact ⟨_, exec_loadIndex_refused hc hlen hk hfail, CollectionLife.failCheck_search .., CollectionLife.ready_failCheck (admittedCmd_findCmd hc) hhost⟩

end Sys2Proof.IndexBuilds
end

section
/-! SUPPORT. The commit of a durable unit (06 R117, R119, R120): what its stamp leaves on the collection, and what the outcome of the unit does not touch. -/

namespace Sys2Proof.UnitCommits

open Machine Laws CollectionViews

variable {s : State}

/-! ## What the outcome of a unit leaves of a collection -/

section
variable {α : Type} {g : Coll → α} (hshard : ∀ c x, g { c with shard := x } = g c)

theorem viewAt_search {u : State} (h : u.search = s.search) (id : Nat) : viewAt g u id = viewAt g s id := viewAt_congr (congrArg Search.colls h) id

include hshard

/-- The sharding state of a collection after `queue` has committed at `epoch`. -/
def reachedBy (queue epoch : Nat) (x : Shard) : Shard :=
  { x with reach := x.reach.filter (·.1 ≠ queue) ++ [(queue, max epoch (((x.reach.find? (·.1 == queue)).map (·.2)).getD 0))] }

/-- A queue's reach is noted in the sharding state. -/
theorem viewAt_noteReach (coll queue epoch : Nat) (s : State) (id : Nat) : viewAt g (noteReach coll queue epoch s) id = viewAt g s id :=
  viewAt_updColl (f := fun c => { c with shard := c.shard.map (reachedBy queue epoch) }) (fun _ => rfl) (fun c => hshard c _) coll s id

theorem viewAt_endIngest (i : Ingest) (status : Nat) (s : State) (id : Nat) : viewAt g (endIngest i status s) id = viewAt g s id := by
  unfold endIngest
  split
  · rfl
  · dsimp only
    rw [viewAt_search (finish_search ..), viewAt_noteReach hshard]
    rfl

theorem viewAt_ownPart (i : Ingest) (c : Coll) (body : UnitBody) (s : State) (id : Nat) : viewAt g (ownPart i c body s) id = viewAt g s id := by
  unfold ownPart
  dsimp only
  split
  · rfl
  · rfl
  · exact viewAt_endIngest hshard ..
  · exact viewAt_endIngest hshard ..

omit hshard in
theorem viewAt_forwardPart (i : Ingest) (sch : Bytes) (rows : List Row) (ids : List Nat) (s : State) (dest : Nat × Nat) (id : Nat) :
    viewAt g (forwardPart i sch rows ids s dest) id = viewAt g s id := viewAt_search (sendSpp_search ..) id

theorem viewAt_runBatch (i : Ingest) (rows : List Row) (ids : List Nat) (s : State) (id : Nat) : viewAt g (runBatch i rows ids s) id = viewAt g s id := by
  unfold runBatch
  split
  · rfl
  · dsimp only
    split
    · exact viewAt_ownPart hshard ..
    · have hsent : ∀ (sch : Bytes) (r : Nat × Nat → List Row) (n : Nat × Nat → List Nat) (l : List (Nat × Nat)) (v : State),
          viewAt g (l.foldl (fun u dest => forwardPart i sch (r dest) (n dest) u dest) v) id = viewAt g v id :=
        fun sch r n => foldl_same (fun v => viewAt g v id) fun u dest => viewAt_forwardPart i sch (r dest) (n dest) u dest id
      split
      · exact hsent ..
      · exact (viewAt_ownPart hshard ..).trans (hsent ..)

theorem viewAt_nextBatch (seq : Nat) (s : State) (id : Nat) : viewAt g (nextBatch seq s) id = viewAt g s id := by
  unfold nextBatch
  split
  · rfl
  · split
    · exact viewAt_runBatch hshard ..
    · exact viewAt_runBatch hshard ..
    · exact viewAt_endIngest hshard ..

theorem viewAt_partDone (seq : Nat) (mine : Ingest → Ingest) (e count : Nat) (s : State) (id : Nat) : viewAt g (partDone seq mine e count s) id = viewAt g s id := by
  unfold partDone
  split
  · rfl
  · dsimp only
    split_ifs
    · exact viewAt_nextBatch hshard ..
    · rfl
    · exact viewAt_nextBatch hshard ..
    · rfl

variable (hjob : ∀ c, g { c with job := none } = g c)

include hjob

theorem viewAt_jobDone (coll seq epoch : Nat) (s : State) (id : Nat) : viewAt g (jobDone coll seq epoch s) id = viewAt g s id := by
  have hended : ∀ v : State, viewAt g { v with search := { v.search with
      colls := mapIf (fun c : Coll => c.job.any (·.seq == seq)) (fun c => { c with job := none }) v.search.colls } } id = viewAt g v id := fun v => by
    refine view_map (fun c => ?_) (fun c => ?_) v.search.colls id
    · split <;> rfl
    · split
      · exact hjob c
      · rfl
  unfold jobDone
  dsimp only
  rw [viewAt_search (succeed_search ..), hended]
  split
  · rfl
  · exact viewAt_noteReach hshard ..

/-- The outcome of a unit goes to its command or its sender, and leaves what the collections hold. -/
theorem viewAt_unitDone (u : CUnit) (e count : Nat) (s : State) (id : Nat) : viewAt g (unitDone u e count s) id = viewAt g s id := by
  unfold unitDone
  split
  · rfl
  · exact viewAt_search (sendSpp_search ..) id
  · split
    · exact viewAt_jobDone hshard hjob ..
    · exact viewAt_partDone hshard ..

end

/-! ## What a stamp leaves on its collection (R117, R119) -/

/-- What a collection holds of committed units, with its epoch. -/
def contents (c : Coll) : Nat × List Tree × List AEntry × List Tomb := (c.epoch, c.trees, c.append, c.tombs)

/-- The collection that takes the unit `x` at `e`, before its visibility floor is looked at. -/
def stamped (x : CUnit) (e : Nat) (c : Coll) : Coll := noteHandOver x.body (noteMove x.body e (noteStamp x.tag e (stampBody x.body e c)))

theorem stampBody_id (b : UnitBody) (e : Nat) (c : Coll) : (stampBody b e c).id = c.id := by cases b <;> rfl

theorem stampBody_epoch (b : UnitBody) (e : Nat) (c : Coll) : (stampBody b e c).epoch = c.epoch := by cases b <;> rfl

theorem noteHandOver_id (b : UnitBody) (c : Coll) : (noteHandOver b c).id = c.id := by
  unfold noteHandOver
  split <;> rfl

/-- What a stamp notes beside the unit's own effect lies in the sharding state. -/
theorem contents_stamped (x : CUnit) (e : Nat) (c : Coll) : contents (stamped x e c) = contents (stampBody x.body e c) := by
  unfold stamped noteHandOver
  split <;> rfl

theorem bypassWrite_search (p : MediaObj → Bool) (s : State) : (bypassWrite p s).search = s.search := by
  unfold bypassWrite
  split <;> rfl

theorem stampUnit_search (x : CUnit) {e : Nat} {c : Coll} (hc : findColl s x.coll = some c) :
    (stampUnit x e s).search = (updColl x.coll (fun y => noteStamp x.tag e (stampBody x.body e y)) s).search := by
  unfold stampUnit
  rw [hc]
  dsimp only
  rw [clearLost_search, bypassWrite_search, chainExtend_search, findColl_id hc]
  rfl

theorem findColl_stamped (x : CUnit) {e : Nat} {c : Coll} (hc : findColl s x.coll = some c) :
    findColl (updColl x.coll (fun y => noteHandOver x.body (noteMove x.body e y)) (stampUnit x e (dropUnit x.tag s))) x.coll = some (stamped x e c) := by
  refine findColl_upd (c := noteStamp x.tag e (stampBody x.body e c)) (fun y => noteHandOver_id ..) ?_
  unfold findColl
  rw [stampUnit_search x (s := dropUnit x.tag s) hc]
  exact findColl_upd (s := dropUnit x.tag s) (f := fun y => noteStamp x.tag e (stampBody x.body e y)) (fun y => stampBody_id ..) hc

theorem settle_found {id : Nat} {c : Coll} (hc : findColl s id = some c) : findColl (settle id s) id = some (releaseBelow (floorOf s c) c) := by
  unfold settle
  rw [hc]
  exact findColl_upd (f := releaseBelow _) (fun _ => rfl) hc

theorem floorOf_le (s : State) (c : Coll) : floorOf s c ≤ c.epoch := by
  have hmin : ∀ (l : List Nat) (a : Nat), l.foldl min a ≤ a := fun l => by
    induction l with
    | nil => exact fun a => le_refl a
    | cons x r ih => exact fun a => (ih _).trans (min_le_left ..)
  exact hmin ..

/-- A unit that commits leaves the contents of its stamp, less what the floor releases. -/
theorem commitAt_contents (x : CUnit) (e : Nat) {c : Coll} (hc : findColl s x.coll = some c) :
    ∃ f ≤ c.epoch, viewAt contents (commitAt x e s) x.coll = some (contents (releaseBelow f (stamped x e c))) := by
  have hfound := findColl_stamped x (e := e) hc
  have hepoch : (stamped x e c).epoch = c.epoch := (congrArg Prod.fst (contents_stamped x e c)).trans (stampBody_epoch ..)
  refine ⟨floorOf (updColl x.coll (fun y => noteHandOver x.body (noteMove x.body e y)) (stampUnit x e (dropUnit x.tag s))) (stamped x e c),
    hepoch ▸ floorOf_le .., ?_⟩
  unfold commitAt
  rw [hc]
  dsimp only
  rw [viewAt_unitDone (fun _ _ => rfl) (fun _ => rfl)]
  exact viewAt_some (settle_found hfound)

/-! ## What the floor does not release (R122) -/

/-- An entry that no version holds stays. -/
theorem append_releaseBelow {f : Nat} {c : Coll} {a : AEntry} (ha : a ∈ c.append) (hlive : a.foldedAt = none) : a ∈ (releaseBelow f c).append :=
  List.mem_filter.mpr ⟨ha, by rw [hlive]⟩

/-- A tombstone that no version has applied stays. -/
theorem tomb_releaseBelow {f : Nat} {c : Coll} {t : Tomb} (ht : t ∈ c.tombs) (hlive : t.foldedAt = none) :
    (releaseBelow f c).tombs.any (fun y => y.id == t.id && y.epoch == t.epoch) = true := by
  refine List.any_eq_true.mpr ⟨_, List.mem_map.mpr ⟨t, List.mem_filter.mpr ⟨ht, by rw [hlive]⟩, rfl⟩, ?_⟩
  split <;> simp

/-- The newest version stays, where the floor is not above it. -/
theorem head_releaseBelow {f : Nat} {c : Coll} {tree : Tree} {l : List Tree} (ht : c.trees = tree :: l) (hf : f ≤ tree.epoch) :
    (releaseBelow f c).trees.head? = some tree := by
  have hold : ((c.trees.find? (·.epoch ≤ f)).map (·.epoch)).getD 0 ≤ tree.epoch := by
    cases h : c.trees.find? (·.epoch ≤ f) with
    | none => exact Nat.zero_le _
    | some y => exact (by simpa using List.find?_some h : y.epoch ≤ f).trans hf
  show (c.trees.filter _).head? = _
  rw [ht] at hold ⊢
  rw [List.filter_cons_of_pos (by simpa using hold)]
  rfl

theorem mem_dedup {α : Type} [BEq α] [LawfulBEq α] {a : α} : ∀ {l : List α}, a ∈ l → a ∈ dedup l
  | x :: r, h => by
    by_cases hx : a = x
    · exact hx ▸ List.mem_cons_self
    · exact List.mem_cons_of_mem _ (List.mem_filter.mpr ⟨mem_dedup ((List.mem_cons.mp h).resolve_left hx), by simpa using hx⟩)

/-- R119: an identifier that is live gets its tombstone. -/
theorem mem_tombsFor {c : Coll} {ids : List Nat} {e i : Nat} (hi : i ∈ ids) (hlive : (liveRows c (e - 1)).any (·.id == i) = true) :
    { id := i, epoch := e, recent := true, foldedAt := none } ∈ tombsFor c ids e := by
  obtain ⟨r, hr, hid⟩ := List.any_eq_true.mp hlive
  have hheld : i ∈ (liveRows c (e - 1)).map (·.id) := List.mem_map.mpr ⟨r, hr, by simpa using hid⟩
  exact List.mem_map.mpr ⟨i, List.mem_filter.mpr ⟨mem_dedup hi, by simpa using hheld⟩, rfl⟩

/-- R120: what the stamp of an unsharded unit leaves at the epoch after the collection's. -/
theorem stamped_holds (x : CUnit) (c d : Coll) {f : Nat} (hf : f ≤ c.epoch + 1)
    (hd : contents d = contents (releaseBelow f (stamped x (c.epoch + 1) { c with epoch := c.epoch + 1 }))) :
    d.epoch = c.epoch + 1 ∧
    (∀ rows, x.body = .insert rows → ∀ r ∈ rows, { row := { r with epoch := c.epoch + 1 }, foldedAt := none } ∈ d.append) ∧
    (∀ ids, x.body = .delete ids → ∀ i ∈ ids, (liveRows c c.epoch).any (·.id == i) = true →
      d.tombs.any (fun t => t.id == i && t.epoch == c.epoch + 1) = true) ∧
    (∀ tree cut folded, x.body = .version tree cut folded → d.trees.head? = some { tree with epoch := c.epoch + 1 }) := by
  have hstamp := contents_stamped x (c.epoch + 1) { c with epoch := c.epoch + 1 }
  simp only [contents, Prod.mk.injEq] at hd hstamp
  obtain ⟨hepoch, htrees, happend, htombs⟩ := hd
  obtain ⟨hepoch', htrees', happend', htombs'⟩ := hstamp
  refine ⟨hepoch.trans (hepoch'.trans (stampBody_epoch ..)), fun rows hb r hr => ?_, fun ids hb i hi hlive => ?_, fun tree cut folded hb => ?_⟩
  · rw [hb] at happend'
    exact happend ▸ append_releaseBelow (happend' ▸ List.mem_append_right _ (List.mem_map.mpr ⟨r, hr, rfl⟩)) rfl
  · rw [hb] at htombs'
    have htomb : { id := i, epoch := c.epoch + 1, recent := true, foldedAt := none } ∈ (stamped x (c.epoch + 1) { c with epoch := c.epoch + 1 }).tombs :=
      htombs' ▸ List.mem_append_right _ (mem_tombsFor hi hlive)
    exact htombs ▸ tomb_releaseBelow htomb rfl
  · rw [hb] at htrees'
    exact htrees ▸ head_releaseBelow htrees' hf

/-! ## UNIT_COMMIT (R120) -/

section
variable {tag t : Nat} {x : CUnit} {c : Coll} (hx : findUnit s tag = some x) (hphase : x.phase = .writing) (hc : findColl s x.coll = some c)

include hx hphase hc

theorem exec_unitCommit_waits (hwaits : commitWaits (tick t s) c = true) : exec (.unitCommit tag t) s = .next (tick t s) := by
  have hx' : findUnit (tick t s) tag = some x := hx
  have hc' : findColl (tick t s) x.coll = some c := hc
  show execUnitCommit tag t s = _
  simp [execUnitCommit, hx', hphase, hc', hwaits]

variable (hgoes : commitWaits (tick t s) c = false) (hown : ∀ b e r, x.body ≠ .takeOver b e r)

include hgoes hown

theorem exec_unitCommit_goes : exec (.unitCommit tag t) s =
    match shardMapOf s x.coll with
    | none => .next (commitAt x (c.epoch + 1) (updColl x.coll (fun y => { y with epoch := y.epoch + 1 }) (tick t s)))
    | some m => .next (pumpMove x.coll (askEpoch { x with phase := .logged } m (updUnit tag (fun y => { y with phase := .logged }) (tick t s)))) := by
  have hx' : findUnit (tick t s) tag = some x := hx
  have hc' : findColl (tick t s) x.coll = some c := hc
  show execUnitCommit tag t s = _
  unfold execUnitCommit
  dsimp only
  rw [hx']
  dsimp only
  rw [if_neg (not_not.mpr hphase), hc']
  dsimp only
  rw [if_neg (by simp [hgoes])]
  cases hb : x.body with
  | takeOver b e r => exact absurd hb (hown b e r)
  | _ => rfl

theorem exec_unitCommit_unsharded (hmap : shardMapOf s x.coll = none) : exec (.unitCommit tag t) s =
    .next (commitAt x (c.epoch + 1) (updColl x.coll (fun y => { y with epoch := y.epoch + 1 }) (tick t s))) := by
  rw [exec_unitCommit_goes hx hphase hc hgoes hown, hmap]

/-- R189: the owner of a shard asks the keeper for the epoch of its unit. -/
theorem exec_unitCommit_asks {m : ShardMap} (hmap : shardMapOf s x.coll = some m) (hkeeper : isKeeper (tick t s) m = false) :
    exec (.unitCommit tag t) s = .next (pumpMove x.coll (sendSpp m.keeper Spp.epochAlloc
      (toLE 4 x.coll ++ toLE 2 ((ownShard (tick t s) m).getD 0) ++ zeros 2 ++ toLE 8 x.tag) (updUnit tag (fun y => { y with phase := .logged }) (tick t s)))) := by
  rw [exec_unitCommit_goes hx hphase hc hgoes hown, hmap]
  have hkeeper' : isKeeper (updUnit tag (fun y => { y with phase := .logged }) (tick t s)) m = false := hkeeper
  show Host.Outcome.next (pumpMove x.coll (askEpoch ..)) = _
  rw [askEpoch, if_neg (by simp [hkeeper'])]
  rfl

end

/-- Settles O32: the collection after a commit is the stamped one less what the floor releases, and the floor is at most its epoch. -/
theorem unitsCommitAtTheNextEpoch : Obligations.UnitsCommitAtTheNextEpoch := by
  unfold Obligations.UnitsCommitAtTheNextEpoch
  refine ⟨fun tag t x c s hx hphase hc hgoes hown => ⟨fun hmap => ?_, fun m hmap hkeeper => ?_⟩, fun tag t x c s hx hphase hc hwaits => ?_⟩
  · have hnext : findColl (updColl x.coll (fun y => { y with epoch := y.epoch + 1 }) (tick t s)) x.coll = some { c with epoch := c.epoch + 1 } :=
      findColl_upd (s := tick t s) (fun _ => rfl) hc
    obtain ⟨f, hf, hview⟩ := commitAt_contents x (c.epoch + 1) hnext
    obtain ⟨d, hd, hcontents⟩ := viewAt_eq_some.mp hview
    exact ⟨_, d, exec_unitCommit_unsharded hx hphase hc hgoes hown hmap, hd, stamped_holds x c d hf hcontents⟩
  · exact ⟨_, exec_unitCommit_asks hx hphase hc hgoes hown hmap hkeeper, rfl⟩
  · exact exec_unitCommit_waits hx hphase hc hwaits

end Sys2Proof.UnitCommits
end

section
/-! SUPPORT. Epochs and time (06 R122; 09 R189 to R192, R205). -/

namespace Sys2Proof.EpochTimes

open Machine Laws CollectionViews UnitCommits

variable {s : State} {coll t : Nat} {c : Coll} {x : Shard}

theorem shard_tick (hc : findColl s coll = some c) (hx : c.shard = some x) : (findColl (tick t s) coll).bind (·.shard) = some x := by
  have hc' : findColl (tick t s) coll = some c := hc
  rw [hc']
  exact hx

/-! ## EPOCH_VOID (R189, R192) -/

/-- The grants of `epoch` are void. -/
def voidGrants (epoch : Nat) (x : Shard) : Shard :=
  { x with grants := mapIf (fun h : Grant => h.epoch == epoch) (fun h => { h with state := .void }) x.grants }

/-- The state in which the grant of `epoch` has been voided and counted. -/
def voided (coll epoch : Nat) (s : State) : State := bump Key.epochsVoided (updShard coll (voidGrants epoch) s)

theorem findColl_voided {epoch : Nat} (hc : findColl s coll = some c) :
    findColl (voided coll epoch s) coll = some { c with shard := c.shard.map (voidGrants epoch) } := by
  unfold voided findColl
  rw [bump_search]
  exact BucketMoves.findColl_updShard hc

section
variable {epoch : Nat} {m : ShardMap} {g : Grant} (hmap : shardMapOf (tick t s) coll = some m) (hc : findColl s coll = some c) (hx : c.shard = some x)
  (hg : x.grants.find? (fun g => g.epoch == epoch && g.state == .granted) = some g)

include hmap hc hx hg

theorem exec_epochVoid_early (hearly : max s.now t < g.due) : exec (.epochVoid coll epoch t) s = .next (tick t s) := by
  show execEpochVoid coll epoch t s = _
  unfold execEpochVoid
  dsimp only
  rw [hmap, shard_tick hc hx]
  dsimp only
  rw [hg]
  exact if_pos (.inr hearly)

theorem exec_epochVoid_due (hkeeper : isKeeper (tick t s) m = true) (hdue : g.due ≤ max s.now t) :
    exec (.epochVoid coll epoch t) s = .next (raiseStable m coll (if g.owner = moduleIndex (tick t s) then voidTag coll g.tag (voided coll epoch (tick t s))
      else sendSpp g.owner Spp.epochGrant (grantPayload coll 1 g.tag 0) (voided coll epoch (tick t s)))) := by
  have hnot : ¬(isKeeper (tick t s) m = false ∨ (tick t s).now < g.due) := by
    rw [hkeeper]
    exact not_or.mpr ⟨Bool.noConfusion, hdue.not_gt⟩
  show execEpochVoid coll epoch t s = _
  unfold execEpochVoid
  dsimp only
  rw [hmap, shard_tick hc hx]
  dsimp only
  rw [hg]
  exact if_neg hnot

end

/-! ## EPOCH_HOLD_EXPIRY (R191) -/

theorem le_maxOf {l : List Nat} {a : Nat} (h : a ∈ l) : a ≤ maxOf l := by
  rw [maxOf, ← List.foldr_eq_foldl]
  exact List.le_max_of_le h le_rfl

/-- The sharding state of a collection at `epoch` after the epochs that were learned `hold` before `now` have ended. -/
def expired (now hold epoch : Nat) (x : Shard) : Shard :=
  let from_ := max x.holdFrom (min epoch (maxOf ((x.learned.filter fun p => decide (p.2 + hold ≤ now)).map fun p => p.1 + 1)))
  { x with
    learned := x.learned.filter fun p => !decide (p.2 + hold ≤ now)
    holdFrom := from_
    stamped := x.stamped.filter fun k => from_ ≤ k.2
    taken := x.taken.filter fun k => from_ ≤ k.2.1 }

theorem expired_keeps_present {now hold epoch : Nat} : (expired now hold epoch x).holdFrom ≤ max x.holdFrom epoch := max_le_max_left _ (min_le_left ..)

theorem expired_ends {now hold epoch : Nat} {p : Nat × Nat} (hp : p ∈ x.learned) (hlearned : p.2 + hold ≤ now) (hpast : p.1 < epoch) :
    p.1 < (expired now hold epoch x).holdFrom := by
  exact lt_max_of_lt_right (lt_min hpast (le_maxOf (List.mem_map.mpr ⟨p, List.mem_filter.mpr ⟨hp, decide_eq_true hlearned⟩, rfl⟩)))

theorem findColl_epochHoldExpiry (hc : findColl s coll = some c) (hx : c.shard = some x) :
    ∃ u d, exec (.epochHoldExpiry coll t) s = .next u ∧ findColl u coll = some d ∧ d.epoch = c.epoch ∧
      d.shard = some (expired (max s.now t) (settingUs s Key.epochHoldUs) c.epoch x) := by
  have hdropped : findColl (updColl coll (dropHeld (tick t s).now (settingUs s Key.epochHoldUs)) (tick t s)) coll =
      some (dropHeld (tick t s).now (settingUs s Key.epochHoldUs) c) := findColl_upd (s := tick t s) (fun _ => rfl) hc
  refine ⟨_, _, rfl, settle_found hdropped, rfl, ?_⟩
  show c.shard.map _ = _
  rw [hx]
  rfl

/-! ## STABLE_INTERVAL_EXPIRY (R190) -/

theorem exec_stableIntervalExpiry_sends {m : ShardMap} (hmap : shardMapOf (tick t s) coll = some m) (hc : findColl s coll = some c) (hx : c.shard = some x)
    (hkeeper : isKeeper (tick t s) m = true) (hnew : x.stableSent < c.epoch) (hdue : x.stableAt + settingUs s Key.stableIntervalUs ≤ max s.now t) :
    exec (.stableIntervalExpiry coll t) s = .next (sendStable m coll c.epoch (tick t s)) := by
  have hc' : findColl (tick t s) coll = some c := hc
  show execStableIntervalExpiry coll t s = _
  unfold execStableIntervalExpiry
  dsimp only
  rw [hmap, hc']
  dsimp only
  rw [hx]
  exact congrArg _ (if_pos (by rw [hkeeper, decide_eq_true hnew]; exact decide_eq_true hdue))

theorem relayStable_search (m : ShardMap) (coll stable : Nat) (s : State) : (relayStable m coll stable s).search = s.search := by
  unfold relayStable
  split
  · rfl
  · exact sendAll_search ..

theorem findColl_sendStable (m : ShardMap) (stable : Nat) (hc : findColl s coll = some c) :
    findColl (sendStable m coll stable s) coll = some { c with shard := c.shard.map fun x => { x with stableSent := stable, stableAt := s.now } } := by
  unfold sendStable findColl
  rw [relayStable_search]
  exact BucketMoves.findColl_updShard hc

/-! ## KEEPER_UNREACHABLE_TIMEOUT (R192, R205) -/

/-- A command whose keeper or owner does not answer ends with what has committed of it. -/
theorem ready_endIngest_unavailable {g : Ingest} {cmd : Cmd} (hcmd : findCmd s g.seq = some cmd) (hhost : cmd.internal = false) :
    (ready (endIngest g Status.shardUnavailable s) g.seq).map (fun x => (x.status, x.info)) =
      some (Status.shardUnavailable, if g.insert then g.committed else g.live) := by
  have hthere : ∀ search, findCmd (noteReach g.coll cmd.queue g.lastEpoch { s with search := search }) g.seq = some cmd := fun _ => hcmd
  unfold endIngest
  rw [hcmd]
  dsimp only
  rw [ready_finish (hthere _) hhost]
  rfl

theorem exec_keeperUnreachableTimeout {seq : Nat} {g : Ingest} (hg : findIngest s seq = some g)
    (hasked : ((s.search.units.any fun u => unitOf seq u && u.phase == .logged) || !g.fwds.isEmpty) = true) :
    exec (.keeperUnreachableTimeout seq t) s =
      .next (if g.since + settingUs s Key.shardTimeoutUs ≤ max s.now t then endIngest g Status.shardUnavailable (tick t s) else tick t s) := by
  have hg' : findIngest (tick t s) seq = some g := hg
  have hasked' : (((tick t s).search.units.any fun u => unitOf seq u && u.phase == .logged) || !g.fwds.isEmpty) = true := hasked
  show execKeeperUnreachableTimeout seq t s = _
  unfold execKeeperUnreachableTimeout
  dsimp only
  rw [hg']
  dsimp only
  rw [hasked', Bool.true_and]
  refine congrArg _ (if_congr ?_ rfl rfl)
  exact decide_eq_true_iff

/-- Settles O45, command by command. -/
theorem epochsFollowTheirTimes : Obligations.EpochsFollowTheirTimes := by
  unfold Obligations.EpochsFollowTheirTimes
  refine ⟨?grantVoid, ?holdExpiry, ?stableInterval, ?unreachable⟩
  case grantVoid =>
    refine fun coll epoch t m c x g s hmap hc hx hg hkeeper =>
      ⟨exec_epochVoid_early hmap hc hx hg, fun hdue hwf hlt => ⟨voided coll epoch (tick t s), _, voidGrants epoch x,
        exec_epochVoid_due hmap hc hx hg hkeeper hdue, counter_bump_from (s := s) rfl hwf hlt, findColl_voided (s := tick t s) hc, ?_, rfl⟩⟩
    show c.shard.map _ = _
    rw [hx]
    rfl
  case holdExpiry =>
    intro coll t c x s hc hx
    obtain ⟨u, d, hexec, hfound, hepoch, hshard⟩ := findColl_epochHoldExpiry (t := t) hc hx
    exact ⟨u, d, _, hexec, hfound, hshard, hepoch, rfl, le_max_left .., expired_keeps_present, fun p => expired_ends⟩
  case stableInterval =>
    intro coll t m c x s hmap hc hx hkeeper hnew hdue
    refine ⟨exec_stableIntervalExpiry_sends hmap hc hx hkeeper hnew hdue, _, { x with stableSent := c.epoch, stableAt := max s.now t },
      findColl_sendStable (s := tick t s) m c.epoch hc, ?_, rfl, rfl⟩
    show c.shard.map _ = _
    rw [hx]
    rfl
  case unreachable =>
    intro seq t g cmd s hg hcmd hhost hasked
    obtain rfl : g.seq = seq := by simpa using List.find?_some hg
    rw [exec_keeperUnreachableTimeout hg hasked]
    refine ⟨fun hearly => by rw [if_neg hearly.not_ge], fun hdue => ⟨_, by rw [if_pos hdue], ?_, ready_endIngest_unavailable (s := tick t s) hcmd hhost⟩⟩
    exact (PeerUnits.endIngest_spec (s := tick t s) hcmd hhost).2

end Sys2Proof.EpochTimes
end

section
/-! SUPPORT. The frame of the commands on collections fails where a counter passes the top of its range: the spec states no value for it, and the model draws one
(log entry 8), which the frame does not name. -/

namespace Sys2Proof.CollectionFrame

open Machine Laws

/-- A BUILD_INDEX, admitted, whose plan uses one scratchpad bank of each die. -/
def buildWithBanks : Cmd where
  seq := 0
  queue := 0
  entry := { opcode := 0x28, fence := false, arg2 := 0, cmdId := 0, target := 9, arg0 := 3, arg1 := 0, inAddr := 0, inKey := 0, inLen := 0, outAddr := 0, outKey := 0,
             outLen := 0 }
  arrived := 0
  phase := .admitted
  dispatchedAt := 0
  dispatchEpoch := 0
  epoch := 0
  held := []
  deadline := 0
  config := []
  late := false
  internal := false
  order := 1
  plan := some { kind := 3, target := 9, planId := 3, bytes := zeros 20 ++ toLE 2 1, bound := true, tiles := [] }
  report := []
  replica := 0
  stalledAt := none
  waitsFor := []
  tileFlags := 0
  comp := none

/-- That command behind another one that waits for its banks, when SCRATCH_WAITS stands at the top of its range. -/
def crowded : State :=
  { State.reset with
    counters := [(Key.scratchWaits, 2 ^ 64 - 1)]
    ahp := { Ahp.reset with cmds := [buildWithBanks] }
    hbm := { Hbm.reset with waiters := [{ seq := 1, banks := 1 }] } }

/-- The state meets the invariant of every reachable state: what fails is the frame, and not the state. -/
theorem crowded_inv : crowded.Inv := by
  unfold State.Inv State.Canonical
  decide

/-- The command waits for its banks, and the wait is counted. -/
theorem exec_buildIndex_crowded : exec (.buildIndex ⟨0, Upsets.quiet⟩) crowded = .next (takeBanks buildWithBanks crowded) := rfl

/-- The counter passes the top of its range, so that its value is a draw. -/
theorem takeBanks_crowded_free : (takeBanks buildWithBanks crowded).free = 1 := by decide

/-- Refutes O7: a BUILD_INDEX that must wait for its plan's scratchpad banks raises SCRATCH_WAITS; at the top of the counter's range that takes a free value, and
the frame of `collectionRow` does not let `free` change. -/
theorem not_queriesAndCollectionsKeepToThemselves : ¬ Obligations.QueriesAndCollectionsKeepToThemselves := by
  intro h
  obtain ⟨_, _, hcollection, _⟩ := h _ crowded _ exec_buildIndex_crowded
  have hfree := congrArg State.free (hcollection rfl)
  exact absurd (takeBanks_crowded_free.symm.trans hfree) (by decide)

end Sys2Proof.CollectionFrame
end

section
/-! SUPPORT. A batch that the statement about INSERT has waiting ends its command instead, where another command has the same number. -/

namespace Sys2Proof.InsertedBatches

open Machine Laws

/-- The schema of a collection of 64-bit codes without full vectors or attributes (03 R51). -/
def codeSchema : Bytes :=
  withCrc (toLE 4 0x53434C41 ++ toLE 4 64 ++ zeros 19 ++ [1, 0, 0, 0, 1] ++ toLE 2 2 ++ toLE 2 64 ++ zeros 16 ++ toLE 4 1024 ++ toLE 4 2048)

/-- Collection 9 with that schema and one tree without partitions. -/
def codeColl : Coll :=
  { newColl State.reset 9 1 4096 codeSchema with trees := [{ epoch := 0, rootChildren := 0, levels := [[]], parts := [], codebook := [] }] }

/-- The record of the vector 1. -/
def oneRecord : Bytes := toLE 8 1 ++ toLE 8 5

/-- An INSERT of one vector, admitted, at an APPEND_LIST_LIMIT of 0 and without an automatic MERGE. -/
def insertOne : Cmd where
  seq := 5
  queue := 0
  entry := { opcode := 0x25, fence := false, arg2 := 0, cmdId := 77, target := 9, arg0 := 0, arg1 := 1, inAddr := 0, inKey := 0, inLen := 16, outAddr := 0, outKey := 0,
             outLen := 0 }
  arrived := 0
  phase := .admitted
  dispatchedAt := 0
  dispatchEpoch := 0
  epoch := 0
  held := []
  deadline := 0
  config := [(Key.autoMergeAppend, []), (Key.appendListLimit, [])]
  late := false
  internal := false
  order := 1
  plan := none
  report := []
  replica := 0
  stalledAt := none
  waitsFor := []
  tileFlags := 0
  comp := none

/-- A MERGE of the collection under the same number. -/
def mergeOfSameNumber : Cmd := { insertOne with entry := { insertOne.entry with opcode := 0x27, arg1 := 0, inLen := 0 } }

/-- Both commands are admitted on the collection. -/
def twoOfOneNumber : State :=
  { State.reset with
    search := { Search.reset with colls := [codeColl] }
    ahp := { Ahp.reset with cmds := [insertOne, mergeOfSameNumber] } }

/-- The rows of the batch. -/
def oneRow : List Row := recordRows codeSchema oneRecord 1

/-- A MERGE is ahead, so that the batch may wait for the room that it makes. -/
theorem roomFor_twoOfOneNumber : roomFor twoOfOneNumber codeColl 0 0 (.insert oneRow) = .wait := by decide +kernel

/-- The start of the INSERT's work takes the MERGE of its number along, which is then no longer ahead: the batch ends the command, and there is no unit. -/
theorem exec_insert_twoOfOneNumber :
    ∃ u, exec (.insert 5 oneRecord) twoOfOneNumber = .next u ∧ u.search.units = [] := ⟨_, rfl, by decide +kernel⟩

/-- Refutes O31: the statement does not ask that commands have numbers of their own. Where a MERGE of the collection has the number of the INSERT, it is ahead of the
batch before the INSERT's work starts and not after it, so that `roomFor` has the batch wait while the command ends with APPEND_LIST_FULL. -/
theorem not_insertsAndDeletesStartTheirBatches : ¬ Obligations.InsertsAndDeletesStartTheirBatches := by
  intro h
  obtain ⟨hinsert, _⟩ := h
  obtain ⟨hown, _⟩ := hinsert 5 oneRecord insertOne codeColl oneRow [] twoOfOneNumber rfl rfl rfl rfl rfl (by decide +kernel) (by decide)
    (by decide +kernel) (by decide +kernel)
  have hunsharded : shardMapOf twoOfOneNumber insertOne.entry.target = none := by decide
  obtain ⟨_, hwait, _⟩ := hown fun m hm => by rw [hunsharded] at hm; cases hm
  obtain ⟨u, hexec, hunits⟩ := hwait roomFor_twoOfOneNumber
  obtain ⟨v, hends, hnone⟩ := exec_insert_twoOfOneNumber
  obtain rfl : u = v := Host.Outcome.next.inj (hexec.symm.trans hends)
  simp [hnone] at hunits

end Sys2Proof.InsertedBatches
end

section
/-! SUPPORT. The stages of a query (07 R140 to R157): each works on its own query and on no other, and what each makes of it. -/

namespace Sys2Proof.QueryStages

open Machine Laws

variable {s u v : State} {key : Nat} {q : Query} {c : Coll}

/-! ## Records that the search part alone decides -/

theorem findQuery_congr (h : u.search = s.search) (key : Nat) : findQuery u key = findQuery s key := by
  unfold findQuery; rw [h]

theorem findColl_congr (h : u.search = s.search) (id : Nat) : findColl u id = findColl s id := by
  unfold findColl; rw [h]

/-- The shard maps rest on the installation descriptor (R186). -/
theorem shardMapOf_congr (h : u.settings = s.settings) (coll : Nat) : shardMapOf u coll = shardMapOf s coll := by
  unfold shardMapOf liveDesc setting; rw [h]

theorem ownShardNo_congr (h : u.settings = s.settings) (coll : Nat) : ownShardNo u coll = ownShardNo s coll := by
  have hindex : moduleIndex u = moduleIndex s := by unfold moduleIndex moduleCount liveDesc setting; rw [h]
  unfold ownShardNo ownShard
  rw [shardMapOf_congr h, hindex]

theorem lateNow_congr (h : u.now = s.now) (q : Query) : lateNow u q = lateNow s q := by
  unfold lateNow; rw [h]

/-! ## Selection (08 R166) -/

theorem length_selectK_le (n : Nat) (l : List Cand) : (selectK n l).list.length ≤ n := List.length_take_le ..

theorem mem_of_mem_selectK {n : Nat} {l : List Cand} {x : Cand} (h : x ∈ (selectK n l).list) : x ∈ l :=
  (List.mem_filter.1 ((sortBy_perm ..).mem_iff.1 (List.mem_of_mem_take h))).1

/-- The order of candidates: ascending score, then identifier (R45, R166). -/
theorem candLe_iff (a b : Cand) :
    candLe a b = true ↔ scoreKey a.score < scoreKey b.score ∨ (scoreKey a.score = scoreKey b.score ∧ a.id ≤ b.id) := by
  simp [candLe]

theorem candLe_total (a b : Cand) : candLe a b = true ∨ candLe b a = true := by
  simp only [candLe_iff]; omega

theorem candLe_trans (a b c : Cand) (hab : candLe a b = true) (hbc : candLe b c = true) : candLe a c = true := by
  simp only [candLe_iff] at *; omega

/-! ## Work on one query -/

/-- What a query is given at its start and no stage of it changes. -/
def given (q : Query) : Nat × QFrom × Nat × Bytes × Bytes × Nat × Nat × Nat :=
  (q.key, q.origin, q.coll, q.record, q.request, q.epoch, q.deadline, q.order)

theorem key_of_given {f : Query → Query} (hf : ∀ x, given (f x) = given x) (x : Query) : (f x).key = x.key := congrArg Prod.fst (hf x)

/-- From `s` to `u` the search part changes in the query `key` alone, which keeps what it was given, and neither the time nor a dictionary value changes. -/
structure WorksOn (key : Nat) (s u : State) : Prop where
  query : ∃ f : Query → Query, (∀ x, given (f x) = given x) ∧ u.search = (updQuery key f s).search
  now : u.now = s.now
  settings : u.settings = s.settings

namespace WorksOn

theorem update {f : Query → Query} (hf : ∀ x, given (f x) = given x) : WorksOn key s (updQuery key f s) := ⟨⟨f, hf, rfl⟩, rfl, rfl⟩

/-- A step that leaves the search part, the time and the dictionary values works on any query. -/
theorem of_search (hsearch : u.search = s.search) (hnow : u.now = s.now) (hsettings : u.settings = s.settings) : WorksOn key s u := by
  refine ⟨⟨id, fun _ => rfl, ?_⟩, hnow, hsettings⟩
  rw [hsearch]
  simp [updQuery, mapIf]

theorem refl : WorksOn key s s := of_search rfl rfl rfl

theorem trans (hsu : WorksOn key s u) (huv : WorksOn key u v) : WorksOn key s v := by
  obtain ⟨f, hf, hu⟩ := hsu.query
  obtain ⟨g, hg, hv⟩ := huv.query
  refine ⟨⟨fun x => g (f x), fun x => (hg _).trans (hf x), ?_⟩, huv.now.trans hsu.now, huv.settings.trans hsu.settings⟩
  have hboth : mapIf (fun x => x.key == key) g (mapIf (fun x => x.key == key) f s.search.queries) =
      mapIf (fun x => x.key == key) (fun x => g (f x)) s.search.queries := by
    unfold mapIf
    rw [List.map_map]
    refine List.map_congr_left fun x _ => ?_
    by_cases hx : x.key = key
    · simp [hx, key_of_given hf]
    · simp [hx]
  rw [hv, updQuery, hu]
  exact congrArg (fun l => { s.search with queries := l }) hboth

/-- A step before counting is a step after it. -/
theorem bumpBy (h : WorksOn key s u) (k n : Nat) : WorksOn key s (bumpBy k n u) :=
  h.trans (of_search (bumpBy_search ..) (bumpBy_now ..) (bumpBy_settings ..))

variable (h : WorksOn key s u)

include h

/-- Every other query is as it was. -/
theorem findQuery_ne {k : Nat} (hk : k ≠ key) : findQuery u k = findQuery s k := by
  obtain ⟨f, hf, hu⟩ := h.query
  rw [findQuery_congr hu]
  refine find_mapIf_ne (fun x hx => ?_) _
  have hx : x.key = key := by simpa using hx
  simp [key_of_given hf, hx, Ne.symm hk]

/-- The query itself keeps what it was given. -/
theorem given_findQuery : (findQuery u key).map given = (findQuery s key).map given := by
  obtain ⟨f, hf, hu⟩ := h.query
  rw [findQuery_congr hu, findQuery_updQuery (key_of_given hf), Option.map_map]
  exact congrArg (Option.map · _) (funext hf)

theorem nextQuery : u.search.nextQuery = s.search.nextQuery := by
  obtain ⟨f, -, hu⟩ := h.query
  rw [hu]; rfl

end WorksOn

/-! ## Cuts, and the way to the re-ranking (R146, R149, R155) -/

/-- The query after a cut to `n`. -/
def cutCands (n : Nat) (q : Query) : Query := { q with cands := (selectK n q.cands).list }

theorem findQuery_cutTo (n : Nat) (h : findQuery s key = some q) : findQuery (cutTo key n s) key = some (cutCands n q) :=
  (findQuery_congr (bumpBy_search ..) key).trans (findQuery_upd (f := cutCands n) (fun _ => rfl) h)

theorem countPasses_worksOn (key n : Nat) (s : State) : WorksOn key s (countPasses n s) := WorksOn.refl.bumpBy ..

theorem cutTo_worksOn (key n : Nat) (s : State) : WorksOn key s (cutTo key n s) :=
  .trans (.update (f := cutCands n) fun _ => rfl) (countPasses_worksOn ..)

/-- The query past the cut before stage 5: stage 5 is next, or it is skipped, or its path has none. -/
def pastCut (late : Bool) (q : Query) : Query :=
  if Qr.rerank q.record = 0 then { q with phase := .final }
  else if replaySkips q 1 || late then { q with phase := .final, stages := q.stages ||| 2 }
  else { q with phase := .rerank }

section
variable (late : Bool) (q : Query)

theorem pastCut_phase : (pastCut late q).phase = if Qr.rerank q.record = 0 ∨ replaySkips q 1 = true ∨ late = true then .final else .rerank := by
  unfold pastCut
  split_ifs <;> simp_all

theorem pastCut_phase_ne : (pastCut late q).phase ≠ .scanning := by
  rw [pastCut_phase]
  split_ifs <;> decide

/-- All else but the skipped stages is as it was. -/
theorem pastCut_frame : pastCut late q = { q with phase := (pastCut late q).phase, stages := (pastCut late q).stages } := by
  unfold pastCut
  split_ifs <;> rfl

@[simp] theorem pastCut_cands : (pastCut late q).cands = q.cands := by rw [pastCut_frame]
@[simp] theorem pastCut_probes : (pastCut late q).probes = q.probes := by rw [pastCut_frame]
@[simp] theorem pastCut_skips : (pastCut late q).skips = q.skips := by rw [pastCut_frame]
@[simp] theorem pastCut_binaryScores : (pastCut late q).binaryScores = q.binaryScores := by rw [pastCut_frame]

/-- A stage that was skipped stays so. -/
theorem pastCut_skipped {i : Nat} (h : q.stages.testBit i = true) : (pastCut late q).stages.testBit i = true := by
  unfold pastCut
  split_ifs <;> simp [h]

end

theorem findQuery_toRerank (h : findQuery s key = some q) : findQuery (toRerank key s) key = some (pastCut (lateNow s q) q) := by
  unfold toRerank pastCut
  rw [h]
  dsimp only
  split_ifs
  · exact findQuery_upd (f := fun x => { x with phase := .final }) (fun _ => rfl) h
  · exact findQuery_upd (f := fun x => { x with phase := .final, stages := x.stages ||| 2 }) (fun _ => rfl) h
  · exact findQuery_upd (f := fun x => { x with phase := .rerank }) (fun _ => rfl) h

theorem toRerank_worksOn (key : Nat) (s : State) : WorksOn key s (toRerank key s) := by
  unfold toRerank
  split
  · exact .refl
  · split_ifs <;> exact .update fun _ => rfl

/-- The query whose stage 3 is skipped. -/
def withoutAdc (late : Bool) (q : Query) : Query := pastCut late (cutCands (lateCut q) { q with stages := q.stages ||| 1 })

theorem findQuery_skipAdc (h : findQuery s key = some q) : findQuery (skipAdc key s) key = some (withoutAdc (lateNow s q) q) := by
  have hskipped := findQuery_upd (f := fun x => { x with stages := x.stages ||| 1 }) (fun _ => rfl) h
  have hnow : ∀ x, lateNow (cutTo key (lateCut q) (updQuery key (fun x => { x with stages := x.stages ||| 1 }) s)) x = lateNow s x :=
    lateNow_congr (cutTo_worksOn ..).now
  unfold skipAdc
  rw [h]
  dsimp only
  rw [findQuery_toRerank (findQuery_cutTo _ hskipped), hnow]
  rfl

theorem skipAdc_worksOn (key : Nat) (s : State) : WorksOn key s (skipAdc key s) := by
  unfold skipAdc
  split
  · exact .refl
  · exact ((WorksOn.update (f := fun x => { x with stages := x.stages ||| 1 }) fun _ => rfl).trans (cutTo_worksOn ..)).trans (toRerank_worksOn ..)

/-! ## The end of a scan -/

/-- What the end of a scan makes of a query: it goes on, with the same probes and skips. -/
def ScanEnded (q x : Query) : Prop := x.phase ≠ .scanning ∧ x.probes = q.probes ∧ x.skips = q.skips

theorem scanEnded_pastCut (late : Bool) (n : Nat) (q : Query) : ScanEnded q (pastCut late (cutCands n q)) :=
  ⟨pastCut_phase_ne _ _, pastCut_probes _ _, pastCut_skips _ _⟩

theorem scanEnded_withoutAdc (late : Bool) (q : Query) : ScanEnded q (withoutAdc late q) :=
  scanEnded_pastCut late (lateCut q) { q with stages := q.stages ||| 1 }

theorem findQuery_afterScan (h : findQuery s key = some q) (hc : findColl s q.coll = some c) :
    ∃ x, findQuery (afterScan key s) key = some x ∧ ScanEnded q x := by
  have hleads : ∀ (p : QPhase) {v : State} {y : Query}, p ≠ .scanning → findQuery v key = some y → y.probes = q.probes → y.skips = q.skips →
      ∃ x, findQuery (updQuery key (fun x => { x with phase := p }) v) key = some x ∧ ScanEnded q x :=
    fun p v y hp hy hprobes hskips => ⟨_, findQuery_upd (f := fun x => { x with phase := p }) (fun _ => rfl) hy, hp, hprobes, hskips⟩
  have hkept := findQuery_cutTo (Qr.scanKeep q.record) h
  unfold afterScan
  rw [h]
  dsimp only
  rw [hc]
  dsimp only
  split_ifs
  · exact hleads .final (by decide) h rfl rfl
  · exact ⟨_, findQuery_toRerank (findQuery_cutTo _ h), scanEnded_pastCut ..⟩
  · exact hleads .final (by decide) h rfl rfl
  · exact ⟨_, findQuery_skipAdc hkept, scanEnded_withoutAdc _ (cutCands _ q)⟩
  · exact hleads .adc (by decide) hkept rfl rfl
  · exact ⟨_, findQuery_toRerank (findQuery_cutTo _ hkept), scanEnded_pastCut _ _ (cutCands _ q)⟩

theorem afterScan_worksOn (key : Nat) (s : State) : WorksOn key s (afterScan key s) := by
  unfold afterScan
  dsimp only
  split
  · exact .refl
  · split
    · exact .refl
    · split_ifs
      · exact .update fun _ => rfl
      · exact (cutTo_worksOn ..).trans (toRerank_worksOn ..)
      · exact .update fun _ => rfl
      · exact (cutTo_worksOn ..).trans (skipAdc_worksOn ..)
      · exact (cutTo_worksOn ..).trans (.update fun _ => rfl)
      · exact ((cutTo_worksOn ..).trans (cutTo_worksOn ..)).trans (toRerank_worksOn ..)

/-! ## Saturated sums (05 R96) -/

/-- The query with the note of saturated sums. -/
def noted (n : Nat) (q : Query) : Query := if n = 0 then q else { q with saturated := true }

@[simp] theorem noted_cands (n : Nat) (q : Query) : (noted n q).cands = q.cands := by unfold noted; split <;> rfl
@[simp] theorem noted_probes (n : Nat) (q : Query) : (noted n q).probes = q.probes := by unfold noted; split <;> rfl
@[simp] theorem noted_exact (n : Nat) (q : Query) : (noted n q).exact = q.exact := by unfold noted; split <;> rfl
@[simp] theorem noted_tls (n : Nat) (q : Query) : (noted n q).tls = q.tls := by unfold noted; split <;> rfl
@[simp] theorem noted_record (n : Nat) (q : Query) : (noted n q).record = q.record := by unfold noted; split <;> rfl
@[simp] theorem noted_replay (n : Nat) (q : Query) : (noted n q).replay = q.replay := by unfold noted; split <;> rfl
@[simp] theorem noted_binaryScores (n : Nat) (q : Query) : (noted n q).binaryScores = q.binaryScores := by unfold noted; split <;> rfl

theorem findQuery_noteSaturated (n : Nat) (h : findQuery s key = some q) : findQuery (noteSaturated key n s) key = some (noted n q) := by
  unfold noteSaturated noted
  split
  · exact h
  · exact (findQuery_congr (bumpBy_search ..) key).trans (findQuery_upd (f := fun x => { x with saturated := true }) (fun _ => rfl) h)

theorem noteSaturated_worksOn (key n : Nat) (s : State) : WorksOn key s (noteSaturated key n s) := by
  unfold noteSaturated
  split
  · exact .refl
  · exact (WorksOn.update (f := fun x => { x with saturated := true }) fun _ => rfl).bumpBy ..

/-! ## The claim about cuts -/

/-- Settles O11: a cut takes the first candidates of the sorted list, and sorting permutes the list into the order of scores and identifiers. -/
theorem cutsKeepTheFirstCandidates : Obligations.CutsKeepTheFirstCandidates := by
  intro key n q s hq
  refine ⟨sortBy candLe (q.cands.filter fun x => x.id ≠ fillId), sortBy_perm .., ?_, findQuery_cutTo n hq⟩
  exact (sortBy_sorted candLe candLe_total candLe_trans _).imp fun h => (candLe_iff ..).1 h

end Sys2Proof.QueryStages
end

section
/-! SUPPORT. The instants of a query (07 R154 to R157): the cuts at T_SC and T_LS, and stalls. -/

namespace Sys2Proof.QueryInstants

open Machine Laws QueryStages

variable {s : State} {key t : Nat} {q : Query}

/-! ## The scan cut (R154) -/

theorem exec_scanCut_exact (hq : findQuery s key = some q) (hexact : q.exact = true) : exec (.scanCut key t) s = .next (tick t s) := by
  change execScanCut key t s = _
  unfold execScanCut
  dsimp only
  rw [show findQuery (tick t s) key = some q from hq]
  dsimp only
  rw [if_neg (by simp [hexact])]

theorem exec_scanCut_due (hq : findQuery s key = some q) (hphase : q.phase = .scanning) (hbounded : q.exact = false) (hdue : q.tsc ≤ max s.now t) :
    exec (.scanCut key t) s = .next (afterScan key (updQuery key scanCut (tick t s))) := by
  change execScanCut key t s = _
  unfold execScanCut
  dsimp only
  rw [show findQuery (tick t s) key = some q from hq]
  dsimp only
  rw [if_pos ⟨hphase, hbounded, hdue⟩]

/-! ## The late-stage cut (R155) -/

theorem exec_lateStageCut (hq : findQuery s key = some q) :
    exec (.lateStageCut key t) s = .next (if lateNow (tick t s) q then lateStage key (tick t s) else tick t s) := by
  change execLateStageCut key t s = _
  unfold execLateStageCut
  dsimp only
  rw [show findQuery (tick t s) key = some q from hq]

theorem lateNow_exact (hexact : q.exact = true) (s : State) : lateNow s q = false := by simp [lateNow, hexact]

theorem lateNow_bounded (hbounded : q.exact = false) (hdue : q.tls ≤ max s.now t) : lateNow (tick t s) q = true := by
  simpa [lateNow, hbounded] using hdue

theorem lateStage_rerank (hq : findQuery s key = some q) (hphase : q.phase = .rerank) :
    findQuery (lateStage key s) key = some { q with phase := .final, stages := q.stages ||| 2 } := by
  unfold lateStage
  rw [hq]
  dsimp only
  rw [hphase]
  exact findQuery_upd (f := fun x => { x with phase := .final, stages := x.stages ||| 2 }) (fun _ => rfl) hq

theorem lateStage_adc (hq : findQuery s key = some q) (hphase : q.phase = .adc) :
    findQuery (lateStage key s) key = some (withoutAdc (lateNow s q) q) := by
  unfold lateStage
  rw [hq]
  dsimp only
  rw [hphase]
  exact findQuery_skipAdc hq

/-- What the skip of stage 3 at T_LS makes of a query: stage 5 is skipped with it, and the survivors are cut by the scores that they have. -/
theorem withoutAdc_late (q : Query) : (withoutAdc true q).stages.testBit 0 = true ∧ (withoutAdc true q).phase = .final ∧
    (withoutAdc true q).cands.length ≤ lateCut q ∧ ∀ y ∈ (withoutAdc true q).cands, y ∈ q.cands := by
  refine ⟨pastCut_skipped _ _ (by simp [cutCands]), by simp [withoutAdc, pastCut_phase], ?_, fun y hy => ?_⟩
  · rw [withoutAdc, pastCut_cands]
    exact length_selectK_le ..
  · rw [withoutAdc, pastCut_cands] at hy
    exact mem_of_mem_selectK hy

/-! ## The shard cut (09 R201) -/

theorem exec_shardCut_exact (hq : findQuery s key = some q) (hexact : q.exact = true) : exec (.shardCut key t) s = .next (tick t s) := by
  change execShardCut key t s = _
  unfold execShardCut
  dsimp only
  rw [show findQuery (tick t s) key = some q from hq]
  dsimp only
  rw [if_pos (.inr (.inl hexact))]

/-! ## Stalls (R157) -/

theorem exec_queryStall_counts (hq : findQuery s key = some q) (hexact : q.exact = true) (hnew : q.stalled = false) (hsome : q.deadline ≠ 0)
    (hdue : q.deadline ≤ max s.now t) (hwaits : waitsForData q = true) :
    exec (.queryStall key t) s = .next (bump Key.queryStalls (updQuery key (fun x => { x with stalled := true }) (tick t s))) := by
  change execQueryStall key t s = _
  unfold execQueryStall
  dsimp only
  rw [show findQuery (tick t s) key = some q from hq]
  dsimp only
  rw [if_pos ⟨hexact, hnew, hsome, hdue, by simp [hwaits]⟩]

theorem exec_queryStall_counted (hq : findQuery s key = some q) (hold : q.stalled = true) : exec (.queryStall key t) s = .next (tick t s) := by
  change execQueryStall key t s = _
  unfold execQueryStall
  dsimp only
  rw [show findQuery (tick t s) key = some q from hq]
  dsimp only
  rw [if_neg (by simp [hold])]

/-! ## The claims -/

/-- Settles O12: each of the three cuts asks first whether the query is exact, and a stall is counted once. -/
theorem exactQueriesTakeNoCut : Obligations.ExactQueriesTakeNoCut := by
  intro key t q s hq hexact
  refine ⟨exec_scanCut_exact hq hexact, ?_, exec_shardCut_exact hq hexact, exec_queryStall_counts hq hexact, exec_queryStall_counted hq⟩
  rw [exec_lateStageCut hq, lateNow_exact hexact]
  rfl

/-- Settles O38: the end of a scan keeps the probes and the skips that the cut leaves it, and a late stage goes the way of a skipped one. -/
theorem deadlinesCutQueries : Obligations.DeadlinesCutQueries := by
  refine ⟨?scan, ?late, ?stall⟩
  case scan =>
    intro key t c q s hq hc hphase hbounded hdue
    have hcut : findQuery (updQuery key scanCut (tick t s)) key = some (scanCut q) := findQuery_upd (f := scanCut) (fun _ => rfl) hq
    obtain ⟨x, hx, hended, hprobes, hskips⟩ := findQuery_afterScan hcut (c := c) hc
    exact ⟨_, x, exec_scanCut_due hq hphase hbounded hdue, hx, hended, hprobes, hskips⟩
  case late =>
    intro key t q s hq hbounded hdue
    have hlate := lateNow_bounded hbounded hdue
    have hexec : exec (.lateStageCut key t) s = .next (lateStage key (tick t s)) := by rw [exec_lateStageCut hq, hlate]; rfl
    refine ⟨fun hphase => ⟨_, hexec, ?_⟩, fun hphase => ⟨_, withoutAdc true q, hexec, ?_, withoutAdc_late q⟩⟩
    · rw [lateStage_rerank (s := tick t s) hq hphase]; rfl
    · rw [lateStage_adc (s := tick t s) hq hphase, hlate]
  case stall =>
    intro key t q s hq hexact hnew hsome hdue hwaits hwf hlt
    refine ⟨_, exec_queryStall_counts hq hexact hnew hsome hdue hwaits, ?_, counter_bump_from (s := s) rfl hwf hlt⟩
    exact (findQuery_congr (bump_search ..) key).trans (findQuery_upd (f := fun x => { x with stalled := true }) (fun _ => rfl) hq)

end Sys2Proof.QueryInstants
end

section
/-! SUPPORT. Sloe passes and probe rounds (07 R140 to R142, R154). -/

namespace Sys2Proof.ProbeRounds

open Machine Laws QueryStages

variable {s : State} {key part stripe : Nat} {groups : List Nat} {q : Query} {p : Probe} {c : Coll}

/-! ## The state that a pass reads -/

/-- While no channel is fenced, a tile takes its place and hurts nothing: what the memory does not enter is left, and still no channel is fenced. -/
theorem placeTile_same {α : Type} (f : State → α) (hf : ∀ (s : State) x, f { s with hbm := x } = f s) {s : State} (hfenced : s.hbm.fenced = []) (n : TileNeed) :
    f (placeTile s n) = f s ∧ (placeTile s n).hbm.fenced = [] := by
  have hnone : ∀ (g : State → Nat → State) (v : State), s.hbm.fenced.foldl g v = v := fun g v => by rw [hfenced]; rfl
  unfold placeTile
  split
  · exact ⟨rfl, hfenced⟩
  · split
    · exact ⟨rfl, hfenced⟩
    · dsimp only
      rw [hnone]
      exact ⟨hf .., hfenced⟩

theorem placeTiles_same {α : Type} (f : State → α) (hf : ∀ (s : State) x, f { s with hbm := x } = f s) (hfenced : s.hbm.fenced = []) :
    f (placeTiles s) = f s := by
  have hall : ∀ (l : List TileNeed) (v : State), v.hbm.fenced = [] → f (l.foldl placeTile v) = f v := by
    intro l
    induction l with
    | nil => exact fun _ _ => rfl
    | cons n r ih =>
      intro v hv
      obtain ⟨hsame, hstill⟩ := placeTile_same f hf hv n
      exact (ih _ hstill).trans hsame
  unfold placeTiles
  exact (hall _ _ (by exact hfenced)).trans (hf ..)

/-- A read past the caches changes the cache lines alone. -/
theorem bypassRead_same {α : Type} (f : State → α) (hf : ∀ (s : State) x, f { s with hbm := { s.hbm with cache := x } } = f s) (o : MediaObj → Bool) (s : State) :
    f (bypassRead o s) = f s := by
  unfold bypassRead
  split
  · rfl
  · exact hf ..

/-- Where a row group lies follows from the tiles and the channels in service. -/
theorem engineOf_cache (s : State) (x : List CacheLine) : engineOf { s with hbm := { s.hbm with cache := x } } = engineOf s := by
  have hplace : ∀ (placement depth : Nat) (l : List HbmRun) (g : Nat),
      groupPlace { s with hbm := { s.hbm with cache := x } } placement depth l g = groupPlace s placement depth l g := by
    intro placement depth l
    induction l with
    | nil => exact fun _ => rfl
    | cons r l ih =>
      intro g
      unfold groupPlace
      dsimp only
      rw [ih]
      rfl
  funext coll part stripe g
  unfold engineOf
  simp only [hplace]
  rfl

/-- The state in which the engines of a pass over a partition start. -/
def passStart (coll part : Nat) (s : State) : State := bypassRead (· == .partition coll part) (placeTiles s)

theorem passStart_same {α : Type} (f : State → α) (hf : ∀ (s : State) x, f { s with hbm := x } = f s) (hfenced : s.hbm.fenced = []) (coll part : Nat) :
    f (passStart coll part s) = f s :=
  (bypassRead_same f (fun _ _ => hf ..) ..).trans (placeTiles_same f hf hfenced)

/-- Those of the row groups of a stripe that lie on the channel of an engine (R141). -/
def ownGroups (engine coll part stripe : Nat) (groups : List Nat) (s : State) : List Nat :=
  groups.filter fun g => engineOf (placeTiles s) coll part stripe g == some engine

theorem exec_sloePass {engine : Nat} {queries : List Nat} (hengine : engine < 384) (hqueries : queries.length ≤ 64) (hc : findColl s c.id = some c)
    (hrestored : c.unrestored.contains part = false) (hfenced : s.hbm.fenced = []) :
    exec (.sloePass engine c.id part stripe groups queries []) s =
      .next (queries.foldl (passFor c part stripe (ownGroups engine c.id part stripe groups s)) (passStart c.id part s)) := by
  have hplaced : findColl (placeTiles s) c.id = some c := (placeTiles_same (findColl · c.id) (fun _ _ => rfl) hfenced).trans hc
  have hstart : findColl (passStart c.id part s) c.id = some c := (passStart_same (findColl · c.id) (fun _ _ => rfl) hfenced ..).trans hc
  have hread : readBursts (([] : List Scrub).filter (·.channel == engine)) (bypassRead (· == .partition c.id part) (placeTiles s)) = passStart c.id part s := rfl
  have hengines : engineOf (passStart c.id part s) = engineOf (placeTiles s) := bypassRead_same engineOf engineOf_cache ..
  change execSloePass engine c.id part stripe groups queries [] s = _
  unfold execSloePass
  dsimp only
  rw [hplaced]
  dsimp only
  rw [if_neg (by simp only [hrestored]; simp; omega)]
  rw [hread, hstart]
  dsimp only
  rw [hengines]
  rfl

/-! ## A probe that takes its place again -/

/-- The query with `p` for its probe of that partition. -/
def withProbe (p : Probe) (q : Query) : Query := { q with probes := mapIf (fun x => x.part == p.part) (fun _ => p) q.probes }

theorem find_withProbe {p' : Probe} (hp : q.probes.find? (·.part == part) = some p) (hpart : p'.part = part) :
    (withProbe p' q).probes.find? (·.part == part) = some p' := by
  subst hpart
  refine (find_mapIf (p := fun x : Probe => x.part == p'.part) (f := fun _ => p') (fun _ _ => by simp) _).trans ?_
  rw [hp]
  rfl

theorem lowerRadius_frame (sch : Bytes) (q : Query) : lowerRadius sch q = { q with radius := (lowerRadius sch q).radius } := by
  unfold lowerRadius
  dsimp only
  split
  · split <;> rfl
  · rfl

@[simp] theorem lowerRadius_probes (sch : Bytes) (q : Query) : (lowerRadius sch q).probes = q.probes := by rw [lowerRadius_frame]
@[simp] theorem lowerRadius_cands (sch : Bytes) (q : Query) : (lowerRadius sch q).cands = q.cands := by rw [lowerRadius_frame]

theorem given_lowerRadius (sch : Bytes) (q : Query) : given (lowerRadius sch q) = given q := by rw [lowerRadius_frame]; rfl

/-! ## A partition is complete (R142, R162) -/

section
variable {shard : Nat}

/-- A damaged partition contributes nothing and is listed. -/
def completedDamaged (p : Probe) (q : Query) : Query := withProbe { p with complete := true } { q with media := q.media ++ [p.part] }

theorem findQuery_completeProbe_damaged (hq : findQuery s key = some q) (hdamaged : p.damaged = true) :
    findQuery (completeProbe c key shard p s) key = some (completedDamaged p q) := by
  unfold completeProbe
  rw [hq]
  dsimp only
  rw [if_pos hdamaged]
  exact findQuery_upd (f := completedDamaged p) (fun _ => rfl) hq

theorem find_completedDamaged {p' : Probe} (hp : q.probes.find? (·.part == part) = some p) (hpart : p'.part = part) :
    (completedDamaged p' q).probes.find? (·.part == part) = some { p' with complete := true } :=
  find_withProbe (q := { q with media := q.media ++ [p'.part] }) hp hpart

/-- The matches `rows` and the candidates `l` of a whole partition join the query `q`. -/
def completedWhole (sch : Bytes) (p : Probe) (rows : List Row) (l : List Cand) (q : Query) : Query :=
  lowerRadius sch (withProbe { p with complete := true, matched := rows.length } { q with cands := q.cands ++ l })

theorem given_completedWhole (sch : Bytes) (p : Probe) (rows : List Row) (l : List Cand) (q : Query) :
    given (completedWhole sch p rows l q) = given q := given_lowerRadius ..

theorem find_completedWhole {p' : Probe} {sch : Bytes} {rows : List Row} {l : List Cand} (hp : q.probes.find? (·.part == part) = some p) (hpart : p'.part = part) :
    (completedWhole sch p' rows l q).probes.find? (·.part == part) = some { p' with complete := true, matched := rows.length } := by
  rw [completedWhole, lowerRadius_probes]
  exact find_withProbe (q := { q with cands := q.cands ++ l }) hp hpart

theorem findQuery_completeProbe_whole (hq : findQuery s key = some q) (hwhole : p.damaged = false) :
    ∃ n, findQuery (completeProbe c key shard p s) key = some (noted n (completedWhole c.schema p (matching c q (partRows c q p.part))
      (partCands c q shard p.part (matching c q (partRows c q p.part))).1 q)) := by
  unfold completeProbe
  rw [hq]
  dsimp only
  rw [if_neg (by simp [hwhole])]
  exact ⟨_, findQuery_noteSaturated _ (findQuery_upd (f := completedWhole c.schema p _ _) (key_of_given fun x => given_completedWhole _ _ _ _ x) hq)⟩

theorem completeProbe_worksOn (c : Coll) (key shard : Nat) (p : Probe) (s : State) : WorksOn key s (completeProbe c key shard p s) := by
  unfold completeProbe
  split
  · exact .refl
  · dsimp only
    split
    · exact .update (f := completedDamaged p) fun _ => rfl
    · exact (WorksOn.update (f := completedWhole c.schema p _ _) fun x => given_completedWhole _ _ _ _ x).trans (noteSaturated_worksOn ..)

end

/-! ## A pass for one query -/

/-- The row groups that are covered once a pass has scanned `groups` of a stripe. -/
def seenGroups (c : Coll) (q : Query) (p : Probe) (part stripe : Nat) (groups : List Nat) : List (Nat × Nat) :=
  dedup (p.groups ++ (groups.map fun g => (stripe, g)).filter (rowGroups c.schema (partRows c q part).length).contains)

/-- The probe has met data beyond correction, or the partition or its tree is known to hold some. -/
def meetsDamage (c : Coll) (q : Query) (p : Probe) (part : Nat) : Bool :=
  p.damaged || partHurt c q.order part || partHurt c q.order treeMark || q.media.contains part

/-- The probe after the pass. -/
def scannedProbe (c : Coll) (q : Query) (p : Probe) (part stripe : Nat) (groups : List Nat) : Probe :=
  { p with groups := seenGroups c q p part stripe groups, damaged := meetsDamage c q p part }

/-- Every row group of the partition is covered. -/
def covered (c : Coll) (q : Query) (p : Probe) (part stripe : Nat) (groups : List Nat) : Bool :=
  decide ((rowGroups c.schema (partRows c q part).length).length ≤ (seenGroups c q p part stripe groups).length)

theorem passFor_worksOn (c : Coll) (part stripe : Nat) (groups : List Nat) (s : State) (key : Nat) : WorksOn key s (passFor c part stripe groups s key) := by
  unfold passFor
  split
  · exact .refl
  · split
    · exact .refl
    · split
      · exact .refl
      · dsimp only
        split
        · exact completeProbe_worksOn ..
        · exact .update fun _ => rfl

/-- R154: from T_SC on a pass is too late for a bounded query. -/
theorem passFor_late (hq : findQuery s key = some q) (hbounded : q.exact = false) (hlate : q.tsc ≤ s.now) : passFor c part stripe groups s key = s := by
  unfold passFor
  rw [hq]
  dsimp only
  split
  · rfl
  · rw [if_pos (.inr (.inr ⟨hbounded, hlate⟩))]

/-- The first element that meets `a` is the first that meets `a` and `b`, where it meets `b`. -/
theorem find?_and_eq_some {α : Type} {a b : α → Bool} {l : List α} {x : α} (h : l.find? a = some x) (hb : b x = true) :
    l.find? (fun y => a y && b y) = some x := by
  obtain ⟨ha, as, bs, rfl, hbefore⟩ := List.find?_eq_some_iff_append.1 h
  refine List.find?_eq_some_iff_append.2 ⟨by simp [ha, hb], as, bs, rfl, fun y hy => ?_⟩
  have hy : a y = false := by simpa using hbefore y hy
  simp [hy]

section
variable (hq : findQuery s key = some q) (hcoll : q.coll = c.id) (hphase : q.phase = .scanning) (hp : q.probes.find? (·.part == part) = some p)
  (hopen : p.complete = false) (htime : q.exact = true ∨ s.now < q.tsc)

include hq hcoll hphase hp hopen htime

/-- A pass in time for a query that still probes the partition. -/
theorem passFor_open : passFor c part stripe groups s key =
    if covered c q p part stripe groups then completeProbe c key (ownShardNo s c.id) (scannedProbe c q p part stripe groups) s
    else updQuery key (withProbe (scannedProbe c q p part stripe groups)) s := by
  have hpart : p.part = part := by simpa using List.find?_some hp
  have hintime : ¬(q.phase ≠ .scanning ∨ q.coll ≠ c.id ∨ (q.exact = false ∧ q.tsc ≤ s.now)) := by
    rcases htime with h | h <;> simp [hphase, hcoll, h]
  unfold passFor
  rw [hq]
  dsimp only
  rw [find?_and_eq_some (b := fun x => !x.complete) hp (by simp [hopen])]
  dsimp only
  rw [if_neg hintime]
  subst hpart
  exact ite_congr (decide_eq_true_eq.symm) (fun _ => rfl) fun _ => rfl

theorem passFor_partial (hrest : covered c q p part stripe groups = false) :
    findQuery (passFor c part stripe groups s key) key = some (withProbe (scannedProbe c q p part stripe groups) q) := by
  rw [passFor_open hq hcoll hphase hp hopen htime, if_neg (by simp [hrest])]
  exact findQuery_upd (f := withProbe _) (fun _ => rfl) hq

theorem passFor_damaged (hall : covered c q p part stripe groups = true) (hdamaged : meetsDamage c q p part = true) :
    findQuery (passFor c part stripe groups s key) key = some (completedDamaged (scannedProbe c q p part stripe groups) q) := by
  rw [passFor_open hq hcoll hphase hp hopen htime, if_pos hall]
  exact findQuery_completeProbe_damaged hq hdamaged

theorem passFor_whole (hall : covered c q p part stripe groups = true) (hwhole : meetsDamage c q p part = false) :
    ∃ n, findQuery (passFor c part stripe groups s key) key = some (noted n (completedWhole c.schema (scannedProbe c q p part stripe groups)
      (matching c q (partRows c q part)) (partCands c q (ownShardNo s c.id) part (matching c q (partRows c q part))).1 q)) := by
  have hpart : p.part = part := by simpa using List.find?_some hp
  rw [passFor_open hq hcoll hphase hp hopen htime, if_pos hall]
  subst hpart
  exact findQuery_completeProbe_whole (p := scannedProbe c q p p.part stripe groups) hq hwhole

end

/-! ## A pass for several queries -/

theorem findQuery_foldl_passFor_ne {l : List Nat} (hkey : key ∉ l) : findQuery (l.foldl (passFor c part stripe groups) s) key = findQuery s key := by
  induction l generalizing s with
  | nil => rfl
  | cons k r ih =>
    exact (ih (List.not_mem_of_not_mem_cons hkey)).trans ((passFor_worksOn ..).findQuery_ne (List.ne_of_not_mem_cons hkey))

/-- The passes for the other queries of a list are none of a query's business: what the list does to it, its own pass does, in a state that differs from the
first one in nothing that the pass reads. -/
theorem findQuery_foldl_passFor {l : List Nat} (hmem : key ∈ l) (hnodup : l.Nodup) :
    ∃ v : State, findQuery v key = findQuery s key ∧ v.now = s.now ∧ v.settings = s.settings ∧
      findQuery (l.foldl (passFor c part stripe groups) s) key = findQuery (passFor c part stripe groups v key) key := by
  obtain ⟨before, after, rfl⟩ := List.append_of_mem hmem
  rw [List.nodup_append, List.nodup_cons] at hnodup
  obtain ⟨-, ⟨hafter, -⟩, hapart⟩ := hnodup
  have hbefore : key ∉ before := fun h => hapart _ h _ List.mem_cons_self rfl
  refine ⟨before.foldl (passFor c part stripe groups) s, findQuery_foldl_passFor_ne hbefore, ?_, ?_, ?_⟩
  · exact foldl_same (·.now) (fun _ _ => (passFor_worksOn ..).now) _ _
  · exact foldl_same (·.settings) (fun _ _ => (passFor_worksOn ..).settings) _ _
  · rw [List.foldl_append, List.foldl_cons, findQuery_foldl_passFor_ne hafter]

/-! ## Rounds (R140) -/

section
variable (hq : findQuery s key = some q) (hc : findColl s q.coll = some c) (hphase : q.phase = .scanning) (hdone : roundDone q = true)
  (hlevel : levelLost s q.coll = false)

include hq hc hphase hdone hlevel

theorem exec_probeRound_done : exec (.probeRound key) s =
    if mustWiden q then
      if !q.exact && q.tsc ≤ s.now then .next s
      else .next (bump Key.wideningRounds (updQuery key (issue c (q.taken + Qr.probeCount q.record)) s))
    else .next (afterScan key s) := by
  change execProbeRound key s = _
  unfold execProbeRound
  rw [hq]
  dsimp only
  rw [hc]
  dsimp only
  rw [if_neg (by simp [hphase, hdone, hlevel])]

theorem exec_probeRound_widens (hfew : mustWiden q = true) (htime : q.exact = true ∨ s.now < q.tsc) :
    exec (.probeRound key) s = .next (bump Key.wideningRounds (updQuery key (issue c (q.taken + Qr.probeCount q.record)) s)) := by
  rw [exec_probeRound_done hq hc hphase hdone hlevel, if_pos hfew, if_neg]
  rcases htime with h | h <;> simp [h]

theorem exec_probeRound_ends (henough : mustWiden q = false) : exec (.probeRound key) s = .next (afterScan key s) := by
  rw [exec_probeRound_done hq hc hphase hdone hlevel, if_neg (by simp [henough])]

end

/-- The positions that are issued follow the partitions that were probed before. -/
theorem issue_parts (c : Coll) (upTo : Nat) (q : Query) : (issue c upTo q).probes.map (·.part) =
    q.probes.map (·.part) ++ (q.probeList.take (min upTo q.probeList.length)).drop q.taken := by
  have hfresh : ((fun x : Probe => x.part) ∘ freshProbe c q) = id := rfl
  simp [issue, hfresh]

/-! ## The claim -/

/-- Settles O36: a pass leaves every query but those of its list alone, so that each meets its own pass as it stands; and a round that is complete widens or ends
the scan by its match count. -/
theorem probesAreScannedInRounds : Obligations.ProbesAreScannedInRounds := by
  refine ⟨?pass, ?round⟩
  case pass =>
    intro engine part stripe key groups queries c q p s hengine hqueries hnodup hmem hc hrestored hfenced hq hcoll hphase hp hopen
    have hexec := exec_sloePass (stripe := stripe) (groups := groups) hengine hqueries hc hrestored hfenced
    obtain ⟨v, hsame, hnow, hsettings, hfold⟩ := findQuery_foldl_passFor (c := c) (part := part) (stripe := stripe)
      (groups := ownGroups engine c.id part stripe groups s) (s := passStart c.id part s) hmem hnodup
    have hv : findQuery v key = some q := hsame.trans ((passStart_same (findQuery · key) (fun _ _ => rfl) hfenced ..).trans hq)
    rw [passStart_same (·.now) (fun _ _ => rfl) hfenced] at hnow
    rw [passStart_same (·.settings) (fun _ _ => rfl) hfenced] at hsettings
    refine ⟨fun htime => ?intime, fun hbounded hlate => ⟨_, hexec, ?late⟩⟩
    case late => rw [hfold, passFor_late hv hbounded (hnow ▸ hlate), hv]
    case intime =>
      have hpart : p.part = part := by simpa using List.find?_some hp
      have htime' : q.exact = true ∨ v.now < q.tsc := hnow ▸ htime
      cases hall : covered c q p part stripe (ownGroups engine c.id part stripe groups s) with
      | false =>
        have hx := passFor_partial hv hcoll hphase hp hopen htime' hall
        have hrest := of_decide_eq_false hall
        refine ⟨_, _, hexec, hfold.trans hx, ?_, fun h => absurd h hrest, fun h => absurd h hrest⟩
        rw [find_withProbe hp (by exact hpart)]
        exact congrArg some (hopen.trans hall.symm)
      | true =>
        cases hdamage : meetsDamage c q p part with
        | true =>
          have hx := passFor_damaged hv hcoll hphase hp hopen htime' hall hdamage
          refine ⟨_, _, hexec, hfold.trans hx, ?_, fun _ hwhole => ?_, fun _ _ => ⟨?_, rfl⟩⟩
          · rw [find_completedDamaged hp (by exact hpart)]
            exact congrArg some hall.symm
          · exact absurd (hdamage.symm.trans hwhole) (by decide)
          · exact congrArg (q.media ++ [·]) hpart
        | false =>
          obtain ⟨n, hx⟩ := passFor_whole hv hcoll hphase hp hopen htime' hall hdamage
          rw [ownShardNo_congr hsettings] at hx
          refine ⟨_, _, hexec, hfold.trans hx, ?_, fun _ _ => ⟨?_, ?_⟩, fun _ hdamaged => ?_⟩
          · rw [noted_probes, find_completedWhole hp (by exact hpart)]
            exact congrArg some hall.symm
          · rw [noted_probes, find_completedWhole hp (by exact hpart)]
            rfl
          · rw [noted_cands, completedWhole, lowerRadius_cands]
            rfl
          · exact absurd (hdamage.symm.trans hdamaged) (by decide)
  case round =>
    intro key c q s hq hc hphase hdone hlevel
    refine ⟨fun hfew htime hcanonical hlt => ?_, fun henough => ?_⟩
    · have hcounters : Table.wf (fun _ => 0) s.counters = true := hcanonical.1
      refine ⟨_, exec_probeRound_widens hq hc hphase hdone hlevel hfew htime, counter_bump_from (s := s) rfl hcounters hlt, ?_⟩
      rw [findQuery_congr (bump_search ..), findQuery_upd (f := issue c _) (fun _ => rfl) hq]
      rw [Option.map_some, issue_parts, ← hphase]
      rfl
    · obtain ⟨x, hx, hended, hprobes, -⟩ := findQuery_afterScan hq hc
      exact ⟨_, x, exec_probeRound_ends hq hc hphase hdone hlevel henough, hx, hended, hprobes⟩

end Sys2Proof.ProbeRounds
end

section
/-! SUPPORT. The later stages of a query (07 R145 to R152): the scores of the survivors, the final selection, and where its result goes. -/

namespace Sys2Proof.QueryResults

open Machine Laws QueryStages

variable {s v : State} {key t seq : Nat} {q : Query} {c : Coll} {cmd : Cmd} {f : Found}

/-! ## Candidates that are scored anew (R145) -/

/-- The candidates of a list with the scores of their rows; one whose row is not there is dropped. -/
def rescored (score : Row → Nat) (stage : Nat) (c : Coll) (q : Query) (l : List Cand) : List Cand :=
  l.filterMap fun x => ((partRows c q x.part).find? (·.id == x.id)).map fun r => candOf (score r) stage x.shard x.part r

theorem mem_rescored {score : Row → Nat} {stage : Nat} {l : List Cand} {y : Cand} (hy : y ∈ rescored score stage c q l) :
    y.stage = stage ∧ (∃ x ∈ l, x.id = y.id ∧ x.part = y.part ∧ x.shard = y.shard) ∧
      ∃ r, (partRows c q y.part).find? (·.id == y.id) = some r ∧ y.score = score r := by
  obtain ⟨x, hx, hrow⟩ := List.mem_filterMap.1 hy
  obtain ⟨r, hr, rfl⟩ := Option.map_eq_some_iff.1 hrow
  have hid : r.id = x.id := by simpa using List.find?_some hr
  refine ⟨rfl, ⟨x, hx, hid.symm, rfl, rfl⟩, r, ?_, rfl⟩
  change (partRows c q x.part).find? (·.id == r.id) = some r
  rw [hid]
  exact hr

theorem in_time (htime : q.exact = true ∨ s.now ≤ q.tls) : (!q.exact && decide (q.tls < s.now)) = false := by
  rcases htime with h | h <;> simp [h]

/-! ## The ADC scan (R147) -/

/-- The score of a row from its PQ code. -/
def adcScoreOf (c : Coll) (q : Query) (r : Row) : Nat := (adcRow c.schema (adcTableOf c.schema (((treeAt c q.epoch).map (·.codebook)).getD []) q) r).1

/-- The survivors with the scores of stage 2. -/
def adcCands (c : Coll) (q : Query) : List Cand := rescored (adcScoreOf c q) 2 c q q.cands

/-- The query with candidates that no longer have BINARY scores. -/
def withCands (l : List Cand) (q : Query) : Query := { q with cands := l, binaryScores := false }

/-- The query after its ADC scan, of which `n` sums saturated. -/
def adcScanned (n : Nat) (late : Bool) (c : Coll) (q : Query) : Query := pastCut late (cutCands (lateCut q) (noted n (withCands (adcCands c q) q)))

theorem exec_adcScan (hq : findQuery s key = some q) (hc : findColl s q.coll = some c) (hphase : q.phase = .adc) (htime : q.exact = true ∨ s.now ≤ q.tls) :
    ∃ n, exec (.adcScan key) s = .next (toRerank key (cutTo key (lateCut q) (noteSaturated key n (updQuery key (withCands (adcCands c q)) s)))) := by
  change ∃ n, execAdcScan key s = _
  unfold execAdcScan
  rw [hq]
  dsimp only
  rw [hc]
  dsimp only
  rw [if_neg (by simp [hphase]), in_time htime, if_neg (by decide), List.map_filterMap]
  simp only [Option.map_map]
  exact ⟨_, rfl⟩

theorem findQuery_adcScan (hq : findQuery s key = some q) (n : Nat) (l : List Cand) :
    findQuery (toRerank key (cutTo key (lateCut q) (noteSaturated key n (updQuery key (withCands l) s)))) key =
      some (pastCut (lateNow s q) (cutCands (lateCut q) (noted n (withCands l q)))) := by
  have hnow : (cutTo key (lateCut q) (noteSaturated key n (updQuery key (withCands l) s))).now = s.now :=
    (cutTo_worksOn ..).now.trans (noteSaturated_worksOn ..).now
  have hscored := findQuery_noteSaturated n (findQuery_upd (f := withCands l) (fun _ => rfl) hq)
  rw [findQuery_toRerank (findQuery_cutTo _ hscored), lateNow_congr hnow]
  have hlate : lateNow s (cutCands (lateCut q) (noted n (withCands l q))) = lateNow s q := by simp [lateNow, cutCands, withCands]
  rw [hlate]

theorem replaySkips_congr {x : Query} (h : x.replay = q.replay) (i : Nat) : replaySkips x i = replaySkips q i := by
  unfold replaySkips; rw [h]

theorem adcScanned_phase (n : Nat) (late : Bool) (c : Coll) (q : Query) : (adcScanned n late c q).phase =
    if Qr.rerank q.record = 0 ∨ replaySkips q 1 = true ∨ late = true then .final else .rerank := by
  have hreplay : (cutCands (lateCut q) (noted n (withCands (adcCands c q) q))).replay = q.replay := noted_replay ..
  have hrecord : (cutCands (lateCut q) (noted n (withCands (adcCands c q) q))).record = q.record := noted_record ..
  rw [adcScanned, pastCut_phase, replaySkips_congr hreplay, hrecord]

/-! ## The re-ranking (R149, R162) -/

/-- The full vector of a candidate cannot be read. -/
def vectorGone (lost : List Nat) (s : State) (c : Coll) (q : Query) (x : Cand) : Bool :=
  lost.contains x.id || partHurt c q.order (fullMark + x.part) ||
    (!Sch.pinFull c.schema && pagesLost s 1 c.id (vectorLpns c.id c.schema (partRows c q x.part) x.id))

/-- The query after its re-ranking: what is left is scored exactly, and the partitions of what is not are listed. -/
def reranked (lost : List Nat) (s : State) (c : Coll) (q x : Query) : Query :=
  { x with
    phase := .final
    cands := rescored (rowScore c.schema q) 3 c q (q.cands.filter fun y => !vectorGone lost s c q y)
    media := x.media ++ (q.cands.filter (vectorGone lost s c q)).map (·.part)
    binaryScores := false }

theorem exec_rerank {lost : List Nat} (hq : findQuery s key = some q) (hc : findColl s q.coll = some c) (hphase : q.phase = .rerank)
    (htime : q.exact = true ∨ s.now ≤ q.tls) : exec (.rerank key ⟨lost, []⟩) s = .next (updQuery key (reranked lost s c q) s) := by
  have hread : (if (findQuery s key).any (·.phase == .rerank) then readBursts [] s else s) = s := ite_self s
  change execRerank key ⟨lost, []⟩ s = _
  unfold execRerank
  dsimp only
  rw [hread, hq]
  dsimp only
  rw [hc]
  dsimp only
  rw [if_neg (by simp [hphase]), in_time htime, if_neg (by decide)]
  rfl

/-! ## The end of a query -/

/-- What does not rest on the search part is left when a query is dropped. -/
theorem dropQuery_same {α : Type} (g : State → α) (hg : ∀ (s : State) x, g { s with search := x } = g s) (q : Query) (s : State) :
    g (dropQuery q s) = g s := by
  have hsettle : ∀ (id : Nat) (v : State), g (settle id v) = g v := fun id v => by
    unfold settle
    split
    · rfl
    · exact hg ..
  exact (hsettle ..).trans (hg ..)

theorem findQuery_dropQuery (hq : findQuery s key = some q) : findQuery (dropQuery q s) key = none := by
  obtain rfl := findQuery_key hq
  rw [findQuery, ShardOwners.dropQuery_queries, List.find?_eq_none]
  intro x hx
  simpa using (List.mem_filter.1 hx).2

/-- What a query has found once its last stage ends (R151, 09 R194). -/
def found (c : Coll) (q : Query) (s : State) : Found :=
  if q.shards.isEmpty then ownFound c.schema (ownShardNo s c.id) q else (mergedFound c.schema q).1

/-- The state in which a result is written: the query is gone, and its selection is counted. -/
def selected (c : Coll) (q : Query) (s : State) : State :=
  if q.shards.isEmpty then countSkips q (countPasses (Qr.k q.record) (dropQuery q s))
  else bumpBy Key.deduplicatedEntries (mergedFound c.schema q).2 (dropQuery q s)

/-- What neither the search part nor counting enters is left by a final selection. -/
theorem selected_same {α : Type} (g : State → α) (hg : ∀ (s : State) x, g { s with search := x } = g s) (hcount : ∀ k n s, g (bumpBy k n s) = g s)
    (c : Coll) (q : Query) (s : State) : g (selected c q s) = g s := by
  have hskips : ∀ v : State, g (countSkips q v) = g v := fun v => by
    unfold countSkips
    split
    · rfl
    · rw [hcount, hcount]
  unfold selected
  split
  · rw [hskips]
    exact (hcount ..).trans (dropQuery_same g hg q s)
  · exact (hcount ..).trans (dropQuery_same g hg q s)

theorem selected_search (c : Coll) (q : Query) (s : State) : (selected c q s).search = (dropQuery q s).search := by
  have hskips : ∀ v : State, (countSkips q v).search = v.search := fun v => by
    unfold countSkips
    split
    · rfl
    · rw [bumpBy_search, bumpBy_search]
  unfold selected
  split
  · exact (hskips _).trans (bumpBy_search ..)
  · exact bumpBy_search ..

section
variable (c : Coll) (q : Query) (s : State)

@[simp] theorem selected_ahp : (selected c q s).ahp = s.ahp := selected_same (·.ahp) (fun _ _ => rfl) (fun k n u => bumpBy_ahp u k n) c q s
@[simp] theorem selected_net : (selected c q s).net = s.net := selected_same (·.net) (fun _ _ => rfl) (fun k n u => bumpBy_net u k n) c q s
@[simp] theorem selected_now : (selected c q s).now = s.now := selected_same (·.now) (fun _ _ => rfl) (fun k n u => bumpBy_now u k n) c q s
@[simp] theorem selected_settings : (selected c q s).settings = s.settings :=
  selected_same (·.settings) (fun _ _ => rfl) (fun k n u => bumpBy_settings u k n) c q s

end

theorem findQuery_selected (hq : findQuery s key = some q) : findQuery (selected c q s) key = none :=
  (findQuery_congr (selected_search ..) key).trans (findQuery_dropQuery hq)

section
variable (hq : findQuery s key = some q) (hc : findColl s q.coll = some c) (hphase : q.phase = .final)

include hq hc hphase

theorem exec_finalSelection (hrows : isColumn q = false) :
    exec (.finalSelection key t) s = .next (finishQuery c q (found c q (tick t s)) (selected c q (tick t s))) := by
  change execFinalSelection key t s = _
  unfold execFinalSelection
  dsimp only
  rw [show findQuery (tick t s) key = some q from hq]
  dsimp only
  rw [show findColl (tick t s) q.coll = some c from hc]
  dsimp only
  rw [if_neg (by simp [hphase]), if_neg (by simp [hrows])]
  unfold found selected
  cases hshards : q.shards.isEmpty <;> rfl

theorem exec_finalSelection_column (hcolumn : isColumn q = true) :
    exec (.finalSelection key t) s = .next (finishQuery c q (ownFound c.schema 0 q) (dropQuery q (tick t s))) := by
  change execFinalSelection key t s = _
  unfold execFinalSelection
  dsimp only
  rw [show findQuery (tick t s) key = some q from hq]
  dsimp only
  rw [show findColl (tick t s) q.coll = some c from hc]
  dsimp only
  rw [if_neg (by simp [hphase]), if_pos hcolumn]

end

/-! ## The result of a SEARCH (R152; 15 R360) -/

theorem connOf_congr {u : State} (h : u.ahp = s.ahp) (c : Cmd) : connOf u c = connOf s c := by
  unfold connOf findQueue; rw [h]

theorem resultBody_ne_nil (q : Query) (f : Found) : resultBody q f 0 ≠ [] := by simp [resultBody, zeros]

theorem resultSet_unsigned {sch : Bytes} (hdigest : Qr.wantsDigest q.record = false) : resultSet s sch q f = resultBody q f 0 := by
  rw [resultSet, if_neg (by simp [hdigest])]

/-- What neither counting nor signing enters is left by the counters of a result. -/
theorem countResult_same {α : Type} (g : State → α) (hcount : ∀ k n s, g (bumpBy k n s) = g s) (hsigned : ∀ s, g (Machine.signed s) = g s)
    (q : Query) (f : Found) (s : State) : g (countResult q f s) = g s := by
  have hbump : ∀ (k : Nat) (v : State), g (bump k v) = g v := fun k v => hcount k 1 v
  unfold countResult
  dsimp only
  split_ifs <;> simp only [hbump, hsigned]

@[simp] theorem countResult_ahp (q : Query) (f : Found) (s : State) : (countResult q f s).ahp = s.ahp :=
  countResult_same (·.ahp) (fun k n u => bumpBy_ahp u k n) (fun _ => rfl) q f s
@[simp] theorem countResult_net (q : Query) (f : Found) (s : State) : (countResult q f s).net = s.net :=
  countResult_same (·.net) (fun k n u => bumpBy_net u k n) (fun _ => rfl) q f s
@[simp] theorem countResult_search (q : Query) (f : Found) (s : State) : (countResult q f s).search = s.search :=
  countResult_same (·.search) (fun k n u => bumpBy_search u k n) (fun _ => rfl) q f s

/-- The result goes to the host's buffer, or does not fit it. -/
theorem deliverSearch_eq (cmd : Cmd) (sch : Bytes) (q : Query) (f : Found) (s : State) : deliverSearch cmd sch q f s =
    if cmd.entry.outLen < (resultSet s sch q f).length then tooLong cmd (resultSet s sch q f).length s
    else finish cmd.seq { status := mediaStatus f.media, info := q.epoch, flags := resultFlags q f, outBytes := (resultSet s sch q f).length }
      (resultSet s sch q f) (countResult q f s) := rfl

@[simp] theorem tooLong_search (cmd : Cmd) (n : Nat) (s : State) : (tooLong cmd n s).search = s.search := finish_search ..

@[simp] theorem deliverSearch_search (cmd : Cmd) (sch : Bytes) (q : Query) (f : Found) (s : State) : (deliverSearch cmd sch q f s).search = s.search := by
  rw [deliverSearch_eq]
  split
  · exact tooLong_search ..
  · rw [finish_search, countResult_search]

section
variable (hcmd : findCmd v cmd.seq = some cmd) (hhost : cmd.internal = false)

include hcmd

theorem finishQuery_search (horigin : q.origin = .search cmd.seq) : finishQuery c q f v = deliverSearch cmd c.schema q f v := by
  unfold finishQuery queryCmd
  rw [horigin]
  dsimp only
  rw [hcmd]

theorem finishQuery_column (horigin : q.origin = .column cmd.seq) : finishQuery c q f v = deliverColumn cmd c q v := by
  unfold finishQuery queryCmd
  rw [horigin]
  dsimp only
  rw [hcmd]

theorem tooLong_out (n : Nat) : (tooLong cmd n v).net.out = v.net.out := by
  rw [tooLong, finish_out hcmd]
  simp

/-- Output that is not empty goes to the buffer of its command. -/
theorem finish_out_some {comp : Comp} {output : Bytes} (hsome : output ≠ []) :
    (finish cmd.seq comp output v).net.out = v.net.out ++ [.write (connOf v cmd) cmd.entry.outAddr cmd.entry.outKey output] := by
  rw [finish_out hcmd, if_neg (by simpa using hsome)]

include hhost

theorem ready_tooLong (n : Nat) : ready (tooLong cmd n v) cmd.seq = some { status := Status.lengthMismatch, info := n } := ready_finish hcmd hhost

theorem ready_deliverSearch (sch : Bytes) : ready (deliverSearch cmd sch q f v) cmd.seq = some
    (if cmd.entry.outLen < (resultSet v sch q f).length then { status := Status.lengthMismatch, info := (resultSet v sch q f).length }
    else { status := mediaStatus f.media, info := q.epoch, flags := resultFlags q f, outBytes := (resultSet v sch q f).length }) := by
  rw [deliverSearch_eq]
  split
  · exact ready_tooLong hcmd hhost _
  · exact ready_finish ((findCmd_congr (countResult_ahp ..) _).trans hcmd) hhost

end

/-! ## A count over a column (08 R177) -/

theorem countTable_ne_nil (type limit epoch : Nat) (vs media : List Nat) : countTable type limit epoch vs media ≠ [] := by simp [countTable, zeros]

/-- The values that a count over a column counts. -/
def columnValues (c : Coll) (q : Query) : List Nat :=
  (columnRows c q).map fun r => countedValue (Sch.fieldType c.schema (countField q)) (fieldValue c.schema r.attr (countField q))

/-- Its table, for a module whose rows are those of `shard`. -/
def columnTable (shard : Nat) (c : Coll) (q : Query) : Bytes :=
  countTable (Sch.fieldType c.schema (countField q)) (countLimit q) q.epoch (columnValues c q) (mediaOf shard q)

theorem columnTable_ne_nil (shard : Nat) (c : Coll) (q : Query) : columnTable shard c q ≠ [] := countTable_ne_nil _ _ _ _ _

/-- The completion with that table. -/
def columnComp (shard : Nat) (c : Coll) (q : Query) : Comp where
  status := mediaStatus (mediaOf shard q)
  info := q.epoch
  flags := flagIf (!(mediaOf shard q).isEmpty) Cflag.incomplete
  outBytes := (columnTable shard c q).length

theorem deliverColumn_fits (hfits : (columnTable (ownShardNo v c.id) c q).length ≤ cmd.entry.outLen) : deliverColumn cmd c q v =
    finish cmd.seq (columnComp (ownShardNo v c.id) c q) (columnTable (ownShardNo v c.id) c q)
      (countTruncated (Sch.fieldType c.schema (countField q)) q (columnValues c q) v) :=
  if_neg (Nat.not_lt.2 hfits)

/-- What counting does not enter is left by the count of truncations. -/
theorem countTruncated_same {α : Type} (g : State → α) (hcount : ∀ k n s, g (bumpBy k n s) = g s) (type : Nat) (q : Query) (vs : List Nat) (s : State) :
    g (countTruncated type q vs s) = g s := by
  unfold countTruncated
  split
  · exact hcount ..
  · rfl

/-! ## The claim -/

/-- Settles O37: the ADC scan and the re-ranking score anew what they keep; the final selection drops its query before the result goes where its origin says, which
touches no query. -/
theorem stagesScoreTheCandidates : Obligations.StagesScoreTheCandidates := by
  refine ⟨?adc, ?rerank, ?search, ?column, ?peer⟩
  case adc =>
    intro key c q s hq hc hphase htime
    obtain ⟨n, hexec⟩ := exec_adcScan hq hc hphase htime
    refine ⟨_, adcScanned n (lateNow s q) c q, hexec, findQuery_adcScan hq n _, adcScanned_phase .., ?_, ?_, fun y hy => ?_⟩
    · rw [adcScanned, pastCut_binaryScores]
      exact noted_binaryScores ..
    · rw [adcScanned, pastCut_cands]
      exact length_selectK_le ..
    · rw [adcScanned, pastCut_cands] at hy
      have hscored := mem_of_mem_selectK hy
      rw [noted_cands] at hscored
      obtain ⟨hstage, ⟨x, hx, hid, hpart, hshard⟩, hrow⟩ := mem_rescored hscored
      exact ⟨hstage, List.any_eq_true.2 ⟨x, hx, by simp [hid, hpart, hshard]⟩, hrow⟩
  case rerank =>
    intro key lost c q s hq hc hphase htime
    refine ⟨_, reranked lost s c q q, exec_rerank hq hc hphase htime, findQuery_upd (f := reranked lost s c q) (fun _ => rfl) hq, rfl, fun y hy => ?_, rfl⟩
    obtain ⟨hstage, ⟨x, hx, hid, hpart, -⟩, hrow⟩ := mem_rescored hy
    obtain ⟨hmem, hthere⟩ := List.mem_filter.1 hx
    refine ⟨hstage, List.any_eq_true.2 ⟨x, hmem, ?_⟩, hrow⟩
    rw [Bool.and_eq_true]
    exact ⟨by simp [hid, hpart], hthere⟩
  case search =>
    intro key t seq c q cmd s hq hc hphase horigin hcmd hhost f
    obtain rfl := findCmd_seq hcmd
    have hcmd' : findCmd (selected c q (tick t s)) cmd.seq = some cmd := (findCmd_congr (selected_ahp ..) _).trans hcmd
    have hexec : exec (.finalSelection key t) s = .next (deliverSearch cmd c.schema q f (selected c q (tick t s))) := by
      rw [exec_finalSelection hq hc hphase (by simp [isColumn, horigin]), finishQuery_search hcmd' horigin]
      rfl
    have hgone : findQuery (deliverSearch cmd c.schema q f (selected c q (tick t s))) key = none :=
      (findQuery_congr (deliverSearch_search ..) key).trans (findQuery_selected (s := tick t s) hq)
    have hready := ready_deliverSearch (q := q) (f := f) hcmd' hhost c.schema
    refine ⟨fun hdigest hfits => ⟨_, hexec, hgone, ?_, ?_⟩, fun hdigest hlong => ⟨_, hexec, hgone, ?_, ?_⟩, fun hdigest => ⟨_, _, hexec, hgone, hready, ?_⟩⟩
    · rw [hready, resultSet_unsigned hdigest, if_neg hfits.not_gt]
    · rw [deliverSearch_eq, resultSet_unsigned hdigest, if_neg hfits.not_gt,
        finish_out_some ((findCmd_congr (countResult_ahp ..) _).trans hcmd') (resultBody_ne_nil q f), connOf_congr (s := s) (by simp)]
      simp
    · rw [hready, resultSet_unsigned hdigest, if_pos hlong]
    · rw [deliverSearch_eq, resultSet_unsigned hdigest, if_pos hlong, tooLong_out hcmd', selected_net]
      rfl
    · split
      · exact .inl rfl
      · exact .inr ⟨rfl, rfl, rfl⟩
  case column =>
    intro key t seq c q cmd s hq hc hphase horigin hcmd hhost out hfits
    obtain rfl := findCmd_seq hcmd
    have hahp : (dropQuery q (tick t s)).ahp = s.ahp := dropQuery_same (·.ahp) (fun _ _ => rfl) q (tick t s)
    have hshard : ownShardNo (dropQuery q (tick t s)) c.id = ownShardNo (tick t s) c.id :=
      ownShardNo_congr (dropQuery_same (·.settings) (fun _ _ => rfl) q (tick t s)) c.id
    have hcmd' : findCmd (dropQuery q (tick t s)) cmd.seq = some cmd := (findCmd_congr hahp _).trans hcmd
    have hcounted : ∀ vs, (countTruncated (Sch.fieldType c.schema (countField q)) q vs (dropQuery q (tick t s))).ahp = s.ahp := fun vs =>
      (countTruncated_same (·.ahp) (fun k n u => bumpBy_ahp u k n) ..).trans hahp
    have hexec := exec_finalSelection_column (t := t) hq hc hphase (by simp [isColumn, horigin])
    rw [finishQuery_column hcmd' horigin, deliverColumn_fits (by rw [hshard]; exact hfits), hshard] at hexec
    refine ⟨_, hexec, ?_, ?_, ?_⟩
    · refine (findQuery_congr ?_ key).trans (findQuery_dropQuery (s := tick t s) hq)
      exact (finish_search ..).trans (countTruncated_same (·.search) (fun k n u => bumpBy_search u k n) ..)
    · rw [ready_finish ((findCmd_congr (hcounted _) _).trans hcmd) hhost]
      rfl
    · rw [finish_out_some ((findCmd_congr (hcounted _) _).trans hcmd) (columnTable_ne_nil _ c q), connOf_congr (hcounted _),
        countTruncated_same (·.net) (fun k n u => bumpBy_net u k n), dropQuery_same (·.net) (fun _ _ => rfl)]
      rfl
  case peer =>
    intro key t peer qid c q s hq hc hphase horigin hshards
    refine ⟨selected c q (tick t s), ?_, findQuery_selected (s := tick t s) hq, selected_net ..⟩
    rw [exec_finalSelection hq hc hphase (by simp [isColumn, horigin])]
    unfold finishQuery found
    rw [horigin]
    dsimp only
    rw [ownShardNo_congr (selected_settings ..), selected_now, hshards]
    rfl

end Sys2Proof.QueryResults
end

section
/-! SUPPORT. How queries start (07 R133, R138; 08 R175 to R177; 09 R193; 15 R357, R360): the checks of SEARCH and UNIQUE_COUNT, the query under a new key, and the
fan-out to the shards. -/

namespace Sys2Proof.QueryStarts

open Machine Laws QueryStages IndexBuilds VersionUnits

variable {s v : State} {key t : Nat} {q : Query} {c : Coll} {cmd : Cmd} {p : Plan} {b : Bytes}

/-! ## A query under a new key (R138 to R140, R150, R153) -/

/-- The state with one query more. -/
def enqueued (q : Query) (s : State) : State :=
  { s with search := { s.search with queries := s.search.queries ++ [q], nextQuery := s.search.nextQuery + 1 } }

theorem findQuery_enqueued (hfree : findQuery s q.key = none) : findQuery (enqueued q s) q.key = some q := by
  unfold findQuery enqueued
  rw [List.find?_append, show s.search.queries.find? (·.key == q.key) = none from hfree]
  simp

theorem findQuery_enqueued_ne (hkey : key ≠ q.key) : findQuery (enqueued q s) key = findQuery s key := by
  unfold findQuery enqueued
  rw [List.find?_append]
  simp [Ne.symm hkey]

theorem appendPass_worksOn (c : Coll) (shard : Nat) (q : Query) (s : State) : WorksOn q.key s (appendPass c shard q s) := by
  unfold appendPass
  dsimp only
  split_ifs
  · exact .update fun _ => rfl
  · exact .update fun _ => rfl
  · exact .update fun _ => rfl
  · refine .trans ?_ (countPasses_worksOn ..)
    exact .update fun _ => rfl

/-- All stages that run at its start work on the new query. -/
theorem startQuery_worksOn (c : Coll) (a : Start) (s : State) :
    WorksOn s.search.nextQuery (enqueued (newQuery s.search.nextQuery c a) s) (startQuery c a s) := by
  have hissued : ∀ n, WorksOn s.search.nextQuery (enqueued (newQuery s.search.nextQuery c a) s) (updQuery s.search.nextQuery (issue c n)
      (appendPass c (ownShardNo s c.id) (newQuery s.search.nextQuery c a) (enqueued (newQuery s.search.nextQuery c a) s))) := fun n =>
    (appendPass_worksOn c (ownShardNo s c.id) (newQuery s.search.nextQuery c a) _).trans (.update fun _ => rfl)
  unfold startQuery
  dsimp only
  split
  · exact ((hissued _).trans (.update (f := scanCut) fun _ => rfl)).trans (afterScan_worksOn ..)
  · exact hissued _

theorem startQuery_nextQuery (c : Coll) (a : Start) (s : State) : (startQuery c a s).search.nextQuery = s.search.nextQuery + 1 :=
  (startQuery_worksOn c a s).nextQuery

theorem findQuery_startQuery_ne (a : Start) (hkey : key ≠ s.search.nextQuery) : findQuery (startQuery c a s) key = findQuery s key :=
  ((startQuery_worksOn c a s).findQuery_ne hkey).trans (findQuery_enqueued_ne hkey)

/-- A query that starts under a free key is there, with what its start gives it. -/
theorem findQuery_startQuery (c : Coll) (a : Start) (hfree : findQuery s s.search.nextQuery = none) :
    ∃ x, findQuery (startQuery c a s) s.search.nextQuery = some x ∧ x.origin = a.origin ∧ x.coll = c.id ∧ x.record = a.record ∧ x.request = a.request ∧
      x.epoch = a.epoch ∧ x.deadline = a.deadline ∧ x.order = a.order := by
  have hgiven := (startQuery_worksOn c a s).given_findQuery
  rw [show findQuery (enqueued _ s) s.search.nextQuery = some (newQuery s.search.nextQuery c a) from findQuery_enqueued hfree] at hgiven
  obtain ⟨x, hx, hsame⟩ := Option.map_eq_some_iff.1 hgiven
  simp only [given, Prod.mk.injEq] at hsame
  obtain ⟨-, hrest⟩ := hsame
  exact ⟨x, hx, hrest⟩

/-! ## The fan-out (09 R193) -/

/-- The coordinator's query of a collection whose shards the map names. -/
def coordinator (key now : Nat) (c : Coll) (m : ShardMap) (a : Start) (tsh : Nat) : Query :=
  { newQuery key c a with
    phase := .shards
    probeList := []
    shards := ((List.range m.owners.length).zip m.owners).map fun o =>
      newWait o.1 o.2 ((((replayOf c.schema a.record).map (·.1)).getD []).contains (skipEntry o.1 0xFFFFFFFF))
    tsh := tsh
    shardSince := now }

/-- The shards of a query with their owners. -/
def asksOf (q : Query) : List (Nat × Nat) := q.shards.map fun w => (w.shard, w.owner)

theorem asksOf_coordinator (key now : Nat) (c : Coll) (m : ShardMap) (a : Start) (tsh : Nat) :
    asksOf (coordinator key now c m a tsh) = (List.range m.owners.length).zip m.owners := by
  simp [asksOf, coordinator, newWait, Function.comp_def]

/-- The coordinator's query `q` stands as it began, but for what its shards answered; every new query gets a later key. -/
structure Coordinating (q : Query) (s : State) : Prop where
  later : q.key < s.search.nextQuery
  found : ∃ l, findQuery s q.key = some { q with shards := l } ∧ l.map (fun w => (w.shard, w.owner)) = asksOf q

namespace Coordinating

variable {u : State}

theorem congr (hu : u.search = s.search) (h : Coordinating q s) : Coordinating q u := by
  obtain ⟨hlater, l, hfound, hasks⟩ := h
  exact ⟨hu ▸ hlater, l, (findQuery_congr hu _).trans hfound, hasks⟩

theorem takePart {shard : Nat} {g : ShardWait → ShardWait} (hg : ∀ w, (g w).shard = w.shard ∧ (g w).owner = w.owner) (h : Coordinating q s) :
    Coordinating q (takePart q.key shard g s) := by
  obtain ⟨hlater, l, hfound, hasks⟩ := h
  refine ⟨hlater, mapIf (fun w => w.shard == shard) g l, findQuery_upd (f := fun x => { x with shards := mapIf (fun w => w.shard == shard) g x.shards }) (fun _ => rfl) hfound, ?_⟩
  rw [← hasks, mapIf, List.map_map]
  refine List.map_congr_left fun w _ => ?_
  by_cases hw : w.shard = shard <;> simp [hw, hg w]

theorem startQuery (c : Coll) (a : Start) (h : Coordinating q s) : Coordinating q (startQuery c a s) := by
  obtain ⟨hlater, l, hfound, hasks⟩ := h
  exact ⟨by rw [startQuery_nextQuery]; omega, l, (findQuery_startQuery_ne a hlater.ne).trans hfound, hasks⟩

/-- The request to one shard, or the start of the module's own. -/
theorem askShard (c : Coll) (p : Plan) (finishUs adcUs : Nat) (w : ShardWait) (h : Coordinating q s) : Coordinating q (askShard c p q finishUs adcUs s w) := by
  have hcounted : Coordinating q (bump Key.shardRequestsSent s) := h.congr (bump_search ..)
  unfold Machine.askShard
  split
  · exact h
  · dsimp only
    split
    · exact hcounted.congr (sendSpp_search ..)
    · split
      · exact hcounted.takePart fun _ => ⟨rfl, rfl⟩
      · exact hcounted.startQuery ..

theorem foldl_askShard (c : Coll) (p : Plan) (finishUs adcUs : Nat) (l : List ShardWait) (h : Coordinating q s) :
    Coordinating q (l.foldl (Machine.askShard c p q finishUs adcUs) s) := by
  induction l generalizing s with
  | nil => exact h
  | cons w r ih => exact ih (h.askShard c p finishUs adcUs w)

end Coordinating

/-- A coordinator's query that starts under a free key has asked every shard before the first answer counts. -/
theorem startShards_asks (c : Coll) (p : Plan) (m : ShardMap) (a : Start) (tsh : Nat) (hfree : findQuery s s.search.nextQuery = none) :
    ∃ v, startShards c p m a tsh s = concludeShards s.search.nextQuery v ∧ Coordinating (coordinator s.search.nextQuery s.now c m a tsh) v :=
  have hbegins : Coordinating (coordinator s.search.nextQuery s.now c m a tsh) (enqueued (coordinator s.search.nextQuery s.now c m a tsh) s) :=
    ⟨Nat.lt_succ_self _, _, findQuery_enqueued hfree, rfl⟩
  ⟨_, rfl, hbegins.foldl_askShard c p a.finishUs a.adcUs _⟩

/-! ## A command that has its banks (12 R273) -/

/-- The state in which an admitted query command runs. -/
def banked (cmd : Cmd) (t : Nat) (s : State) : State := takeBanks cmd (tick t s)

section
variable (cmd : Cmd) (t : Nat) (s : State)

@[simp] theorem banked_search : (banked cmd t s).search = s.search := takeBanks_search ..
@[simp] theorem banked_settings : (banked cmd t s).settings = s.settings := takeBanks_settings ..
@[simp] theorem banked_ahp : (banked cmd t s).ahp = s.ahp := takeBanks_ahp ..
@[simp] theorem banked_net : (banked cmd t s).net = s.net := takeBanks_same (·.net) (fun _ _ => rfl) (fun k u => bump_net u k) ..

theorem findCmd_banked (seq : Nat) : findCmd (banked cmd t s) seq = findCmd s seq := findCmd_congr (banked_ahp cmd t s) seq

theorem findColl_banked (id : Nat) : findColl (banked cmd t s) id = findColl s id := findColl_congr (banked_search cmd t s) id

theorem shardMapOf_banked (coll : Nat) : shardMapOf (banked cmd t s) coll = shardMapOf s coll := shardMapOf_congr (banked_settings cmd t s) coll

theorem connOf_banked (d : Cmd) : connOf (banked cmd t s) d = connOf s d := QueryResults.connOf_congr (banked_ahp cmd t s) d

theorem livePlan_banked (p : Plan) : livePlan (banked cmd t s) p = livePlan s p := by
  unfold livePlan; rw [banked_ahp]

/-- A record is checked against what it was checked against before. -/
theorem commandCtx_banked (c : Coll) (p : Plan) (e : Nat) : commandCtx (banked cmd t s) cmd c p e = commandCtx (tick t s) cmd c p e := by
  have hminor : minorOf (banked cmd t s) cmd = minorOf (tick t s) cmd := by unfold minorOf findQueue; rw [banked_ahp]; rfl
  have hmap : shardMapOf (banked cmd t s) c.id = shardMapOf (tick t s) c.id := shardMapOf_banked cmd t s c.id
  unfold commandCtx
  rw [hminor, hmap]

end

/-- Where the codes find nothing, no query loses rows. -/
theorem loseQueryRows_quiet (seq : Nat) (v u : State) : loseQueryRows seq (lostMedia v Upsets.quiet) u = u := if_pos rfl

section
variable {seq : Nat} (hlen : b.length = cmd.entry.inLen) (hbanks : awaitsBanks (takeBanks cmd (tick t s)) seq = false)

include hlen hbanks

theorem exec_search (hcmd : admittedCmd s seq 0x2A = some cmd) :
    exec (.search seq b Upsets.quiet t) s = .next (searchNow seq cmd b (banked cmd t s)) := by
  change execSearch seq b Upsets.quiet t s = _
  unfold execSearch
  dsimp only
  rw [show admittedCmd (tick t s) seq 0x2A = some cmd from hcmd]
  dsimp only
  rw [RolesAndPlans.not_wrongTransfer hlen, if_neg (by decide), hbanks, if_neg (by decide), guarded_quiet]
  exact congrArg _ (loseQueryRows_quiet ..)

theorem exec_uniqueCount (hcmd : admittedCmd s seq 0x2B = some cmd) :
    exec (.uniqueCount ⟨seq, Upsets.quiet⟩ b t) s = .next (countNow seq cmd b (banked cmd t s)) := by
  change execUniqueCount ⟨seq, Upsets.quiet⟩ b t s = _
  unfold execUniqueCount
  dsimp only
  rw [show admittedCmd (tick t s) seq 0x2B = some cmd from hcmd]
  dsimp only
  rw [RolesAndPlans.not_wrongTransfer hlen, if_neg (by decide), hbanks, if_neg (by decide), guarded_quiet]
  exact congrArg _ (loseQueryRows_quiet ..)

end

/-! ## A command that starts no query -/

@[simp] theorem queryRefused_search (seq base : Nat) (x : Nat × Nat) (s : State) : (queryRefused seq base x s).search = s.search := by
  unfold queryRefused
  split
  · exact failPayload_search ..
  · exact fail_search ..

/-- A record that fails a check ends its command with the status of the check. -/
theorem ready_queryRefused {seq base : Nat} {x : Nat × Nat} (hcmd : findCmd s seq = some cmd) (hhost : cmd.internal = false) :
    (ready (queryRefused seq base x s) seq).map (·.status) = some x.1 := by
  unfold queryRefused
  split
  case isTrue hfield => rw [failPayload, ready_finish hcmd hhost, hfield]; rfl
  case isFalse => rw [fail, ready_finish hcmd hhost]; rfl

/-- The command with its deadline instant (R156). -/
def withDeadline (due : Nat) (d : Cmd) : Cmd := { d with deadline := due }

theorem findCmd_withDeadline {seq : Nat} (due : Nat) (hcmd : findCmd s seq = some cmd) :
    findCmd (updCmd seq (withDeadline due) s) seq = some (withDeadline due cmd) := findCmd_upd (f := withDeadline due) (fun _ => rfl) hcmd

/-! ## The query of a command -/

/-- What a command's query is started with. -/
def commandStart (cmd : Cmd) (p : Plan) (origin : QFrom) (record request : Bytes) : Start where
  origin := origin
  plan := p.planId
  stages := stagesOf p.bytes
  tag := cmd.entry.arg1
  order := cmd.order
  record := record
  request := request
  epoch := queryEpoch cmd record
  deadline := cmd.arrived + 1000 * Qr.deadlineUs record
  cutBase := cmd.arrived + 1000 * Qr.deadlineUs record
  finishUs := cmdSetting cmd Key.finishReserveUs
  adcUs := cmdSetting cmd Key.adcReserveUs

/-- The state in which it starts: the command's stream runs, and its deadline is noted. -/
def streaming (cmd : Cmd) (record : Bytes) (v : State) : State :=
  updCmd cmd.seq (withDeadline (cmd.arrived + 1000 * Qr.deadlineUs record)) (startStream cmd.seq v)

@[simp] theorem streaming_search (cmd : Cmd) (record : Bytes) (v : State) : (streaming cmd record v).search = v.search := startStream_search ..

/-- A query that starts where the search part is that of `s`. -/
theorem findQuery_startQuery_from (c : Coll) (a : Start) (hsearch : v.search = s.search) (hfree : findQuery s s.search.nextQuery = none) :
    (startQuery c a v).search.nextQuery = s.search.nextQuery + 1 ∧ ∃ x, findQuery (startQuery c a v) s.search.nextQuery = some x ∧ x.origin = a.origin ∧ x.coll = c.id ∧
      x.record = a.record ∧ x.request = a.request ∧ x.epoch = a.epoch ∧ x.deadline = a.deadline ∧ x.order = a.order := by
  rw [startQuery_nextQuery, ← hsearch]
  exact ⟨rfl, findQuery_startQuery c a ((findQuery_congr hsearch _).trans (hsearch ▸ hfree))⟩

section
variable {origin : QFrom} {record request : Bytes} (hsearch : v.search = s.search) (hfree : findQuery s s.search.nextQuery = none)

include hsearch hfree

/-- R138: on a collection without shards the query of a command starts here. -/
theorem runQuery_starts (hmap : shardMapOf v c.id = none) : (runQuery cmd c p origin record request v).search.nextQuery = s.search.nextQuery + 1 ∧
    ∃ x, findQuery (runQuery cmd c p origin record request v) s.search.nextQuery = some x ∧ x.origin = origin ∧ x.coll = c.id ∧ x.record = record ∧
      x.request = request ∧ x.epoch = queryEpoch cmd record ∧ x.deadline = cmd.arrived + 1000 * Qr.deadlineUs record ∧ x.order = cmd.order := by
  have hruns : runQuery cmd c p origin record request v = startQuery c (commandStart cmd p origin record request) (streaming cmd record v) := by
    unfold runQuery
    dsimp only
    rw [hmap]
    rfl
  rw [hruns]
  exact findQuery_startQuery_from c (commandStart cmd p origin record request) ((streaming_search ..).trans hsearch) hfree

/-- R193: on a sharded one it asks every shard. -/
theorem runQuery_asks {m : ShardMap} (hmap : shardMapOf v c.id = some m) :
    ∃ w now, runQuery cmd c p origin record request v = concludeShards s.search.nextQuery w ∧
      Coordinating (coordinator s.search.nextQuery now c m (commandStart cmd p origin record request)
        (cmd.arrived + 1000 * Qr.deadlineUs record - 1000 * cmdSetting cmd Key.mergeReserveUs)) w := by
  have hruns : runQuery cmd c p origin record request v = startShards c p m (commandStart cmd p origin record request)
      (cmd.arrived + 1000 * Qr.deadlineUs record - 1000 * cmdSetting cmd Key.mergeReserveUs) (streaming cmd record v) := by
    unfold runQuery
    dsimp only
    rw [hmap]
    rfl
  have hstream : (streaming cmd record v).search = s.search := (streaming_search ..).trans hsearch
  obtain ⟨w, hstart, hcoordinates⟩ := startShards_asks c p m (commandStart cmd p origin record request)
    (cmd.arrived + 1000 * Qr.deadlineUs record - 1000 * cmdSetting cmd Key.mergeReserveUs) ((findQuery_congr hstream _).trans (hstream ▸ hfree))
  rw [hstream] at hstart hcoordinates
  exact ⟨w, _, hruns.trans hstart, hcoordinates⟩

end

/-! ## SEARCH -/

section
variable {seq : Nat} (hc : findColl v cmd.entry.target = some c) (hp : cmd.plan = some p)

include hc hp

theorem searchNow_refused {x : Nat × Nat} (hfail : queryFail (commandCtx v cmd c p (queryEpoch cmd b)) b = some x) :
    searchNow seq cmd b v = queryRefused seq 0 x v := by
  simp only [searchNow, hc, hp, hfail]

variable (hpass : queryFail (commandCtx v cmd c p (queryEpoch cmd b)) b = none)

include hpass

/-- R357: a query that asks for nothing. -/
theorem searchNow_nothing (hnone : Qr.k b = 0) : searchNow seq cmd b v =
    succeed seq (queryEpoch cmd b) [] (updCmd seq (withDeadline (cmd.arrived + 1000 * Qr.deadlineUs b)) v) := by
  simp only [searchNow, hc, hp, hpass, if_pos hnone]
  rfl

variable (hsome : Qr.k b ≠ 0)

include hsome

/-- R360: an output buffer that the smallest result does not fit. -/
theorem searchNow_short (hshort : cmd.entry.outLen < minOutput b) : searchNow seq cmd b v = failEntry seq 56 v := by
  simp only [searchNow, hc, hp, hpass, if_neg hsome, if_pos hshort]

theorem searchNow_runs (hfits : minOutput b ≤ cmd.entry.outLen) (htiles : allTilesFail (livePlan v p) = none) :
    searchNow seq cmd b v = runQuery cmd c p (.search seq) b [] v := by
  simp only [searchNow, hc, hp, hpass, if_neg hsome, if_neg hfits.not_gt, htiles]

end

/-! ## UNIQUE_COUNT (08 R175 to R177) -/

section
variable {seq : Nat} (hc : findColl v cmd.entry.target = some c) (hp : cmd.plan = some p)

include hc hp

theorem countNow_refused {x : Nat × Nat} (hfail : countFail (commandCtx v cmd c p (countEpoch cmd b)) b = some x) :
    countNow seq cmd b v = queryRefused seq 0 x v := by
  simp only [countNow, hc, hp, hfail]

variable (hpass : countFail (commandCtx v cmd c p (countEpoch cmd b)) b = none)

include hpass

theorem countNow_nothing (hnone : u32At b 44 = 0) : countNow seq cmd b v = succeed seq (countEpoch cmd b) [] v := by
  simp only [countNow, hc, hp, hpass, if_pos hnone]

variable (hsome : u32At b 44 ≠ 0)

include hsome

/-- R360: an output buffer that the longest table, or the smallest result with it, does not fit. -/
theorem countNow_short (hshort : cmd.entry.outLen < (if u8At b 41 = 1 then 0 else minOutput (b.drop 64)) + 64 + 16 * u32At b 44) :
    countNow seq cmd b v = failEntry seq 56 v := by
  simp only [countNow, hc, hp, hpass, if_neg hsome, beq_iff_eq, if_pos hshort]

theorem countNow_empty (hresult : u8At b 41 ≠ 1) (hnone : Qr.k (b.drop 64) = 0) (hfits : 64 + 16 * u32At b 44 ≤ cmd.entry.outLen) :
    countNow seq cmd b v = emptyCount cmd c b v := by
  have hlong : ¬cmd.entry.outLen < minOutput (b.drop 64) + 64 + 16 * u32At b 44 := by rw [minOutput, if_pos hnone]; omega
  simp [countNow, hc, hp, hpass, hsome, hresult, hnone, hlong]

theorem countNow_column (hcolumn : u8At b 41 = 1) (hfits : 64 + 16 * u32At b 44 ≤ cmd.entry.outLen) (htiles : allTilesFail (livePlan v p) = none) :
    countNow seq cmd b v = startQuery c (columnStart cmd p b (countEpoch cmd b)) (startStream seq v) := by
  have hlong : ¬cmd.entry.outLen < 64 + 16 * u32At b 44 := by omega
  simp [countNow, hc, hp, hpass, hsome, hcolumn, hlong, htiles]

theorem countNow_rows (hresult : u8At b 41 ≠ 1) (hasks : Qr.k (b.drop 64) ≠ 0) (hfits : minOutput (b.drop 64) + 64 + 16 * u32At b 44 ≤ cmd.entry.outLen)
    (htiles : allTilesFail (livePlan v p) = none) : countNow seq cmd b v = runQuery cmd c p (.count seq) (b.drop 64) b v := by
  have hlong : ¬cmd.entry.outLen < minOutput (b.drop 64) + 64 + 16 * u32At b 44 := by omega
  simp [countNow, hc, hp, hpass, hsome, hresult, hasks, hlong, htiles]

end

/-- The table of a result without rows. -/
def emptyTable (c : Coll) (cmd : Cmd) (b : Bytes) : Bytes := countTable (Sch.fieldType c.schema (u8At b 42)) (u32At b 44) (countEpoch cmd b) [] []

theorem emptyTable_ne_nil (c : Coll) (cmd : Cmd) (b : Bytes) : emptyTable c cmd b ≠ [] := QueryResults.countTable_ne_nil _ _ _ _ _

theorem emptyCount_eq (cmd : Cmd) (c : Coll) (b : Bytes) (v : State) : emptyCount cmd c b v = succeed cmd.seq (countEpoch cmd b) (emptyTable c cmd b)
    (updCmd cmd.seq (withDeadline (cmd.arrived + 1000 * Qr.deadlineUs (b.drop 64))) v) := rfl

/-! ## The claim -/

/-- Settles O35: a command that has its banks runs in a state with the same collections, queries, settings and commands, so that its checks read what they read
before; each outcome of the checks has its equation, and a query that starts keeps what its start gives it. -/
theorem queriesStart : Obligations.QueriesStart := by
  refine ⟨?search, ?count⟩
  case search =>
    intro seq t b cmd c p s hadmitted hhost hlen hbanks hc hp
    obtain rfl := findCmd_seq (admittedCmd_findCmd hadmitted)
    have hcmd : findCmd (banked cmd t s) cmd.seq = some cmd := (findCmd_banked ..).trans (admittedCmd_findCmd hadmitted)
    have hc' : findColl (banked cmd t s) cmd.entry.target = some c := (findColl_banked ..).trans hc
    rw [← commandCtx_banked, exec_search hlen hbanks hadmitted]
    refine ⟨fun x hfail => ⟨_, rfl, ?_⟩, fun hpass => ⟨fun hnone => ⟨_, rfl, ?_⟩, fun hsome hshort => ⟨_, rfl, ?_⟩, fun hsome hfits htiles hfree => ?_⟩⟩
    · rw [searchNow_refused hc' hp hfail, queryRefused_search, banked_search]
      exact ⟨rfl, ready_queryRefused hcmd hhost⟩
    · rw [searchNow_nothing hc' hp hpass hnone, succeed_search]
      exact ⟨banked_search .., ready_finish (findCmd_withDeadline _ hcmd) hhost⟩
    · rw [searchNow_short hc' hp hpass hsome hshort, failEntry_search, banked_search]
      exact ⟨rfl, ready_finish hcmd hhost⟩
    · rw [searchNow_runs hc' hp hpass hsome hfits (by rw [livePlan_banked]; exact htiles)]
      refine ⟨fun hmap => ⟨_, rfl, ?_⟩, fun m hmap => ?_⟩
      · obtain ⟨hnext, x, hx, horigin, hcoll, hrecord, -, hepoch, hdeadline, horder⟩ :=
          runQuery_starts (cmd := cmd) (p := p) (origin := .search cmd.seq) (record := b) (request := []) (banked_search ..) hfree ((shardMapOf_banked ..).trans hmap)
        refine ⟨?_, hnext⟩
        rw [hx, Option.map_some, horigin, hcoll, hrecord, hepoch, hdeadline, horder]
      · obtain ⟨w, now, hasked, -, l, hfound, hasks⟩ := runQuery_asks (cmd := cmd) (p := p) (origin := .search cmd.seq) (record := b) (request := [])
          (banked_search ..) hfree ((shardMapOf_banked ..).trans hmap)
        exact ⟨w, _, congrArg _ hasked, hfound, rfl, rfl, rfl, hasks.trans (asksOf_coordinator ..), rfl⟩
  case count =>
    intro seq t b cmd c p s hadmitted hhost hlen hbanks hc hp
    obtain rfl := findCmd_seq (admittedCmd_findCmd hadmitted)
    have hcmd : findCmd (banked cmd t s) cmd.seq = some cmd := (findCmd_banked ..).trans (admittedCmd_findCmd hadmitted)
    have hc' : findColl (banked cmd t s) cmd.entry.target = some c := (findColl_banked ..).trans hc
    rw [← commandCtx_banked, exec_uniqueCount hlen hbanks hadmitted]
    refine ⟨fun x hfail => ⟨_, rfl, ?_⟩, fun hpass => ⟨fun hnone => ⟨_, rfl, ?_⟩, fun hsome hshort => ⟨_, rfl, ?_⟩, fun hsome hresult hnone hfits => ⟨_, rfl, ?_⟩,
      fun hsome hcolumn hfits htiles hfree => ⟨_, rfl, ?_⟩, fun hsome hresult hfits hasks htiles hmap hfree => ⟨_, rfl, ?_⟩⟩⟩
    · rw [countNow_refused hc' hp hfail, queryRefused_search, banked_search]
      exact ⟨rfl, ready_queryRefused hcmd hhost⟩
    · rw [countNow_nothing hc' hp hpass hnone, succeed_search, banked_search]
      exact ⟨rfl, ready_finish hcmd hhost⟩
    · rw [countNow_short hc' hp hpass hsome hshort, failEntry_search, banked_search]
      exact ⟨rfl, ready_finish hcmd hhost⟩
    · have hdue := findCmd_withDeadline (cmd.arrived + 1000 * Qr.deadlineUs (b.drop 64)) hcmd
      rw [countNow_empty hc' hp hpass hsome hresult hnone hfits, emptyCount_eq]
      refine ⟨(succeed_search ..).trans (banked_search ..), Reports.ready_succeed hdue hhost, ?_⟩
      rw [Reports.succeed_out hdue (emptyTable_ne_nil c cmd b), updCmd_net, banked_net]
      exact congrArg (fun n => s.net.out ++ [.write n cmd.entry.outAddr cmd.entry.outKey (emptyTable c cmd b)]) (connOf_banked cmd t s cmd)
    · rw [countNow_column hc' hp hpass hsome hcolumn hfits (by rw [livePlan_banked]; exact htiles)]
      obtain ⟨-, x, hx, horigin, hcoll, -, hrequest, hepoch, -, -⟩ := findQuery_startQuery_from c (columnStart cmd p b (countEpoch cmd b))
        ((startStream_search cmd.seq (banked cmd t s)).trans (banked_search ..)) hfree
      rw [hx, Option.map_some, horigin, hcoll, hrequest, hepoch]
      rfl
    · rw [countNow_rows hc' hp hpass hsome hresult hasks hfits (by rw [livePlan_banked]; exact htiles)]
      obtain ⟨-, x, hx, horigin, hcoll, hrecord, hrequest, -, -, -⟩ :=
        runQuery_starts (cmd := cmd) (p := p) (origin := .count cmd.seq) (record := b.drop 64) (request := b) (banked_search ..) hfree ((shardMapOf_banked ..).trans hmap)
      rw [hx, Option.map_some, horigin, hcoll, hrecord, hrequest]

end Sys2Proof.QueryStarts
end

section
/-! SUPPORT. What the keeper grants, how its stable epoch rises, and what a module does with the answer to its unit (09 R189, R190, R192, R200). -/

namespace Sys2Proof.EpochGrants

open Machine Laws CollectionViews UnitCommits EpochTimes

variable {s : State} {coll peer t : Nat} {b : Bytes} {m : ShardMap} {c : Coll} {x : Shard}

/-! ## What the sharding state does not enter -/

section
variable {α : Type} {g : Coll → α} (hshard : ∀ c x, g { c with shard := x } = g c)

include hshard

theorem viewAt_updShard (j : Nat) (f : Shard → Shard) (s : State) (id : Nat) : viewAt g (updShard j f s) id = viewAt g s id :=
  viewAt_updColl (f := fun c => { c with shard := c.shard.map f }) (fun _ => rfl) (fun c => hshard c _) j s id

theorem viewAt_sendStable (m : ShardMap) (j stable : Nat) (s : State) (id : Nat) : viewAt g (sendStable m j stable s) id = viewAt g s id :=
  (viewAt_search (relayStable_search ..) id).trans (viewAt_updShard hshard ..)

theorem viewAt_sendCopy (c : Coll) (shard : Nat) (v : Move) (rows : List Row) (ids : List Nat) (s : State) (id : Nat) :
    viewAt g (sendCopy c shard v rows ids s) id = viewAt g s id :=
  (viewAt_search (sendSpp_search ..) id).trans (viewAt_updShard hshard ..)

theorem viewAt_sendCutover (u : CUnit) (epoch : Nat) (s : State) (id : Nat) : viewAt g (sendCutover u epoch s) id = viewAt g s id := by
  unfold sendCutover
  split
  · split
    · exact (viewAt_search (sendSpp_search ..) id).trans (viewAt_updShard hshard ..)
    · rfl
  · rfl

/-- A bucket that is handed over asks for its epoch; no collection takes its rows off before the cutover. -/
theorem viewAt_askEpoch_handOver {u : CUnit} {bucket : Nat} (hbody : u.body = .handOver bucket) (m : ShardMap) (s : State) (id : Nat) :
    viewAt g (askEpoch u m s) id = viewAt g s id := by
  unfold askEpoch
  split
  · split
    · rfl
    · rw [hbody]
      dsimp only
      rw [useEpoch, hbody]
      exact (viewAt_sendCutover hshard ..).trans (viewAt_updShard hshard ..)
  · exact viewAt_search (sendSpp_search ..) id

/-- A move that goes on leaves what the collections hold. -/
theorem viewAt_pumpMove (j : Nat) (s : State) (id : Nat) : viewAt g (pumpMove j s) id = viewAt g s id := by
  unfold pumpMove
  split
  · split
    · dsimp only
      split_ifs
      · rfl
      · exact viewAt_sendCopy hshard ..
      · exact viewAt_sendCopy hshard ..
      · rfl
      · rw [viewAt_askEpoch_handOver hshard rfl, viewAt_updShard hshard]
        rfl
    · rfl
  · rfl

end

/-! ## EPOCH_ALLOC (R189) -/

/-- The sharding state after the keeper has granted its next epoch. -/
def withGrant (owner tag now wait : Nat) (x : Shard) : Shard :=
  { x with
    nextEpoch := x.nextEpoch + 1
    grants := x.grants ++ [{ epoch := x.nextEpoch, tag := tag, owner := owner, state := .granted, at_ := now, due := now + wait }] }

theorem findColl_newGrant {owner tag : Nat} (hc : findColl s coll = some c) :
    findColl (newGrant coll owner tag .granted s) coll =
      some { c with shard := c.shard.map (withGrant owner tag s.now (settingUs s Key.shardTimeoutUs)) } :=
  BucketMoves.findColl_updShard hc

section
variable (hlen : b.length = 16) (hzero : u16At b 6 = 0) (hmap : shardMapOf (tick t s) (u32At b 0) = some m) (hc : findColl s (u32At b 0) = some c)
  (hx : c.shard = some x) (hkeeper : isKeeper (tick t s) m = true)

include hlen hzero hmap hc hx hkeeper

theorem exec_epochAlloc_new (hnew : grantOf x (u64At b 8) = none) :
    exec (.epochAlloc peer b t) s = .next (sendSpp peer Spp.epochGrant (grantPayload (u32At b 0) 0 (u64At b 8) x.nextEpoch)
      (newGrant (u32At b 0) peer (u64At b 8) .granted (tick t s))) := by
  change execEpochAlloc peer b t s = _
  simp [execEpochAlloc, hlen, hzero, hmap, shard_tick hc hx, hkeeper, hnew]

/-- R192 R200: a unit that asks again is told of the grant that it has. -/
theorem exec_epochAlloc_again {g : Grant} (hg : grantOf x (u64At b 8) = some g) :
    exec (.epochAlloc peer b t) s = .next (sendSpp peer Spp.epochGrant
      (grantPayload (u32At b 0) (if g.state = .void then 1 else 0) (u64At b 8) (if g.state = .void then 0 else g.epoch)) (tick t s)) := by
  change execEpochAlloc peer b t s = _
  simp [execEpochAlloc, hlen, hzero, hmap, shard_tick hc hx, hkeeper, hg, b2n]

end

/-! ## The stable epoch (R190) -/

/-- A module that learns a stable epoch stands at it. -/
theorem epoch_learnStable (stable : Nat) (hc : findColl s coll = some c) : viewAt (·.epoch) (learnStable coll stable s) coll = some stable := by
  unfold learnStable
  rw [viewAt_settle (g := (·.epoch)) (fun _ _ => rfl)]
  exact viewAt_some (findColl_upd (f := fun c => { c with
    epoch := stable
    shard := c.shard.map fun x => { x with learned := x.learned ++ [(stable, s.now)], liveOwner := ownTaken stable x } }) (fun _ => rfl) hc)

/-- R190: the keeper's epoch is the last of the first grants that are stamped or void, where that is above it. -/
theorem epoch_raiseStable (m : ShardMap) (hc : findColl s coll = some c) (hx : c.shard = some x) :
    viewAt (·.epoch) (raiseStable m coll s) coll = some (max c.epoch (stableOf c.epoch x.grants)) := by
  unfold raiseStable
  rw [hc]
  dsimp only
  rw [hx]
  dsimp only
  split_ifs with hbelow
  · rw [max_eq_left hbelow]
    exact viewAt_some hc
  all_goals rw [max_eq_right (not_le.mp hbelow).le]
  · exact epoch_learnStable _ (BucketMoves.findColl_updShard hc)
  · rw [viewAt_sendStable (g := (·.epoch)) fun _ _ => rfl]
    exact epoch_learnStable _ (BucketMoves.findColl_updShard hc)

/-- The grants once the unit `tag` has been stamped with `epoch`. -/
def withStamp (tag epoch : Nat) (l : List Grant) : List Grant :=
  mapIf (fun g => g.tag == tag && g.epoch == epoch && g.state == .granted) (fun g => { g with state := .stamped }) l

theorem exec_epochStamped (hlen : b.length = 24) (hzero : u32At b 4 = 0) (hmap : shardMapOf (tick t s) (u32At b 0) = some m)
    (hkeeper : isKeeper (tick t s) m = true) :
    exec (.epochStamped peer b t) s = .next (raiseStable m (u32At b 0) (stampGrant (u32At b 0) (u64At b 8) (u64At b 16) (tick t s))) := by
  show execEpochStamped peer b t s = _
  unfold execEpochStamped
  dsimp only
  rw [if_neg (by simp [hlen, hzero]), hmap]
  dsimp only
  rw [if_pos hkeeper]

theorem epoch_raiseStable_stampGrant {tag epoch : Nat} (m : ShardMap) (hc : findColl s coll = some c) (hx : c.shard = some x) :
    viewAt (·.epoch) (raiseStable m coll (stampGrant coll tag epoch s)) coll = some (max c.epoch (stableOf c.epoch (withStamp tag epoch x.grants))) := by
  have hstamped : findColl (stampGrant coll tag epoch s) coll =
      some { c with shard := c.shard.map fun x => { x with grants := withStamp tag epoch x.grants } } := BucketMoves.findColl_updShard hc
  exact epoch_raiseStable m hstamped (by rw [hx]; rfl)

/-! ## EPOCH_STABLE (R190) -/

/-- A module that is not the keeper takes a stable epoch above its own, and passes every one on. -/
theorem exec_epochStable (hlen : b.length = 16) (hzero : u16At b 6 = 0) (hmap : shardMapOf (tick t s) (u32At b 0) = some m)
    (hc : findColl s (u32At b 0) = some c) (hother : isKeeper (tick t s) m = false) (hnamed : u16At b 4 = m.keeper) :
    exec (.epochStable peer b t) s = .next (relayStable m (u32At b 0) (u64At b 8)
      (if c.epoch < u64At b 8 then learnStable (u32At b 0) (u64At b 8) (tick t s) else tick t s)) := by
  have hc' : findColl (tick t s) (u32At b 0) = some c := hc
  show execEpochStable peer b t s = _
  unfold execEpochStable
  dsimp only
  rw [if_neg (by simp [hlen, hzero]), hmap, hc']
  dsimp only
  rw [if_neg (by simp [hnamed, hother])]

theorem epoch_takeStable (stable : Nat) (hc : findColl s coll = some c) :
    viewAt (·.epoch) (if c.epoch < stable then learnStable coll stable s else s) coll = some (max c.epoch stable) := by
  split_ifs with habove
  · rw [max_eq_right habove.le]
    exact epoch_learnStable stable hc
  · rw [max_eq_left (not_lt.mp habove)]
    exact viewAt_some hc

/-! ## EPOCH_GRANT (R189, R192) -/

/-- A unit commits at the epoch `e` that `peer` granted it, `peer` is told, and the collection's move goes on. -/
def commitGranted (peer coll tag e : Nat) (u : CUnit) (s : State) : State :=
  pumpMove coll (sendSpp peer Spp.epochStamped (toLE 4 coll ++ zeros 4 ++ toLE 8 tag ++ toLE 8 e) (commitAt u e s))

section
variable (hlen : b.length = 24) (hzero : leAt b 5 3 = 0)

theorem exec_epochGrant_malformed (hresult : 1 < u8At b 4) : exec (.epochGrant peer b t) s = .next (malformed (tick t s)) :=
  if_pos (.inr (.inr hresult))

include hlen hzero

theorem exec_epochGrant_void (hresult : u8At b 4 = 1) (hmap : shardMapOf (tick t s) (u32At b 0) = some m) (hkeeper : m.keeper = peer) :
    exec (.epochGrant peer b t) s = .next (pumpMove (u32At b 0) (voidTag (u32At b 0) (u64At b 8) (tick t s))) := by
  show execEpochGrant peer b t s = _
  unfold execEpochGrant
  dsimp only
  rw [if_neg (by simp [hlen, hzero, hresult]), hmap]
  dsimp only
  rw [if_pos hresult, if_pos (.inl hkeeper)]

/-- R189: a batch of inserts that waits for its epoch commits at the one that is granted. -/
theorem exec_epochGrant_insert {u : CUnit} {rows : List Row} (hresult : u8At b 4 = 0) (hmap : shardMapOf (tick t s) (u32At b 0) = some m)
    (hkeeper : m.keeper = peer) (hu : findUnit s (u64At b 8) = some u) (hcoll : u.coll = u32At b 0) (hphase : u.phase = .logged)
    (hbody : u.body = .insert rows) :
    exec (.epochGrant peer b t) s = .next (commitGranted peer (u32At b 0) (u64At b 8) (u64At b 16) u (tick t s)) := by
  have hu' : findUnit (tick t s) (u64At b 8) = some u := hu
  show execEpochGrant peer b t s = _
  unfold execEpochGrant
  dsimp only
  rw [if_neg (by simp [hlen, hzero, hresult]), hmap]
  dsimp only
  rw [if_neg (by simp [hresult]), hu']
  dsimp only
  rw [if_neg (by simp [hcoll, hphase, hkeeper]), hbody]
  dsimp only
  rw [useEpoch, hbody]
  rfl

end

theorem viewAt_commitGranted {α : Type} {g : Coll → α} (hshard : ∀ c x, g { c with shard := x } = g c) (peer coll tag e : Nat) (u : CUnit) (s : State) (id : Nat) :
    viewAt g (commitGranted peer coll tag e u s) id = viewAt g (commitAt u e s) id :=
  (viewAt_pumpMove hshard ..).trans (viewAt_search (sendSpp_search ..) id)

/-- R119: the append list holds the rows of a batch of inserts under the epoch that was granted. -/
theorem append_commitGranted {u : CUnit} {rows : List Row} {tag e : Nat} (hc : findColl s u.coll = some c) (hbody : u.body = .insert rows) :
    ∃ d, findColl (commitGranted peer coll tag e u s) u.coll = some d ∧ ∀ r ∈ rows, { row := { r with epoch := e }, foldedAt := none } ∈ d.append := by
  obtain ⟨f, -, hview⟩ := commitAt_contents u e hc
  obtain ⟨d, hd, hcontents⟩ := viewAt_eq_some.mp ((viewAt_commitGranted (g := contents) (fun _ _ => rfl) peer coll tag ..).trans hview)
  have hleft : d.append = (releaseBelow f (stamped u e c)).append := congrArg (·.2.2.1) hcontents
  have hlist : (stamped u e c).append = (stampBody u.body e c).append := congrArg (·.2.2.1) (contents_stamped u e c)
  refine ⟨d, hd, fun r hr => hleft ▸ append_releaseBelow ?_ rfl⟩
  rw [hlist, hbody]
  exact List.mem_append_right _ (List.mem_map.mpr ⟨r, hr, rfl⟩)

/-! ## The claim -/

/-- Settles O44: a grant and a stamp change the sharding state alone, and the stable epoch follows from its grants; `commitGranted` leaves the collection as
the commit of the unit made it, since a move that goes on touches only the sharding state. -/
theorem epochsAreGrantedInOrder : Obligations.EpochsAreGrantedInOrder := by
  refine ⟨?alloc, ?stamped, ?stable, ?grant⟩
  case alloc =>
    intro peer t b m c x s hlen hzero hmap hc hx hkeeper
    refine ⟨fun hnew => ⟨_, _, withGrant peer (u64At b 8) (max s.now t) (settingUs s Key.shardTimeoutUs) x,
      exec_epochAlloc_new hlen hzero hmap hc hx hkeeper hnew, findColl_newGrant (s := tick t s) hc, ?_, rfl, rfl⟩,
      fun g => exec_epochAlloc_again hlen hzero hmap hc hx hkeeper⟩
    show c.shard.map _ = _
    rw [hx]
    rfl
  case stamped =>
    exact fun peer t b m c x s hlen hzero hmap hc hx hkeeper =>
      ⟨_, exec_epochStamped hlen hzero hmap hkeeper, epoch_raiseStable_stampGrant (s := tick t s) m hc hx⟩
  case stable =>
    exact fun peer t b m c s hlen hzero hmap hc hother hnamed =>
      ⟨_, exec_epochStable hlen hzero hmap hc hother hnamed,
        (viewAt_search (relayStable_search ..) _).trans (epoch_takeStable (s := tick t s) _ hc)⟩
  case grant =>
    intro peer t b m u s hlen hzero
    refine ⟨exec_epochGrant_malformed, exec_epochGrant_void hlen hzero, fun c rows hresult hu hmap hcoll hphase hkeeper hc hbody => ?_⟩
    obtain ⟨d, hd, hrows⟩ := append_commitGranted (s := tick t s) hc hbody
    exact ⟨_, d, exec_epochGrant_insert hlen hzero hresult hmap hkeeper hu hcoll hphase hbody, hd, hrows⟩

end Sys2Proof.EpochGrants
end

section
/-! SUPPORT. What a query hears from its shards, and the shards that it gives up (09 R194, R199, R201, R202). -/

namespace Sys2Proof.ShardReplies

open Machine Laws QueryStages QueryResults

variable {s : State} {key t : Nat} {q : Query}

/-! ## A shard's part of a query -/

/-- The query with `g` applied to what it has of one shard. -/
def withPart (shard : Nat) (g : ShardWait → ShardWait) (q : Query) : Query := { q with shards := mapIf (fun w => w.shard == shard) g q.shards }

theorem findQuery_takePart (key shard : Nat) (g : ShardWait → ShardWait) (s : State) :
    findQuery (takePart key shard g s) key = (findQuery s key).map (withPart shard g) := findQuery_updQuery (f := withPart shard g) fun _ => rfl

/-! ## SHARD_SEARCH_REPLY (R194, R199) -/

/-- What becomes of a well-formed reply, once the query that asked and the shard `w` that answers are found. -/
def takeReply (b : Bytes) (q : Query) (w : ShardWait) (s : State) : Res :=
  if u64At b 40 ≠ q.epoch then .next (malformed s)
  else if w.replied ∨ w.skipped ∨ (q.exact = false ∧ q.tsh < s.now) then .next (bump Key.lateShardReplies s)
  else if u16At b 28 ≠ Status.success ∧ u16At b 28 ≠ Status.incompleteMedia then
    .next (concludeShards q.key (takePart q.key (u16At b 30) (failWait (u16At b 28) (u32At b 24)) s))
  else match parsePlist .shard (slice b 64 (u32At b 56)) (Qr.k q.record) (u16At b 30) with
    | none => .next (malformed s)
    | some l => .next (concludeShards q.key (takePart q.key (u16At b 30) (waitOf (replyFound b l)) s))

theorem exec_shardSearchReply_found {peer : Nat} {b : Bytes} {w : ShardWait} (hb : replyFormed b = true) (hreplay : replyReplayFormed b = true)
    (hq : (tick t s).search.queries.find? (fun q => q.phase == .shards && queryId (tick t s) q.key == u64At b 32) = some q)
    (hw : q.shards.find? (fun w => w.shard == u16At b 30 && w.owner == peer) = some w) :
    exec (.shardSearchReply peer b t) s = takeReply b q w (tick t s) := by
  change execShardSearchReply peer b t s = _
  unfold execShardSearchReply
  dsimp only
  rw [if_neg (by simp [hb, hreplay]), hq]
  dsimp only
  rw [hw]
  rfl

section
variable {b : Bytes} {w : ShardWait}

theorem takeReply_otherEpoch (hepoch : u64At b 40 ≠ q.epoch) : takeReply b q w s = .next (malformed s) := if_pos hepoch

variable (hepoch : u64At b 40 = q.epoch)

include hepoch

/-- R201: a shard that has answered or is skipped, and one that answers after T_SH, is too late. -/
theorem takeReply_late (hlate : w.replied = true ∨ w.skipped = true ∨ (q.exact = false ∧ q.tsh < s.now)) :
    takeReply b q w s = .next (bump Key.lateShardReplies s) := by
  unfold takeReply
  rw [if_neg (not_not.2 hepoch), if_pos hlate]

variable (hopen : ¬(w.replied = true ∨ w.skipped = true ∨ (q.exact = false ∧ q.tsh < s.now)))

include hopen

/-- R202: a shard that fails keeps its status for the end of the query. -/
theorem takeReply_failed (hsuccess : u16At b 28 ≠ Status.success) (hmedia : u16At b 28 ≠ Status.incompleteMedia) :
    takeReply b q w s = .next (concludeShards q.key (takePart q.key (u16At b 30) (failWait (u16At b 28) (u32At b 24)) s)) := by
  unfold takeReply
  rw [if_neg (not_not.2 hepoch), if_neg hopen, if_pos ⟨hsuccess, hmedia⟩]

variable (hstatus : u16At b 28 = Status.success ∨ u16At b 28 = Status.incompleteMedia)

include hstatus

theorem takeReply_badList (hlist : parsePlist .shard (slice b 64 (u32At b 56)) (Qr.k q.record) (u16At b 30) = none) :
    takeReply b q w s = .next (malformed s) := by
  unfold takeReply
  rw [if_neg (not_not.2 hepoch), if_neg hopen, if_neg (by rwa [← not_or, not_not]), hlist]

theorem takeReply_list {l : PList} (hlist : parsePlist .shard (slice b 64 (u32At b 56)) (Qr.k q.record) (u16At b 30) = some l) :
    takeReply b q w s = .next (concludeShards q.key (takePart q.key (u16At b 30) (waitOf (replyFound b l)) s)) := by
  unfold takeReply
  rw [if_neg (not_not.2 hepoch), if_neg hopen, if_neg (by rwa [← not_or, not_not]), hlist]

end

/-! ## Queries that go -/

/-- The query that is dropped is found no more, and every other one as before. -/
theorem findQuery_dropQuery_cases (q : Query) (s : State) (key : Nat) :
    findQuery (dropQuery q s) key = if key = q.key then none else findQuery s key := by
  unfold findQuery
  rw [ShardOwners.dropQuery_queries, List.find?_filter]
  split_ifs with hkey
  · simp [List.find?_eq_none, hkey]
  · refine congrArg (s.search.queries.find? ·) (funext fun x => ?_)
    by_cases hx : x.key = key <;> simp [hx, hkey]

theorem findQuery_of_dropQueries {l : List Query} {x : Query} (h : findQuery (l.foldl (fun u q => dropQuery q u) s) key = some x) :
    findQuery s key = some x := by
  induction l generalizing s with
  | nil => exact h
  | cons q r ih =>
    have hleft := ih h
    rw [findQuery_dropQuery_cases] at hleft
    split_ifs at hleft
    exact hleft

/-- What does not rest on the search part is left when queries are dropped. -/
theorem dropQueries_same {α : Type} (g : State → α) (hg : ∀ (s : State) x, g { s with search := x } = g s) (l : List Query) (s : State) :
    g (l.foldl (fun u q => dropQuery q u) s) = g s := foldl_same g (fun u q => dropQuery_same g hg q u) l s

/-! ## SHARD_CUT (R201) -/

/-- A shard that the query waits for no longer. -/
def skipWait (w : ShardWait) : ShardWait := { w with skipped := true }

/-- The shards of a query, those of `l` skipped. -/
def skipAll (l a : List ShardWait) : List ShardWait := mapIf (fun w => l.any (·.shard == w.shard)) skipWait a

theorem skipAll_cons (w : ShardWait) (l a : List ShardWait) : skipAll (w :: l) a = skipAll l (mapIf (fun x => x.shard == w.shard) skipWait a) := by
  unfold skipAll mapIf
  rw [List.map_map]
  refine List.map_congr_left fun x _ => ?_
  by_cases hw : x.shard = w.shard
  · simp [hw, skipWait]
  · simp [hw, Ne.symm hw]

/-- Once the shards without an answer are skipped, no shard is waited for. -/
theorem skipAll_answers (a : List ShardWait) : (skipAll (a.filter fun w => !(w.replied || w.skipped)) a).all (fun w => w.replied || w.skipped) = true := by
  refine List.all_eq_true.2 fun y hy => ?_
  obtain ⟨w, hw, rfl⟩ := List.mem_map.1 hy
  split_ifs with hskipped
  · simp [skipWait]
  · by_contra hopen
    exact hskipped (List.any_eq_true.2 ⟨w, List.mem_filter.2 ⟨hw, by simpa using hopen⟩, by simp⟩)

theorem skipAll_owners (l a : List ShardWait) : (skipAll l a).map (·.owner) = a.map (·.owner) := by
  unfold skipAll mapIf
  rw [List.map_map]
  refine List.map_congr_left fun x _ => ?_
  simp only [Function.comp_apply]
  split <;> rfl

/-- A query that is there after one of its shards is skipped was there before. -/
theorem findQuery_skipShard {w : ShardWait} {x : Query} (h : findQuery (skipShard q s w) q.key = some x) :
    ∃ y, findQuery s q.key = some y ∧ x = withPart w.shard skipWait y := by
  have hpart : findQuery (bump Key.shardsSkipped (takePart q.key w.shard skipWait s)) q.key = some x := by
    unfold skipShard at h
    dsimp only at h
    split_ifs at h
    · rwa [findQuery_congr (sendSpp_search ..)] at h
    · exact findQuery_of_dropQueries h
  rw [findQuery_congr (bump_search ..), findQuery_takePart, Option.map_eq_some_iff] at hpart
  obtain ⟨y, hy, hx⟩ := hpart
  exact ⟨y, hy, hx.symm⟩

theorem findQuery_skipShards {l : List ShardWait} {x : Query} (h : findQuery (l.foldl (skipShard q) s) q.key = some x) :
    ∃ y, findQuery s q.key = some y ∧ x.shards = skipAll l y.shards := by
  induction l generalizing s with
  | nil => exact ⟨x, h, by simp [skipAll, mapIf]⟩
  | cons w r ih =>
    obtain ⟨y, hy, hshards⟩ := ih h
    obtain ⟨z, hz, rfl⟩ := findQuery_skipShard hy
    exact ⟨z, hz, hshards.trans (skipAll_cons ..).symm⟩

theorem skipShard_counters (q : Query) (s : State) (w : ShardWait) :
    (skipShard q s w).counters = (bump Key.shardsSkipped (takePart q.key w.shard skipWait s)).counters := by
  unfold skipShard
  dsimp only
  split
  · exact sendSpp_counters ..
  · exact dropQueries_same (·.counters) (fun _ _ => rfl) ..

/-- Each shard that is skipped counts. -/
theorem counter_skipShards {l : List ShardWait} (hw : Table.wf (fun _ => 0) s.counters = true) (hlt : counter s Key.shardsSkipped + l.length < 2 ^ 64) :
    counter (l.foldl (skipShard q) s) Key.shardsSkipped = counter s Key.shardsSkipped + l.length := by
  induction l generalizing s with
  | nil => rfl
  | cons w r ih =>
    have hone : counter (skipShard q s w) Key.shardsSkipped = counter s Key.shardsSkipped + 1 :=
      (counter_congr (skipShard_counters ..) _).trans (counter_bump_from (s := s) rfl hw (by rw [List.length_cons] at hlt; omega))
    have hwf : Table.wf (fun _ => 0) (skipShard q s w).counters = true := by
      rw [skipShard_counters]
      exact wf_bump hw
    rw [List.length_cons] at hlt ⊢
    rw [List.foldl_cons, ih hwf (by omega), hone]
    omega

theorem exec_shardCut_due (hq : findQuery s key = some q) (hphase : q.phase = .shards) (hbounded : q.exact = false) (hdue : q.tsh ≤ max s.now t) :
    exec (.shardCut key t) s =
      .next (concludeShards key ((q.shards.filter fun w => !(w.replied || w.skipped)).foldl (skipShard q) (tick t s))) := by
  change execShardCut key t s = _
  unfold execShardCut
  dsimp only
  rw [show findQuery (tick t s) key = some q from hq]
  dsimp only
  exact if_neg (not_or.2 ⟨not_not.2 hphase, not_or.2 ⟨by simp [hbounded], hdue.not_gt⟩⟩)

/-! ## SHARD_TIMEOUT (R201) -/

/-- The state once a query is given up, and with it the work of this module's own shard; the host's command has not ended yet. -/
def givenUp (key : Nat) (q : Query) (s : State) : State :=
  bump Key.shardUnavailableResults (dropQuery q ((s.search.queries.filter (selfOf key)).foldl (fun u x => dropQuery x u) s))

theorem exec_shardTimeout_due {c : Cmd} (hq : findQuery s key = some q) (hphase : q.phase = .shards) (hexact : q.exact = true)
    (hcmd : queryCmd (tick t s) q = some c)
    (hdue : q.shardSince + 1000 * cmdSetting c Key.shardTimeoutUs ≤ max s.now t ∨ q.shards.any (ownerLost (tick t s)) = true) :
    exec (.shardTimeout key t) s = .next (fail c.seq Status.shardUnavailable (givenUp key q (tick t s))) := by
  change execShardTimeout key t s = _
  unfold execShardTimeout
  dsimp only
  rw [show findQuery (tick t s) key = some q from hq]
  dsimp only
  rw [hcmd]
  exact if_pos ⟨hphase, hexact, by rwa [Bool.or_eq_true, decide_eq_true_iff]⟩

theorem findQuery_givenUp (key : Nat) (q : Query) (s : State) : findQuery (givenUp key q s) q.key = none := by
  unfold givenUp
  rw [findQuery_congr (bump_search ..), findQuery_dropQuery_cases, if_pos rfl]

theorem givenUp_ahp (key : Nat) (q : Query) (s : State) : (givenUp key q s).ahp = s.ahp := by
  unfold givenUp
  rw [bump_ahp, dropQuery_same (·.ahp) fun _ _ => rfl, dropQueries_same (·.ahp) fun _ _ => rfl]

/-! ## The claim -/

/-- Settles O42: a reply that names a waiting query goes through `takeReply`; the shards without an answer are skipped one by one, which leaves the query
the parts of `skipAll`; and a query that is given up ends its command. -/
theorem shardRepliesAreGathered : Obligations.ShardRepliesAreGathered := by
  refine ⟨?reply, ?cut, ?timeout⟩
  case reply =>
    intro peer t b q w s hb hreplay hq hfound hw
    rw [exec_shardSearchReply_found hb hreplay hq hw]
    have hpart : ∀ g, findQuery (takePart q.key (u16At b 30) g (tick t s)) q.key = some (withPart (u16At b 30) g q) := fun g =>
      (findQuery_takePart ..).trans (congrArg (Option.map _) hfound)
    refine ⟨takeReply_otherEpoch, fun hepoch hlate hwf hlt => ?_, fun hepoch hreplied hskipped htime => ?_⟩
    · exact ⟨_, takeReply_late hepoch hlate, bump_search .., counter_bump_from (s := s) rfl hwf hlt⟩
    · have hopen : ¬(w.replied = true ∨ w.skipped = true ∨ (q.exact = false ∧ q.tsh < (tick t s).now)) := by
        rcases htime with hexact | htime
        · simp [hreplied, hskipped, hexact]
        · simp [hreplied, hskipped, htime.not_gt]
      exact ⟨fun hstatus => ⟨fun l hlist => ⟨_, takeReply_list hepoch hopen hstatus hlist, hpart _⟩, takeReply_badList hepoch hopen hstatus⟩,
        fun hsuccess hmedia => ⟨_, takeReply_failed hepoch hopen hsuccess hmedia, hpart _⟩⟩
  case cut =>
    intro key t q s hq hphase hbounded hdue
    obtain rfl := findQuery_key hq
    refine ⟨exec_shardCut_due hq hphase hbounded hdue, fun x hx => ?_, fun hcanonical hlt => ?_⟩
    · obtain ⟨y, hy, hshards⟩ := findQuery_skipShards hx
      obtain rfl : q = y := Option.some.inj (hq.symm.trans hy)
      rw [hshards]
      exact ⟨skipAll_answers _, skipAll_owners ..⟩
    · exact counter_skipShards (s := tick t s) hcanonical.1 (lt_of_le_of_lt (Nat.add_le_add_left (List.length_filter_le ..) _) hlt)
  case timeout =>
    intro key t seq q c s hq hphase hexact horigin hc hhost hdue
    obtain rfl := findQuery_key hq
    obtain rfl := findCmd_seq hc
    have hcmd : queryCmd (tick t s) q = some c := by
      rw [queryCmd, horigin]
      exact hc
    exact ⟨_, exec_shardTimeout_due hq hphase hexact hcmd hdue, (findQuery_congr (fail_search ..) _).trans (findQuery_givenUp ..),
      ready_finish ((findCmd_congr (givenUp_ahp ..) _).trans hc) hhost⟩

end Sys2Proof.ShardReplies
end

section
/-! SUPPORT. The messages of a reduction (11 R257 to R263): where each goes by its form, its digest and its attempt, and what one of the running attempt adds
to its update. -/

namespace Sys2Proof.ReductionMessages

open Machine Laws Reductions

variable {s : State} {peer type : Nat} {b : Bytes} {u : Update}

/-! ## Where a message goes (R260, R261) -/

theorem redDeliver_notFormed (hb : Red.formed type b = false) : redDeliver peer type b s = malformed s := if_pos hb

section
variable (hu : s.mem.upds.find? (fun u => u.head == Red.head b && u.step == Red.step b) = some u) (hb : Red.formed type b = true)
include hu hb

theorem redDeliver_misfit (hfit : redFits u peer type b = false) : redDeliver peer type b s = malformed s := by
  simp [redDeliver, hb, hu, hfit]

variable (hfit : redFits u peer type b = true)
include hfit

theorem redDeliver_otherRequest (hdigest : Red.digest b ≠ u.digest) :
    redDeliver peer type b s = endMismatch u.seq (dropRedEarly u.head u.step s) := by
  simp [redDeliver, hb, hu, hfit, hdigest]

variable (hdigest : Red.digest b = u.digest)
include hdigest

theorem redDeliver_earlier (hlt : Red.attempt b < u.attempt) : redDeliver peer type b s = s := by
  simp [redDeliver, hb, hu, hfit, hdigest, hlt]

variable (hrepeat : type ≠ Spp.reduceRepeat)
include hrepeat

theorem redDeliver_later (hgt : u.attempt < Red.attempt b) : redDeliver peer type b s = keepEarly u.head peer type b s := by
  simp [redDeliver, hb, hu, hfit, hdigest, hgt.not_gt, hgt.ne', hrepeat]

theorem redDeliver_running (hattempt : Red.attempt b = u.attempt) :
    redDeliver peer type b s = advanceUpd attempts u.seq (setUpd (takeRed type b u) s) := by
  simp [redDeliver, hb, hu, hfit, hdigest, hattempt, hrepeat]

end

/-! ## What a message adds (R257, R258, R262, R263) -/

/-- The update that a message has joined is found again by its number. -/
theorem findUpd_takeRed (type : Nat) (b : Bytes) (hseq : findUpd s u.seq = some u) :
    findUpd (setUpd (takeRed type b u) s) u.seq = some (takeRed type b u) := by
  obtain ⟨hkept, -, -⟩ := takeRed_keeps type b u
  rw [← hkept]
  exact findUpd_setUpd (by rw [hkept, hseq])

theorem find_updBucket {i : Nat} {f : Bucket → Bucket} {x : Bucket} (hf : ∀ y, (f y).idx = y.idx) (hx : u.buckets.find? (·.idx == i) = some x) :
    (updBucket i f u).buckets.find? (·.idx == i) = some (f x) :=
  (find_mapIf (fun y hy => by simpa [hf y] using hy) u.buckets).trans (congrArg (Option.map f) hx)

/-- R258: a rank's largest magnitude is known, and a NaN or an infinity among its values is noted. -/
theorem takeRed_amax {x : Bucket} (hx : u.buckets.find? (·.idx == Red.bucket b) = some x) :
    ∃ y, (takeRed Spp.reduceAmax b u).buckets.find? (·.idx == Red.bucket b) = some y ∧ y.amax.any (·.1 == Red.rank b) = true ∧
      (Red.ovf b = true → y.ovf = true) := by
  refine ⟨_, find_updBucket (fun _ => rfl) hx, ?_, fun hovf => by simp [hovf]⟩
  dsimp only
  split
  · assumption
  · simp

/-- R257: the codes of a partial or of a result wait in the bucket, behind those that came before. -/
theorem takeRed_codes {x : Bucket} (htype : type = Spp.reducePartial ∨ type = Spp.reduceResult) (hx : u.buckets.find? (·.idx == Red.bucket b) = some x) :
    ∃ y, (takeRed type b u).buckets.find? (·.idx == Red.bucket b) = some y ∧ y.inbox.getLast? = some (readMsg type b) := by
  have htake : takeRed type b u =
      updBucket (Red.bucket b) (fun x => { x with ovf := x.ovf || Red.ovf b, inbox := x.inbox ++ [readMsg type b] }) u := by
    rcases htype with rfl | rfl <;> rfl
  rw [htake]
  exact ⟨_, find_updBucket (fun _ => rfl) hx, List.getLast?_concat⟩

/-- R262: the first samples that a rank sends of a bucket count. -/
theorem takeRed_samples : (takeRed Spp.reduceSample b u).samples =
    if u.samples.any (fun x => x.rank == Red.rank b && x.bucket == Red.bucket b) then u.samples
    else u.samples ++ [{ rank := Red.rank b, bucket := Red.bucket b, samples := readSamples b }] := by
  rw [show takeRed Spp.reduceSample b u = if u.samples.any (fun x => x.rank == Red.rank b && x.bucket == Red.bucket b) then u
    else { u with samples := u.samples ++ [{ rank := Red.rank b, bucket := Red.bucket b, samples := readSamples b }] } from rfl]
  split <;> rfl

/-- R263: the first verdict of a rank counts. -/
theorem takeRed_verdicts : (takeRed Spp.updateVerdict b u).verdicts =
    if u.verdicts.any (·.1 == Red.rank b) then u.verdicts else u.verdicts ++ [(Red.rank b, u8At b 64)] := by
  rw [show takeRed Spp.updateVerdict b u = if u.verdicts.any (·.1 == Red.rank b) then u
    else { u with verdicts := u.verdicts ++ [(Red.rank b, u8At b 64)] } from rfl]
  split <;> rfl

/-! ## The claim -/

/-- A message for a head that the module holds is kept behind those that wait. -/
theorem keepEarly_early {head : Nat} {h : Head} (hh : findHead s head = some h) :
    (keepEarly head peer type b s).mem.early = s.mem.early ++ [{ peer := peer, type := type, payload := b }] := by
  simp [keepEarly, hh]

/-- R215: a message of another request ends the update. -/
theorem redMismatch_ends {c : Cmd} (hc : findCmd s u.seq = some c) (hi : c.internal = false) :
    findUpd (endMismatch u.seq (dropRedEarly u.head u.step s)) u.seq = none ∧
      ready (endMismatch u.seq (dropRedEarly u.head u.step s)) u.seq = some { status := Status.groupMismatch } :=
  ⟨findUpd_endMem .., ready_endMem ((findCmd_congr (by simp) u.seq).trans hc) hi⟩

/-- Settles O49: each message goes through `redDeliver`, one equation for each way that it can go; one of the running attempt joins by `takeRed`, whose
update is found again by its number. -/
theorem reductionMessagesJoin : Obligations.ReductionMessagesJoin := by
  refine ⟨fun peer t b u s hu hseq hdigest hattempt => ?running, fun peer t b u c s hu hseq hb => ?amax, fun peer t b s hb => ?malformed⟩
  case running =>
    have hjoins : ∀ {type}, type ≠ Spp.reduceRepeat → Red.formed type b = true → redFits u peer type b = true →
        redDeliver peer type b (tick t s) = advanceUpd attempts u.seq (setUpd (takeRed type b u) (tick t s)) ∧
          findUpd (setUpd (takeRed type b u) (tick t s)) u.seq = some (takeRed type b u) := fun hrepeat hb hfit =>
      ⟨redDeliver_running (s := tick t s) hu hb hfit hdigest hrepeat hattempt, findUpd_takeRed (s := tick t s) _ b hseq⟩
    refine ⟨fun hb hfit hbucket => ?_, fun hb hfit hbucket => ?_, fun hb hfit hbucket => ?_, fun hb hfit => ?_, fun hb hfit => ?_⟩
    · obtain ⟨hrun, hfound⟩ := hjoins (by decide) hb hfit
      obtain ⟨x, hx⟩ := Option.isSome_iff_exists.1 hbucket
      obtain ⟨y, hy⟩ := takeRed_amax hx
      exact ⟨_, _, y, congrArg Host.Outcome.next hrun, hfound, hy⟩
    · obtain ⟨hrun, hfound⟩ := hjoins (by decide) hb hfit
      obtain ⟨x, hx⟩ := Option.isSome_iff_exists.1 hbucket
      obtain ⟨y, hy⟩ := takeRed_codes (.inl rfl) hx
      exact ⟨_, _, y, congrArg Host.Outcome.next hrun, hfound, hy⟩
    · obtain ⟨hrun, hfound⟩ := hjoins (by decide) hb hfit
      obtain ⟨x, hx⟩ := Option.isSome_iff_exists.1 hbucket
      obtain ⟨y, hy⟩ := takeRed_codes (.inr rfl) hx
      exact ⟨_, _, y, congrArg Host.Outcome.next hrun, hfound, hy⟩
    · obtain ⟨hrun, hfound⟩ := hjoins (by decide) hb hfit
      exact ⟨_, _, congrArg Host.Outcome.next hrun, hfound, takeRed_samples⟩
    · obtain ⟨hrun, hfound⟩ := hjoins (by decide) hb hfit
      exact ⟨_, _, congrArg Host.Outcome.next hrun, hfound, takeRed_verdicts⟩
  case amax =>
    have hu' : (tick t s).mem.upds.find? (fun u => u.head == Red.head b && u.step == Red.step b) = some u := hu
    refine ⟨fun hfit => congrArg Host.Outcome.next (redDeliver_misfit hu' hb hfit), fun hfit hdigest hc hi => ?_,
      fun hfit hdigest hlt => congrArg Host.Outcome.next (redDeliver_earlier hu' hb hfit hdigest hlt), fun h hfit hdigest hgt hh => ?_⟩
    · exact ⟨_, congrArg Host.Outcome.next (redDeliver_otherRequest hu' hb hfit hdigest), redMismatch_ends hc hi⟩
    · exact ⟨_, congrArg Host.Outcome.next (redDeliver_later hu' hb hfit hdigest (by decide) hgt), keepEarly_early hh⟩
  case malformed => exact congrArg Host.Outcome.next (redDeliver_notFormed hb)

end Sys2Proof.ReductionMessages
end

section
/-! SUPPORT. The forwards, backwards and commands in flight (10 R216, R223; 11 R248): how they are found again, what leaves all of them where they are, and
that the end of one command leaves those of another. -/

namespace Sys2Proof.Flights

open Machine Laws Reductions VersionUnits

variable {s u : State}

/-! ## Finding a record -/

theorem findHead_congr (h : u.mem = s.mem) (id : Nat) : findHead u id = findHead s id := by
  unfold findHead; rw [h]

theorem findFwd_congr (h : u.mem = s.mem) (seq : Nat) : findFwd u seq = findFwd s seq := by
  unfold findFwd; rw [h]

theorem findBwd_congr (h : u.mem = s.mem) (seq : Nat) : findBwd u seq = findBwd s seq := by
  unfold findBwd; rw [h]

theorem findFwd_seq {seq : Nat} {f : MemFwd} (h : findFwd s seq = some f) : f.seq = seq := by
  simpa using List.find?_some h

theorem findBwd_seq {seq : Nat} {b : MemBwd} (h : findBwd s seq = some b) : b.seq = seq := by
  simpa using List.find?_some h

theorem findFwd_upd {seq : Nat} {f : MemFwd} {g : MemFwd → MemFwd} (hg : ∀ x, (g x).seq = x.seq) (h : findFwd s seq = some f) :
    findFwd (updFwd seq g s) seq = some (g f) :=
  (find_mapIf (fun x hx => by simpa [hg x] using hx) s.mem.fwds).trans (congrArg (Option.map g) h)

theorem findBwd_upd {seq : Nat} {b : MemBwd} {g : MemBwd → MemBwd} (hg : ∀ x, (g x).seq = x.seq) (h : findBwd s seq = some b) :
    findBwd (updBwd seq g s) seq = some (g b) :=
  (find_mapIf (fun x hx => by simpa [hg x] using hx) s.mem.bwds).trans (congrArg (Option.map g) h)

/-! ## What sends only -/

section
variable {α : Type} (f : State → α) (hsend : ∀ peer type b s, f (sendSpp peer type b s) = f s)
include hsend

theorem sendAll_same (peers : List Nat) (type : Nat) (b : Bytes) (s : State) : f (sendAll peers type b s) = f s :=
  foldl_same f (fun _ _ => hsend ..) peers s

theorem sendAbort_same (type : Nat) (h : Head) (mb step cause : Nat) (digest : Option Nat) (s : State) :
    f (sendAbort type h mb step cause digest s) = f s := by
  unfold sendAbort
  dsimp only
  split
  · rfl
  · exact sendAll_same f hsend ..

theorem sendPartials_same (h : Head) (w : MemFwd) (s : State) : f (sendPartials h w s) = f s :=
  foldl_same f (fun u _ => foldl_same f (fun _ _ => hsend ..) _ u) _ s

theorem sendDw_same (h : Head) (w : MemBwd) (s : State) : f (sendDw h w s) = f s :=
  foldl_same f (fun u _ => foldl_same f (fun _ _ => hsend ..) _ u) _ s

end

@[simp] theorem abortLocal_mem (h : Head) (f : MemFwd) (s : State) : (abortLocal h f s).mem = s.mem :=
  sendAbort_same (·.mem) (fun p t b u => sendSpp_mem u p t b) ..
@[simp] theorem abortLocal_ahp (h : Head) (f : MemFwd) (s : State) : (abortLocal h f s).ahp = s.ahp :=
  sendAbort_same (·.ahp) (fun p t b u => sendSpp_ahp u p t b) ..
@[simp] theorem abortBwd_mem (h : Head) (b : MemBwd) (s : State) : (abortBwd h b s).mem = s.mem :=
  sendAbort_same (·.mem) (fun p t b u => sendSpp_mem u p t b) ..
@[simp] theorem abortBwd_ahp (h : Head) (b : MemBwd) (s : State) : (abortBwd h b s).ahp = s.ahp :=
  sendAbort_same (·.ahp) (fun p t b u => sendSpp_ahp u p t b) ..
@[simp] theorem sendPartials_mem (h : Head) (f : MemFwd) (s : State) : (sendPartials h f s).mem = s.mem :=
  sendPartials_same (·.mem) (fun p t b u => sendSpp_mem u p t b) ..
@[simp] theorem sendPartials_now (h : Head) (f : MemFwd) (s : State) : (sendPartials h f s).now = s.now :=
  sendPartials_same (·.now) (fun p t b u => sendSpp_now u p t b) ..
@[simp] theorem sendDw_mem (h : Head) (b : MemBwd) (s : State) : (sendDw h b s).mem = s.mem :=
  sendDw_same (·.mem) (fun p t b u => sendSpp_mem u p t b) ..
@[simp] theorem sendDw_now (h : Head) (b : MemBwd) (s : State) : (sendDw h b s).now = s.now :=
  sendDw_same (·.now) (fun p t b u => sendSpp_now u p t b) ..

/-! ## What one step of an exchange can do (10 R223; 11 R245) -/

/-- This member has said DONE of its part. -/
def doneBy (own : Nat) (f : MemFwd) : MemFwd := { f with dones := f.dones ++ [own] }

/-- A forward that is looked at is left as it is or says DONE, and then stays or ends. -/
theorem advanceFwd_cases (q : Nat) (s : State) :
    ∃ v, (v = s ∨ ∃ peers b own, v = sendAll peers Spp.memfwdDone b (updFwd q (doneBy own) s)) ∧
      (advanceFwd q s = v ∨ ∃ h g, findFwd v q = some g ∧ advanceFwd q s = fwdEnds h g v) := by
  unfold advanceFwd
  split
  · exact ⟨s, .inl rfl, .inl rfl⟩
  next f hf =>
    split
    · exact ⟨s, .inl rfl, .inl rfl⟩
    next h hh =>
      dsimp only
      split
      · exact ⟨s, .inl rfl, .inl rfl⟩
      · generalize hv : (if f.dones.contains (ownPos s h) = true then s else _) = v
        refine ⟨v, ?_, ?_⟩
        · split at hv
          · exact .inl hv.symm
          · exact .inr ⟨_, _, _, hv.symm⟩
        · split
          · exact .inl rfl
          next g hg =>
            split
            · exact .inr ⟨h, g, hg, rfl⟩
            · exact .inl rfl

/-- This member has said DONE of its part. -/
def doneByBwd (own : Nat) (b : MemBwd) : MemBwd := { b with dones := b.dones ++ [own] }

/-- The same of a backward. -/
theorem advanceBwd_cases (q : Nat) (s : State) :
    ∃ v, (v = s ∨ ∃ peers b own, v = sendAll peers Spp.membwdDone b (updBwd q (doneByBwd own) s)) ∧
      (advanceBwd s q = v ∨ ∃ h g, findBwd v q = some g ∧ advanceBwd s q = bwdEnds h g v) := by
  unfold advanceBwd
  split
  · exact ⟨s, .inl rfl, .inl rfl⟩
  next f hf =>
    split
    · exact ⟨s, .inl rfl, .inl rfl⟩
    next h hh =>
      dsimp only
      split
      · exact ⟨s, .inl rfl, .inl rfl⟩
      · generalize hv : (if f.dones.contains (ownPos s h) = true then s else _) = v
        refine ⟨v, ?_, ?_⟩
        · split at hv
          · exact .inl hv.symm
          · exact .inr ⟨_, _, _, hv.symm⟩
        · split
          · exact .inl rfl
          next g hg =>
            split
            · exact .inr ⟨h, g, hg, rfl⟩
            · exact .inl rfl

/-! ## Which commands are in flight -/

/-- The numbers of the forwards and backwards in flight, and the commands of the front end. -/
def flights (s : State) : List Nat × List Nat × List Cmd := (s.mem.fwds.map (·.seq), s.mem.bwds.map (·.seq), s.ahp.cmds)

theorem flights_congr (hmem : u.mem = s.mem) (hahp : u.ahp = s.ahp) : flights u = flights s := by
  unfold flights; rw [hmem, hahp]

theorem map_seq_mapIf {α : Type} {k : α → Nat} (p : α → Bool) {g : α → α} (hg : ∀ x, k (g x) = k x) (l : List α) : (mapIf p g l).map k = l.map k := by
  unfold mapIf
  rw [List.map_map]
  exact List.map_congr_left fun x _ => by dsimp only [Function.comp]; split <;> simp [hg]

@[simp] theorem flights_bumpBy (k n : Nat) (s : State) : flights (bumpBy k n s) = flights s := flights_congr (by simp) (by simp)
@[simp] theorem flights_bump (k : Nat) (s : State) : flights (bump k s) = flights s := flights_bumpBy k 1 s
@[simp] theorem flights_sendAll (peers : List Nat) (type : Nat) (b : Bytes) (s : State) : flights (sendAll peers type b s) = flights s :=
  flights_congr (by simp) (by simp)
@[simp] theorem flights_abortLocal (h : Head) (f : MemFwd) (s : State) : flights (abortLocal h f s) = flights s := flights_congr (by simp) (by simp)
@[simp] theorem flights_abortBwd (h : Head) (b : MemBwd) (s : State) : flights (abortBwd h b s) = flights s := flights_congr (by simp) (by simp)
@[simp] theorem flights_updHead (id : Nat) (g : Head → Head) (s : State) : flights (updHead id g s) = flights s := rfl
@[simp] theorem flights_dropEarly (types : List Nat) (head step mb : Nat) (s : State) : flights (dropEarly types head step mb s) = flights s := rfl

theorem flights_updFwd (seq : Nat) {g : MemFwd → MemFwd} (hg : ∀ x, (g x).seq = x.seq) (s : State) : flights (updFwd seq g s) = flights s :=
  congrArg (·, s.mem.bwds.map (·.seq), s.ahp.cmds) (map_seq_mapIf _ hg s.mem.fwds)

theorem flights_updBwd (seq : Nat) {g : MemBwd → MemBwd} (hg : ∀ x, (g x).seq = x.seq) (s : State) : flights (updBwd seq g s) = flights s :=
  congrArg (s.mem.fwds.map (·.seq), ·, s.ahp.cmds) (map_seq_mapIf _ hg s.mem.bwds)

@[simp] theorem flights_dropStash (head : Nat) (gone : StashMb → Bool) (s : State) : flights (dropStash head gone s) = flights s := by
  unfold dropStash
  split
  · rfl
  · unfold flights
    dsimp only
    rw [map_seq_mapIf _ fun _ => by rfl]
    rfl

@[simp] theorem flights_releaseStash (head step mb : Nat) (s : State) : flights (releaseStash head step mb s) = flights s := flights_dropStash ..

@[simp] theorem flights_ringCopy (old new : Head) (s : State) : flights (ringCopy old new s) = flights s := by
  unfold ringCopy
  split <;> rfl

@[simp] theorem flights_writeRows (seq width : Nat) (fmt : Fmt) (rows : List (Nat × List Nat)) (s : State) : flights (writeRows seq width fmt rows s) = flights s := by
  unfold writeRows
  split
  · rfl
  · exact foldl_same flights (fun _ _ => flights_congr (emit_mem ..) (emit_ahp ..)) rows s

@[simp] theorem flights_closeGrad (h : Head) (s : State) : flights (closeGrad h s) = flights s := by
  unfold closeGrad
  split
  · rfl
  · dsimp only
    split <;> rfl

/-! ### Uncorrectable data in new places (12 R287) -/

@[simp] theorem flights_hurtWork (seq : Nat) (s : State) : flights (hurtWork seq s) = flights s := by
  unfold flights hurtWork
  dsimp only
  rw [map_seq_mapIf _ fun _ => by rfl, map_seq_mapIf _ fun _ => by rfl]

@[simp] theorem flights_hurtObject (o : MediaObj) (s : State) : flights (hurtObject o s) = flights s := by
  cases o with
  | planTile kind target planId => exact foldl_same flights (fun u q => flights_hurtWork q u) _ _
  | stash head step mb => exact flights_releaseStash ..
  | working seq => exact flights_hurtWork ..
  | _ => rfl

@[simp] theorem flights_hurtTile (channel : Nat) (t : HbmTile) (s : State) : flights (hurtTile channel s t) = flights s := by
  unfold hurtTile
  split
  · rfl
  · unfold hurtSlot
    split
    · rfl
    · rw [flights_hurtObject]
      split <;> rfl

@[simp] theorem flights_placeTiles (s : State) : flights (placeTiles s) = flights s := by
  refine foldl_same flights (fun v n => ?_) (neededTiles s) _
  unfold placeTile
  split
  · rfl
  · split
    · rfl
    · exact foldl_same flights (fun v c => flights_hurtTile c _ v) _ _

@[simp] theorem flights_touchAccums (h : Head) (adds : List Accum) (s : State) : flights (touchAccums h adds s) = flights s :=
  (foldl_same flights (fun v _ => touchBytes_same flights (fun _ _ => rfl) _ _ _ _ v) adds _).trans (flights_placeTiles s)

/-! ## A command that has ended -/

/-- No forward or backward in flight is of the command `seq`, which stands in the front end as `o`. -/
structure Ended (seq : Nat) (o : Option Cmd) (s : State) : Prop where
  fwds : seq ∉ s.mem.fwds.map (·.seq)
  bwds : seq ∉ s.mem.bwds.map (·.seq)
  cmd : findCmd s seq = o

theorem findFwd_eq_none {seq : Nat} (h : seq ∉ s.mem.fwds.map (·.seq)) : findFwd s seq = none :=
  List.find?_eq_none.2 fun x hx => by
    simpa using fun hseq : x.seq = seq => h (List.mem_map.2 ⟨x, hx, hseq⟩)

theorem findBwd_eq_none {seq : Nat} (h : seq ∉ s.mem.bwds.map (·.seq)) : findBwd s seq = none :=
  List.find?_eq_none.2 fun x hx => by
    simpa using fun hseq : x.seq = seq => h (List.mem_map.2 ⟨x, hx, hseq⟩)

namespace Ended

variable {seq q : Nat} {o : Option Cmd}

theorem congr (h : Ended seq o s) (hu : flights u = flights s) : Ended seq o u := by
  simp only [flights, Prod.mk.injEq] at hu
  obtain ⟨hfwds, hbwds, hcmds⟩ := hu
  exact ⟨hfwds ▸ h.fwds, hbwds ▸ h.bwds, by rw [← h.cmd]; unfold findCmd; rw [hcmds]⟩

/-- The records of any command may go. -/
theorem dropMem (h : Ended seq o s) : Ended seq o (dropMem q s) where
  fwds hin := h.fwds ((List.filter_sublist.map _).subset hin)
  bwds hin := h.bwds ((List.filter_sublist.map _).subset hin)
  cmd := h.cmd

/-- Another command may end. -/
theorem finish (comp : Comp) (out : Bytes) (h : Ended seq o s) (hq : q ≠ seq) : Ended seq o (finish q comp out s) where
  fwds := by rw [finish_mem]; exact h.fwds
  bwds := by rw [finish_mem]; exact h.bwds
  cmd := (findCmd_finish_ne hq.symm).trans h.cmd

theorem endMem (comp : Comp) (out : Bytes) (h : Ended seq o s) (hq : q ≠ seq) : Ended seq o (endMem q comp out s) := by
  unfold Machine.endMem
  refine (Ended.dropMem ?_).finish comp out hq
  split
  · exact h.congr (flights_releaseStash ..)
  · exact h

/-- Once a command has ended without its effect, no record of it is left. -/
theorem of_endMem (seq : Nat) (comp : Comp) (out : Bytes) (s : State) : Ended seq (findCmd (Machine.endMem seq comp out s) seq) (Machine.endMem seq comp out s) := by
  refine ⟨?_, ?_, rfl⟩ <;>
  · unfold Machine.endMem
    rw [finish_mem]
    simp [Machine.dropMem]

theorem findFwd (h : Ended seq o s) : findFwd s seq = none := findFwd_eq_none h.fwds

theorem findBwd (h : Ended seq o s) : findBwd s seq = none := findBwd_eq_none h.bwds

theorem foldl {α : Type} {f : State → α → State} (hf : ∀ u x, Ended seq o u → Ended seq o (f u x)) (l : List α) (h : Ended seq o s) :
    Ended seq o (l.foldl f s) := by
  induction l generalizing s with
  | nil => exact h
  | cons x r ih => exact ih (hf s x h)

/-! ### Another forward ends -/

theorem fwdSucceeds {w : MemFwd} (k : Head) (h : Ended seq o s) (hw : w.seq ≠ seq) : Ended seq o (fwdSucceeds k w s) := by
  unfold Machine.fwdSucceeds
  refine (Ended.dropMem (h.congr ?_)).finish _ _ hw
  rw [flights_ringCopy, flights_updHead, flights_bumpBy]
  split <;> simp

theorem fwdEnds {w : MemFwd} (k : Head) (h : Ended seq o s) (hw : w.seq ≠ seq) : Ended seq o (fwdEnds k w s) := by
  unfold Machine.fwdEnds
  dsimp only
  have h1 := h.congr (flights_dropEarly Fw.types w.head w.step w.mb s)
  split
  · exact h1.endMem _ _ hw
  · exact h1.fwdSucceeds k hw

theorem advanceFwd (q : Nat) (h : Ended seq o s) : Ended seq o (advanceFwd q s) := by
  obtain ⟨v, hv, hend⟩ := advanceFwd_cases q s
  have h1 : Ended seq o v := by
    obtain rfl | ⟨peers, b, own, rfl⟩ := hv
    · exact h
    · exact h.congr ((flights_sendAll ..).trans (flights_updFwd q (fun _ => by rfl) s))
  obtain hstay | ⟨k, g, hg, hends⟩ := hend
  · exact hstay ▸ h1
  · refine hends ▸ h1.fwdEnds k fun hseq => ?_
    rw [show q = seq from (findFwd_seq hg).symm.trans hseq, h1.findFwd] at hg
    cases hg

theorem advanceFwds (head : Nat) (h : Ended seq o s) : Ended seq o (advanceFwds head s) := h.foldl (fun _ q hu => hu.advanceFwd q) _

/-! ### Another backward ends -/

theorem bwdSucceeds {w : MemBwd} (k : Head) (h : Ended seq o s) (hw : w.seq ≠ seq) : Ended seq o (bwdSucceeds k w s) := by
  unfold Machine.bwdSucceeds
  split
  · refine (Ended.dropMem (h.congr ?_)).finish _ _ hw
    rw [flights_bumpBy]
    split
    · split <;> simp [updStep]
    · simp [updStep]
  · exact h.endMem _ _ hw

theorem bwdEnds {w : MemBwd} (k : Head) (h : Ended seq o s) (hw : w.seq ≠ seq) : Ended seq o (bwdEnds k w s) := by
  unfold Machine.bwdEnds
  dsimp only
  have h1 := h.congr (flights_dropEarly Bw.types w.head w.step w.mb s)
  split
  · exact h1.endMem _ _ hw
  · exact h1.bwdSucceeds k hw

theorem advanceBwd (q : Nat) (h : Ended seq o s) : Ended seq o (advanceBwd s q) := by
  obtain ⟨v, hv, hend⟩ := advanceBwd_cases q s
  have h1 : Ended seq o v := by
    obtain rfl | ⟨peers, b, own, rfl⟩ := hv
    · exact h
    · exact h.congr ((flights_sendAll ..).trans (flights_updBwd q (fun _ => by rfl) s))
  obtain hstay | ⟨k, g, hg, hends⟩ := hend
  · exact hstay ▸ h1
  · refine hends ▸ h1.bwdEnds k fun hseq => ?_
    rw [show q = seq from (findBwd_seq hg).symm.trans hseq, h1.findBwd] at hg
    cases hg

theorem advanceBwds (head : Nat) (h : Ended seq o s) : Ended seq o (advanceBwds head s) := h.foldl (fun _ q hu => hu.advanceBwd q) _

end Ended

end Sys2Proof.Flights
end

section
/-! SUPPORT. The timeouts of the exchanges (10 R231; 11 R245, R264) and of forwards held for stash space (11 R241). -/

namespace Sys2Proof.ExchangeTimeouts

open Machine Laws Reductions Flights

variable {s : State} {seq t : Nat}

/-! ## A repeat (R231, R245) -/

/-- A forward of a higher attempt sends its partials anew where they have gone out, and waits from now on. -/
theorem findFwd_repeatFwd {a : Nat} {f : MemFwd} {h : Head} (hf : findFwd s f.seq = some f) (hh : findHead s f.head = some h) (ha : f.attempt < a) :
    findFwd (repeatFwd a f s) f.seq = some { f with attempt := a, since := if f.phase = .exchange then s.now else f.since } := by
  unfold repeatFwd
  rw [hh]
  dsimp only
  rw [if_neg (Nat.not_le.2 ha)]
  have hraised := findFwd_upd (g := fun x => { x with attempt := a }) (fun _ => rfl) hf
  by_cases hphase : f.phase = .exchange
  · rw [if_neg (not_not.2 hphase), if_pos hphase, findFwd_congr (bump_mem ..)]
    refine (findFwd_upd (fun _ => by rfl) ((findFwd_congr (sendPartials_mem ..) _).trans hraised)).trans ?_
    rfl
  · rw [if_pos hphase, if_neg hphase]
    exact hraised

theorem findBwd_repeatBwd {a : Nat} {b : MemBwd} {h : Head} (hb : findBwd s b.seq = some b) (hh : findHead s b.head = some h) (ha : b.attempt < a) :
    findBwd (repeatBwd a b s) b.seq = some { b with attempt := a, since := if b.phase = .exchange then s.now else b.since } := by
  unfold repeatBwd
  rw [hh]
  dsimp only
  rw [if_neg (Nat.not_le.2 ha)]
  have hraised := findBwd_upd (g := fun x => { x with attempt := a }) (fun _ => rfl) hb
  by_cases hphase : b.phase = .exchange
  · rw [if_neg (not_not.2 hphase), if_pos hphase]
    refine (findBwd_upd (fun _ => by rfl) ((findBwd_congr (sendDw_mem ..) _).trans hraised)).trans ?_
    rfl
  · rw [if_pos hphase, if_neg hphase]
    exact hraised

/-! ## The timeouts of the exchanges (R231, R245, R264) -/

/-- What a timeout does to a forward that lacks a part: nothing before its time, then a repeat up to attempt 3, then a declared failure. -/
theorem exec_fwdExchangeTimeout {p : Nat} {r : List Nat} {f : MemFwd} {h : Head} (hf : findFwd s seq = some f) (hh : findHead s f.head = some h)
    (hl : missingParts (ownPos (tick t s) h) h.members.length f.parts = p :: r) (hphase : f.phase = .exchange) :
    exec (.fwdExchangeTimeout seq t) s =
      if max s.now t < f.since + settingUs s Key.stepTimeoutUs then .next (tick t s)
      else if f.attempt < 3 then
        .next (repeatFwd (f.attempt + 1) f (sendAll (otherMembers (tick t s) h.members) Spp.memfwdRepeat
          (exchangePayload f.head f.mb (ownPos (tick t s) h) f.step (f.attempt + 1) 0 (some f.digest)) (tick t s)))
      else .next (declareFailed h (h.members.getD p 0) 2 f.step none (tick t s)) := by
  change execFwdExchangeTimeout seq t s = _
  unfold execFwdExchangeTimeout
  dsimp only
  rw [show findFwd (tick t s) seq = some f from hf]
  dsimp only
  rw [show findHead (tick t s) f.head = some h from hh]
  dsimp only
  rw [hl]
  simp only [hphase, ne_eq, not_true_eq_false, false_or]
  rfl

theorem exec_bwdExchangeTimeout {p : Nat} {r : List Nat} {b : MemBwd} {h : Head} (hb : findBwd s seq = some b) (hh : findHead s b.head = some h)
    (hl : missingParts (ownPos (tick t s) h) h.members.length b.parts = p :: r) (hphase : b.phase = .exchange) :
    exec (.bwdExchangeTimeout seq t) s =
      if max s.now t < b.since + settingUs s Key.stepTimeoutUs then .next (tick t s)
      else if b.attempt < 3 then
        .next (repeatBwd (b.attempt + 1) b (sendAll (otherMembers (tick t s) h.members) Spp.membwdRepeat
          (exchangePayload b.head b.mb (ownPos (tick t s) h) b.step (b.attempt + 1) 0 (some b.digest)) (tick t s)))
      else .next (declareFailed h (h.members.getD p 0) 3 b.step none (tick t s)) := by
  change execBwdExchangeTimeout seq t s = _
  unfold execBwdExchangeTimeout
  dsimp only
  rw [show findBwd (tick t s) seq = some b from hb]
  dsimp only
  rw [show findHead (tick t s) b.head = some h from hh]
  dsimp only
  rw [hl]
  simp only [hphase, ne_eq, not_true_eq_false, false_or]
  rfl

/-! ## Forwards held for stash space (R241) -/

section
variable {f : MemFwd} {h : Head}

/-- R240: a held forward whose stash fits reserves its space, and goes on to its scratchpad banks. -/
theorem reserveFwd_fits {p : Plan} (hf : findFwd s f.seq = some f) (hh : findHead s h.id = some h) (hstash : f.stash = true)
    (hfits : needFits (stashNeed h.desc f.tokens f.recompute) (stashUsed h f.plan) (stashSpace p) = true) :
    ∃ u, reserveFwd h p f s = bankForward f.seq u ∧ findFwd u f.seq = some { f with phase := .waiting } ∧
      (findHead u h.id).map (·.stash) = some (h.stash.filter (fun e => !(e.step == f.step && e.mb == f.mb)) ++ [newStash h f 0]) := by
  unfold reserveFwd
  rw [if_neg (by simp [hstash]), if_pos hfits]
  refine ⟨_, rfl, findFwd_upd (fun _ => by rfl) hf, ?_⟩
  exact congrArg (Option.map (·.stash)) (findHead_upd (f := fun x => { x with stash := x.stash.filter _ ++ _ }) (fun _ => rfl) hh)

variable {c : Cmd} {p : Plan} (hf : findFwd s seq = some f) (hh : findHead s f.head = some h) (hphase : f.phase = .held)
include hf hh hphase

theorem exec_stashHoldRelease (hc : findCmd s seq = some c) (hp : c.plan = some p) :
    exec (.stashHoldRelease seq t) s =
      if needFits (stashNeed h.desc f.tokens f.recompute) (stashUsed h f.plan) (stashSpace p) = true then .next (reserveFwd h p f (tick t s))
      else .next (tick t s) := by
  change execStashHoldRelease seq t s = _
  unfold execStashHoldRelease
  dsimp only
  rw [show findFwd (tick t s) seq = some f from hf, show (findCmd (tick t s) seq).bind (·.plan) = some p by
    rw [show findCmd (tick t s) seq = some c from hc]; exact hp]
  dsimp only
  rw [show findHead (tick t s) f.head = some h from hh]
  simp only [hphase, true_and]

theorem exec_stashWaitTimeout :
    exec (.stashWaitTimeout seq t) s =
      if f.since + settingUs s Key.stashWaitUs ≤ max s.now t then
        .next (advanceFwds f.head (fail seq Status.stashFull (dropMem seq (abortLocal h f (dropEarly Fw.types f.head f.step f.mb (tick t s))))))
      else .next (tick t s) := by
  change execStashWaitTimeout seq t s = _
  unfold execStashWaitTimeout
  dsimp only
  rw [show findFwd (tick t s) seq = some f from hf]
  dsimp only
  rw [show findHead (tick t s) f.head = some h from hh]
  simp only [hphase, true_and]
  rfl

end

/-! ## The claim -/

/-- Settles O48: each timeout has one equation with its outcomes; a repeat leaves the record of its command in the new attempt, and a held forward takes
its space in `reserveFwd`. -/
theorem exchangesTimeOut : Obligations.ExchangesTimeOut := by
  refine ⟨?forward, ?backward, ?held⟩
  case forward =>
    intro seq t p r f h s hf hh hl hphase
    rw [exec_fwdExchangeTimeout hf hh hl hphase]
    refine ⟨fun hearly => if_pos hearly, fun hdue hlow => ?_, fun hdue hlast => ?_⟩
    · rw [if_neg (Nat.not_lt.2 hdue), if_pos hlow]
      obtain rfl := findFwd_seq hf
      refine ⟨_, rfl, ?_⟩
      rw [findFwd_repeatFwd ((findFwd_congr (by simp) _).trans hf) ((findHead_congr (by simp) _).trans hh) (Nat.lt_succ_self _), if_pos hphase,
        sendAll_now, tick_now]
    · rw [if_neg (Nat.not_lt.2 hdue), if_neg (Nat.not_lt.2 hlast)]
      exact ⟨_, rfl, declareFailed_spec ..⟩
  case backward =>
    intro seq t p r b h s hb hh hl hphase
    rw [exec_bwdExchangeTimeout hb hh hl hphase]
    refine ⟨fun hearly => if_pos hearly, fun hdue hlow => ?_, fun hdue hlast => ?_⟩
    · rw [if_neg (Nat.not_lt.2 hdue), if_pos hlow]
      obtain rfl := findBwd_seq hb
      refine ⟨_, rfl, ?_⟩
      rw [findBwd_repeatBwd ((findBwd_congr (by simp) _).trans hb) ((findHead_congr (by simp) _).trans hh) (Nat.lt_succ_self _), if_pos hphase,
        sendAll_now, tick_now]
    · rw [if_neg (Nat.not_lt.2 hdue), if_neg (Nat.not_lt.2 hlast)]
      exact ⟨_, rfl, declareFailed_spec ..⟩
  case held =>
    intro seq t f c p h s hf hc hhost hp hh hphase
    dsimp only
    rw [exec_stashHoldRelease hf hh hphase hc hp, exec_stashWaitTimeout hf hh hphase]
    obtain rfl := findFwd_seq hf
    refine ⟨fun hfits => if_neg (by simp [hfits]), fun hfits hstash => ?_, fun hearly => if_neg (Nat.not_le.2 hearly), fun hdue => ?_⟩
    · rw [if_pos hfits]
      obtain ⟨u, hrun, hspace⟩ := reserveFwd_fits (s := tick t s) hf (findHead_id hh ▸ hh) hstash hfits
      exact ⟨u, congrArg Host.Outcome.next hrun, hspace⟩
    · rw [if_pos hdue]
      refine ⟨_, rfl, ?_, ready_finish ?_ hhost⟩
      · rw [findFwd_congr (fail_mem ..)]
        simp [findFwd, dropMem]
      · exact (findCmd_congr (abortLocal_ahp ..) _).trans hc

end Sys2Proof.ExchangeTimeouts
end

section
/-! SUPPORT. The messages of the forward and backward exchange (10 R215, R229 to R231; 11 R245): to which forward or backward each goes, and what it does
there. -/

namespace Sys2Proof.ExchangeMessages

open Machine Laws Reductions ReductionMessages Flights ExchangeTimeouts

variable {s : State} {peer type t : Nat} {b : Bytes} {h : Head}

/-! ## The end that a message brings -/

/-- R215: a digest difference leaves no record of the command, which ends with GROUP_MISMATCH. -/
theorem endMismatch_ends {seq : Nat} {c : Cmd} (hc : findCmd s seq = some c) (hhost : c.internal = false) :
    Ended seq (findCmd (endMismatch seq s) seq) (endMismatch seq s) ∧ ready (endMismatch seq s) seq = some { status := Status.groupMismatch } :=
  ⟨Ended.of_endMem .., ready_endMem ((findCmd_congr (bump_ahp ..) seq).trans hc) hhost⟩

/-- R230, R231: so does an abort, with a status that tells whether its digest differs. -/
theorem endAborted_ends {seq theirs own : Nat} {valid : Bool} {c : Cmd} (hc : findCmd s seq = some c) (hhost : c.internal = false) :
    Ended seq (findCmd (endAborted seq valid theirs own s) seq) (endAborted seq valid theirs own s) ∧
      ready (endAborted seq valid theirs own s) seq = some (if valid = true ∧ theirs ≠ own then { status := Status.groupMismatch }
        else { status := Status.groupUnavailable, info := 0xFFFF }) := by
  unfold endAborted
  simp only [Bool.and_eq_true, bne_iff_ne]
  split
  · exact endMismatch_ends hc hhost
  · exact ⟨Ended.of_endMem .., ready_endMem hc hhost⟩

theorem ready_congr {u : State} {seq : Nat} (h : findCmd u seq = findCmd s seq) : ready u seq = ready s seq := by
  unfold ready; rw [h]

/-! ## Messages of a forward (R229 to R231) -/

section
variable {f : MemFwd} {e : Early}

theorem fwdDeliver_found
    (hf : s.mem.fwds.find? (fun f => f.head == (earlyKey e).1 && f.step == (earlyKey e).2.1 && f.mb == (earlyKey e).2.2) = some f) :
    fwdDeliver e s = fwdMessage f e s := by
  unfold fwdDeliver
  dsimp only
  rw [hf]

theorem fwdDeliver_early
    (hf : s.mem.fwds.find? (fun f => f.head == (earlyKey e).1 && f.step == (earlyKey e).2.1 && f.mb == (earlyKey e).2.2) = none) :
    fwdDeliver e s = keepEarly (earlyKey e).1 e.peer e.type e.payload s := by
  unfold fwdDeliver
  dsimp only
  rw [hf]

theorem exec_memfwdPartial_formed (hb : Part.formed Fw.partMagic b = true) :
    exec (.memfwdPartial peer b t) s = .next (fwdDeliver { peer := peer, type := Spp.memfwdPartial, payload := b } (tick t s)) :=
  congrArg Host.Outcome.next (if_pos hb)

theorem exec_memfwdPartial_malformed (hb : Part.formed Fw.partMagic b = false) : exec (.memfwdPartial peer b t) s = .next (malformed (tick t s)) :=
  congrArg Host.Outcome.next (if_neg (by simp [hb]))

/-- A formed control message from the member at its position goes to its forward. -/
theorem fwdControl_deliver (hb : Ctl.formed type b = true) (hh : findHead s (Ctl.head b) = some h) (hpeer : h.members[Ctl.pos b]? = some peer) :
    fwdControl type peer b s = fwdDeliver { peer := peer, type := type, payload := b } s := by
  unfold fwdControl
  rw [hh, if_neg (by simp [hb])]
  exact if_pos hpeer

/-- Bytes of a partial before its rows: its header and the map of the tokens that have one. -/
def partialBase (b : Bytes) : Nat := 64 + roundUp 8 (ceilDiv (Part.span b) 8)

/-- The tokens of a partial, counted from its first, that have a row. -/
def partialPresent (b : Bytes) : List Nat := (List.range (Part.span b)).filter fun i => bitOf (b.drop 64) i

/-- A partial comes from the member at its position, and has the length of its map and rows; no bit of the map is set beyond its tokens. -/
def PartialFits (h : Head) (peer : Nat) (b : Bytes) : Prop :=
  h.members[Part.pos b]? = some peer ∧ Part.span b ≤ 65536 ∧ b.length = partialBase b + (partialPresent b).length * Hd.dv h.desc * 4 ∧
    (List.range (8 * (partialBase b - 64))).any (fun i => decide (Part.span b ≤ i) && bitOf (b.drop 64) i) = false

/-- The rows of a partial, each with its token. -/
def partialRows (h : Head) (b : Bytes) : List (Nat × List Nat) :=
  ((List.range (partialPresent b).length).zip (partialPresent b)).map fun x =>
    (Part.first b + h.members.length * x.2, (List.range (Hd.dv h.desc)).map fun k => u32At b (partialBase b + 4 * (Hd.dv h.desc * x.1 + k)))

/-- A forward with more of what a member has sent. -/
def withPart (pos : Nat) (g : PeerPart → PeerPart) (f : MemFwd) : MemFwd := { f with parts := setPart pos g f.parts }

/-- What a partial does to its forward, by whether it fits the group and the request. -/
theorem takePartial_outcomes (hh : findHead s f.head = some h) :
    (¬PartialFits h peer b → takePartial peer b f s = malformed s) ∧
    (PartialFits h peer b → Part.digest b ≠ f.digest ∨ Part.replica b ≠ f.replica →
      takePartial peer b f s = advanceFwds f.head (endMismatch f.seq (if f.phase = .exchange then dropEarly Fw.types f.head f.step f.mb s
        else abortLocal h f (dropEarly Fw.types f.head f.step f.mb s)))) ∧
    (PartialFits h peer b → Part.digest b = f.digest → Part.replica b = f.replica →
      takePartial peer b f s = advanceFwds f.head (updFwd f.seq
        (withPart (Part.pos b) (joinPart b h.members.length (tokensOf (ownPos s h) h.members.length f.tokens) (partialRows h b))) s)) := by
  have hcond : (h.members[Part.pos b]? ≠ some peer ∨ 65536 < Part.span b ∨ b.length ≠ partialBase b + (partialPresent b).length * Hd.dv h.desc * 4 ∨
      (List.range (8 * roundUp 8 (ceilDiv (Part.span b) 8))).any (fun i => decide (Part.span b ≤ i) && bitOf (b.drop 64) i) = true) ↔ ¬PartialFits h peer b := by
    rw [PartialFits, show partialBase b - 64 = roundUp 8 (ceilDiv (Part.span b) 8) from Nat.add_sub_cancel_left ..]
    simp only [not_and_or, Nat.not_le, Bool.not_eq_false]
  unfold takePartial
  rw [hh]
  refine ⟨fun hfits => if_pos (hcond.2 hfits), fun hfits hother => ?_, fun hfits hdigest hreplica => ?_⟩
  · exact (if_neg (hcond.not_left.2 hfits)).trans (if_pos hother)
  · exact (if_neg (hcond.not_left.2 hfits)).trans (if_neg (not_or.2 ⟨not_not.2 hdigest, not_not.2 hreplica⟩))

end

/-! ## Messages of a backward (R245) -/

section
variable {w : MemBwd} {e : Early}

theorem bwdDeliver_found
    (hw : s.mem.bwds.find? (fun f => f.head == (earlyKey e).1 && f.step == (earlyKey e).2.1 && f.mb == (earlyKey e).2.2) = some w) :
    bwdDeliver e s = bwdMessage w e s := by
  unfold bwdDeliver
  dsimp only
  rw [hw]

theorem bwdDeliver_early
    (hw : s.mem.bwds.find? (fun f => f.head == (earlyKey e).1 && f.step == (earlyKey e).2.1 && f.mb == (earlyKey e).2.2) = none) :
    bwdDeliver e s = keepEarly (earlyKey e).1 e.peer e.type e.payload s := by
  unfold bwdDeliver
  dsimp only
  rw [hw]

theorem exec_membwdDw_formed (hb : Part.formed Bw.partMagic b = true) :
    exec (.membwdDw peer b t) s = .next (bwdDeliver { peer := peer, type := Spp.membwdDw, payload := b } (tick t s)) :=
  congrArg Host.Outcome.next (if_pos hb)

theorem exec_membwdDw_malformed (hb : Part.formed Bw.partMagic b = false) : exec (.membwdDw peer b t) s = .next (malformed (tick t s)) :=
  congrArg Host.Outcome.next (if_neg (by simp [hb]))

theorem bwdControl_deliver (hb : Ctl.formed type b = true) (hh : findHead s (Ctl.head b) = some h) (hpeer : h.members[Ctl.pos b]? = some peer) :
    bwdControl type peer b s = bwdDeliver { peer := peer, type := type, payload := b } s := by
  unfold bwdControl
  rw [hh, if_neg (by simp [hb])]
  exact if_pos hpeer

/-- A backward with more of what a member has sent. -/
def withPartBwd (pos : Nat) (g : PeerPart → PeerPart) (w : MemBwd) : MemBwd := { w with parts := setPart pos g w.parts }

/-- What the dw values of a member at its position do to their backward. -/
theorem takeDw_outcomes (hh : findHead s w.head = some h) (hpeer : h.members[Part.pos b]? = some peer) (hspan : Part.span b ≤ 65536) :
    (readDw (Part.span b) (Part.first b) h.members.length (b.drop 64) = none → takeDw peer b w s = malformed s) ∧
    (∀ rows, readDw (Part.span b) (Part.first b) h.members.length (b.drop 64) = some rows →
      (Part.digest b ≠ w.digest ∨ Part.replica b ≠ w.replica →
        takeDw peer b w s = advanceBwds w.head (endMismatch w.seq (if w.phase = .exchange then dropEarly Bw.types w.head w.step w.mb s
          else abortBwd h w (dropEarly Bw.types w.head w.step w.mb s)))) ∧
      (Part.digest b = w.digest → Part.replica b = w.replica →
        takeDw peer b w s = advanceBwds w.head (updBwd w.seq
          (withPartBwd (Part.pos b) (joinPart b h.members.length (tokensOf (ownPos s h) h.members.length w.tokens) rows)) s))) := by
  have hfits : ¬(h.members[Part.pos b]? ≠ some peer ∨ 65536 < Part.span b) := not_or.2 ⟨not_not.2 hpeer, hspan.not_gt⟩
  unfold takeDw
  rw [hh]
  dsimp only
  rw [if_neg hfits]
  refine ⟨fun hrows => by rw [hrows], fun rows hrows => ⟨fun hother => ?_, fun hdigest hreplica => ?_⟩⟩
  · rw [hrows]
    exact if_pos hother
  · rw [hrows]
    exact if_neg (not_or.2 ⟨not_not.2 hdigest, not_not.2 hreplica⟩)

end

/-! ## The claim -/

/-- What is found for the micro-batch of a head is of that head. -/
theorem head_of_found {α : Type} {l : List α} {head step mb : α → Nat} {i j k : Nat} {x : α}
    (hx : l.find? (fun y => head y == i && step y == j && mb y == k) = some x) : head x = i := by
  have hfits := List.find?_some hx
  simp only [Bool.and_eq_true, beq_iff_eq] at hfits
  obtain ⟨⟨hhead, -⟩, -⟩ := hfits
  exact hhead

/-- What the control messages of a micro-batch do to its forward: its end is noted, a repeat begins a later attempt, and an abort ends it. -/
theorem forwardControls (peer t : Nat) (b : Bytes) (f : MemFwd) (h : Head)
    (hkey : s.mem.fwds.find? (fun f => f.head == Ctl.head b && f.step == Ctl.step b && f.mb == Ctl.mb b) = some f) (hf : findFwd s f.seq = some f)
    (hh : findHead s (Ctl.head b) = some h) (hpeer : h.members[Ctl.pos b]? = some peer) :
    (Ctl.formed Spp.memfwdDone b = true → ∃ u, exec (.memfwdDone peer b t) s = .next (advanceFwds f.head u) ∧
      findFwd u f.seq = some { f with dones := if f.dones.contains (Ctl.pos b) then f.dones else f.dones ++ [Ctl.pos b] }) ∧
    (Ctl.formed Spp.memfwdRepeat b = true → f.attempt < Ctl.attempt b → ∃ u, exec (.memfwdRepeat peer b t) s = .next u ∧
      findFwd u f.seq = some { f with attempt := Ctl.attempt b, since := if f.phase = .exchange then max s.now t else f.since }) ∧
    (Ctl.formed Spp.memfwdRepeat b = true → Ctl.attempt b ≤ f.attempt → exec (.memfwdRepeat peer b t) s = .next (tick t s)) ∧
    (∀ c, Ctl.formed Spp.memfwdAbort b = true → findCmd s f.seq = some c → c.internal = false →
      ∃ u, exec (.memfwdAbort peer b t) s = .next (advanceFwds f.head u) ∧ findFwd u f.seq = none ∧
      ready u f.seq = some (if Ctl.valid b = true ∧ Ctl.digest b ≠ f.digest then { status := Status.groupMismatch }
        else { status := Status.groupUnavailable, info := 0xFFFF })) := by
  have hhead : findHead s f.head = some h := by rw [head_of_found hkey, hh]
  have hdeliver : ∀ {type}, Ctl.formed type b = true → earlyKey ⟨peer, type, b⟩ = (Ctl.head b, Ctl.step b, Ctl.mb b) →
      fwdControl type peer b (tick t s) = fwdMessage f ⟨peer, type, b⟩ (tick t s) := fun hb hcontrol =>
    (fwdControl_deliver (s := tick t s) hb hh hpeer).trans (fwdDeliver_found (by rw [hcontrol]; exact hkey))
  have hrepeat : Ctl.formed Spp.memfwdRepeat b = true → exec (.memfwdRepeat peer b t) s = .next (repeatFwd (Ctl.attempt b) f (tick t s)) := fun hb =>
    congrArg Host.Outcome.next (hdeliver hb rfl)
  refine ⟨fun hb => ⟨_, congrArg Host.Outcome.next (hdeliver hb rfl), ?_⟩, fun hb hlt => ⟨_, hrepeat hb, ?_⟩, fun hb hle => ?_, fun c hb hc hhost => ?_⟩
  · exact findFwd_upd (s := tick t s)
      (g := fun x => { x with dones := if x.dones.contains (Ctl.pos b) then x.dones else x.dones ++ [Ctl.pos b] }) (fun _ => rfl) hf
  · exact findFwd_repeatFwd (s := tick t s) hf hhead hlt
  · rw [hrepeat hb]
    unfold repeatFwd
    rw [show findHead (tick t s) f.head = some h from hhead]
    exact congrArg Host.Outcome.next (if_pos hle)
  · obtain ⟨hended, hready⟩ := endAborted_ends (s := dropEarly Fw.types f.head f.step f.mb (tick t s)) (valid := Ctl.valid b) (theirs := Ctl.digest b)
      (own := f.digest) hc hhost
    exact ⟨_, congrArg Host.Outcome.next (hdeliver hb rfl), hended.findFwd, hready⟩

/-- The same of a backward. -/
theorem backwardControls (peer t : Nat) (b : Bytes) (f : MemBwd) (h : Head)
    (hkey : s.mem.bwds.find? (fun f => f.head == Ctl.head b && f.step == Ctl.step b && f.mb == Ctl.mb b) = some f) (hf : findBwd s f.seq = some f)
    (hh : findHead s (Ctl.head b) = some h) (hpeer : h.members[Ctl.pos b]? = some peer) :
    (Ctl.formed Spp.membwdDone b = true → ∃ u, exec (.membwdDone peer b t) s = .next (advanceBwds f.head u) ∧
      findBwd u f.seq = some { f with dones := if f.dones.contains (Ctl.pos b) then f.dones else f.dones ++ [Ctl.pos b] }) ∧
    (Ctl.formed Spp.membwdRepeat b = true → f.attempt < Ctl.attempt b → ∃ u, exec (.membwdRepeat peer b t) s = .next u ∧
      findBwd u f.seq = some { f with attempt := Ctl.attempt b, since := if f.phase = .exchange then max s.now t else f.since }) ∧
    (Ctl.formed Spp.membwdRepeat b = true → Ctl.attempt b ≤ f.attempt → exec (.membwdRepeat peer b t) s = .next (tick t s)) ∧
    (∀ c, Ctl.formed Spp.membwdAbort b = true → findCmd s f.seq = some c → c.internal = false →
      ∃ u, exec (.membwdAbort peer b t) s = .next (advanceBwds f.head u) ∧ findBwd u f.seq = none ∧
      ready u f.seq = some (if Ctl.valid b = true ∧ Ctl.digest b ≠ f.digest then { status := Status.groupMismatch }
        else { status := Status.groupUnavailable, info := 0xFFFF })) := by
  have hhead : findHead s f.head = some h := by rw [head_of_found hkey, hh]
  have hdeliver : ∀ {type}, Ctl.formed type b = true → earlyKey ⟨peer, type, b⟩ = (Ctl.head b, Ctl.step b, Ctl.mb b) →
      bwdControl type peer b (tick t s) = bwdMessage f ⟨peer, type, b⟩ (tick t s) := fun hb hcontrol =>
    (bwdControl_deliver (s := tick t s) hb hh hpeer).trans (bwdDeliver_found (by rw [hcontrol]; exact hkey))
  have hrepeat : Ctl.formed Spp.membwdRepeat b = true → exec (.membwdRepeat peer b t) s = .next (repeatBwd (Ctl.attempt b) f (tick t s)) := fun hb =>
    congrArg Host.Outcome.next (hdeliver hb rfl)
  refine ⟨fun hb => ⟨_, congrArg Host.Outcome.next (hdeliver hb rfl), ?_⟩, fun hb hlt => ⟨_, hrepeat hb, ?_⟩, fun hb hle => ?_, fun c hb hc hhost => ?_⟩
  · exact findBwd_upd (s := tick t s)
      (g := fun x => { x with dones := if x.dones.contains (Ctl.pos b) then x.dones else x.dones ++ [Ctl.pos b] }) (fun _ => rfl) hf
  · exact findBwd_repeatBwd (s := tick t s) hf hhead hlt
  · rw [hrepeat hb]
    unfold repeatBwd
    rw [show findHead (tick t s) f.head = some h from hhead]
    exact congrArg Host.Outcome.next (if_pos hle)
  · obtain ⟨hended, hready⟩ := endAborted_ends (s := dropEarly Bw.types f.head f.step f.mb (tick t s)) (valid := Ctl.valid b) (theirs := Ctl.digest b)
      (own := f.digest) hc hhost
    exact ⟨_, congrArg Host.Outcome.next (hdeliver hb rfl), hended.findBwd, hready⟩

/-- Settles O47: a message of a part goes through `takePartial` or `takeDw`, a control message to the record of its micro-batch; what ends a forward or
a backward leaves no record of it, so that those which go on after it leave its completion. -/
theorem exchangeMessagesAct : Obligations.ExchangeMessagesAct := by
  refine ⟨?rows, ?early, ?malformed, ?control, ?dw, ?earlyDw, ?controlDw⟩
  case rows =>
    intro peer t b f h s hb hkey hf hh
    have hdeliver : fwdDeliver { peer := peer, type := Spp.memfwdPartial, payload := b } (tick t s) = takePartial peer b f (tick t s) := fwdDeliver_found hkey
    have hexec := exec_memfwdPartial_formed (s := s) (peer := peer) (t := t) hb
    rw [hdeliver] at hexec
    rw [hexec]
    obtain ⟨hmisfit, hother, hjoins⟩ := takePartial_outcomes (s := tick t s) (peer := peer) (b := b) (f := f) hh
    refine ⟨fun hfits => congrArg Host.Outcome.next (hmisfit hfits), fun hfits hdigest hreplica => ?_, fun c hfits hdiffers hc hhost => ?_⟩
    · exact ⟨_, congrArg Host.Outcome.next (hjoins hfits hdigest hreplica), findFwd_upd (s := tick t s) (g := withPart _ _) (fun _ => rfl) hf⟩
    · refine ⟨_, congrArg Host.Outcome.next (hother hfits hdiffers), ?_, ?_, rfl⟩
      all_goals
        have hcmd : findCmd (if f.phase = .exchange then dropEarly Fw.types f.head f.step f.mb (tick t s)
            else abortLocal h f (dropEarly Fw.types f.head f.step f.mb (tick t s))) f.seq = some c := by
          split
          · exact hc
          · exact (findCmd_congr (abortLocal_ahp ..) _).trans hc
        obtain ⟨hended, hready⟩ := endMismatch_ends hcmd hhost
      · exact (hended.advanceFwds f.head).findFwd
      · exact (ready_congr (hended.advanceFwds f.head).cmd).trans hready
  case early =>
    intro peer t b h s hb hh hnone
    exact ⟨_, (exec_memfwdPartial_formed hb).trans (congrArg Host.Outcome.next (fwdDeliver_early (s := tick t s) hnone)), keepEarly_early hh⟩
  case malformed => exact fun peer t b s => ⟨exec_memfwdPartial_malformed, exec_membwdDw_malformed⟩
  case control => exact fun peer t b f h s hkey hf hh hpeer => forwardControls peer t b f h hkey hf hh hpeer
  case dw =>
    intro peer t b w h s hb hkey hw hh hpeer hspan
    have hdeliver : bwdDeliver { peer := peer, type := Spp.membwdDw, payload := b } (tick t s) = takeDw peer b w (tick t s) := bwdDeliver_found hkey
    have hexec := exec_membwdDw_formed (s := s) (peer := peer) (t := t) hb
    rw [hdeliver] at hexec
    rw [hexec]
    obtain ⟨hmisfit, hfits⟩ := takeDw_outcomes (s := tick t s) hh hpeer hspan
    refine ⟨fun hrows => congrArg Host.Outcome.next (hmisfit hrows), fun rows hrows hdigest hreplica => ?_, fun rows c hrows hdiffers hc hhost => ?_⟩
    · obtain ⟨-, hjoins⟩ := hfits rows hrows
      exact ⟨_, congrArg Host.Outcome.next (hjoins hdigest hreplica), findBwd_upd (s := tick t s) (g := withPartBwd _ _) (fun _ => rfl) hw⟩
    · obtain ⟨hother, -⟩ := hfits rows hrows
      have hcmd : findCmd (if w.phase = .exchange then dropEarly Bw.types w.head w.step w.mb (tick t s)
          else abortBwd h w (dropEarly Bw.types w.head w.step w.mb (tick t s))) w.seq = some c := by
        split
        · exact hc
        · exact (findCmd_congr (abortBwd_ahp ..) _).trans hc
      obtain ⟨hended, hready⟩ := endMismatch_ends hcmd hhost
      exact ⟨_, congrArg Host.Outcome.next (hother hdiffers), hended.findBwd, hready⟩
  case earlyDw =>
    intro peer t b h s hb hh hnone
    exact ⟨_, (exec_membwdDw_formed hb).trans (congrArg Host.Outcome.next (bwdDeliver_early (s := tick t s) hnone)), keepEarly_early hh⟩
  case controlDw => exact fun peer t b f h s hkey hf hh hpeer => backwardControls peer t b f h hkey hf hh hpeer

end Sys2Proof.ExchangeMessages
end

section
/-! SUPPORT. A backward without a stash whose completion is written over, where a backward of the same command is still noted. -/

namespace Sys2Proof.BackwardStarts

open Machine Laws

/-- Head 0, whose descriptor has no value element and no member. -/
def bareHead : Head := newHead State.reset 0 0 []

/-- A plan of the head without banks, tiles or stages. -/
def barePlan : Plan := { kind := 2, target := 0, planId := 3, bytes := [], bound := true, tiles := [] }

/-- A backward request of one token for step 1 and micro-batch 0 that trains nothing (11 R238). -/
def oneToken : Bytes :=
  withCrc (toLE 4 Bw.magic ++ toLE 4 160 ++ zeros 31 ++ [1] ++ zeros 8 ++ toLE 8 1 ++ toLE 4 1) ++ zeros 96

/-- A MEMLAYER_BWD with that request, admitted. -/
def backward : Cmd where
  seq := 5
  queue := 0
  entry := { opcode := 0x34, fence := false, arg2 := 0, cmdId := 77, target := 0, arg0 := 3, arg1 := 0, inAddr := 0, inKey := 0, inLen := 160, outAddr := 0, outKey := 0,
             outLen := 0 }
  arrived := 0
  phase := .admitted
  dispatchedAt := 0
  dispatchEpoch := 0
  epoch := 0
  held := []
  deadline := 0
  config := []
  late := false
  internal := false
  order := 1
  plan := some barePlan
  report := []
  replica := 0
  stalledAt := none
  waitsFor := []
  tileFlags := 0
  comp := none

/-- A backward under the command's number that has all it waits for, and met data beyond correction. -/
def leftover : MemBwd := { newBwd backward 3 bareHead oneToken with phase := .exchange, dones := [0], incomplete := true }

/-- The command is admitted, and the backward under its number is noted already. -/
def alreadyNoted : State :=
  { State.reset with
    mem := { Mem.reset with heads := [bareHead], bwds := [leftover] }
    ahp := { Ahp.reset with cmds := [backward], plans := [barePlan] } }

/-- The state meets the invariant of every reachable state. -/
theorem alreadyNoted_inv : alreadyNoted.Inv := by
  unfold State.Inv State.Canonical
  decide

theorem bwdFail_oneToken : bwdFail bareHead backward.order oneToken = none := by decide +kernel

/-- The status of command 5 where a transition leaves it. -/
def statusIn : Res → Option Nat
  | .next u => (ready u 5).map (·.status)
  | _ => none

/-- The refusal advances the backwards of the head, and the one that was noted ends the command a second time. -/
theorem statusIn_exec_alreadyNoted : statusIn (exec (.memlayerBwd ⟨5, Upsets.quiet⟩ oneToken 0) alreadyNoted) = some Status.incompleteMedia := by
  decide +kernel

/-- Refutes O40: of a forward the statement asks that none of its number is noted (`findFwd s seq = none`), of a backward it does not. A backward without a stash ends
with STASH_NOT_FOUND; where one of its number is noted and has all it waits for, that one ends the command again, here with INCOMPLETE_MEDIA. -/
theorem not_memoryLayerCommandsStart : ¬ Obligations.MemoryLayerCommandsStart := by
  intro h
  obtain ⟨_, hbackward, _⟩ := h
  obtain ⟨_, hruns⟩ := hbackward 5 0 oneToken backward bareHead barePlan alreadyNoted rfl rfl (by decide +kernel) rfl rfl
  obtain ⟨_, _, _, hstashless, _⟩ := hruns (by decide +kernel) (by decide +kernel)
  obtain ⟨u, hexec, hready⟩ := hstashless bwdFail_oneToken (by decide +kernel) (by decide) fun x hx => by cases hx
  have hstatus := statusIn_exec_alreadyNoted
  rw [hexec, statusIn, hready] at hstatus
  exact absurd hstatus (by decide)

end Sys2Proof.BackwardStarts
end

section
/-! SUPPORT. What no command or message of the memory layer enters (10 R217, 11 R236, R260). -/

namespace Sys2Proof.LayerFrame

open Machine Laws

variable {s : State}

/-- What the memory layer leaves alone: the management protocol, the dictionary's values and the waiting commands, and the collections with their queries where no
channel is fenced. The fenced channels are part of it, for what a tile that takes its place may hurt rests on them. -/
def outside (s : State) : List Nat × Option Search × Dap × List (Nat × Bytes) × List Instr :=
  (s.hbm.fenced, if s.hbm.fenced = [] then some s.search else none, s.dap, s.settings, s.pending)

/-- Everything else may change. -/
theorem outside_rest {f n cs a m ne hb co sc po b} (s : State) (hfenced : hb.fenced = s.hbm.fenced := by rfl) :
    outside ⟨s.pending, f, n, cs, s.settings, a, s.search, m, ne, hb, co, s.dap, sc, po, b⟩ = outside s := by
  simp only [outside, hfenced]

@[simp] theorem outside_mem (x : Mem) : outside { s with mem := x } = outside s := rfl
@[simp] theorem outside_ahp (x : Ahp) : outside { s with ahp := x } = outside s := rfl
@[simp] theorem outside_net (x : Net) : outside { s with net := x } = outside s := rfl
@[simp] theorem outside_cold (x : Cold) : outside { s with cold := x } = outside s := rfl
@[simp] theorem outside_sec (x : Sec) : outside { s with sec := x } = outside s := rfl

@[simp] theorem outside_foldl {α : Type} {f : State → α → State} (h : ∀ u x, outside (f u x) = outside u) (l : List α) : outside (l.foldl f s) = outside s :=
  foldl_same outside h l s

/-! ## Shared operations -/

@[simp] theorem outside_tick (t : Nat) : outside (tick t s) = outside s := rfl

@[simp] theorem outside_bumpBy (k n : Nat) : outside (bumpBy k n s) = outside s :=
  VersionUnits.bumpBy_same outside (fun _ _ => rfl) (fun _ _ => rfl) (fun _ _ => rfl) k n s

@[simp] theorem outside_bump (k : Nat) : outside (bump k s) = outside s := outside_bumpBy k 1

@[simp] theorem outside_logEvent (code severity unit : Nat) (detail : Bytes) : outside (logEvent code severity unit detail s) = outside s := by
  unfold logEvent
  split
  · rfl
  · exact outside_bump ..

@[simp] theorem outside_emit (o : Out) : outside (emit o s) = outside s := by
  unfold emit
  split <;> rfl

@[simp] theorem outside_releaseCopies (seq : Nat) : outside (releaseCopies seq s) = outside s := rfl

@[simp] theorem outside_updCmd (seq : Nat) (f : Cmd → Cmd) : outside (updCmd seq f s) = outside s := rfl

@[simp] theorem outside_updHead (id : Nat) (f : Head → Head) : outside (updHead id f s) = outside s := rfl

@[simp] theorem outside_startStream (seq : Nat) : outside (startStream seq s) = outside s :=
  VersionUnits.startStream_same outside (fun k n _ => outside_bumpBy k n) (fun _ _ => rfl) (fun _ _ => rfl) seq s

@[simp] theorem outside_askPages (seq : Nat) (l : List Promotion) : outside (askPages seq l s) = outside s :=
  outside_foldl (fun _ _ => VersionUnits.requestPages_same outside (fun k n _ => outside_bumpBy k n) (fun _ _ => rfl) ..) l

/-- A completion leaves the memory and the collections; its output goes to the host. -/
@[simp] theorem outside_finish (seq : Nat) (comp : Comp) (out : Bytes) : outside (finish seq comp out s) = outside s := by
  have hwritten : ∀ (o : Out) (b : Bool), outside (if b = true then s else emit o s) = outside s := fun o b => by
    split
    · rfl
    · exact outside_emit o
  unfold finish
  split
  · rfl
  · dsimp only
    split <;> exact hwritten _ _

@[simp] theorem outside_fail (seq status : Nat) : outside (fail seq status s) = outside s := outside_finish ..

@[simp] theorem outside_failWith (seq : Nat) (x : Nat × Nat) : outside (failWith seq x s) = outside s := outside_finish ..

@[simp] theorem outside_succeed (seq info : Nat) (out : Bytes) : outside (succeed seq info out s) = outside s := outside_finish ..

@[simp] theorem outside_failInput (seq : Nat) (x : Nat × Nat) : outside (failInput seq x s) = outside s := by
  unfold failInput
  split <;> exact outside_finish ..

@[simp] theorem outside_malformed : outside (malformed s) = outside s := outside_bump ..

/-! ## Messages -/

@[simp] theorem outside_sendSpp (peer type : Nat) (b : Bytes) : outside (sendSpp peer type b s) = outside s := by
  have hflush : ∀ (n : Nat) (v : State), outside (flushGo peer n v) = outside v := fun n => by
    induction n with
    | zero => exact fun _ => rfl
    | succ n ih =>
      intro v
      unfold flushGo
      split
      · split
        · exact (ih _).trans (outside_emit _)
        · rfl
      · rfl
  exact hflush _ _

@[simp] theorem outside_sendAll (peers : List Nat) (type : Nat) (b : Bytes) : outside (sendAll peers type b s) = outside s :=
  Flights.sendAll_same outside (fun _ _ _ _ => outside_sendSpp ..) ..

@[simp] theorem outside_sendAbort (type : Nat) (h : Head) (mb step cause : Nat) (digest : Option Nat) :
    outside (sendAbort type h mb step cause digest s) = outside s :=
  Flights.sendAbort_same outside (fun _ _ _ _ => outside_sendSpp ..) ..

@[simp] theorem outside_abortLocal (h : Head) (f : MemFwd) : outside (abortLocal h f s) = outside s := outside_sendAbort ..

@[simp] theorem outside_abortBwd (h : Head) (b : MemBwd) : outside (abortBwd h b s) = outside s := outside_sendAbort ..

@[simp] theorem outside_sendPartials (h : Head) (f : MemFwd) : outside (sendPartials h f s) = outside s :=
  Flights.sendPartials_same outside (fun _ _ _ _ => outside_sendSpp ..) ..

@[simp] theorem outside_sendDw (h : Head) (b : MemBwd) : outside (sendDw h b s) = outside s :=
  Flights.sendDw_same outside (fun _ _ _ _ => outside_sendSpp ..) ..

@[simp] theorem outside_sendRed (u : Update) (l : List RedSend) : outside (sendRed u l s) = outside s :=
  outside_foldl (fun _ _ => outside_sendSpp ..) l

@[simp] theorem outside_sendOthers (u : Update) (type : Nat) (b : Bytes) : outside (sendOthers u type b s) = outside s := outside_sendRed ..

@[simp] theorem outside_keepEarly (head peer type : Nat) (b : Bytes) : outside (keepEarly head peer type b s) = outside s := by
  unfold keepEarly
  split <;> rfl

@[simp] theorem outside_dropEarly (types : List Nat) (head step mb : Nat) : outside (dropEarly types head step mb s) = outside s := rfl

@[simp] theorem outside_dropRedEarly (head step : Nat) : outside (dropRedEarly head step s) = outside s := rfl

/-! ## Tiles in HBM -/

/-- A scratchpad bank lies outside what is left alone. -/
@[simp] theorem outside_takeBanks (c : Cmd) : outside (takeBanks c s) = outside s := by
  unfold takeBanks
  dsimp only
  split
  · rfl
  · split
    · rfl
    · exact outside_bump ..

@[simp] theorem outside_dropStash (head : Nat) (gone : StashMb → Bool) : outside (dropStash head gone s) = outside s := by
  unfold dropStash
  split <;> rfl

@[simp] theorem outside_releaseStash (head step mb : Nat) : outside (releaseStash head step mb s) = outside s := outside_dropStash ..

theorem outside_fenced {u : State} (h : outside u = outside s) : u.hbm.fenced = s.hbm.fenced := congrArg Prod.fst h

/-- A fold whose steps leave it alone while a channel is fenced does so. -/
theorem outside_foldl_fenced {α : Type} {f : State → α → State} (h : ∀ u x, u.hbm.fenced ≠ [] → outside (f u x) = outside u) (l : List α)
    (hfenced : s.hbm.fenced ≠ []) : outside (l.foldl f s) = outside s := by
  induction l generalizing s with
  | nil => rfl
  | cons x r ih =>
    have hx := h s x hfenced
    exact (ih (by rwa [outside_fenced hx])).trans hx

/-- With a fenced channel, the collections are no part of what is left alone. -/
theorem outside_search (x : Search) (hfenced : s.hbm.fenced ≠ []) : outside { s with search := x } = outside s := by
  simp only [outside, if_neg hfenced]

theorem outside_hurtWork (seq : Nat) (hfenced : s.hbm.fenced ≠ []) : outside (hurtWork seq s) = outside s :=
  outside_search (s := { s with mem := _ }) _ hfenced

/-- What hurts an object changes collections and queries, and memory heads and plans; a channel is fenced. -/
theorem outside_hurtObject (o : MediaObj) (hfenced : s.hbm.fenced ≠ []) : outside (hurtObject o s) = outside s := by
  cases o with
  | partition | append | tree | fullVec => exact outside_search _ hfenced
  | planTile => exact outside_foldl_fenced (fun _ q hu => outside_hurtWork q hu) _ hfenced
  | working seq => exact outside_hurtWork seq hfenced
  | stash => exact outside_releaseStash ..
  | valueBlock | replicated | training | plan | tombTable | level => rfl

theorem outside_hurtTile (channel : Nat) (t : HbmTile) (hfenced : s.hbm.fenced ≠ []) : outside (hurtTile channel s t) = outside s := by
  have hslot : ∀ slot, outside (hurtSlot channel slot s) = outside s := fun slot => by
    unfold hurtSlot
    split
    · rfl
    · split <;> exact outside_hurtObject (s := { s with hbm := { s.hbm with hurt := _ } }) _ hfenced
  unfold hurtTile
  split
  · rfl
  · exact hslot _

/-- A tile that takes its place is hurt by the fenced channels alone. -/
@[simp] theorem outside_placeTile (n : TileNeed) : outside (placeTile s n) = outside s := by
  unfold placeTile
  split
  · rfl
  · split
    · rfl
    · dsimp only
      by_cases hfenced : s.hbm.fenced = []
      · have hnone : ∀ (g : State → Nat → State) (v : State), s.hbm.fenced.foldl g v = v := fun g v => by rw [hfenced]; rfl
        rw [hnone]
        exact outside_rest s
      · exact (outside_foldl_fenced (fun _ c hu => outside_hurtTile c _ hu) _ (by exact hfenced)).trans (outside_rest s)

@[simp] theorem outside_placeTiles : outside (placeTiles s) = outside s :=
  (outside_foldl (fun _ _ => outside_placeTile _) _).trans (outside_rest s)

@[simp] theorem outside_touchBytes (dirty : Bool) (obj : MediaObj) (at_ n : Nat) : outside (touchBytes dirty obj at_ n s) = outside s := by
  have hline : ∀ (u : State) (x : Nat × Nat), outside (useLine dirty u x) = outside u := fun u x => by
    unfold useLine
    dsimp only
    split
    · rfl
    · split <;> rfl
  unfold touchBytes
  split
  · rfl
  · exact outside_foldl hline _

@[simp] theorem outside_touchRows (v : Head) (slots : List Nat) : outside (touchRows v slots s) = outside s :=
  (outside_foldl (fun _ _ => outside_touchBytes ..) _).trans outside_placeTiles

@[simp] theorem outside_touchAccums (h : Head) (adds : List Accum) : outside (touchAccums h adds s) = outside s :=
  (outside_foldl (fun _ _ => outside_touchBytes ..) _).trans outside_placeTiles

/-! ## What the codes find (12 R285, 19 R437) -/

/-- Words of cluster memory are counted and recorded. -/
theorem outside_guarded {x : Upsets} (hcalm : x.calm = true) : outside (guarded x s) = outside s := by
  obtain ⟨hbursts, hwords⟩ : x.bursts.isEmpty = true ∧ x.words.all (·.unit < 32) = true := by simpa [Upsets.calm] using hcalm
  exact guarded_same outside (fun k n _ => outside_bumpBy k n) (fun a b c d _ => outside_logEvent a b c d) x s (List.isEmpty_iff.mp hbursts)
    fun w hw => .inl (by simpa using List.all_eq_true.mp hwords w hw)

@[simp] theorem outside_codeFails (c : Cmd) (m : CodeMismatch) : outside (codeFails c m s) = outside s := by
  have hreset : ∀ (cause : Nat) (v : State), outside (beginReset cause v) = outside v := fun cause v => by
    unfold beginReset
    split
    · rfl
    · exact outside_logEvent ..
  exact (hreset ..).trans (outside_logEvent ..)

/-! ## The end of a command and the exchanges (10 R231, 11 R264) -/

@[simp] theorem outside_endMem (seq : Nat) (comp : Comp) (out : Bytes) : outside (endMem seq comp out s) = outside s := by
  unfold endMem dropMem
  split <;> simp

@[simp] theorem outside_endMismatch (seq : Nat) : outside (endMismatch seq s) = outside s := by simp [endMismatch, endMemWith]

@[simp] theorem outside_endAborted (seq : Nat) (valid : Bool) (theirs own : Nat) : outside (endAborted seq valid theirs own s) = outside s := by
  unfold endAborted
  split
  · exact outside_endMismatch seq
  · exact outside_endMem ..

@[simp] theorem outside_failGroup (group module : Nat) : outside (failGroup group module s) = outside s := by
  have hends : ∀ (l : List Nat) (v : State), outside (l.foldl (fun u q => endMemWith q Status.groupUnavailable module u) v) = outside v :=
    fun l v => outside_foldl (fun _ _ => outside_endMem ..) l
  unfold failGroup
  dsimp only
  rw [hends]
  split <;> rfl

@[simp] theorem outside_declareFailed (h : Head) (module cause step : Nat) (ring : Option (Nat × List Nat)) :
    outside (declareFailed h module cause step ring s) = outside s := by
  unfold declareFailed
  dsimp only
  rw [outside_failGroup, outside_mem, outside_logEvent, outside_bump]
  cases ring <;> simp

@[simp] theorem outside_releaseAfter (seq code : Nat) : outside (releaseAfter seq code s) = outside s := by
  unfold releaseAfter
  split
  · rfl
  · split
    · split <;> rfl
    · rfl

@[simp] theorem outside_writeRows (seq width : Nat) (fmt : Fmt) (rows : List (Nat × List Nat)) : outside (writeRows seq width fmt rows s) = outside s := by
  unfold writeRows
  split
  · rfl
  · exact outside_foldl (fun _ _ => outside_emit _) _

/-! ## Forwards (10 R217 to R232) -/

@[simp] theorem outside_updFwd (seq : Nat) (f : MemFwd → MemFwd) : outside (updFwd seq f s) = outside s := rfl

@[simp] theorem outside_ringCopy (old new : Head) : outside (ringCopy old new s) = outside s := by
  unfold ringCopy
  split <;> rfl

@[simp] theorem outside_dropMem (seq : Nat) : outside (dropMem seq s) = outside s := rfl

/-- A forward that has all it waits for writes its rows and ends its command. -/
@[simp] theorem outside_fwdEnds (h : Head) (f : MemFwd) : outside (fwdEnds h f s) = outside s := by
  unfold fwdEnds
  split
  · simp [endIncomplete]
  · simp [fwdSucceeds, apply_ite outside]

@[simp] theorem outside_advanceFwd (seq : Nat) : outside (advanceFwd seq s) = outside s := by
  obtain ⟨v, hv, hends⟩ := Flights.advanceFwd_cases seq s
  have hsaid : outside v = outside s := by obtain rfl | ⟨_, _, _, rfl⟩ := hv <;> simp
  obtain hstays | ⟨h, g, -, hends⟩ := hends
  · rw [hstays, hsaid]
  · rw [hends, outside_fwdEnds, hsaid]

@[simp] theorem outside_advanceFwds (head : Nat) : outside (advanceFwds head s) = outside s := outside_foldl (fun _ _ => outside_advanceFwd _) _

@[simp] theorem outside_takePartial (peer : Nat) (b : Bytes) (f : MemFwd) : outside (takePartial peer b f s) = outside s := by
  unfold takePartial
  dsimp only
  split
  · rfl
  · split
    · simp
    · split <;> simp [apply_ite outside]

@[simp] theorem outside_repeatFwd (attempt : Nat) (f : MemFwd) : outside (repeatFwd attempt f s) = outside s := by
  unfold repeatFwd
  split
  · rfl
  · simp [apply_ite outside]

@[simp] theorem outside_fwdMessage (f : MemFwd) (e : Early) : outside (fwdMessage f e s) = outside s := by
  simp [fwdMessage, apply_ite outside]

@[simp] theorem outside_fwdDeliver (e : Early) : outside (fwdDeliver e s) = outside s := by
  unfold fwdDeliver
  dsimp only
  split <;> simp

@[simp] theorem outside_fwdControl (type peer : Nat) (b : Bytes) : outside (fwdControl type peer b s) = outside s := by
  simp [fwdControl, apply_ite outside]

@[simp] theorem outside_replayFwd (seq : Nat) : outside (replayFwd seq s) = outside s := by
  unfold replayFwd
  split
  · rfl
  · refine (outside_foldl (fun u e => ?_) _).trans (outside_dropEarly ..)
    split
    · exact outside_fwdMessage ..
    · rfl

@[simp] theorem outside_fwdReads (seq : Nat) : outside (fwdReads seq s) = outside s := by
  have hstart : ∀ v : State, outside (startExchange seq v) = outside v := fun v => by
    unfold startExchange
    split
    · rfl
    · split <;> simp
  unfold fwdReads
  split
  · rfl
  · split
    · rfl
    · simp [hstart]

@[simp] theorem outside_putRowScales (head plan : Nat) (scales : List Nat) : outside (putRowScales head plan scales s) = outside s := rfl

@[simp] theorem outside_runForward (seq : Nat) : outside (runForward seq s) = outside s := by
  unfold runForward
  split
  · split
    · simp [apply_ite outside]
    · rfl
  · rfl

@[simp] theorem outside_bankForward (seq : Nat) : outside (bankForward seq s) = outside s := by
  unfold bankForward
  split
  · rfl
  · simp [apply_ite outside]

@[simp] theorem outside_reserveFwd (h : Head) (p : Plan) (f : MemFwd) : outside (reserveFwd h p f s) = outside s := by
  simp [reserveFwd, apply_ite outside]

@[simp] theorem outside_forwardNow (seq : Nat) (c : Cmd) (h : Head) (p : Plan) (b : Bytes) (media : List Nat) :
    outside (forwardNow seq c h p b media s) = outside s := by
  have hrefuse : ∀ (f : MemFwd) (x : Comp), outside (refuseFwd h f x s) = outside s := fun f x => by simp [refuseFwd, apply_ite outside]
  unfold forwardNow
  split
  · exact outside_failWith ..
  · split
    · simp [apply_ite outside]
    · split
      · exact outside_succeed ..
      · dsimp only
        split
        · exact hrefuse ..
        · simp

@[simp] theorem outside_seeForward (c : Cmd) (h : Head) (b : Bytes) : outside (seeForward c h b s) = outside s := by
  unfold seeForward
  split <;> rfl

@[simp] theorem outside_stallForward (c : Cmd) : outside (stallForward c s) = outside s := by
  simp [stallForward, apply_ite outside]

@[simp] theorem outside_endStall (c : Cmd) : outside (endStall c s) = outside s := by
  unfold endStall
  split <;> simp

/-! ## Backwards (11 R237 to R250) -/

@[simp] theorem outside_updBwd (seq : Nat) (f : MemBwd → MemBwd) : outside (updBwd seq f s) = outside s := rfl

@[simp] theorem outside_updStep (head step : Nat) (f : BwdStep → BwdStep) : outside (updStep head step f s) = outside s := rfl

@[simp] theorem outside_foldForRoom (h : Head) (p : Plan) (step n : Nat) : outside (foldForRoom h p step n s) = outside s := by
  simp [foldForRoom, earlyFold, apply_ite outside]

@[simp] theorem outside_closeGrad (h : Head) : outside (closeGrad h s) = outside s := by
  unfold closeGrad
  dsimp only
  split
  · rfl
  · split <;> rfl

@[simp] theorem outside_bwdEnds (h : Head) (b : MemBwd) : outside (bwdEnds h b s) = outside s := by
  have hsucceeds : ∀ v : State, outside (bwdSucceeds h b v) = outside v := fun v => by
    unfold bwdSucceeds
    split
    · dsimp only
      rw [outside_finish, outside_dropMem, outside_bumpBy]
      split <;> simp [apply_ite outside]
    · simp [endMemWith]
  unfold bwdEnds
  split
  · simp [endIncomplete]
  · simp [hsucceeds]

@[simp] theorem outside_advanceBwd (seq : Nat) : outside (advanceBwd s seq) = outside s := by
  obtain ⟨v, hv, hends⟩ := Flights.advanceBwd_cases seq s
  have hsaid : outside v = outside s := by obtain rfl | ⟨_, _, _, rfl⟩ := hv <;> simp
  obtain hstays | ⟨h, g, -, hends⟩ := hends
  · rw [hstays, hsaid]
  · rw [hends, outside_bwdEnds, hsaid]

@[simp] theorem outside_advanceBwds (head : Nat) : outside (advanceBwds head s) = outside s := outside_foldl (fun _ _ => outside_advanceBwd _) _

@[simp] theorem outside_takeDw (peer : Nat) (b : Bytes) (w : MemBwd) : outside (takeDw peer b w s) = outside s := by
  unfold takeDw
  dsimp only
  split
  · rfl
  · split
    · simp
    · split
      · simp
      · split <;> simp [apply_ite outside]

@[simp] theorem outside_repeatBwd (attempt : Nat) (b : MemBwd) : outside (repeatBwd attempt b s) = outside s := by
  unfold repeatBwd
  split
  · rfl
  · simp [apply_ite outside]

@[simp] theorem outside_bwdMessage (b : MemBwd) (e : Early) : outside (bwdMessage b e s) = outside s := by
  simp [bwdMessage, apply_ite outside]

@[simp] theorem outside_bwdDeliver (e : Early) : outside (bwdDeliver e s) = outside s := by
  unfold bwdDeliver
  dsimp only
  split <;> simp

@[simp] theorem outside_bwdControl (type peer : Nat) (b : Bytes) : outside (bwdControl type peer b s) = outside s := by
  simp [bwdControl, apply_ite outside]

@[simp] theorem outside_replayBwd (seq : Nat) : outside (replayBwd seq s) = outside s := by
  unfold replayBwd
  split
  · rfl
  · refine (outside_foldl (fun u e => ?_) _).trans (outside_dropEarly ..)
    split
    · exact outside_bwdMessage ..
    · rfl

@[simp] theorem outside_enterGrad (h : Head) (p : Plan) (step : Nat) : outside (enterGrad h p step s) = outside s := by
  have hopen : ∀ v : State, outside (openGrad h.id p step v) = outside v := fun _ => rfl
  unfold enterGrad
  split
  · exact hopen s
  · simp [hopen, apply_ite outside]

@[simp] theorem outside_bwdReads (seq : Nat) : outside (bwdReads seq s) = outside s := by
  have hstart : ∀ v : State, outside (startDw seq v) = outside v := fun v => by
    unfold startDw
    split
    · rfl
    · split <;> simp
  unfold bwdReads
  split
  · rfl
  · split
    · rfl
    · simp [hstart]

@[simp] theorem outside_runBackward (seq : Nat) (h v : Head) (p : Plan) (x : StashMb) : outside (runBackward seq h v p x s) = outside s := by
  unfold runBackward
  split
  · rfl
  · dsimp only
    split
    · simp
    · simp [apply_ite outside]

@[simp] theorem outside_refuseBwd (h : Head) (b : MemBwd) (c : Comp) : outside (refuseBwd h b c s) = outside s := by
  simp [refuseBwd, apply_ite outside]

/-! ## Updates (11 R252 to R262) -/

@[simp] theorem outside_setUpd (u : Update) : outside (setUpd u s) = outside s := rfl

@[simp] theorem outside_beginAttempt (attempt : Nat) (u : Update) : outside (beginAttempt attempt u s) = outside s := outside_sendRed ..

@[simp] theorem outside_releaseStep (h : Head) (step : Nat) : outside (releaseStep s h step) = outside s := by
  unfold releaseStep
  dsimp only
  split
  · refine outside_foldl (fun u t => ?_) _
    simp [apply_ite outside]
  · simp [apply_ite outside]

@[simp] theorem outside_endUpdate (u : Update) (h : Head) (comp : Comp) (out : Bytes) : outside (endUpdate u h comp out s) = outside s := by
  simp [endUpdate]

@[simp] theorem outside_updateRows (b : Bytes) (h : Head) (table : List (Nat × List Nat)) : outside (updateRows b h table s) = outside s := by
  have hnarrow : ∀ (m : Master) (v : State), outside (renarrow h.id m v) = outside v := fun m v => by
    unfold renarrow
    split
    · rfl
    · simp [apply_ite outside]
  have hrow : ∀ (v : State) (g : Nat × List Nat), outside (updateRow b h.id v g) = outside v := fun v g => by
    unfold updateRow
    split
    · rfl
    · simp [hnarrow]
  unfold updateRows
  split
  · rfl
  · exact outside_foldl hrow table

@[simp] theorem outside_chainExtend (kind id : Nat) (unit : Bytes) : outside (chainExtend kind id unit s) = outside s := rfl

@[simp] theorem outside_dirtyPages (back : Bool) (pages : List Nat) : outside (dirtyPages back pages s) = outside s := rfl

@[simp] theorem outside_discardStash (ids : List Nat) (order : Nat) : outside (discardStash ids order s) = outside s :=
  outside_foldl (fun _ _ => outside_dropStash ..) ids

@[simp] theorem outside_applyUpdate (u : Update) (h : Head) : outside (applyUpdate u h s) = outside s := by simp [applyUpdate]

@[simp] theorem outside_runBuckets (u : Update) : outside (runBuckets u s).2 = outside s := by simp [runBuckets]

@[simp] theorem outside_runSamples (u : Update) : outside (runSamples u s).2 = outside s := outside_foldl (fun _ _ => outside_sendOthers ..) _

@[simp] theorem outside_runVerdict (u : Update) : outside (runVerdict u s).2 = outside s := by
  have hlogs : outside (logMismatches u s) = outside s := outside_foldl (fun _ _ => by simp) _
  unfold runVerdict
  split
  · rfl
  · exact (outside_sendOthers ..).trans hlogs

@[simp] theorem outside_advanceUpd (n seq : Nat) : outside (advanceUpd n seq s) = outside s := by
  induction n generalizing s with
  | zero => rfl
  | succ n ih =>
    unfold advanceUpd
    split
    · rfl
    · split
      · rfl
      · dsimp only
        split_ifs <;> simp [ih]

@[simp] theorem outside_repeatUpd (attempt : Nat) (u : Update) : outside (repeatUpd attempt u s) = outside s := by simp [repeatUpd]

@[simp] theorem outside_runUpdate (seq : Nat) (h : Head) (p : Plan) (b : Bytes) (lost : List Nat) : outside (runUpdate seq h p b lost s) = outside s := by
  simp [runUpdate, apply_ite outside]

@[simp] theorem outside_redDeliver (peer type : Nat) (b : Bytes) : outside (redDeliver peer type b s) = outside s := by
  unfold redDeliver
  split
  · exact outside_malformed
  · split
    · simp [apply_ite outside]
    · simp [apply_ite outside]

@[simp] theorem outside_failUpdate (seq : Nat) (h : Head) (x : Nat × Nat) : outside (failUpdate seq h x s) = outside s := by
  simp [failUpdate, apply_ite outside]

/-! ## Commands and messages -/

/-- Where a transition goes on, it leaves the outside alone. -/
def StaysInside (s : State) (r : Res) : Prop := ∀ u, r = .next u → outside u = outside s

theorem StaysInside.next {u : State} (h : outside u = outside s) : StaysInside s (.next u) := by
  rintro _ ⟨⟩
  exact h

theorem execMemlayerFwd_inside {seq : Nat} {b : Bytes} {x : Upsets} {t : Nat} (hcalm : x.calm = true) : StaysInside s (execMemlayerFwd seq b x t s) := by
  unfold execMemlayerFwd
  dsimp only
  split
  · exact .next rfl
  · split
    · exact .next (outside_fail ..)
    · split
      · split
        · exact .next (by simp)
        · split
          · exact .next (by simp)
          · split
            · exact .next (by simp [outside_guarded hcalm])
            · exact .next (by simp [outside_guarded hcalm])
      · exact .next rfl

theorem execMemlayerBwd_inside {run : CmdRun} {b : Bytes} {t : Nat} (hcalm : run.upsets.calm = true) : StaysInside s (execMemlayerBwd run b t s) := by
  have hroom : ∀ (x : Option StashMb) (h : Head) (p : Plan) (step : Nat) (v : State),
      outside (match x with | some y => if y.ready = true then foldForRoom h p step (ownedUses v h y) v else v | none => v) = outside v := fun x h p step v => by
    split
    · simp [apply_ite outside]
    · rfl
  have hnoted : ∀ (c : Cmd) (id : Nat) (f : Head → Head), outside (updHead id f (guarded run.upsets (takeBanks c (tick t s)))) = outside s := fun c id f => by
    simp [outside_guarded hcalm]
  unfold execMemlayerBwd
  dsimp only
  split
  · exact .next rfl
  · split
    · exact .next (outside_fail ..)
    · split
      · split
        · exact .next rfl
        · split
          · exact .next (outside_failWith ..)
          · split
            · exact .next (by simp [apply_ite outside])
            · split
              · exact .next (outside_succeed ..)
              · split
                · exact .next (outside_takeBanks _)
                · split
                  · cases run.upsets.codes.second <;> exact .next (by simp [outside_guarded hcalm])
                  · split
                    · exact .next ((outside_advanceBwds _).trans ((outside_refuseBwd ..).trans ((hroom ..).trans (hnoted ..))))
                    · exact .next ((hroom ..).trans (hnoted ..))
                    · refine .next ((outside_replayBwd _).trans ((outside_runBackward ..).trans ((outside_startStream _).trans ?_)))
                      exact (hroom ..).trans (hnoted ..)
      · exact .next rfl

theorem execMemlayerUpdate_inside {run : CmdRun} {b : Bytes} {t : Nat} (hcalm : run.upsets.calm = true) : StaysInside s (execMemlayerUpdate run b t s) := by
  unfold execMemlayerUpdate
  dsimp only
  split
  · exact .next rfl
  · split
    · exact .next (outside_fail ..)
    · split
      · split
        · exact .next rfl
        · split
          · exact .next (outside_failWith ..)
          · split
            · exact .next (outside_failUpdate ..)
            · split
              · exact .next (outside_succeed ..)
              · split
                · exact .next (outside_takeBanks _)
                · split
                  · cases run.upsets.codes.second <;> exact .next (by simp [outside_guarded hcalm])
                  · split
                    · exact .next (by simp [apply_ite outside, outside_guarded hcalm])
                    · split <;> exact .next (by simp [apply_ite outside, outside_guarded hcalm])
      · exact .next rfl

theorem execStashHoldRelease_inside {seq t : Nat} : StaysInside s (execStashHoldRelease seq t s) := by
  unfold execStashHoldRelease
  dsimp only
  split
  · split
    · exact .next rfl
    · split <;> exact .next (by simp)
  · exact .next rfl

theorem execStashWaitTimeout_inside {seq t : Nat} : StaysInside s (execStashWaitTimeout seq t s) := by
  unfold execStashWaitTimeout
  dsimp only
  split
  · exact .next rfl
  · split
    · exact .next rfl
    · split <;> exact .next (by simp)

theorem execFwdExchangeTimeout_inside {seq t : Nat} : StaysInside s (execFwdExchangeTimeout seq t s) := by
  unfold execFwdExchangeTimeout
  dsimp only
  split
  · exact .next rfl
  · split
    · exact .next rfl
    · split
      · exact .next (by simp)
      · split_ifs <;> exact .next (by simp)

theorem execBwdExchangeTimeout_inside {seq t : Nat} : StaysInside s (execBwdExchangeTimeout seq t s) := by
  unfold execBwdExchangeTimeout
  dsimp only
  split
  · exact .next rfl
  · split
    · exact .next rfl
    · split
      · exact .next (by simp)
      · split_ifs <;> exact .next (by simp)

theorem execReduceTimeout_inside {seq t : Nat} : StaysInside s (execReduceTimeout seq t s) := by
  unfold execReduceTimeout
  dsimp only
  split
  · exact .next rfl
  · split
    · split_ifs <;> exact .next (by simp)
    · exact .next rfl

theorem execMemberFailed_inside {peer t : Nat} {b : Bytes} : StaysInside s (execMemberFailed peer b t s) := by
  unfold execMemberFailed
  dsimp only
  split
  · exact .next (by simp)
  · exact .next (by simp [apply_ite outside])

theorem execMemberDegraded_inside {peer : Nat} {b : Bytes} : StaysInside s (execMemberDegraded peer b s) := by
  unfold execMemberDegraded
  dsimp only
  split
  · exact .next outside_malformed
  · exact .next (by simp [apply_ite outside])

/-- Every command and message of the memory layer. -/
theorem exec_inside {c : Instr} (hrow : layerRow c = true) : StaysInside s (exec c s) := by
  cases c with
  | memlayerFwd seq b x t => exact execMemlayerFwd_inside hrow
  | memlayerBwd run b t => exact execMemlayerBwd_inside hrow
  | memlayerUpdate run b t => exact execMemlayerUpdate_inside hrow
  | stashHoldRelease seq t => exact execStashHoldRelease_inside
  | stashWaitTimeout seq t => exact execStashWaitTimeout_inside
  | fwdExchangeTimeout seq t => exact execFwdExchangeTimeout_inside
  | bwdExchangeTimeout seq t => exact execBwdExchangeTimeout_inside
  | reduceTimeout seq t => exact execReduceTimeout_inside
  | memberFailed peer b t => exact execMemberFailed_inside (peer := peer)
  | memberDegraded peer b => exact execMemberDegraded_inside (peer := peer)
  | memfwdPartial peer b t => exact .next (by simp [apply_ite outside])
  | membwdDw peer b t => exact .next (by simp [apply_ite outside])
  | memfwdDone peer b t | memfwdRepeat peer b t | memfwdAbort peer b t => exact .next (outside_fwdControl ..)
  | membwdDone peer b t | membwdRepeat peer b t | membwdAbort peer b t => exact .next (outside_bwdControl ..)
  | reduceAmax peer b t | reducePartial peer b t | reduceResult peer b t | reduceSample peer b t | reduceRepeat peer b t | updateVerdict peer b t =>
    exact .next (outside_redDeliver ..)
  | _ => cases hrow

/-- Settles O8: `outside` holds what the statement names, and each operation of a memory-layer command or message leaves it. -/
theorem memoryLayersLeaveTheCollectionsAlone : Obligations.MemoryLayersLeaveTheCollectionsAlone := by
  intro c s u hrow hexec
  have hsame := exec_inside hrow u hexec
  simp only [outside, Prod.mk.injEq] at hsame
  obtain ⟨hfenced, hsearch, hdap, hsettings, hpending⟩ := hsame
  refine ⟨fun hnone => ?_, hdap, hsettings, hpending⟩
  rw [hfenced, if_pos hnone, if_pos hnone] at hsearch
  exact Option.some.inj hsearch

end Sys2Proof.LayerFrame
end

section
/-! SUPPORT. Memory heads and the writes of their tensors (10 R206 to R210; 15 R361 to R363). -/

namespace Sys2Proof.HeadTensors

open Machine Laws

variable {s : State} {seq : Nat} {b : Bytes} {c : Cmd} {h : Head}

/-! ## Ordered lists -/

theorem find_insertBy {α : Type} {p : α → Bool} {x : α} (le : α → α → Bool) {l : List α} (hx : p x = true) (hl : l.find? p = none) :
    (insertBy le x l).find? p = some x := by
  induction l with
  | nil => simp [insertBy, hx]
  | cons y r ih =>
    obtain ⟨hy, hr⟩ : p y = false ∧ r.find? p = none := by
      rw [List.find?_cons] at hl
      split at hl
      · cases hl
      · exact ⟨by assumption, hl⟩
    unfold insertBy
    split
    · simp [hx]
    · rw [List.find?_cons_of_neg (by simp [hy])]
      exact ih hr

theorem find_insertBy_ne {α : Type} {p : α → Bool} {x : α} (le : α → α → Bool) (hx : p x = false) (l : List α) :
    (insertBy le x l).find? p = l.find? p := by
  induction l with
  | nil => simp [insertBy, hx]
  | cons y r ih =>
    unfold insertBy
    split
    · exact List.find?_cons_of_neg (by simp [hx])
    · rw [List.find?_cons, List.find?_cons, ih]

/-! ## What a head holds of a tensor -/

@[simp] theorem headTile_setTile (t : Nat) (b : Bytes) (h : Head) : headTile (setTile t b h) t = b := by
  have hnone : (h.tiles.filter (·.1 ≠ t)).find? (fun x => x.1 == t) = none := by
    rw [List.find?_eq_none]
    intro x hx
    simpa using (List.mem_filter.1 hx).2
  unfold headTile setTile
  rw [find_insertBy _ (by simp) hnone]
  rfl

theorem headRow_setRow (t r : Nat) (b : Bytes) (h : Head) : headRow (setRow t r b h) t r = b := by
  have hnone : (h.rows.filter fun x => !(x.1 == t && x.2.1 == r)).find? (fun x => x.1 == t && x.2.1 == r) = none := by
    rw [List.find?_eq_none]
    intro x hx
    simpa [imp_iff_not_or] using (List.mem_filter.1 hx).2
  unfold headRow setRow
  rw [find_insertBy _ (by simp) hnone]
  rfl

theorem headRow_setRow_ne {r q : Nat} (hr : r ≠ q) (t : Nat) (b : Bytes) (h : Head) : headRow (setRow t r b h) t q = headRow h t q := by
  have hleft : (h.rows.filter fun x => !(x.1 == t && x.2.1 == r)).find? (fun x => x.1 == t && x.2.1 == q) = h.rows.find? fun x => x.1 == t && x.2.1 == q := by
    rw [List.find?_filter]
    congr 1
    funext x
    grind
  unfold headRow setRow
  rw [find_insertBy_ne _ (by simp [hr]), hleft]

/-! ## What the parts of a write leave -/

/-- The front end and the writes in flight, which the storage of tensors leaves. -/
def kept (s : State) : Ahp × List HeadWrite := (s.ahp, s.mem.writes)

@[simp] theorem kept_updHead (id : Nat) (f : Head → Head) : kept (updHead id f s) = kept s := rfl

@[simp] theorem kept_dropStash (head : Nat) (gone : StashMb → Bool) : kept (dropStash head gone s) = kept s := by
  unfold dropStash
  split <;> rfl

theorem kept_tensorWritten (h : Head) (t n order : Nat) (b : Bytes) (s : State) : kept (tensorWritten h t n order b s) = kept s := by
  have hdiscard : ∀ (ids : List Nat) (v : State), kept (discardStash ids order v) = kept v := foldl_same kept fun _ _ => kept_dropStash ..
  have hchain : ∀ v : State, kept (chainUnits h t b v) = kept v := foldl_same kept (f := fun u x => chainExtend 2 h.id x u) (fun _ _ => rfl) _
  have hbypass : ∀ (p : MediaObj → Bool) (v : State), kept (bypassWrite p v) = kept v := fun p v => by
    unfold bypassWrite
    split <;> rfl
  exact (hdiscard ..).trans ((hchain _).trans (hbypass ..))

theorem kept_renarrow (id : Nat) (m : Master) (s : State) : kept (renarrow id m s) = kept s := by
  unfold renarrow
  split
  · rfl
  · dsimp only
    split
    · simp [kept, updHead]
    · rfl

theorem kept_renarrowAll (id : Nat) (s : State) : kept (renarrowAll id s) = kept s := by
  unfold renarrowAll
  split
  · rfl
  · split
    · exact foldl_same kept (fun u m => kept_renarrow id m u) _ _
    · rfl

theorem kept_storeTile (id t : Nat) (b : Bytes) (s : State) : kept (storeTile id t b s) = kept s := by
  unfold storeTile
  dsimp only
  split
  · exact (kept_renarrowAll ..).trans (kept_updHead ..)
  · exact kept_updHead ..

theorem kept_storeRow (id t row : Nat) (b : Bytes) (s : State) : kept (storeRow id t row b s) = kept s := by
  unfold storeRow
  split
  · rfl
  · split
    · rfl
    · dsimp only
      split <;> rfl

theorem kept_landTile (h : Head) (t order : Nat) (landed unit : Bytes) (last : Bool) (s : State) : kept (landTile h t order landed unit last s) = kept s := by
  unfold landTile
  dsimp only
  rw [kept_tensorWritten]
  split
  · exact kept_storeTile ..
  · rfl

theorem kept_landRows (h : Head) (t first order : Nat) (mine : List Nat) (unit : Bytes) (s : State) : kept (landRows h t first order mine unit s) = kept s := by
  have hrows : ∀ v : State, kept (mine.foldl (fun u i => storeRow h.id t (first + i) (slice unit (Hd.rowBytes h.desc t * i) (Hd.rowBytes h.desc t)) u) v) = kept v :=
    foldl_same kept (fun _ _ => kept_storeRow ..) mine
  unfold landRows
  dsimp only
  rw [kept_tensorWritten]
  split <;> exact hrows s

/-! ## What the parts of a write store -/

section
variable {β : Type} {g : Head → β}

/-- An update of a head that changes nothing that `g` reads. -/
theorem map_findHead_updHead {f : Head → Head} (hid : ∀ k, (f k).id = k.id) (hg : ∀ k, g (f k) = g k) (i id : Nat) (s : State) :
    (findHead (updHead i f s) id).map g = (findHead s id).map g := by
  by_cases hi : i = id
  · subst hi
    rw [findHead_updHead hid, Option.map_map]
    exact congrArg (Option.map · _) (funext hg)
  · refine congrArg (Option.map g) (find_mapIf_ne (fun k hk => ?_) _)
    obtain rfl : k.id = i := by simpa using hk
    simp [hid, hi]

theorem map_findHead_dropStash (hg : ∀ k x, g { k with stash := x } = g k) (head : Nat) (gone : StashMb → Bool) (id : Nat) (s : State) :
    (findHead (dropStash head gone s) id).map g = (findHead s id).map g := by
  unfold dropStash
  split
  · rfl
  · exact map_findHead_updHead (f := fun x => { x with stash := x.stash.filter fun e => !gone e }) (fun _ => rfl) (fun k => hg k _) head id s

/-- What follows the storage changes the stash of heads alone. -/
theorem map_findHead_tensorWritten (hg : ∀ k x, g { k with stash := x } = g k) (h : Head) (t n order : Nat) (b : Bytes) (id : Nat) (s : State) :
    (findHead (tensorWritten h t n order b s) id).map g = (findHead s id).map g := by
  have hdiscard : ∀ (ids : List Nat) (v : State), (findHead (discardStash ids order v) id).map g = (findHead v id).map g :=
    foldl_same (fun v => (findHead v id).map g) fun u i => map_findHead_dropStash hg i _ id u
  have hchain : ∀ v : State, findHead (chainUnits h t b v) id = findHead v id := foldl_same (findHead · id) (f := fun u x => chainExtend 2 h.id x u) (fun _ _ => rfl) _
  have hbypass : ∀ (p : MediaObj → Bool) (v : State), findHead (bypassWrite p v) id = findHead v id := fun p v => by
    unfold bypassWrite
    split <;> rfl
  exact (hdiscard ..).trans (congrArg (Option.map g) ((hchain _).trans (hbypass ..)))

/-- Narrowing the value rows again changes rows alone. -/
theorem map_findHead_renarrowAll (hg : ∀ k x, g { k with rows := x } = g k) (i id : Nat) (s : State) :
    (findHead (renarrowAll i s) id).map g = (findHead s id).map g := by
  have hone : ∀ (u : State) (m : Master), (findHead (renarrow i m u) id).map g = (findHead u id).map g := fun u m => by
    have hrow : ∀ b, (findHead (updHead i (setRow 4 m.slot b) u) id).map g = (findHead u id).map g := fun b =>
      map_findHead_updHead (f := setRow 4 m.slot b) (g := g) (fun _ => rfl) (fun k => hg k _) i id u
    unfold renarrow
    split
    · rfl
    · dsimp only
      split
      · rw [Flights.findHead_congr (bump_mem ..)]
        exact hrow _
      · exact hrow _
  unfold renarrowAll
  split
  · rfl
  · split
    · exact foldl_same (fun v => (findHead v id).map g) hone _ _
    · rfl

end

/-- A stored tile is what the head holds of it. -/
theorem headTile_storeTile {id t : Nat} (hh : findHead s id = some h) (b : Bytes) : (findHead (storeTile id t b s) id).map (headTile · t) = some b := by
  have hset : (findHead (updHead id (fun k => if t = 13 then { setTile t b k with calib := b } else setTile t b k) s) id).map (headTile · t) = some b := by
    rw [findHead_upd (fun k => by split <;> rfl) hh, Option.map_some]
    split
    · exact congrArg some (headTile_setTile t b h)
    · rw [headTile_setTile]
  unfold storeTile
  dsimp only
  split
  · rw [map_findHead_renarrowAll (g := (headTile · t)) (fun _ _ => rfl), hset]
  · exact hset

/-- The last unit of a tile leaves all that has landed. -/
theorem headTile_landTile_last (hh : findHead s h.id = some h) (t order : Nat) (landed unit : Bytes) :
    (findHead (landTile h t order landed unit true s) h.id).map (headTile · t) = some (landed ++ unit) :=
  (map_findHead_tensorWritten (g := (headTile · t)) (fun _ _ => rfl) ..).trans (headTile_storeTile hh _)

/-- An earlier unit leaves what has landed before what the tile held. -/
theorem headTile_landTile (hh : findHead s h.id = some h) (t order : Nat) (landed unit : Bytes) :
    (findHead (landTile h t order landed unit false s) h.id).map (headTile · t) =
      some (landed ++ unit ++ (headTile h t).drop (landed ++ unit).length) := by
  refine (map_findHead_tensorWritten (g := (headTile · t)) (fun _ _ => rfl) ..).trans ?_
  rw [if_neg Bool.false_ne_true, findHead_upd (f := fun x => setTile t (landed ++ unit ++ (headTile x t).drop (landed ++ unit).length) x) (fun _ => rfl) hh,
    Option.map_some, headTile_setTile]

/-- A stored row takes its place, and no other row changes. -/
theorem headRow_storeRow {id : Nat} (hh : findHead s id = some h) (t row : Nat) (b : Bytes) :
    ∃ k, findHead (storeRow id t row b s) id = some k ∧ ∀ q, headRow k t q = if q = row then b else headRow h t q := by
  have hset : ∀ q, headRow (setRow t row b h) t q = if q = row then b else headRow h t q := fun q => by
    split
    case isTrue heq => rw [heq, headRow_setRow]
    case isFalse hne => exact headRow_setRow_ne (Ne.symm hne) t b h
  unfold storeRow
  rw [hh]
  dsimp only
  split
  · exact ⟨_, findHead_upd (f := setRow t row b) (fun _ => rfl) hh, hset⟩
  case isFalse ht =>
    obtain rfl : t = 4 := by simpa using ht
    have hupd := fun m => findHead_upd (f := fun x => setMaster m (setRow 4 row b x)) (fun _ => rfl) hh
    split <;> exact ⟨_, hupd _, hset⟩

/-- So it is with the rows of a list. -/
theorem headRow_storeRows {id : Nat} (hh : findHead s id = some h) (t first : Nat) (piece : Nat → Bytes) (l : List Nat) :
    ∃ k, findHead (l.foldl (fun u i => storeRow id t (first + i) (piece i) u) s) id = some k ∧
      ∀ i, headRow k t (first + i) = if i ∈ l then piece i else headRow h t (first + i) := by
  induction l generalizing s h with
  | nil => exact ⟨h, hh, fun i => by simp⟩
  | cons j r ih =>
    obtain ⟨k, hk, hone⟩ := headRow_storeRow hh t (first + j) (piece j)
    obtain ⟨m, hm, hrest⟩ := ih hk
    refine ⟨m, hm, fun i => ?_⟩
    rw [hrest, hone]
    by_cases hi : i ∈ r <;> by_cases hj : i = j <;> simp [hi, hj]

/-- A unit of rows leaves those that this module stores, and the other rows as they were. -/
theorem headRow_landRows (hh : findHead s h.id = some h) (t first order : Nat) (mine : List Nat) (unit : Bytes) (i : Nat) :
    (findHead (landRows h t first order mine unit s) h.id).map (headRow · t (first + i)) =
      some (if i ∈ mine then slice unit (Hd.rowBytes h.desc t * i) (Hd.rowBytes h.desc t) else headRow h t (first + i)) := by
  obtain ⟨k, hk, hrows⟩ := headRow_storeRows hh t first (fun i => slice unit (Hd.rowBytes h.desc t * i) (Hd.rowBytes h.desc t)) mine
  refine (map_findHead_tensorWritten (g := (headRow · t (first + i))) (fun _ _ => rfl) ..).trans ?_
  rw [← hrows]
  split <;> exact congrArg _ hk

/-! ## CREATE_MEMORY_HEAD (10 R206 to R210) -/

theorem addHead_ahp (h : Head) (s : State) : (addHead h s).ahp = s.ahp := by
  unfold addHead
  dsimp only
  split <;> rfl

/-- The new head stands in its place among the heads. -/
theorem findHead_addHead (hnew : findHead s h.id = none) : findHead (addHead h s) h.id = some h := by
  have hplace : (addHead h s).mem.heads = insertBy (fun a b => a.id ≤ b.id) h s.mem.heads := by
    unfold addHead
    dsimp only
    split <;> rfl
  unfold findHead
  rw [hplace]
  exact find_insertBy _ (by simp) hnew

/-- R414: its chain starts as the digest of its descriptor. -/
theorem chain_addHead (h : Head) (s : State) : ({ kind := 2, id := h.id, digest := sm3 h.desc } : Chain) ∈ (addHead h s).sec.chains :=
  List.mem_append_right _ (List.mem_singleton.2 rfl)

/-- A command of a host that ends has its completion ready. -/
theorem ready_succeed {op info : Nat} (hc : admittedCmd s seq op = some c) (hhost : c.internal = false) {u : State} (hahp : u.ahp = s.ahp) :
    ready (succeed seq info [] u) seq = some { status := Status.success, info := info } :=
  ready_finish ((findCmd_congr hahp seq).trans (admittedCmd_findCmd hc)) hhost

section
variable (hc : admittedCmd s seq 0x30 = some c) (hhost : c.internal = false) (hlen : b.length = c.entry.inLen)

include hc hhost hlen

theorem createMemoryHead_exists (hh : findHead s c.entry.target = some h) :
    ∃ u, exec (.createMemoryHead seq b) s = .next u ∧ u.mem = s.mem ∧ ready u seq = some { status := Status.headExists } := by
  refine ⟨fail seq Status.headExists s, ?_, fail_mem .., ready_finish (admittedCmd_findCmd hc) hhost⟩
  change execCreateMemoryHead seq b s = _
  simp [execCreateMemoryHead, hc, RolesAndPlans.not_wrongTransfer hlen, hh]

variable (hnew : findHead s c.entry.target = none) (hplace : s.mem.heads.length < 1024)

include hnew hplace

theorem createMemoryHead_refused {x : Nat × Nat} (hfail : headFail s c.entry.target b = some x) :
    ∃ u, exec (.createMemoryHead seq b) s = .next u ∧ u.mem = s.mem ∧
      ready u seq = some (if x.1 = Status.invalidField then { status := x.1, source := .payload, offset := x.2 } else { status := x.1 }) := by
  refine ⟨failInput seq x s, ?_, ?_⟩
  · change execCreateMemoryHead seq b s = _
    simp [execCreateMemoryHead, hc, RolesAndPlans.not_wrongTransfer hlen, hnew, hplace, hfail]
  · unfold failInput
    split
    case isTrue hfield => exact ⟨failPayload_mem .., hfield ▸ ready_finish (admittedCmd_findCmd hc) hhost⟩
    case isFalse => exact ⟨fail_mem .., ready_finish (admittedCmd_findCmd hc) hhost⟩

theorem createMemoryHead_makes (hpass : headFail s c.entry.target b = none) (hcold : coldRefuses s (ceilDiv b.length 4096) = false) :
    ∃ u, exec (.createMemoryHead seq b) s = .next u ∧ findHead u c.entry.target = some (newHead s c.entry.target (roleOf s c) b) ∧
      { kind := 2, id := c.entry.target, digest := sm3 b } ∈ u.sec.chains ∧ ready u seq = some { status := Status.success } := by
  refine ⟨succeed seq 0 [] (addHead (newHead s c.entry.target (roleOf s c) b) s), ?_, ?_, ?_, ready_succeed hc hhost (addHead_ahp ..)⟩
  · change execCreateMemoryHead seq b s = _
    simp [execCreateMemoryHead, hc, RolesAndPlans.not_wrongTransfer hlen, hnew, hplace, hpass, hcold]
  · rw [Flights.findHead_congr (succeed_mem ..)]
    exact findHead_addHead (h := newHead s c.entry.target (roleOf s c) b) hnew
  · rw [succeed_sec]
    exact chain_addHead ..

end

/-! ## DELETE_MEMORY_HEAD (15 R362) -/

section
variable (hc : findCmd s seq = some c) (hphase : c.phase = .dispatched) (hended : holdEnded s c = true) (hopen : s.ahp.admissionOpen = true)
  (hop : c.entry.opcode = 0x31) (htarget : targetFail s c = none)

include hc hphase hended hopen hop htarget

/-- At its admission the head is hidden, unless another one reads its value table. -/
theorem commandAdmit_deleteMemoryHead (hh : findHead s c.entry.target = some h) :
    ∃ u d, exec (.commandAdmit seq) s = .next u ∧ findCmd u seq = some d ∧ d.phase = .admitted ∧
      if headIsSource s c.entry.target then u.mem = s.mem ∧ d.report = c.report
      else findHead u c.entry.target = some { h with deleting := true, deleteSeq := some seq } ∧ d.report = [1] := by
  obtain rfl := findCmd_seq hc
  have hadmits := CollectionAdmission.exec_commandAdmit_admits hc hphase hended hopen htarget (by rw [hop]; decide) (by rw [hop]; decide)
  have hd := CollectionAdmission.findCmd_admission hc
  have hatonce : atAdmission (CollectionAdmission.admittedAs s c c) (CollectionAdmission.admission c s) =
      if headIsSource s c.entry.target then CollectionAdmission.admission c s
      else updCmd c.seq (CollectionAdmission.withReport [1]) (beginDeleteHead c.entry.target (some c.seq) (CollectionAdmission.admission c s)) := by
    unfold atAdmission
    rw [show (CollectionAdmission.admittedAs s c c).entry.opcode = 0x31 from hop]
    rfl
  rw [hatonce] at hadmits
  split at hadmits
  case isTrue hsource =>
    refine ⟨_, _, hadmits, hd, rfl, ?_⟩
    rw [if_pos hsource]
    exact ⟨rfl, rfl⟩
  case isFalse hfree =>
    have hmarked : findCmd (beginDeleteHead c.entry.target (some c.seq) (CollectionAdmission.admission c s)) c.seq =
        some (CollectionAdmission.admittedAs s c c) := hd
    refine ⟨_, _, hadmits, CollectionAdmission.findCmd_withReport hmarked _, rfl, ?_⟩
    rw [if_neg hfree]
    exact ⟨findHead_upd (f := fun x => { x with deleting := true, deleteSeq := some c.seq }) (fun _ => rfl) hh, rfl⟩

end

/-- A deletion that had its effect waits for its key; one that had none is turned away. -/
theorem deleteMemoryHead_spec (hc : admittedCmd s seq 0x31 = some c) (hhost : c.internal = false) :
    ∃ u, exec (.deleteMemoryHead seq) s = .next u ∧ u.mem = s.mem ∧
      if c.report = [] then ready u seq = some { status := Status.invalidField, source := .entry, offset := 8 }
      else findCmd u seq = some { c with phase := .working } := by
  have hexec : exec (.deleteMemoryHead seq) s = .next (if c.report = [] then failEntry seq 8 s else startWork seq s) := by
    change execDeleteMemoryHead seq s = _
    unfold execDeleteMemoryHead
    rw [hc]
  refine ⟨_, hexec, ?_⟩
  split
  · exact ⟨failEntry_mem .., ready_finish (admittedCmd_findCmd hc) hhost⟩
  · exact ⟨rfl, findCmd_upd (f := fun d => { d with phase := .working }) (fun _ => rfl) (admittedCmd_findCmd hc)⟩

/-! ## HEAD_TENSOR_WRITE (15 R361) -/

section
variable {u : State}

theorem ahp_of_kept (h : kept u = kept s) : u.ahp = s.ahp := congrArg Prod.fst h

theorem writes_of_kept (h : kept u = kept s) : u.mem.writes = s.mem.writes := congrArg Prod.snd h

end

/-- What a tensor write waits for: earlier commands that need the tensor, and a tile that moves (10 R216, 12 R284). -/
def writeWaits (s : State) (c : Cmd) (h : Head) : Bool :=
  readersAhead s c (changedHeads s h c.entry.arg2) || writersAhead s c (changedHeads s h c.entry.arg2) || (changedHeads s h c.entry.arg2).any (headMoves s)

section
variable (hc : admittedCmd s seq 0x32 = some c) (hh : findHead s c.entry.target = some h)

include hc hh

theorem exec_headTensorWrite_waits (hwaits : writeWaits s c h = true) : exec (.headTensorWrite seq b) s = .next s := by
  change execHeadTensorWrite seq b s = _
  unfold execHeadTensorWrite
  rw [hc]
  dsimp only
  rw [hh]
  exact if_pos hwaits

variable (hfree : writeWaits s c h = false)

include hfree

theorem exec_headTensorWrite_badEntry {o : Nat} (hfail : tensorEntryFail h c.entry.arg2 c.entry.arg0 c.entry.inLen = some o) :
    exec (.headTensorWrite seq b) s = .next (failEntry seq o s) := by
  change execHeadTensorWrite seq b s = _
  unfold execHeadTensorWrite
  rw [hc]
  dsimp only
  rw [hh]
  dsimp only
  rw [if_neg (by simpa [writeWaits] using hfree), hfail]

variable (hentry : tensorEntryFail h c.entry.arg2 c.entry.arg0 c.entry.inLen = none) (hsome : c.entry.inLen ≠ 0) (hlen : b.length = c.entry.inLen)
  (hcold : coldRefuses s (ceilDiv b.length 4096) = false)

include hentry hsome hlen hcold

/-- A write that its entry and the cold tier allow comes to its elements, and to its units. -/
theorem exec_headTensorWrite_allowed : exec (.headTensorWrite seq b) s =
    match if 5 ≤ c.entry.arg2 then none
      else elementFail (Hd.fmt h.desc c.entry.arg2) (b.length / Hd.rowBytes h.desc c.entry.arg2 * Hd.cols h.desc c.entry.arg2) b 0 with
    | some o => .next (failPayload seq o s)
    | none =>
      if unitBytes h c.entry.arg2 < b.length then .next (beginWrite c h (chunksOf (unitBytes h c.entry.arg2) b) s)
      else if 5 ≤ c.entry.arg2 then .next (succeed seq b.length [] (landTile h c.entry.arg2 c.order [] b true s))
      else .next (succeed seq (rowsStored s h c.entry.arg2 c.entry.arg0 (b.length / Hd.rowBytes h.desc c.entry.arg2)).length []
        (landRows h c.entry.arg2 c.entry.arg0 c.order (rowsStored s h c.entry.arg2 c.entry.arg0 (b.length / Hd.rowBytes h.desc c.entry.arg2)) b s)) := by
  change execHeadTensorWrite seq b s = _
  unfold execHeadTensorWrite
  rw [hc]
  dsimp only
  rw [hh]
  dsimp only
  rw [if_neg (by simpa [writeWaits] using hfree), hentry]
  dsimp only
  rw [if_neg hsome, RolesAndPlans.not_wrongTransfer hlen, hcold]
  rfl

/-- A tile of one unit is stored, and completes with its bytes. -/
theorem headTensorWrite_tile (hhost : c.internal = false) (ht : 5 ≤ c.entry.arg2) (hone : b.length ≤ 65536) :
    ∃ u, exec (.headTensorWrite seq b) s = .next u ∧ (findHead u h.id).map (headTile · c.entry.arg2) = some b ∧
      ready u seq = some { status := Status.success, info := b.length } := by
  have hunit : ¬unitBytes h c.entry.arg2 < b.length := by simpa [unitBytes, ht] using hone
  refine ⟨_, (exec_headTensorWrite_allowed hc hh hfree hentry hsome hlen hcold).trans (by rw [if_pos ht]; dsimp only; rw [if_neg hunit, if_pos ht]), ?_,
    ready_succeed hc hhost (ahp_of_kept (kept_landTile ..))⟩
  rw [Flights.findHead_congr (succeed_mem ..)]
  exact headTile_landTile_last (findHead_id hh ▸ hh) ..

theorem headTensorWrite_badElement (hhost : c.internal = false) {o : Nat} (ht : c.entry.arg2 ≤ 4)
    (hfail : elementFail (Hd.fmt h.desc c.entry.arg2) (b.length / Hd.rowBytes h.desc c.entry.arg2 * Hd.cols h.desc c.entry.arg2) b 0 = some o) :
    ∃ u, exec (.headTensorWrite seq b) s = .next u ∧ u.mem = s.mem ∧
      ready u seq = some { status := Status.invalidField, source := .payload, offset := o } :=
  ⟨failPayload seq o s, (exec_headTensorWrite_allowed hc hh hfree hentry hsome hlen hcold).trans (by rw [if_neg (by omega), hfail]), failPayload_mem ..,
    ready_finish (admittedCmd_findCmd hc) hhost⟩

/-- Rows of one unit are stored where this module holds them, and the command completes with their number. -/
theorem headTensorWrite_rows (hhost : c.internal = false) (ht : c.entry.arg2 ≤ 4)
    (hpass : elementFail (Hd.fmt h.desc c.entry.arg2) (b.length / Hd.rowBytes h.desc c.entry.arg2 * Hd.cols h.desc c.entry.arg2) b 0 = none)
    (hone : b.length ≤ unitBytes h c.entry.arg2) :
    let n := b.length / Hd.rowBytes h.desc c.entry.arg2
    let mine := rowsStored s h c.entry.arg2 c.entry.arg0 n
    ∃ u, exec (.headTensorWrite seq b) s = .next u ∧ ready u seq = some { status := Status.success, info := mine.length } ∧
      ∀ i < n, (findHead u h.id).map (headRow · c.entry.arg2 (c.entry.arg0 + i)) =
        some (if i ∈ mine then slice b (Hd.rowBytes h.desc c.entry.arg2 * i) (Hd.rowBytes h.desc c.entry.arg2)
          else headRow h c.entry.arg2 (c.entry.arg0 + i)) := by
  intro n mine
  have hrow : ¬5 ≤ c.entry.arg2 := by omega
  refine ⟨_, (exec_headTensorWrite_allowed hc hh hfree hentry hsome hlen hcold).trans
      (by rw [if_neg hrow, hpass]; dsimp only; rw [if_neg (by omega), if_neg hrow]),
    ready_succeed hc hhost (ahp_of_kept (kept_landRows ..)), fun i _ => ?_⟩
  rw [Flights.findHead_congr (succeed_mem ..)]
  exact headRow_landRows (findHead_id hh ▸ hh) ..

/-- A longer write begins with its units. -/
theorem headTensorWrite_begins
    (hpass : 5 ≤ c.entry.arg2 ∨ elementFail (Hd.fmt h.desc c.entry.arg2) (b.length / Hd.rowBytes h.desc c.entry.arg2 * Hd.cols h.desc c.entry.arg2) b 0 = none)
    (hlong : unitBytes h c.entry.arg2 < b.length) :
    ∃ u, exec (.headTensorWrite seq b) s = .next u ∧ findCmd u seq = some { c with phase := .working } ∧ u.mem.heads = s.mem.heads ∧
      u.mem.writes = s.mem.writes ++
        [{ tag := unitTag s, seq := c.seq, head := h.id, tensor := c.entry.arg2, first := c.entry.arg0, landed := [], stored := 0, units := chunksOf (unitBytes h c.entry.arg2) b }] := by
  have hgood : (if 5 ≤ c.entry.arg2 then none else elementFail (Hd.fmt h.desc c.entry.arg2)
      (b.length / Hd.rowBytes h.desc c.entry.arg2 * Hd.cols h.desc c.entry.arg2) b 0) = none := by
    split
    · rfl
    case isFalse hrow => exact hpass.resolve_left hrow
  obtain rfl := findCmd_seq (admittedCmd_findCmd hc)
  refine ⟨beginWrite c h (chunksOf (unitBytes h c.entry.arg2) b) s,
    (exec_headTensorWrite_allowed hc hh hfree hentry hsome hlen hcold).trans (by rw [hgood]; dsimp only; rw [if_pos hlong]), ?_, rfl, rfl⟩
  exact findCmd_upd (f := fun d => { d with phase := .working }) (fun _ => rfl) (admittedCmd_findCmd hc)

end

/-! ## The units of a longer write (15 R363) -/

/-- A write in flight goes on as `x`. -/
def keepWrite (x : HeadWrite) (tag : Nat) (u : State) : State :=
  { u with mem := { u.mem with writes := mapIf (·.tag == tag) (fun _ => x) u.mem.writes } }

/-- A write is no longer in flight. -/
def dropWrite (tag : Nat) (u : State) : State := { u with mem := { u.mem with writes := u.mem.writes.filter (·.tag ≠ tag) } }

section
variable {w : HeadWrite} {unit : Bytes} {rest : List Bytes} (hunits : w.units = unit :: rest)

include hunits

theorem landUnit_tile (ht : 5 ≤ w.tensor) : landUnit h w s =
    if rest.isEmpty then succeed w.seq (w.landed ++ unit).length [] (dropWrite w.tag (landTile h w.tensor (orderOf s w.seq) w.landed unit rest.isEmpty s))
    else keepWrite { w with landed := w.landed ++ unit, units := rest } w.tag (landTile h w.tensor (orderOf s w.seq) w.landed unit rest.isEmpty s) := by
  unfold landUnit
  rw [hunits]
  exact if_pos ht

theorem landUnit_rows (ht : w.tensor ≤ 4) :
    let n := unit.length / Hd.rowBytes h.desc w.tensor
    let mine := rowsStored s h w.tensor w.first n
    landUnit h w s =
      if rest.isEmpty then succeed w.seq (w.stored + mine.length) [] (dropWrite w.tag (landRows h w.tensor w.first (orderOf s w.seq) mine unit s))
      else keepWrite { w with first := w.first + n, stored := w.stored + mine.length, units := rest } w.tag
        (landRows h w.tensor w.first (orderOf s w.seq) mine unit s) := by
  unfold landUnit
  rw [hunits]
  exact if_neg (by omega)

end

section
variable {tag t : Nat} {w : HeadWrite} {unit : Bytes} {rest : List Bytes}
variable (hnone : findUnit s tag = none) (hw : s.mem.writes.find? (·.tag == tag) = some w) (hh : findHead s w.head = some h)

include hnone hw hh

/-- A UNIT_COMMIT of a write's tag lands its next unit, or waits while a tile of the head moves. -/
theorem exec_unitCommit_write : exec (.unitCommit tag t) s = .next (if headMoves s w.head then tick t s else landUnit h w (tick t s)) := by
  have hnone' : findUnit (tick t s) tag = none := hnone
  have hw' : (tick t s).mem.writes.find? (·.tag == tag) = some w := hw
  have hh' : findHead (tick t s) w.head = some h := hh
  change execUnitCommit tag t s = _
  unfold execUnitCommit
  dsimp only
  rw [hnone']
  dsimp only
  unfold landNext
  rw [hw']
  dsimp only
  rw [hh']
  rfl

variable (hstill : headMoves s w.head = false)

include hstill

theorem exec_unitCommit_lands : exec (.unitCommit tag t) s = .next (landUnit h w (tick t s)) := by
  rw [exec_unitCommit_write hnone hw hh, if_neg (by simp [hstill])]

variable (hunits : w.units = unit :: rest)

include hunits

/-- A unit of a tile, not the last one. -/
theorem unitCommit_tile (ht : 5 ≤ w.tensor) (hrest : rest ≠ []) :
    ∃ u, exec (.unitCommit tag t) s = .next u ∧
      (findHead u h.id).map (headTile · w.tensor) = some (w.landed ++ unit ++ (headTile h w.tensor).drop (w.landed ++ unit).length) ∧
      u.mem.writes = mapIf (·.tag == tag) (fun _ => { w with landed := w.landed ++ unit, units := rest }) s.mem.writes := by
  have hmore : rest.isEmpty = false := by simpa using hrest
  have hh' : findHead (tick t s) h.id = some h := findHead_id hh ▸ hh
  obtain rfl : w.tag = tag := by simpa using List.find?_some hw
  refine ⟨_, exec_unitCommit_lands hnone hw hh hstill, ?_⟩
  rw [landUnit_tile hunits ht, hmore, if_neg Bool.false_ne_true]
  exact ⟨headTile_landTile hh' .., congrArg (mapIf _ _) (writes_of_kept (kept_landTile ..))⟩

/-- The last unit of a tile. -/
theorem unitCommit_tile_last (ht : 5 ≤ w.tensor) (hcmd : findCmd s w.seq = some c) (hhost : c.internal = false) (hrest : rest = []) :
    ∃ u, exec (.unitCommit tag t) s = .next u ∧ (findHead u h.id).map (headTile · w.tensor) = some (w.landed ++ unit) ∧
      u.mem.writes = s.mem.writes.filter (·.tag ≠ tag) ∧ ready u w.seq = some { status := Status.success, info := (w.landed ++ unit).length } := by
  subst hrest
  have hh' : findHead (tick t s) h.id = some h := findHead_id hh ▸ hh
  obtain rfl : w.tag = tag := by simpa using List.find?_some hw
  refine ⟨_, exec_unitCommit_lands hnone hw hh hstill, ?_⟩
  rw [landUnit_tile hunits ht, List.isEmpty_nil, if_pos rfl, Flights.findHead_congr (succeed_mem ..), succeed_mem]
  refine ⟨headTile_landTile_last hh' .., congrArg (List.filter _) (writes_of_kept (kept_landTile ..)), ready_finish (c := c) ?_ hhost⟩
  exact (findCmd_congr (ahp_of_kept (kept_landTile ..)) w.seq).trans hcmd

/-- A unit of rows. -/
theorem unitCommit_rows (ht : w.tensor ≤ 4) (hcmd : findCmd s w.seq = some c) (hhost : c.internal = false) :
    let n := unit.length / Hd.rowBytes h.desc w.tensor
    let mine := rowsStored s h w.tensor w.first n
    ∃ u, exec (.unitCommit tag t) s = .next u ∧
      (∀ i < n, (findHead u h.id).map (headRow · w.tensor (w.first + i)) =
        some (if i ∈ mine then slice unit (Hd.rowBytes h.desc w.tensor * i) (Hd.rowBytes h.desc w.tensor) else headRow h w.tensor (w.first + i))) ∧
      (rest ≠ [] → u.mem.writes = mapIf (·.tag == tag) (fun _ => { w with first := w.first + n, stored := w.stored + mine.length, units := rest }) s.mem.writes) ∧
      (rest = [] → u.mem.writes = s.mem.writes.filter (·.tag ≠ tag) ∧ ready u w.seq = some { status := Status.success, info := w.stored + mine.length }) := by
  intro n mine
  have hh' : findHead (tick t s) h.id = some h := findHead_id hh ▸ hh
  have hmine : rowsStored (tick t s) h w.tensor w.first n = mine := rfl
  obtain rfl : w.tag = tag := by simpa using List.find?_some hw
  refine ⟨_, exec_unitCommit_lands hnone hw hh hstill, ?_⟩
  rw [landUnit_rows hunits ht, hmine]
  cases rest with
  | nil =>
    rw [List.isEmpty_nil, if_pos rfl, Flights.findHead_congr (succeed_mem ..), succeed_mem]
    refine ⟨fun i _ => headRow_landRows hh' .., fun hmore => absurd rfl hmore, fun _ =>
      ⟨congrArg (List.filter _) (writes_of_kept (kept_landRows ..)), ready_finish (c := c) ?_ hhost⟩⟩
    exact (findCmd_congr (ahp_of_kept (kept_landRows ..)) w.seq).trans hcmd
  | cons next more =>
    rw [List.isEmpty_cons, if_neg Bool.false_ne_true]
    exact ⟨fun i _ => headRow_landRows hh' .., fun _ => congrArg (mapIf _ _) (writes_of_kept (kept_landRows ..)), fun hlast => by cases hlast⟩

end

/-- Settles O39: a head, a tile and a row are found where `insertBy` put them, and what follows the storage of a unit leaves the tensors, the writes in flight and the
front end. -/
theorem headsAreMadeWrittenAndDeleted : Obligations.HeadsAreMadeWrittenAndDeleted := by
  refine ⟨?creates, ?held, ?deletes, ?deletion, ?writes, ?commits⟩
  case creates =>
    exact fun seq b c s hc hhost hlen hnew hplace =>
      ⟨createMemoryHead_makes hc hhost hlen hnew hplace, fun x => createMemoryHead_refused hc hhost hlen hnew hplace⟩
  case held =>
    exact fun seq b c h s hc hhost hlen hh => createMemoryHead_exists hc hhost hlen hh
  case deletes =>
    exact fun seq c h s hc hphase hended hopen hop htarget hh => commandAdmit_deleteMemoryHead hc hphase hended hopen hop htarget hh
  case deletion =>
    exact fun seq c s hc hhost => deleteMemoryHead_spec hc hhost
  case writes =>
    intro seq b c h s hc hhost hh waits n mine
    refine ⟨exec_headTensorWrite_waits hc hh, fun o hfree hfail => ⟨_, exec_headTensorWrite_badEntry hc hh hfree hfail, failEntry_mem ..,
      ready_finish (admittedCmd_findCmd hc) hhost⟩, fun hfree hentry hsome hlen hcold => ⟨?tile, ?badElement, ?rows, ?begins⟩⟩
    case tile => exact headTensorWrite_tile hc hh hfree hentry hsome hlen hcold hhost
    case badElement => exact fun o ht hfail => headTensorWrite_badElement hc hh hfree hentry hsome hlen hcold hhost ht hfail
    case rows => exact headTensorWrite_rows hc hh hfree hentry hsome hlen hcold hhost
    case begins => exact headTensorWrite_begins hc hh hfree hentry hsome hlen hcold
  case commits =>
    intro tag t w h c unit rest s hnone hw hh hunits hcmd hhost
    refine ⟨fun hmoves => (exec_unitCommit_write hnone hw hh).trans (by rw [if_pos hmoves]), fun hstill ht => ⟨?tile, ?lastTile⟩, fun hstill ht => ?rows⟩
    case tile => exact unitCommit_tile hnone hw hh hstill hunits ht
    case lastTile => exact unitCommit_tile_last hnone hw hh hstill hunits ht hcmd hhost
    case rows => exact unitCommit_rows hnone hw hh hstill hunits ht hcmd hhost

end Sys2Proof.HeadTensors
end

section
/-! SUPPORT. The frame of the attachment fails where room for a connection is made by closing one that has a command queue (14 R325, R338): the statement is about every
state, and nothing in a state, nor in its invariant, keeps a queue off an SPP connection. -/

namespace Sys2Proof.AttachmentFrame

open Machine Laws

/-- An open connection on port 0; `proto` is 1 for AHP and 2 for SPP. -/
def portConn (proto qpn : Nat) : Conn := { newConn State.reset 0 0 qpn 4096 0xFFFF false with qpn := qpn, proto := proto, phase := .open_ }

/-- The AHP connections 3 to 4097; never unfolded to their list. -/
@[irreducible] def hosts : List Conn := (List.range 4095).map fun i => portConn 1 (i + 3)

/-- A command queue on connection 2. -/
def strayQueue : Queue := { qid := 1, conn := 2, role := 1, admin := false, minor := 4, depth := 16, cls := 0, suspended := false }

/-- Port 0 at its limit of 4 096 connections: connection 2 speaks SPP, is idle, and has a queue; every other one speaks AHP. -/
def fullPort : State :=
  { State.reset with
    net := { Net.reset with subs := [{ port := 0, sub := 0, up := true, downSince := 0, pauses := [] }], conns := portConn 2 2 :: hosts, nextQpn := 4098 }
    ahp := { Ahp.reset with queues := [strayQueue] } }

/-- The state meets the invariant of every reachable state. -/
theorem fullPort_inv : fullPort.Inv := by
  unfold State.Inv State.Canonical
  decide

theorem length_hosts : hosts.length = 4095 := by unfold hosts; simp

/-- What the AHP connections have in common is found of all of them. -/
theorem filter_hosts {p : Conn → Bool} {b : Bool} (hp : ∀ i, p (portConn 1 (i + 3)) = b) : hosts.filter p = if b then hosts else [] := by
  unfold hosts
  cases b with
  | true => exact List.filter_eq_self.mpr fun c hc => by obtain ⟨i, _, rfl⟩ := List.mem_map.mp hc; exact hp i
  | false => exact List.filter_eq_nil_iff.mpr fun c hc => by obtain ⟨i, _, rfl⟩ := List.mem_map.mp hc; simp [hp i]

theorem connRoom_fullPort : connRoom fullPort 0 = false := by
  have hport : fullPort.net.conns.filter (·.port == 0) = portConn 2 2 :: hosts :=
    (List.filter_cons_of_pos rfl).trans (congrArg _ (filter_hosts (b := true) fun _ => rfl))
  simp [connRoom, portConns, hport, length_hosts]

/-- The room is made by closing connection 2: an AHP connection is no idle SPP connection. -/
theorem makeConnRoom_fullPort : makeConnRoom 0 fullPort = disconnect 2 fullPort := by
  have hidle : fullPort.net.conns.filter (fun c => sppIdle fullPort c && c.port == 0) = [portConn 2 2] :=
    (List.filter_cons_of_pos rfl).trans (congrArg _ (filter_hosts (b := false) fun _ => rfl))
  unfold makeConnRoom
  rw [connRoom_fullPort, hidle]
  rfl

theorem connRoom_disconnected : connRoom (disconnect 2 fullPort) 0 = true := by
  have hclosed : (disconnect 2 fullPort).net.conns = (portConn 2 2 :: hosts).filter (·.qpn ≠ 2) := rfl
  have hleft : (disconnect 2 fullPort).net.conns = hosts :=
    hclosed.trans ((List.filter_cons_of_neg (by decide)).trans (filter_hosts (b := true) fun i => by simp [portConn]))
  have hport : hosts.filter (·.port == 0) = hosts := filter_hosts (b := true) fun _ => rfl
  simp [connRoom, portConns, hleft, hport, length_hosts]

/-- The closed connection takes its queue along (14 R338), and the host's request is accepted. -/
theorem exec_connectionRequest_fullPort :
    ∃ u, exec (.connectionRequest 0 0 7 4096 0xFFFF false 0) fullPort = .next u ∧ u.ahp.queues = [] := by
  change ∃ u, execConnectionRequest 0 0 7 4096 0xFFFF false 0 fullPort = .next u ∧ _
  have htick : tick 0 fullPort = fullPort := rfl
  unfold execConnectionRequest
  dsimp only
  rw [htick, if_neg (by decide), if_neg (by decide), if_neg (by decide), makeConnRoom_fullPort, connRoom_disconnected]
  exact ⟨_, rfl, (congrArg Ahp.queues (emit_ahp _ _)).trans rfl⟩

/-- Refutes O6: a CONNECTION_REQUEST may change the front end. At the connection limit of a port the idle SPP connection closes, and a queue that the state has on it is
dropped; the frame of `netRow` names the attachment and the time alone, and asks nothing of the state's queues. -/
theorem not_domainsKeepToThemselves : ¬ Obligations.DomainsKeepToThemselves := by
  intro h
  obtain ⟨u, hexec, hgone⟩ := exec_connectionRequest_fullPort
  obtain ⟨hnet, _⟩ := h _ _ u hexec
  have hkept : u.ahp.queues = [strayQueue] := congrArg (·.ahp.queues) (hnet rfl)
  rw [hgone] at hkept
  cases hkept

end Sys2Proof.AttachmentFrame
end

section
/-! SUPPORT. HBM under its errors (12 R280 to R287): what a tile that takes its place or is hurt leaves alone, and what a failed row, a seen pin, a mark and a fence leave. -/

namespace Sys2Proof.HbmFacts

open Machine Laws

variable {s : State}

/-! ## Tiles that take their place, and tiles that are hurt (R277, R285, R287) -/

/-- What `f` shows rests neither on where tiles lie and what of them is hurt, nor on the plans, collections and heads that hurt memory reaches. -/
def OutsideLayout {α : Type} (f : State → α) : Prop :=
  ∀ (s : State) a se m ts n hu rs,
    f { s with ahp := a, search := se, mem := m, hbm := { s.hbm with tiles := ts, nextTile := n, hurt := hu, relocs := rs } } = f s

section Layout

variable {α : Type} {f : State → α} (hf : OutsideLayout f)
include hf

/-- What is hurt changes plans, collections with their queries, and heads with their commands. -/
theorem hurtObject_same (o : MediaObj) (s : State) : f (hurtObject o s) = f s := by
  have hwork : ∀ (u : State) (q : Nat), f (hurtWork q u) = f u := fun u q => hf u ..
  cases o with
  | planTile kind target planId => exact foldl_same f (f := fun u q => hurtWork q u) hwork _ s
  | working seq => exact hwork s seq
  | stash head step mb =>
    unfold hurtObject releaseStash dropStash
    dsimp only
    split
    · rfl
    · exact hf s ..
  | tombTable | level => rfl
  | _ => exact hf s ..

theorem hurtSlot_same (channel slot : Nat) (s : State) : f (hurtSlot channel slot s) = f s := by
  unfold hurtSlot
  split
  · rfl
  · rw [hurtObject_same hf]
    split
    · exact hf s ..
    · rfl

theorem hurtTile_same (channel : Nat) (s : State) (t : HbmTile) : f (hurtTile channel s t) = f s := by
  unfold hurtTile
  split
  · rfl
  · exact hurtSlot_same hf ..

theorem placeTile_same (s : State) (n : TileNeed) : f (placeTile s n) = f s := by
  unfold placeTile
  split
  · rfl
  · split
    · rfl
    · exact (foldl_same f (fun u c => hurtTile_same hf c u _) _ _).trans (hf s ..)

theorem placeTiles_same (s : State) : f (placeTiles s) = f s :=
  (foldl_same f (placeTile_same hf) _ _).trans (hf s ..)

end Layout

/-! ## Bank records (R283) -/

theorem bankRec_place (s : State) (channel bank : Nat) : (bankRec s channel bank).channel = channel ∧ (bankRec s channel bank).bank = bank := by
  unfold bankRec
  cases h : s.hbm.banks.find? fun b => b.channel == channel && b.bank == bank with
  | none => exact ⟨rfl, rfl⟩
  | some b => simpa using List.find?_some h

theorem bankRec_congr {u : State} (h : u.hbm.banks = s.hbm.banks) (channel bank : Nat) : bankRec u channel bank = bankRec s channel bank := by
  unfold bankRec; rw [h]

theorem isRetired_congr {u : State} (h : u.hbm.banks = s.hbm.banks) (channel bank : Nat) (row : Option Nat) :
    isRetired u channel bank row = isRetired s channel bank row := by
  unfold isRetired; rw [bankRec_congr h]

/-- A record that is set is the record of its bank. -/
theorem bankRec_setBank (b : BankRec) (s : State) : bankRec (setBank b s) b.channel b.bank = b := by
  have hset : (setBank b s).hbm.banks.find? (fun x => x.channel == b.channel && x.bank == b.bank) = some b :=
    HeadTensors.find_insertBy _ (by simp) (List.find?_eq_none.mpr fun x hx => by simpa [imp_iff_not_or] using (List.mem_filter.mp hx).2)
  unfold bankRec
  rw [hset]
  rfl

/-- A state with the banks of one in which a record has been set. -/
theorem fails_of_setBank {u : State} {b : BankRec} {channel bank : Nat} (hu : u.hbm.banks = (setBank b s).hbm.banks) (hc : b.channel = channel) (hb : b.bank = bank) :
    (bankRec u channel bank).fails = b.fails := by
  rw [bankRec_congr hu, ← hc, ← hb, bankRec_setBank]

theorem markChannel_banks (c : Nat) (s : State) : (markChannel c s).hbm.banks = s.hbm.banks := by
  unfold markChannel; split <;> rfl

theorem markChannel_counters (c : Nat) (s : State) : (markChannel c s).counters = s.counters := by
  unfold markChannel; split <;> rfl

theorem retireBank_banks (b : BankRec) (s : State) : (retireBank b s).hbm.banks = (setBank { b with retired := true, pages := [] } s).hbm.banks := by
  unfold retireBank
  dsimp only
  split
  · rw [markChannel_banks, logEvent_hbm]
  · rw [logEvent_hbm]

/-- A row of a page in service fails: that counts on its bank, whichever of the three things follows. -/
theorem fails_rowFails {channel bank row : Nat} (h : isRetired s channel bank (some row) = false) :
    (bankRec (rowFails channel bank row s) channel bank).fails = (bankRec s channel bank).fails + 1 := by
  obtain ⟨hc, hb⟩ := bankRec_place s channel bank
  obtain ⟨hbank, hpage⟩ : (bankRec s channel bank).retired = false ∧ (bankRec s channel bank).pages.contains row = false := by
    simpa [isRetired] using h
  unfold rowFails
  dsimp only
  rw [if_neg (by simp only [hbank, hpage]; decide)]
  split
  · exact fails_of_setBank (retireBank_banks ..) hc hb
  · split
    · exact fails_of_setBank (congrArg Hbm.banks (bump_hbm ..)) hc hb
    · exact fails_of_setBank (congrArg Hbm.banks (logEvent_hbm ..)) hc hb

/-- A failed row raises no other counter than that of the remapped rows and, where its event finds no place, that of the events dropped. -/
theorem counter_rowFails {channel bank row k : Nat} (hw : Table.wf (fun _ => 0) s.counters = true) (hremap : Key.hbmRowsRemapped ≠ k) (hdrop : Key.blackboxDropped ≠ k) :
    counter (rowFails channel bank row s) k = counter s k := by
  unfold rowFails
  dsimp only
  split
  · rfl
  · split
    · unfold retireBank
      dsimp only
      split
      · exact (counter_congr (markChannel_counters ..) k).trans (counter_logEvent (s := setBank _ s) hw hdrop)
      · exact counter_logEvent (s := setBank _ s) hw hdrop
    · split
      · exact counter_bump_ne (s := setBank _ s) hw hremap
      · exact counter_logEvent (s := setBank _ s) hw hdrop

/-! ## Marks and fences (R281, R287) -/

/-- What a step adds of its element, and no step takes away, a fold over a list has of all its elements. -/
theorem mem_foldl {g : State → List Nat} {op : Nat → State → State} (hkeep : ∀ c x u, x ∈ g u → x ∈ g (op c u)) (hadd : ∀ c u, c ∈ g (op c u)) (l : List Nat)
    (s : State) : (∀ x ∈ g s, x ∈ g (l.foldl (fun u c => op c u) s)) ∧ ∀ c ∈ l, c ∈ g (l.foldl (fun u c => op c u) s) := by
  induction l generalizing s with
  | nil => exact ⟨fun x hx => hx, fun c hc => by cases hc⟩
  | cons a r ih =>
    obtain ⟨hold, hnew⟩ := ih (op a s)
    refine ⟨fun x hx => hold x (hkeep a x s hx), fun c hc => ?_⟩
    rcases List.mem_cons.mp hc with rfl | hc
    · exact hold _ (hadd ..)
    · exact hnew c hc

theorem mem_markChannel {c x : Nat} : x ∈ (markChannel c s).hbm.marked ↔ x = c ∨ x ∈ s.hbm.marked := by
  unfold markChannel
  split
  · rename_i hc
    exact ⟨.inr, fun h => h.elim (fun hx => hx ▸ List.contains_iff_mem.mp hc) id⟩
  · exact mem_insertBy

theorem fence_marked (c : Nat) (s : State) : (fence c s).hbm.marked = s.hbm.marked := by
  unfold fence
  split
  · rfl
  · exact foldl_same (·.hbm.marked) (fun u t => hurtTile_same (f := fun v => v.hbm.marked) (fun _ _ _ _ _ _ _ _ => rfl) c u t) _ _

theorem mem_fence {c x : Nat} : x ∈ (fence c s).hbm.fenced ↔ x = c ∨ x ∈ s.hbm.fenced := by
  unfold fence
  split
  · rename_i hc
    exact ⟨.inr, fun h => h.elim (fun hx => hx ▸ List.contains_iff_mem.mp hc) id⟩
  · rw [foldl_same (·.hbm.fenced) (fun u t => hurtTile_same (f := fun v => v.hbm.fenced) (fun _ _ _ _ _ _ _ _ => rfl) c u t)]
    exact mem_insertBy

end Sys2Proof.HbmFacts
end

section
/-! SUPPORT. The patrol of HBM (12 R280 to R282): which of three ways a burst goes that it reads, and what each leaves of banks, rows and counters. -/

namespace Sys2Proof.PatrolReads

open Machine Laws HbmFacts

variable {s : State} {x : Scrub}

/-! ## Pins (R281) -/

/-- What the patrol reads of banks, rows and time. -/
def patrolView (s : State) : List BankRec × List RowCe × Nat × Power × List (Nat × Bytes) := (s.hbm.banks, s.hbm.ce, s.now, s.power, s.settings)

theorem patrolView_bump (k : Nat) (s : State) : patrolView (bump k s) = patrolView s := by simp [patrolView]

theorem patrolView_logEvent (code severity unit : Nat) (detail : Bytes) (s : State) : patrolView (logEvent code severity unit detail s) = patrolView s := by
  simp [patrolView]

theorem patrolView_markChannel (c : Nat) (s : State) : patrolView (markChannel c s) = patrolView s := by
  unfold markChannel; split <;> rfl

/-- Pins have their own records. -/
theorem patrolView_seePin (channel bank : Nat) (s : State) (pin : Nat) : patrolView (seePin channel bank s pin) = patrolView s := by
  have hlost : ∀ n, patrolView (losePin channel pin n s) = patrolView s := fun n => by
    have hlogged := (patrolView_logEvent Ev.hbmPinLost Ev.warning channel (toLE 1 pin ++ toLE 1 n) _).trans (patrolView_bump Key.lostPins s)
    unfold losePin
    dsimp only
    split
    · exact (patrolView_markChannel ..).trans hlogged
    · exact hlogged
  unfold seePin
  dsimp only
  split
  · exact hlost _
  · rfl

theorem patrolView_seen (channel bank : Nat) (symbols : List Nat) (s : State) :
    patrolView (symbols.foldl (seePin channel bank) (bump Key.hbmCorrectedBursts s)) = patrolView s :=
  (foldl_same patrolView (patrolView_seePin channel bank) _ _).trans (patrolView_bump ..)

theorem scrubPassNo_congr {u : State} (h : patrolView u = patrolView s) : scrubPassNo u = scrubPassNo s := by
  simp only [patrolView, Prod.mk.injEq] at h
  obtain ⟨_, _, hnow, hpower, hsettings⟩ := h
  simp [scrubPassNo, patrolTime, scrubPeriod, settingNat, setting, hnow, hpower, hsettings]

theorem rowPasses_congr {u : State} (h : patrolView u = patrolView s) (x : Scrub) : rowPasses u x = rowPasses s x := by
  have hce : u.hbm.ce = s.hbm.ce := congrArg (·.2.1) h
  unfold rowPasses
  rw [hce, scrubPassNo_congr h]

/-! ## A burst by its bad symbols (R280, R282, R285) -/

/-- What the patrol does with a burst of a channel that answers and is in service. -/
theorem readBurst_answered (hsilent : x.silent = false) (hmapped : s.hbm.mappedOut.contains x.channel = false) (hfenced : s.hbm.fenced.contains x.channel = false) :
    readBurst true x s =
      if 3 < (badSymbols s x).length then burstLost x s else if x.symbols.isEmpty then s else correctedRead true x s := by
  have hcorrectable : correctable s x = decide ((badSymbols s x).length ≤ 3) := by simp only [correctable, hsilent, hfenced]; rfl
  unfold readBurst
  simp only [hsilent, Bool.false_and, Bool.false_eq_true, if_false, hmapped, hcorrectable, decide_eq_false_iff_not, not_le]

/-- A burst that cannot be corrected is counted and recorded, and its unit is hurt, before its row fails. -/
theorem burstLost_rowFails (x : Scrub) (s : State) :
    ∃ v detail, burstLost x s = rowFails x.channel x.bank x.row v ∧ v.hbm.banks = s.hbm.banks ∧
      v.counters = (logEvent Ev.hbmUncorrectable Ev.error x.channel detail (bump Key.hbmUncorrectableBursts s)).counters := by
  refine ⟨_, toLE 1 x.bank ++ zeros 3 ++ toLE 4 x.row ++ toLE 4 ((slotAt s x.channel x.bank x.row x.burst).getD 0), rfl, ?_, ?_⟩
  · split
    · rw [logEvent_hbm, bump_hbm]
    · rw [hurtSlot_same (f := fun w => w.hbm.banks) (fun _ _ _ _ _ _ _ _ => rfl), logEvent_hbm, bump_hbm]
  · split
    · rfl
    · exact hurtSlot_same (f := fun w => w.counters) (fun _ _ _ _ _ _ _ _ => rfl) ..

/-- Its bank has one failed row more, and the module one uncorrectable burst more. -/
theorem burstLost_counts (hretired : isRetired s x.channel x.bank (some x.row) = false) (hw : Table.wf (fun _ => 0) s.counters = true)
    (hlt : counter s Key.hbmUncorrectableBursts + 1 < 2 ^ 64) :
    (bankRec (burstLost x s) x.channel x.bank).fails = (bankRec s x.channel x.bank).fails + 1 ∧
      counter (burstLost x s) Key.hbmUncorrectableBursts = counter s Key.hbmUncorrectableBursts + 1 := by
  obtain ⟨v, detail, hlost, hbanks, hcounters⟩ := burstLost_rowFails x s
  have hwv : Table.wf (fun _ => 0) v.counters = true := hcounters ▸ PowerStates.wf_logEvent (wf_bump hw)
  rw [hlost]
  refine ⟨?_, ?_⟩
  · rw [fails_rowFails (by rw [isRetired_congr hbanks, hretired]), bankRec_congr hbanks]
  · rw [counter_rowFails hwv (by decide) (by decide), counter_congr hcounters, counter_logEvent (wf_bump hw) (by decide), counter_bump hw hlt]

/-- Two or three bad symbols are corrected, and the row fails. -/
theorem correctedRead_several {scrub : Bool} (hretired : isRetired s x.channel x.bank (some x.row) = false) (h2 : 2 ≤ (badSymbols s x).length) :
    (bankRec (correctedRead scrub x s) x.channel x.bank).fails = (bankRec s x.channel x.bank).fails + 1 := by
  unfold correctedRead
  dsimp only
  rw [if_pos h2]
  have hbanks : (setPasses x 0 ((badSymbols s x).foldl (seePin x.channel x.bank) (bump Key.hbmCorrectedBursts s))).hbm.banks = s.hbm.banks :=
    congrArg (·.1) (patrolView_seen x.channel x.bank (badSymbols s x) s)
  rw [fails_rowFails (by rw [isRetired_congr hbanks, hretired]), bankRec_congr hbanks]

/-- One bad symbol, in a row below the threshold, is a pass of the row. -/
theorem correctedRead_single (h1 : (badSymbols s x).length = 1) (hbelow : rowPasses s x < settingNat s Key.rowCeThreshold) (hsome : 0 < rowPasses s x) :
    (correctedRead true x s).hbm.banks = s.hbm.banks ∧
      { channel := x.channel, bank := x.bank, row := x.row, passes := rowPasses s x, last := scrubPassNo s } ∈ (correctedRead true x s).hbm.ce := by
  have hview := patrolView_seen x.channel x.bank (badSymbols s x) s
  unfold correctedRead
  dsimp only
  rw [if_neg (by omega), if_pos ⟨h1, rfl⟩, if_neg (by omega)]
  refine ⟨congrArg (·.1) hview, ?_⟩
  unfold setPasses
  dsimp only
  rw [if_neg (by omega), scrubPassNo_congr hview]
  exact List.mem_append_right _ List.mem_cons_self

/-! ## SCRUB_PASS (R282) -/

/-- The state from which the patrol reads at `t`: the tiles have taken their places. -/
def laidOut (t : Nat) (s : State) : State := placeTiles (tick t s)

theorem laidOut_same {α : Type} (f : State → α) (hf : OutsideLayout f) (t : Nat) (s : State) : f (laidOut t s) = f (tick t s) := placeTiles_same hf _

theorem laidOut_banks (t : Nat) (s : State) : (laidOut t s).hbm.banks = s.hbm.banks := laidOut_same (·.hbm.banks) (fun _ _ _ _ _ _ _ _ => rfl) t s

theorem laidOut_counters (t : Nat) (s : State) : (laidOut t s).counters = s.counters := laidOut_same (·.counters) (fun _ _ _ _ _ _ _ _ => rfl) t s

theorem laidOut_badSymbols (t : Nat) (s : State) (x : Scrub) : badSymbols (laidOut t s) x = badSymbols s x :=
  laidOut_same (badSymbols · x) (fun _ _ _ _ _ _ _ _ => rfl) t s

theorem laidOut_patrolView (t : Nat) (s : State) : patrolView (laidOut t s) = patrolView (tick t s) := laidOut_same patrolView (fun _ _ _ _ _ _ _ _ => rfl) t s

/-- In P0 the patrol reads a burst of a channel in service that answers. -/
theorem exec_scrubPass {t : Nat} (hp0 : s.power.state = .p0) (hmapped : s.hbm.mappedOut.contains x.channel = false)
    (hfenced : s.hbm.fenced.contains x.channel = false) (hsilent : x.silent = false)
    (hslot : (slotAt (tick t s) x.channel x.bank x.row x.burst).isSome = true) :
    exec (.scrubPass x t) s = .next
      (if 3 < (badSymbols s x).length then burstLost x (laidOut t s)
       else if x.symbols.isEmpty then laidOut t s
       else correctedRead true x (laidOut t s)) := by
  have hmapped' : (laidOut t s).hbm.mappedOut.contains x.channel = false :=
    (laidOut_same (·.hbm.mappedOut.contains x.channel) (fun _ _ _ _ _ _ _ _ => rfl) t s).trans hmapped
  have hfenced' : (laidOut t s).hbm.fenced.contains x.channel = false :=
    (laidOut_same (·.hbm.fenced.contains x.channel) (fun _ _ _ _ _ _ _ _ => rfl) t s).trans hfenced
  have hread := readBurst_answered hsilent hmapped' hfenced'
  rw [laidOut_badSymbols] at hread
  rw [← hread]
  change execScrubPass x t s = _
  unfold execScrubPass
  dsimp only
  rw [if_neg (by simp [hp0, Option.isSome_iff_ne_none.mp hslot])]
  rfl

theorem badSymbols_of_empty (h : x.symbols = []) : badSymbols s x = [] := by simp [badSymbols, h, dedup]

theorem symbols_of_bad (h : 0 < (badSymbols s x).length) : x.symbols.isEmpty = false := by
  cases hsymbols : x.symbols with
  | nil => rw [badSymbols_of_empty hsymbols] at h; cases h
  | cons => rfl

end Sys2Proof.PatrolReads
end

section
/-! SUPPORT. Memory that leaves use (12 R284, R287; 18 R425): tiles that move out of retired memory, and a stack whose channels are fenced. -/

namespace Sys2Proof.MemoryRetirement

open Machine Laws HbmFacts PatrolReads

variable {s : State}

/-! ## TILE_RELOCATION (R284) -/

section Relocation

variable {channel bank row : Nat} {whole : Bool} {x : HbmTile}
  (hretired : isRetired (placeTiles s) channel bank (retiredPart whole row) = true)
  (htile : (placeTiles s).hbm.tiles.find? (·.id == x.id) = some x)
  (hin : tileIn (placeTiles s) x channel bank (retiredPart whole row) = true)
  (hstill : (placeTiles s).hbm.relocs.any (·.tile == x.id) = false)
  (hfree : writerAtWork (placeTiles s) x.obj = false)
include hretired htile hin hstill hfree

/-- Where there is room, the copy of the tile begins. -/
theorem exec_tileRelocation_moves {runs : List HbmRun} (hruns : allocate (placeTiles s) x.placement x.depth x.groups = some runs) :
    exec (.tileRelocation x.id channel bank whole row) s =
      .next { placeTiles s with hbm := { (placeTiles s).hbm with
        relocs := (placeTiles s).hbm.relocs ++ [{ tile := x.id, channel := channel, bank := bank, runs := runs }] } } := by
  change execTileRelocation x.id channel bank whole row s = _
  unfold execTileRelocation
  dsimp only
  rw [htile]
  dsimp only
  rw [if_neg (by simp only [hretired, hin, hstill, hfree]; decide), hruns]

/-- Where there is none, the memory is recorded, and the tile stays. -/
theorem exec_tileRelocation_stays (hruns : allocate (placeTiles s) x.placement x.depth x.groups = none) :
    ∃ u, exec (.tileRelocation x.id channel bank whole row) s = .next u ∧ u.hbm.tiles = (placeTiles s).hbm.tiles ∧
      u.hbm.relocs = (placeTiles s).hbm.relocs ∧ { channel := channel, bank := bank, row := retiredPart whole row } ∈ u.hbm.stuck := by
  change ∃ u, execTileRelocation x.id channel bank whole row s = .next u ∧ _
  unfold execTileRelocation
  dsimp only
  rw [htile]
  dsimp only
  rw [if_neg (by simp only [hretired, hin, hstill, hfree]; decide), hruns]
  refine ⟨_, rfl, ?_⟩
  split
  · rename_i hknown
    exact ⟨rfl, rfl, List.contains_iff_mem.mp hknown⟩
  · exact ⟨rfl, rfl, List.mem_append_right _ List.mem_cons_self⟩

end Relocation

/-! ## RELOCATION_SWITCH (R284) -/

/-- What is healed serves in collections and heads. -/
theorem healObject_same {α : Type} {f : State → α} (hf : ∀ (s : State) se m, f { s with search := se, mem := m } = f s) (o : MediaObj) (s : State) :
    f (healObject o s) = f s := by
  unfold healObject
  dsimp only
  split
  · rfl
  · cases o with
    | partition | append | tree | fullVec | valueBlock | replicated => exact hf s ..
    | training | plan | planTile | stash | working | tombTable | level => rfl

theorem healAll_same {α : Type} {f : State → α} (hf : ∀ (s : State) se m, f { s with search := se, mem := m } = f s) (l : List MediaObj) (s : State) :
    f (l.foldl (fun u o => healObject o u) s) = f s := foldl_same f (fun u o => healObject_same hf o u) l s

/-- A write past the caches changes the cache lines alone. -/
theorem bypassWrite_same {α : Type} {f : State → α} (hf : ∀ (s : State) l, f { s with hbm := { s.hbm with cache := l } } = f s) (p : MediaObj → Bool) (s : State) :
    f (bypassWrite p s) = f s := by
  unfold bypassWrite
  split
  · rfl
  · exact hf ..

/-- The units of a tile that are uncorrectable. -/
abbrev hurtIn (s : State) (x : HbmTile) : List Hurt := s.hbm.hurt.filter fun h => x.runs.any (runHolds s x.placement h.channel h.slot)

/-- The tile after its switch: it lies where the copy was made, and its old place stays until its readers are gone. -/
def switched (s : State) (r : Reloc) (x : HbmTile) : HbmTile :=
  { x with runs := r.runs, old := x.old.filter (fun o => readerBefore s o.order) ++ [{ runs := x.runs, order := s.ahp.nextOrder }] }

theorem any_unrecovered {l : List Hurt} : l.any (fun h => !h.recovered) = !l.all (·.recovered) := by simp [List.any_eq_not_all_not]

section Switch

variable {r : Reloc} {x : HbmTile} (hreloc : s.hbm.relocs.find? (·.tile == x.id) = some r) (htile : s.hbm.tiles.find? (·.id == x.id) = some x)
include hreloc htile

theorem exec_relocationSwitch_waits (hwaits : (hurtIn s x).all (·.recovered) = false) : exec (.relocationSwitch x.id) s = .next s := by
  change execRelocationSwitch x.id s = _
  unfold execRelocationSwitch
  rw [hreloc, htile]
  dsimp only
  rw [if_pos (any_unrecovered.trans (by rw [hwaits]; rfl))]

/-- The switch raises its counter over a state with the tile in its new place. -/
theorem exec_relocationSwitch_switches (hready : (hurtIn s x).all (·.recovered) = true) :
    ∃ v, exec (.relocationSwitch x.id) s = .next (idleFrom (bump Key.tilesRelocated v)) ∧ v.counters = s.counters ∧
      v.hbm.relocs = s.hbm.relocs.filter (·.tile ≠ x.id) ∧ v.hbm.tiles = mapIf (fun y => y.id == x.id) (fun _ => switched s r x) s.hbm.tiles := by
  change ∃ v, execRelocationSwitch x.id s = _ ∧ _
  unfold execRelocationSwitch
  rw [hreloc, htile]
  dsimp only
  rw [if_neg (by rw [any_unrecovered, hready]; decide)]
  refine ⟨_, rfl, ?_, ?_, ?_⟩
  · exact (healAll_same (f := (·.counters)) (fun _ _ _ => rfl) _ _).trans (bypassWrite_same (f := (·.counters)) (fun _ _ => rfl) ..)
  · exact (healAll_same (f := (·.hbm.relocs)) (fun _ _ _ => rfl) _ _).trans
      (congrArg (List.filter _) (bypassWrite_same (f := (·.hbm.relocs)) (fun _ _ => rfl) ..))
  · exact (healAll_same (f := (·.hbm.tiles)) (fun _ _ _ => rfl) _ _).trans
      (congrArg (mapIf _ _) (bypassWrite_same (f := (·.hbm.tiles)) (fun _ _ => rfl) ..))

omit hreloc in
theorem find_switched : (mapIf (fun y : HbmTile => y.id == x.id) (fun _ => switched s r x) s.hbm.tiles).find? (·.id == x.id) = some (switched s r x) := by
  rw [find_mapIf (fun _ _ => by simp [switched]), htile]
  rfl

/-- What a switch leaves, where every unit of the tile is recovered. -/
theorem exec_relocationSwitch (hready : (hurtIn s x).all (·.recovered) = true) (hw : Table.wf (fun _ => 0) s.counters = true)
    (hlt : counter s Key.tilesRelocated + 1 < 2 ^ 64) :
    ∃ u y, exec (.relocationSwitch x.id) s = .next u ∧ u.hbm.relocs = s.hbm.relocs.filter (·.tile ≠ x.id) ∧
      u.hbm.tiles.find? (·.id == x.id) = some y ∧ y.runs = r.runs ∧ y.obj = x.obj ∧ { runs := x.runs, order := s.ahp.nextOrder } ∈ y.old ∧
      counter u Key.tilesRelocated = counter s Key.tilesRelocated + 1 := by
  obtain ⟨v, hexec, hcounters, hrelocs, htiles⟩ := exec_relocationSwitch_switches hreloc htile hready
  refine ⟨_, switched s r x, hexec, ?_, ?_, rfl, rfl, List.mem_append_right _ List.mem_cons_self, ?_⟩
  · rw [idleFrom_hbm, bump_hbm, hrelocs]
  · rw [idleFrom_hbm, bump_hbm, htiles, find_switched htile]
  · exact counter_bump_from hcounters hw hlt

end Switch

/-! ## STACK_DRAIN_COMPLETE (R287; 18 R425) -/

/-- The state in which the channels of a stack have been marked and fenced. -/
def fencedOff (stack : Nat) (s : State) : State :=
  (stackChannels stack).foldl (fun u c => fence c u) (placeTiles ((stackChannels stack).foldl (fun u c => markChannel c u) (bump Key.hbmThermalSteps s)))

theorem mem_fencedOff {stack c : Nat} (hc : c ∈ stackChannels stack) : c ∈ (fencedOff stack s).hbm.fenced ∧ c ∈ (fencedOff stack s).hbm.marked := by
  obtain ⟨_, hfence⟩ := mem_foldl (g := (·.hbm.fenced)) (op := fence) (fun _ _ _ hx => mem_fence.mpr (.inr hx)) (fun _ _ => mem_fence.mpr (.inl rfl))
    (stackChannels stack) (placeTiles ((stackChannels stack).foldl (fun u c => markChannel c u) (bump Key.hbmThermalSteps s)))
  obtain ⟨_, hmark⟩ := mem_foldl (g := (·.hbm.marked)) (op := markChannel) (fun _ _ _ hx => mem_markChannel.mpr (.inr hx)) (fun _ _ => mem_markChannel.mpr (.inl rfl))
    (stackChannels stack) (bump Key.hbmThermalSteps s)
  unfold fencedOff
  refine ⟨hfence c hc, ?_⟩
  rw [foldl_same (·.hbm.marked) (fun u c => fence_marked c u), placeTiles_same (f := fun v => v.hbm.marked) fun _ _ _ _ _ _ _ _ => rfl]
  exact hmark c hc

/-- A notice of degradation is sent. -/
theorem sendDegraded_same {α : Type} {f : State → α} (hf : ∀ peers type b (s : State), f (sendAll peers type b s) = f s) (cause stack : Nat) (s : State) :
    f (sendDegraded cause stack s) = f s := by
  unfold sendDegraded
  dsimp only
  exact (foldl_same f (fun u r => hf ..) _ _).trans (foldl_same f (fun u g => hf ..) _ _)

theorem stackOut_hbm (stack : Nat) (beyond : Bool) (s : State) : (stackOut stack beyond s).hbm = (fencedOff stack s).hbm := by
  unfold stackOut
  dsimp only
  rw [sendDegraded_same (f := (·.hbm)) (fun peers type b u => sendAll_hbm u peers type b), logEvent_hbm, logEvent_hbm]
  unfold fencedOff
  dsimp only

/-- The stack drains no more, and the module is degraded. -/
theorem stackOut_power (stack : Nat) (beyond : Bool) (s : State) :
    (stackOut stack beyond s).power.degraded = true ∧ stack ∉ (stackOut stack beyond s).power.draining := by
  unfold stackOut
  dsimp only
  rw [sendDegraded_same (f := (·.power)) (fun peers type b u => sendAll_power u peers type b), logEvent_power, logEvent_power]
  exact ⟨rfl, by simp⟩

theorem exec_stackDrainComplete {stack : Nat} (hdrains : s.power.draining.contains stack = true) (hnone : memoryCmds s = []) :
    exec (.stackDrainComplete stack) s = .next (stackOut stack false s) := by
  change execStackDrainComplete stack s = _
  unfold execStackDrainComplete
  rw [if_pos ⟨hdrains, hnone⟩]

/-! ## The claim -/

/-- Settles O21: a burst that the patrol reads goes one of three ways, each of which ends in a failed row or in a pass of the row; a tile moves or stays recorded, and
switches once its units are recovered; and a stack's channels are marked and fenced one by one. -/
theorem failingMemoryLeavesUse : Obligations.FailingMemoryLeavesUse := by
  refine ⟨?patrol, ?relocation, ?switch, ?stack⟩
  case patrol =>
    intro x t s hp0 hmapped hfenced hsilent hslot hretired _
    have hread := exec_scrubPass hp0 hmapped hfenced hsilent hslot
    have hretired' := (isRetired_congr (laidOut_banks t s) x.channel x.bank (some x.row)).trans hretired
    have hbad := laidOut_badSymbols t s x
    have hview := laidOut_patrolView t s
    refine ⟨fun hmore hcanonical hlt => ?lost, fun hmin hmax => ?several, fun hone hbelow hsome => ?single, fun hclean => ?clean⟩
    case lost =>
      obtain ⟨hw, _⟩ := hcanonical
      rw [if_pos hmore] at hread
      have hcounter := counter_congr (laidOut_counters t s) Key.hbmUncorrectableBursts
      obtain ⟨hfails, hcounts⟩ := burstLost_counts hretired' (laidOut_counters t s ▸ hw) (hcounter ▸ hlt)
      exact ⟨_, hread, hfails.trans (by rw [bankRec_congr (laidOut_banks t s)]), hcounts.trans (by rw [hcounter])⟩
    case several =>
      rw [if_neg (by omega), if_neg (by rw [symbols_of_bad (s := s) (by omega)]; decide)] at hread
      exact ⟨_, hread, (correctedRead_several hretired' (hbad ▸ hmin)).trans (by rw [bankRec_congr (laidOut_banks t s)])⟩
    case single =>
      rw [if_neg (by omega), if_neg (by rw [symbols_of_bad (s := s) (by omega)]; decide)] at hread
      have hpasses := rowPasses_congr hview x
      have hthreshold : settingNat (laidOut t s) Key.rowCeThreshold = settingNat s Key.rowCeThreshold :=
        laidOut_same (settingNat · Key.rowCeThreshold) (fun _ _ _ _ _ _ _ _ => rfl) t s
      obtain ⟨hbanks, hce⟩ := correctedRead_single (hbad ▸ hone) (by rwa [hpasses, hthreshold]) (by rwa [hpasses])
      rw [hpasses, scrubPassNo_congr hview] at hce
      exact ⟨_, hread, hbanks.trans (laidOut_banks t s), hce⟩
    case clean =>
      rw [badSymbols_of_empty hclean, if_neg (by decide), hclean] at hread
      exact hread
  case relocation =>
    intro channel bank whole row x s hretired htile hin hstill hfree
    cases hruns : allocate (placeTiles s) x.placement x.depth x.groups with
    | some runs => exact ⟨_, exec_tileRelocation_moves hretired htile hin hstill hfree hruns, rfl, rfl, rfl⟩
    | none => exact exec_tileRelocation_stays hretired htile hin hstill hfree hruns
  case switch =>
    exact fun r x s hreloc htile => ⟨exec_relocationSwitch hreloc htile, exec_relocationSwitch_waits hreloc htile⟩
  case stack =>
    intro stack s hdrains hnone
    obtain ⟨hdegraded, hgone⟩ := stackOut_power stack false s
    exact ⟨_, exec_stackDrainComplete hdrains hnone, hdegraded, hgone, fun c hc => (stackOut_hbm stack false s).symm ▸ mem_fencedOff hc⟩

end Sys2Proof.MemoryRetirement
end

section
/-! SUPPORT. Memory that serves again (12 R273, R285, R286, R291): recovered units, scratchpad banks that are granted, and the end of a run of the traffic generator. -/

namespace Sys2Proof.MediaService

open Machine Laws

variable {s : State}

/-! ## MEDIA_RECOVERY (R285, R286) -/

/-- Nothing else of a partition is hurt: it is whole, for the commands admitted from now on. -/
theorem findColl_healObject {coll part : Nat} {c : Coll} (hwhole : s.hbm.hurt.any (fun x => x.obj == .partition coll part) = false) (hc : findColl s coll = some c) :
    findColl (healObject (.partition coll part) s) coll =
      some { c with damaged := c.damaged.filter (· ≠ part), healed := c.healed ++ [(part, s.ahp.nextOrder)] } := by
  unfold healObject
  dsimp only
  rw [if_neg (by rw [hwhole]; decide)]
  exact findColl_upd (f := fun c => { c with damaged := c.damaged.filter (· ≠ part), healed := c.healed ++ [(part, s.ahp.nextOrder)] }) (fun _ => rfl) hc

/-- A unit is off the list of hurt ones. -/
def unhurt (channel slot : Nat) (s : State) : State :=
  { s with hbm := { s.hbm with hurt := s.hbm.hurt.filter fun x => !(x.channel == channel && x.slot == slot) } }

section Recovery

variable {channel slot : Nat} {h : Hurt} (hhurt : s.hbm.hurt.find? (fun x => x.channel == channel && x.slot == slot && !x.recovered) = some h)
  (hhbm : sramObject h.obj = false)
include hhurt hhbm

/-- A unit in service is taken off the list of hurt ones before its object heals. -/
theorem exec_mediaRecovery_heals (hfenced : s.hbm.fenced.contains channel = false)
    (hstill : ((hbmTileAt s channel slot).any fun t => s.hbm.relocs.any (·.tile == t.id)) = false) (hserves : slotRetired s channel slot = false) :
    exec (.mediaRecovery channel slot) s = .next (idleFrom (bump Key.mediaRecoveries (healObject h.obj (unhurt channel slot s)))) := by
  change execMediaRecovery channel slot s = _
  unfold execMediaRecovery
  rw [hhurt]
  dsimp only
  rw [if_neg (by rw [hhbm]; decide), if_neg (by rw [hfenced]; decide), if_neg (by rw [hstill]; decide), if_neg (by rw [hserves]; decide)]
  rfl

/-- What its recovery leaves. -/
theorem mediaRecovery_heals (hfenced : s.hbm.fenced.contains channel = false)
    (hstill : ((hbmTileAt s channel slot).any fun t => s.hbm.relocs.any (·.tile == t.id)) = false) (hserves : slotRetired s channel slot = false)
    (hw : Table.wf (fun _ => 0) s.counters = true) (hlt : counter s Key.mediaRecoveries + 1 < 2 ^ 64) :
    ∃ u, exec (.mediaRecovery channel slot) s = .next u ∧ u.hbm.hurt = s.hbm.hurt.filter (fun x => !(x.channel == channel && x.slot == slot)) ∧
      counter u Key.mediaRecoveries = counter s Key.mediaRecoveries + 1 ∧
      (∀ coll part c, h.obj = .partition coll part → u.hbm.hurt.any (fun x => x.obj == .partition coll part) = false → findColl s coll = some c →
        ∃ d, findColl u coll = some d ∧ d.damaged = c.damaged.filter (· ≠ part) ∧ d.healed = c.healed ++ [(part, s.ahp.nextOrder)]) := by
  refine ⟨_, exec_mediaRecovery_heals hhurt hhbm hfenced hstill hserves, ?_, ?_, fun coll part c hobj hwhole hc => ?_⟩
  · rw [idleFrom_hbm, bump_hbm]
    exact congrArg Hbm.hurt (MemoryRetirement.healObject_same (f := (·.hbm)) (fun _ _ _ => rfl) ..)
  · exact counter_bump_from (MemoryRetirement.healObject_same (f := (·.counters)) (fun _ _ _ => rfl) ..) hw hlt
  · rw [idleFrom_hbm, bump_hbm, MemoryRetirement.healObject_same (f := (·.hbm)) fun _ _ _ => rfl] at hwhole
    have hserving : findColl (idleFrom (bump Key.mediaRecoveries (healObject h.obj (unhurt channel slot s)))) coll = _ :=
      (QueryStages.findColl_congr ((idleFrom_search _).trans (bump_search ..)) coll).trans (hobj ▸ findColl_healObject (s := unhurt channel slot s) hwhole hc)
    exact ⟨_, hserving, rfl, rfl⟩

/-- A unit in a tile that moves is written to the copy, which serves from the switch on (R284). -/
theorem mediaRecovery_copies (hfenced : s.hbm.fenced.contains channel = false)
    (hmoves : ((hbmTileAt s channel slot).any fun t => s.hbm.relocs.any (·.tile == t.id)) = true)
    (hw : Table.wf (fun _ => 0) s.counters = true) (hlt : counter s Key.mediaRecoveries + 1 < 2 ^ 64) :
    ∃ u, exec (.mediaRecovery channel slot) s = .next u ∧ { h with recovered := true } ∈ u.hbm.hurt ∧ u.search = s.search ∧ u.mem = s.mem ∧
      counter u Key.mediaRecoveries = counter s Key.mediaRecoveries + 1 := by
  change ∃ u, execMediaRecovery channel slot s = .next u ∧ _
  unfold execMediaRecovery
  rw [hhurt]
  dsimp only
  rw [if_neg (by rw [hhbm]; decide), if_neg (by rw [hfenced]; decide), if_pos hmoves]
  refine ⟨_, rfl, ?_, by simp, by simp, counter_bump_from rfl hw hlt⟩
  rw [idleFrom_hbm, bump_hbm]
  have hplace : (h.channel == channel && h.slot == slot) = true := by
    have hfound := List.find?_some hhurt
    simp only [Bool.and_eq_true] at hfound
    simpa using hfound.1
  exact List.mem_map.mpr ⟨h, List.mem_of_find?_eq_some hhurt, if_pos hplace⟩

/-- A unit on a fenced channel waits for the reset (R287), and one in retired memory for the relocation of its tile (R284). -/
theorem exec_mediaRecovery_waits
    (hwaits : s.hbm.fenced.contains channel = true ∨
      (((hbmTileAt s channel slot).any fun t => s.hbm.relocs.any (·.tile == t.id)) = false ∧ slotRetired s channel slot = true)) :
    exec (.mediaRecovery channel slot) s = .next s := by
  change execMediaRecovery channel slot s = _
  unfold execMediaRecovery
  rw [hhurt]
  dsimp only
  rw [if_neg (by rw [hhbm]; decide)]
  by_cases hfenced : s.hbm.fenced.contains channel = true
  · rw [if_pos hfenced]
  · obtain ⟨hstill, hretired⟩ := hwaits.resolve_left hfenced
    rw [if_neg hfenced, if_neg (by rw [hstill]; decide), if_pos hretired]

end Recovery

/-! ## SCRATCH_BANKS_GRANTED (R273) -/

/-- The command that has waited longest holds its banks. -/
def granted (w : BankHold) (r : List BankHold) (s : State) : State := { s with hbm := { s.hbm with holds := s.hbm.holds ++ [w], waiters := r } }

section Grant

variable {w : BankHold} {r : List BankHold} (hw : s.hbm.waiters = w :: r)
include hw

theorem exec_scratchBanksGranted (hfree : w.banks ≤ banksFree s) :
    exec .scratchBanksGranted s = .next (runBanked w.seq (granted w r s)) := by
  change execScratchBanksGranted s = _
  unfold execScratchBanksGranted
  rw [hw]
  exact if_pos hfree

theorem exec_scratchBanksGranted_waits (hfew : banksFree s < w.banks) : exec .scratchBanksGranted s = .next s := by
  change execScratchBanksGranted s = _
  unfold execScratchBanksGranted
  rw [hw]
  exact if_neg hfew.not_ge

end Grant

/-- The banks that a command takes are not free any more. -/
theorem banksFree_granted {w : BankHold} {r : List BankHold} (hfree : w.banks ≤ banksFree s) : banksFree (granted w r s) + w.banks = banksFree s := by
  have hheld : banksHeld (granted w r s) = banksHeld s + w.banks := by simp [banksHeld, granted, sumOf]
  unfold banksFree at hfree ⊢
  rw [hheld]
  change settingNat s Key.scratchBankCount - _ + _ = _
  omega

theorem runBanked_idle {seq : Nat} (hnone : (findFwd s seq).any (·.phase == .banks) = false) : runBanked seq s = s := by
  unfold runBanked
  exact if_neg (by rw [hnone]; decide)

/-! ## TG_RUN_COMPLETE (R291) -/

/-- A count of a run: of a run that compares a known pattern, none goes beyond what the run covers. -/
def covered (s : State) (n most : Nat) : Nat := if s.hbm.tg.run.isNone then n else min n most

/-- The pin counts of a run. -/
def runPins (s : State) (pins : List Nat) : List Nat := if tgRaw s then pins.map (covered s · (8 * tgBursts s)) else List.replicate 72 0

/-- The errors of a run: differing bits with RAW, and else corrected and uncorrectable bursts. -/
def runErrors (s : State) (pins : List Nat) (corrected uncorrectable : Nat) : Nat :=
  if tgRaw s then sumOf (pins.map (covered s · (8 * tgBursts s)))
  else covered s corrected (tgBursts s - covered s uncorrectable (tgBursts s)) + covered s uncorrectable (tgBursts s)

/-- The generator after a run. -/
def runDone (s : State) (pins : List Nat) (corrected uncorrectable : Nat) : TestGen where
  state := if runErrors s pins corrected uncorrectable = 0 then 2 else 3
  failed := ((runPins s pins).filter (· ≠ 0)).length
  errors := runErrors s pins corrected uncorrectable
  pins := runPins s pins
  written := s.hbm.tg.written
  run := s.hbm.tg.run

theorem exec_tgRunComplete {pins : List Nat} {corrected uncorrectable : Nat} (hruns : s.hbm.tg.state = 1) :
    ∃ u, exec (.tgRunComplete pins corrected uncorrectable) s = .next u ∧ u.hbm.tg = runDone s pins corrected uncorrectable := by
  change ∃ u, execTgRunComplete pins corrected uncorrectable s = .next u ∧ _
  unfold execTgRunComplete
  rw [if_neg (not_not.mpr hruns)]
  refine ⟨_, rfl, ?_⟩
  unfold runDone runErrors runPins
  split
  · rfl
  · rw [bumpBy_hbm, bumpBy_hbm]
    rfl

/-! ## The claim -/

/-- Settles O22: a recovered unit goes one of three ways, the banks that are granted are the first waiter's, and a run ends as `runDone`. -/
theorem mediaServeAgain : Obligations.MediaServeAgain := by
  refine ⟨?recovery, ?grant, ?run⟩
  case recovery =>
    intro channel slot h s hhurt
    exact ⟨fun hhbm hfenced hstill hserves hw hlt => mediaRecovery_heals hhurt hhbm hfenced hstill hserves hw hlt,
      fun hhbm hfenced hmoves hw hlt => mediaRecovery_copies hhurt hhbm hfenced hmoves hw hlt,
      fun hhbm hwaits => exec_mediaRecovery_waits hhurt hhbm hwaits⟩
  case grant =>
    intro w r s hw
    exact ⟨fun hfree => ⟨granted w r s, exec_scratchBanksGranted hw hfree, rfl, rfl, banksFree_granted hfree, rfl, fun hnone =>
      (exec_scratchBanksGranted hw hfree).trans (congrArg Host.Outcome.next (runBanked_idle hnone))⟩, exec_scratchBanksGranted_waits hw⟩
  case run =>
    intro pins corrected uncorrectable s hruns most
    obtain ⟨u, hexec, hdone⟩ := exec_tgRunComplete (pins := pins) (corrected := corrected) (uncorrectable := uncorrectable) hruns
    exact ⟨u, hexec, hdone ▸ rfl, hdone ▸ rfl, hdone ▸ rfl, hdone ▸ rfl⟩

end Sys2Proof.MediaService
end

section
/-! SUPPORT. A WRITE of one item through DAP (16 R371, R374, R375): the frame that a session serves, the entry that its item names, and the reply. -/

namespace Sys2Proof.SingleWrites

open Machine Laws

variable {s : State} {id : Nat} {b : Bytes}

/-! ## The frame (R371, R375) -/

/-- A new frame of a session is carried out in the state that has counted it, at a level that its operation asks for and outside what recovery mode refuses. -/
theorem dapFrame_new (hnew : dapNew s id b = true) :
    ∃ x, dapFrame id b s = dapPerform id b x (dapAccepted id b s) ∧ opRole (dapOp b) ≤ x.level ∧
      (s.power.state == .recovery && [3, 6, 7].contains (dapOp b)) = false := by
  unfold dapNew at hnew
  cases hx : findSession s id with
  | none => rw [hx] at hnew; cases hnew
  | some x =>
    rw [hx] at hnew
    simp only [Bool.and_eq_true, Bool.not_eq_true', decide_eq_true_eq, Option.isNone_iff_eq_none] at hnew
    obtain ⟨⟨⟨⟨⟨⟨⟨⟨hgone, hserves⟩, hgood⟩, hkept⟩, hout⟩, hhigh⟩, hfew⟩, hlevel⟩, hmode⟩ := hnew
    refine ⟨x, ?_, hlevel, hmode⟩
    have hfresh : x.kept.find? (·.requestId == dapId b) = none := by simpa [List.find?_eq_none] using hkept
    unfold dapFrame
    rw [hx]
    dsimp only
    rw [if_neg (by simp [hgone, hserves]), hgood]
    dsimp only
    unfold dapRequest
    rw [hfresh]
    dsimp only
    rw [if_neg (by simp only [hout, hhigh]; simpa using hfew)]
    rfl

/-- A frame of a WRITE is carried out as one. -/
theorem dapFrame_write (hnew : dapNew s id b = true) (hop : dapOp b = 2) : dapFrame id b s = dapWrite id b (dapAccepted id b s) := by
  obtain ⟨x, hframe, hlevel, _⟩ := dapFrame_new hnew
  rw [hframe]
  unfold dapPerform
  dsimp only
  rw [if_neg (Nat.not_lt.mpr hlevel), hop, if_neg (by simp)]
  rfl

/-! ## The entry (R289, R314) -/

variable {it : DapItem}

/-- The generator's register that a command writes with START, and DIRECTION or MODE of that START. -/
def startEntry : DapRow → Option (Nat × Nat)
  | .tgWriteRead => some (Key.tgControl, 0)
  | .tgReadOnly => some (Key.tgControl, 1)
  | .tgWriteOnly => some (Key.tgControl, 2)
  | .ftgWriteRead => some (Key.ftgControl, 0)
  | .ftgReadVerify => some (Key.ftgControl, 1)
  | .ftgEraseTest => some (Key.ftgControl, 2)
  | _ => none

/-- The command of a frame with one item starts a generator as the item asks. -/
theorem startEntry_rowOf {e : Nat × Nat} (hitems : frameItems b = [it]) (hrow : startEntry (rowOf b) = some e) :
    dapOp b = 2 ∧ (writeRow it).bind startEntry = some e := by
  unfold rowOf at hrow
  rw [hitems] at hrow
  split at hrow
  case h_1 => split at hrow <;> cases hrow
  case h_2 hop =>
    refine ⟨hop, ?_⟩
    cases hw : writeRow it with
    | none => simp [hw, startEntry] at hrow
    | some r => simpa [hw] using hrow
  all_goals cases hrow

theorem startEntry_direction : ∀ i < 4, ([some DapRow.tgWriteRead, some .tgReadOnly, some .tgWriteOnly, none].getD i none).bind startEntry =
    if i < 3 then some (Key.tgControl, i) else none := by decide

theorem startEntry_mode : ∀ i < 4, ([some DapRow.ftgWriteRead, some .ftgReadVerify, some .ftgEraseTest, none].getD i none).bind startEntry =
    if i < 3 then some (Key.ftgControl, i) else none := by decide

theorem startEntry_load (i : Nat) : ([none, some DapRow.imageBegin, some .imageFinish, some .imageAbandon, some .imageMarkPending,
    some .imageClearPending].getD i none).bind startEntry = none := by
  have hnone : ∀ o ∈ [none, some DapRow.imageBegin, some .imageFinish, some .imageAbandon, some .imageMarkPending, some .imageClearPending],
      o.bind startEntry = none := by decide
  rw [List.getD_eq_getElem?_getD]
  cases hi : ([none, some DapRow.imageBegin, some .imageFinish, some .imageAbandon, some .imageMarkPending, some .imageClearPending] : List (Option DapRow))[i]? with
  | none => rfl
  | some o => exact hnone o (List.mem_of_getElem? hi)

/-- Which items start a generator: TG_CONTROL and FTG_CONTROL with bit 31 set, by their DIRECTION or MODE. -/
theorem bind_writeRow (it : DapItem) : (writeRow it).bind startEntry =
    let n := leNat it.value
    if it.key = Key.tgControl then (if n < 2 ^ 31 then none else if n / 16384 % 4 < 3 then some (Key.tgControl, n / 16384 % 4) else none)
    else if it.key = Key.ftgControl then (if n < 2 ^ 31 then none else if n / 2 ^ 24 % 4 < 3 then some (Key.ftgControl, n / 2 ^ 24 % 4) else none)
    else none := by
  unfold writeRow
  dsimp only
  by_cases htg : it.key = Key.tgControl
  · rw [if_pos htg, if_pos htg]
    split
    · rfl
    · exact startEntry_direction _ (Nat.mod_lt _ (by decide))
  · rw [if_neg htg, if_neg htg]
    by_cases hftg : it.key = Key.ftgControl
    · rw [if_pos hftg, if_pos hftg]
      split
      · rfl
      · exact startEntry_mode _ (Nat.mod_lt _ (by decide))
    · rw [if_neg hftg, if_neg hftg]
      split_ifs
      exacts [rfl, rfl, startEntry_load _, rfl, rfl, rfl, rfl, rfl, rfl]

/-- A START of the HBM generator. -/
theorem starts_tg {d : Nat} (h : (writeRow it).bind startEntry = some (Key.tgControl, d)) :
    it.key = Key.tgControl ∧ 2 ^ 31 ≤ leNat it.value ∧ leNat it.value / 16384 % 4 = d := by
  rw [bind_writeRow] at h
  dsimp only at h
  split_ifs at h with htg hsmall hdir hftg
  · cases h
    exact ⟨htg, by omega, rfl⟩
  · exact absurd (Prod.mk.inj (Option.some.inj h)).1 (by decide)

/-- A START of the flash generator. -/
theorem starts_ftg {d : Nat} (h : (writeRow it).bind startEntry = some (Key.ftgControl, d)) : it.key = Key.ftgControl ∧ 2 ^ 31 ≤ leNat it.value := by
  rw [bind_writeRow] at h
  dsimp only at h
  split_ifs at h with htg hsmall hdir hftg
  · exact absurd (Prod.mk.inj (Option.some.inj h)).1 (by decide)
  · exact ⟨hftg, by omega⟩

/-! ## The values of entries -/

/-- A value that is set is read back, and every other as before. -/
theorem setting_setSetting (k j : Nat) (v : Bytes) (hw : Table.wf settingDefault s.settings = true) :
    setting (setSetting k v s) j = if k = j then v else setting s j := tableGet_tableSet j hw

theorem setting_congr {u : State} (h : u.settings = s.settings) (k : Nat) : setting u k = setting s k := by
  unfold setting; rw [h]

/-! ## The write and its reply (R374) -/

/-- A reply counts and goes out on its session. -/
theorem dapAnswer_same {α : Type} {f : State → α} (hbump : ∀ k s, f (bump k s) = f s) (hsession : ∀ i g s, f (updSession i g s) = f s)
    (hemit : ∀ o s, f (emit o s) = f s) (id op rid : Nat) (r : DapReply) (s : State) : f (dapAnswer id op rid r s) = f s := by
  have hcounted : ∀ c : Prop, [Decidable c] → f (if c then s else bump Key.dapFramesRejected s) = f s := fun c _ => by
    split
    · rfl
    · exact hbump ..
  unfold dapAnswer
  dsimp only
  split
  · exact hcounted _
  · split
    · exact hcounted _
    · rw [hemit, hsession, hcounted]

/-- A single item that passes its check takes effect, and is answered; DIAGNOSTIC_MODE is answered later, and ROLE_RECORD closes sessions too. -/
theorem dapWrite_single {y : Session} (hy : findSession s id = some y) (hitems : frameItems b = [it]) (hcheck : writeCheck s y [it] it = 0)
    (hdiag : it.key ≠ Key.diagnosticMode) (hrole : it.key ≠ Key.roleRecord) :
    dapWrite id b s = dapAnswer id 2 (dapId b) (itemReply none 1 (resultItems [(it, 0)])) (writeEffect id b s it) := by
  have hres : resultsGo (writeCheck s y [it]) [it] = [(it, 0)] := by simp [resultsGo, hcheck]
  unfold dapWrite
  rw [hy]
  dsimp only
  rw [hitems, hres, if_neg (by simp [firstFailed]), if_neg (by simpa using hdiag), if_neg (by simpa using hrole)]
  rfl

end Sys2Proof.SingleWrites
end

section
/-! SUPPORT. START of the traffic generators (12 R289 to R291; 13 R314): what a write of TG_CONTROL or FTG_CONTROL leaves of its generator and of the rest. -/

namespace Sys2Proof.GeneratorStarts

open Machine Laws SingleWrites

variable {s : State} {id t : Nat} {b : Bytes} {it : DapItem} {y : Session}

/-! ## The registers (R290) -/

/-- START reads 0: what the register holds is the value without its bit 31. -/
theorem leNat_without_start (n : Nat) : leNat (toLE 4 (n % 2 ^ 31)) = n % 2 ^ 31 := by
  rw [leNat_toLE, Nat.mod_eq_of_lt ((Nat.mod_lt n (by decide)).trans (by decide))]

/-- What the run covers is read from entries that a write of TG_CONTROL leaves. -/
theorem tgSpan_control {u : State} (v : Nat) (x : Bytes) (hu : u.settings = s.settings) (hw : Table.wf settingDefault s.settings = true) :
    tgSpan v (setSetting Key.tgControl x u) = tgSpan v s := by
  have hkept : ∀ k, Key.tgControl ≠ k → settingNat (setSetting Key.tgControl x u) k = settingNat s k := fun k hk => by
    unfold settingNat
    rw [setting_setSetting _ _ _ (hu ▸ hw), if_neg hk, setting_congr hu]
  unfold tgSpan
  rw [hkept Key.tgBytes (by decide), hkept Key.tgSeed (by decide)]

/-- A write with START begins a run of the HBM generator. -/
theorem writeTg_start {v : Nat} (hstart : 2 ^ 31 ≤ v) :
    (writeTg v s).settings = (setSetting Key.tgControl (toLE 4 (v % 2 ^ 31)) s).settings ∧ (writeTg v s).cold = s.cold ∧
      (writeTg v s).hbm.tg = startGen 72 (v / 16384 % 4) (tgSpan v (setSetting Key.tgControl (toLE 4 (v % 2 ^ 31)) s)) s.hbm.tg := by
  unfold writeTg
  dsimp only
  rw [if_neg (Nat.not_lt.mpr hstart)]
  exact ⟨rfl, rfl, rfl⟩

/-- A write with START begins a run of the flash generator. -/
theorem writeFtg_start {v : Nat} (hstart : 2 ^ 31 ≤ v) :
    (writeFtg v s).settings = (setSetting Key.ftgControl (toLE 4 (v % 2 ^ 31)) s).settings ∧ (writeFtg v s).hbm = s.hbm ∧
      ∃ x, (writeFtg v s).cold.ftg = startGen 0 0 x s.cold.ftg := by
  unfold writeFtg
  dsimp only
  rw [if_neg (Nat.not_lt.mpr hstart)]
  exact ⟨rfl, rfl, _, rfl⟩

/-! ## The commands -/

section Frame

variable (hnew : dapNew (tick t s) id b = true) (hy : findSession (dapAccepted id b (tick t s)) id = some y) (hitems : frameItems b = [it])
  (hcheck : writeCheck (dapAccepted id b (tick t s)) y [it] it = 0) (hw : Table.wf settingDefault s.settings = true)
include hnew hy hitems hcheck hw

omit hw in
/-- A command that starts a generator writes its register, and answers. -/
theorem dapCommand_start {row : DapRow} {k d : Nat} (hrow : rowOf b = row) (hstart : startEntry row = some (k, d)) (hkey : it.key = k)
    (hdiag : k ≠ Key.diagnosticMode) (hrole : k ≠ Key.roleRecord) :
    dapCommand row id b t s = dapAnswer id 2 (dapId b) (itemReply none 1 (resultItems [(it, 0)])) (writeEffect id b (dapAccepted id b (tick t s)) it) := by
  obtain ⟨hop, _⟩ := startEntry_rowOf hitems (hrow ▸ hstart)
  unfold dapCommand
  rw [if_pos hrow, dapFrame_write hnew hop, dapWrite_single hy hitems hcheck (hkey ▸ hdiag) (hkey ▸ hrole)]

/-- The start of the HBM generator, whatever its DIRECTION. -/
theorem dapCommand_tg {row : DapRow} {d : Nat} (hrow : rowOf b = row) (hstart : startEntry row = some (Key.tgControl, d)) :
    (dapCommand row id b t s).hbm.tg = startGen 72 d (tgSpan (leNat it.value) s) s.hbm.tg ∧
      leNat (setting (dapCommand row id b t s) Key.tgControl) = leNat it.value % 2 ^ 31 ∧ (dapCommand row id b t s).cold = s.cold := by
  obtain ⟨hop, hasks⟩ := startEntry_rowOf hitems (hrow ▸ hstart)
  obtain ⟨hkey, hbit, hdir⟩ := starts_tg hasks
  have heffect : writeEffect id b (dapAccepted id b (tick t s)) it = writeTg (leNat it.value) (dapAccepted id b (tick t s)) := if_pos hkey
  have haccepted : (dapAccepted id b (tick t s)).settings = s.settings := by simp [dapAccepted]
  obtain ⟨hsettings, hcold, htg⟩ := writeTg_start (s := dapAccepted id b (tick t s)) hbit
  rw [dapCommand_start hnew hy hitems hcheck hrow hstart hkey (by decide) (by decide), heffect]
  refine ⟨?_, ?_, ?_⟩
  · rw [dapAnswer_same (f := (·.hbm)) (fun k u => bump_hbm u k) (fun _ _ _ => rfl) (fun o u => emit_hbm u o), htg, hdir, tgSpan_control _ _ haccepted hw]
    simp [dapAccepted]
  · rw [setting_congr (dapAnswer_same (f := (·.settings)) (fun k u => bump_settings u k) (fun _ _ _ => rfl) (fun o u => emit_settings u o) ..),
      setting_congr hsettings, setting_setSetting _ _ _ (haccepted ▸ hw), if_pos rfl, leNat_without_start]
  · rw [dapAnswer_same (f := (·.cold)) (fun k u => bump_cold u k) (fun _ _ _ => rfl) (fun o u => emit_cold u o), hcold]
    simp [dapAccepted]

/-- The start of the flash generator, whatever its MODE. -/
theorem dapCommand_ftg {row : DapRow} {d : Nat} (hrow : rowOf b = row) (hstart : startEntry row = some (Key.ftgControl, d)) :
    (∃ x, (dapCommand row id b t s).cold.ftg = startGen 0 0 x s.cold.ftg) ∧
      leNat (setting (dapCommand row id b t s) Key.ftgControl) = leNat it.value % 2 ^ 31 ∧ (dapCommand row id b t s).hbm = s.hbm := by
  obtain ⟨hop, hasks⟩ := startEntry_rowOf hitems (hrow ▸ hstart)
  obtain ⟨hkey, hbit⟩ := starts_ftg hasks
  have heffect : writeEffect id b (dapAccepted id b (tick t s)) it = writeFtg (leNat it.value) (dapAccepted id b (tick t s)) :=
    (if_neg (by rw [hkey]; decide)).trans (if_pos hkey)
  have haccepted : (dapAccepted id b (tick t s)).settings = s.settings := by simp [dapAccepted]
  obtain ⟨hsettings, hhbm, x, hftg⟩ := writeFtg_start (s := dapAccepted id b (tick t s)) hbit
  rw [dapCommand_start hnew hy hitems hcheck hrow hstart hkey (by decide) (by decide), heffect]
  refine ⟨⟨x, ?_⟩, ?_, ?_⟩
  · rw [dapAnswer_same (f := (·.cold)) (fun k u => bump_cold u k) (fun _ _ _ => rfl) (fun o u => emit_cold u o), hftg]
    simp [dapAccepted]
  · rw [setting_congr (dapAnswer_same (f := (·.settings)) (fun k u => bump_settings u k) (fun _ _ _ => rfl) (fun o u => emit_settings u o) ..),
      setting_congr hsettings, setting_setSetting _ _ _ (haccepted ▸ hw), if_pos rfl, leNat_without_start]
  · rw [dapAnswer_same (f := (·.hbm)) (fun k u => bump_hbm u k) (fun _ _ _ => rfl) (fun o u => emit_hbm u o), hhbm]
    simp [dapAccepted]

end Frame

/-! ## The claim -/

/-- Settles O55: each of the six commands is one write of a generator's register with START, which leaves `startGen` of the run before. -/
theorem trafficGeneratorsStart : Obligations.TrafficGeneratorsStart := by
  intro id t b it y s hnew hy hitems hcheck hw bytes span clear
  refine ⟨fun hrow => ?writeRead, fun hrow => ?readOnly, fun hrow => ?writeOnly, fun hrow => ?flashWriteRead, fun hrow => ?flashReadVerify,
    fun hrow => ?flashEraseTest⟩
  case writeRead =>
    obtain ⟨htg, hcontrol, hcold⟩ := dapCommand_tg hnew hy hitems hcheck hw hrow rfl
    exact ⟨_, rfl, by rw [htg]; exact ⟨rfl, rfl, rfl⟩, by rw [htg]; rfl, by rw [htg]; rfl, hcontrol, hcold⟩
  case readOnly =>
    obtain ⟨htg, hcontrol, hcold⟩ := dapCommand_tg hnew hy hitems hcheck hw hrow rfl
    exact ⟨_, rfl, by rw [htg]; exact ⟨rfl, rfl, rfl⟩, by rw [htg]; rfl, by rw [htg]; rfl, hcontrol, hcold⟩
  case writeOnly =>
    obtain ⟨htg, hcontrol, hcold⟩ := dapCommand_tg hnew hy hitems hcheck hw hrow rfl
    exact ⟨_, rfl, by rw [htg]; exact ⟨rfl, rfl, rfl⟩, by rw [htg]; rfl, by rw [htg]; exact List.mem_append_right _ List.mem_cons_self, hcontrol, hcold⟩
  case flashWriteRead | flashReadVerify | flashEraseTest =>
    obtain ⟨⟨x, hftg⟩, hcontrol, hhbm⟩ := dapCommand_ftg hnew hy hitems hcheck hw hrow rfl
    exact ⟨_, rfl, by rw [hftg]; exact ⟨rfl, rfl, rfl⟩, hcontrol, hhbm⟩

end Sys2Proof.GeneratorStarts
end

section
/-! SUPPORT. The pages of the cold tier (13 R297, R302, R303, R315): what a page read leaves, the patrol, background work, and the end of a run of the flash
traffic generator. -/

namespace Sys2Proof.ColdPages

open Machine Laws

variable {s : State} {r : FlashRead}

/-! ## Lists that take an element once -/

/-- The list with `x` behind it, unless it is there. -/
def addNew {α : Type} [BEq α] (x : α) (l : List α) : List α := if l.contains x then l else l ++ [x]

section
variable {α : Type} [BEq α] [LawfulBEq α] {x y : α} {l : List α}

theorem mem_addNew : y ∈ addNew x l ↔ y ∈ l ∨ y = x := by
  unfold addNew
  split
  · rename_i hx
    exact ⟨.inl, fun h => h.elim id fun hy => hy ▸ List.contains_iff_mem.mp hx⟩
  · simp

theorem mem_addNew_self : x ∈ addNew x l := mem_addNew.mpr (.inr rfl)

end

/-! ## What the operations leave of the tier -/

theorem losePage_cold (kind owner lpn channel : Nat) (s : State) :
    (losePage kind owner lpn channel s).cold = { s.cold with lost := addNew { kind := kind, owner := owner, lpn := lpn } s.cold.lost } := by
  unfold losePage addNew
  dsimp only
  split
  · rfl
  · rw [logEvent_cold, bump_cold]

theorem queueRefresh_cold (channel block : Nat) (s : State) :
    (queueRefresh channel block s).cold = { s.cold with refresh := addNew (channel, block) s.cold.refresh } := by
  unfold queueRefresh addNew
  split <;> rfl

theorem failDie_cold (channel die : Nat) (s : State) :
    (failDie channel die s).cold = { s.cold with deadDies := addNew (channel, die) s.cold.deadDies } := by
  unfold failDie addNew
  split <;> rfl

/-! ## The result of a read (R297) -/

theorem readResult_lost (h : r.result = .lost) (s : State) : readResult r s = .lost := by
  unfold readResult
  rw [h]
  exact if_neg (by simp)

theorem readResult_rebuilt (hnot : r.result ≠ .lost) (h : s.cold.deadDies.contains (r.channel, r.die) = true ∨ r.result = .rebuilt) :
    readResult r s = .rebuilt := by
  unfold readResult
  rcases h with hdead | hrebuilt
  · exact if_pos (by rw [hdead]; simpa using hnot)
  · rw [hrebuilt]
    split <;> rfl

theorem readResult_live (h : s.cold.deadDies.contains (r.channel, r.die) = false) : readResult r s = r.result := by
  unfold readResult
  exact if_neg (by rw [h]; simp)

/-! ## What a page read leaves (R297, R303) -/

/-- A lost page that is not missed: a copy holds its data, or it is a parity page. -/
def hasSource (r : FlashRead) : Bool := r.copyHeld || r.channel == parityChannel r.group

theorem hasSource_iff : hasSource r = true ↔ r.copyHeld = true ∨ r.channel = parityChannel r.group := by simp [hasSource]

/-- The page that a read is of. -/
def pageOf (r : FlashRead) : LostPage := { kind := r.kind, owner := r.owner, lpn := r.lpn }

/-- The lost pages after a read with a result. -/
def lostAfter (r : FlashRead) (l : List LostPage) : FlashResult → List LostPage
  | .lost => if hasSource r then l else addNew (pageOf r) l
  | _ => l

/-- What a read with a result programs anew. -/
def bytesAfter (r : FlashRead) : FlashResult → Nat
  | .first | .retried => 0
  | .rebuilt => 4096
  | .lost => if hasSource r then 4096 else 0

/-- The data of a page, from where the result says. -/
def pageData (r : FlashRead) (s : State) : State :=
  match readResult r s with
  | .first => s
  | .retried => bump Key.coldCorrectedPages s
  | .rebuilt => bump Key.coldParityRebuilds (coldProgram 4096 s)
  | .lost => if r.copyHeld || r.channel == parityChannel r.group then coldProgram 4096 s else losePage r.kind r.owner r.lpn r.channel s

/-- The block and the die of a page, as its read shows them. -/
def pageMedium (r : FlashRead) (s : State) : State :=
  let u := if r.refresh then queueRefresh r.channel r.block s else s
  match r.dieFailed with
  | none => u
  | some d => failDie r.channel d u

theorem pageRead_eq (r : FlashRead) (s : State) : pageRead r s = pageMedium r (pageData r s) := rfl

theorem pageData_cold (r : FlashRead) (s : State) :
    (pageData r s).cold =
      { s.cold with
        lost := lostAfter r s.cold.lost (readResult r s)
        programs := s.cold.programs + bytesAfter r (readResult r s) } := by
  unfold pageData
  cases readResult r s with
  | first => rfl
  | retried => exact bump_cold ..
  | rebuilt => exact bump_cold ..
  | lost =>
    unfold lostAfter bytesAfter
    cases hsource : hasSource r with
    | true => exact congrArg State.cold (if_pos hsource)
    | false => exact (congrArg State.cold (if_neg (by rw [← hasSource, hsource]; decide))).trans (losePage_cold ..)

theorem pageMedium_cold (r : FlashRead) (s : State) :
    (pageMedium r s).cold =
      { s.cold with
        refresh := if r.refresh then addNew (r.channel, r.block) s.cold.refresh else s.cold.refresh
        deadDies := match r.dieFailed with | none => s.cold.deadDies | some d => addNew (r.channel, d) s.cold.deadDies } := by
  have hblock : (if r.refresh then queueRefresh r.channel r.block s else s).cold =
      { s.cold with refresh := if r.refresh then addNew (r.channel, r.block) s.cold.refresh else s.cold.refresh } := by
    split
    · exact queueRefresh_cold ..
    · rfl
  unfold pageMedium
  cases r.dieFailed with
  | none => exact hblock
  | some d => exact (failDie_cold ..).trans (by rw [hblock])

section
variable {α : Type} (f : State → α) (hcold : ∀ (s : State) x, f { s with cold := x } = f s)
include hcold

theorem queueRefresh_same (channel block : Nat) (s : State) : f (queueRefresh channel block s) = f s := by
  unfold queueRefresh
  split
  · rfl
  · exact hcold ..

theorem failDie_same (channel die : Nat) (s : State) : f (failDie channel die s) = f s := by
  unfold failDie
  split
  · rfl
  · exact hcold ..

/-- What does not rest on the cold tier is left by the block and the die of a page. -/
theorem pageMedium_same (r : FlashRead) (s : State) : f (pageMedium r s) = f s := by
  have hblock : f (if r.refresh then queueRefresh r.channel r.block s else s) = f s := by
    split
    · exact queueRefresh_same f hcold ..
    · rfl
  unfold pageMedium
  cases r.dieFailed with
  | none => exact hblock
  | some d => exact (failDie_same f hcold ..).trans hblock

end

theorem losePage_search (kind owner lpn channel : Nat) (s : State) : (losePage kind owner lpn channel s).search = s.search := by
  unfold losePage
  dsimp only
  split
  · rfl
  · rw [logEvent_search, bump_search]

theorem pageRead_search (r : FlashRead) (s : State) : (pageRead r s).search = s.search := by
  rw [pageRead_eq, pageMedium_same (·.search) fun _ _ => rfl]
  unfold pageData
  split
  · rfl
  · exact bump_search ..
  · exact bump_search ..
  · split
    · rfl
    · exact losePage_search ..

section Read
variable (r) (s : State)

theorem pageRead_lost : (pageRead r s).cold.lost = lostAfter r s.cold.lost (readResult r s) := by rw [pageRead_eq, pageMedium_cold, pageData_cold]

theorem pageRead_programs : (pageRead r s).cold.programs = s.cold.programs + bytesAfter r (readResult r s) := by
  rw [pageRead_eq, pageMedium_cold, pageData_cold]

theorem pageRead_refresh : (pageRead r s).cold.refresh = if r.refresh then addNew (r.channel, r.block) s.cold.refresh else s.cold.refresh := by
  rw [pageRead_eq, pageMedium_cold, pageData_cold]

theorem pageRead_patrolled : (pageRead r s).cold.patrolled = s.cold.patrolled := by rw [pageRead_eq, pageMedium_cold, pageData_cold]

end Read

/-- R297: a die that a read shows to have failed is queued for rebuild. -/
theorem mem_pageRead_deadDies {d : Nat} (h : r.dieFailed = some d) (s : State) : (r.channel, d) ∈ (pageRead r s).cold.deadDies := by
  rw [pageRead_eq, pageMedium_cold, h]
  exact mem_addNew_self

theorem mem_pageRead_refresh (h : r.refresh = true) (s : State) : (r.channel, r.block) ∈ (pageRead r s).cold.refresh := by
  rw [pageRead_refresh, if_pos h]
  exact mem_addNew_self

/-- R303: a lost page without a source is recorded. -/
theorem pageRead_loses (hlost : r.result = .lost) (hcopy : r.copyHeld = false) (hdata : r.channel ≠ parityChannel r.group) (s : State) :
    pageOf r ∈ (pageRead r s).cold.lost ∧ (pageRead r s).cold.programs = s.cold.programs := by
  have hnone : ¬hasSource r = true := fun h => (hasSource_iff.mp h).elim (by rw [hcopy]; decide) hdata
  rw [pageRead_lost, pageRead_programs, readResult_lost hlost]
  unfold lostAfter bytesAfter
  rw [if_neg hnone, if_neg hnone]
  exact ⟨mem_addNew_self, rfl⟩

/-- One with a source is written anew. -/
theorem pageRead_restores (hlost : r.result = .lost) (hsource : r.copyHeld = true ∨ r.channel = parityChannel r.group) (s : State) :
    (pageRead r s).cold.lost = s.cold.lost ∧ (pageRead r s).cold.programs = s.cold.programs + 4096 := by
  rw [pageRead_lost, pageRead_programs, readResult_lost hlost]
  unfold lostAfter bytesAfter
  rw [if_pos (hasSource_iff.mpr hsource), if_pos (hasSource_iff.mpr hsource)]
  exact ⟨rfl, rfl⟩

theorem pageRead_rebuilds (hresult : readResult r s = .rebuilt) :
    (pageRead r s).cold.lost = s.cold.lost ∧ (pageRead r s).cold.programs = s.cold.programs + 4096 ∧
      (pageRead r s).counters = (bump Key.coldParityRebuilds (coldProgram 4096 s)).counters := by
  refine ⟨?_, ?_, ?_⟩
  · rw [pageRead_lost, hresult]; rfl
  · rw [pageRead_programs, hresult]; rfl
  · rw [pageRead_eq, pageMedium_same (·.counters) fun _ _ => rfl]
    unfold pageData
    rw [hresult]

theorem pageRead_decodes (hresult : readResult r s = .first ∨ readResult r s = .retried) :
    (pageRead r s).cold.lost = s.cold.lost ∧ (pageRead r s).cold.programs = s.cold.programs := by
  rw [pageRead_lost, pageRead_programs]
  rcases hresult with h | h <;> rw [h] <;> exact ⟨rfl, rfl⟩

/-! ## What the data is for (R313) -/

theorem pageUsed_cold (r : FlashRead) (s : State) : (pageUsed r s).cold = s.cold := by
  unfold pageUsed
  dsimp only
  split
  · exact bump_cold ..
  · rfl
  · rfl

/-- The use of a page counts host reads alone. -/
theorem counter_pageUsed {k : Nat} (hw : Table.wf (fun _ => 0) s.counters = true) (hk : Key.coldRandomReads ≠ k) :
    counter (pageUsed r s) k = counter s k := by
  unfold pageUsed
  dsimp only
  split
  · exact counter_bump_ne hw hk
  · rfl
  · rfl

/-- A collection after the last page of a partition of it: the partition is readable, and damaged where the page is gone. -/
def restored (gone : Bool) (part : Nat) (c : Coll) : Coll := { c with
  unrestored := c.unrestored.filter (· ≠ part)
  damaged := if gone then insertBy (· ≤ ·) part (c.damaged.filter (· ≠ part)) else c.damaged }

theorem findColl_pageUsed {coll part : Nat} {c : Coll} (huse : r.use = .restore coll part) (hc : findColl s coll = some c) :
    findColl (pageUsed r s) coll = some (restored (r.result == .lost && !r.copyHeld) part c) := by
  unfold pageUsed
  rw [huse]
  exact findColl_upd (f := restored (r.result == .lost && !r.copyHeld) part) (fun _ => rfl) hc

theorem mem_restored_damaged (part : Nat) (c : Coll) : part ∈ (restored true part c).damaged := mem_insertBy.mpr (.inl rfl)

/-! ## FLASH_READ_COMPLETE (R297) -/

theorem exec_flashReadComplete (t : Nat) (hruns : flashRuns (tick t s) = true) :
    exec (.flashReadComplete r t) s = .next (pageUsed r (pageRead r (tick t s))) :=
  congrArg Host.Outcome.next (if_pos hruns)

theorem exec_flashReadComplete_rests (t : Nat) (hrests : flashRuns (tick t s) = false) : exec (.flashReadComplete r t) s = .next (tick t s) :=
  congrArg Host.Outcome.next (if_neg (by rw [hrests]; decide))

theorem counter_rebuilt (hresult : readResult r s = .rebuilt) (hw : Table.wf (fun _ => 0) s.counters = true)
    (hlt : counter s Key.coldParityRebuilds + 1 < 2 ^ 64) :
    counter (pageUsed r (pageRead r s)) Key.coldParityRebuilds = counter s Key.coldParityRebuilds + 1 := by
  obtain ⟨-, -, hcounters⟩ := pageRead_rebuilds hresult
  rw [counter_pageUsed (hcounters ▸ wf_bump (s := coldProgram 4096 s) hw) (by decide), counter_congr hcounters]
  exact counter_bump (s := coldProgram 4096 s) hw hlt

/-! ## PATROL (R302) -/

/-- The queued blocks have been refreshed, with a program of each page that they hold. -/
def refreshed (pages : Nat) (s : State) : State :=
  if s.cold.refresh.isEmpty then s else coldProgram (4096 * pages) { s with cold := { s.cold with refresh := [] } }

/-- No block waits for refresh, and so many bytes have been programmed. Its lemmas speak of any state, so that no proof computes with the nanoseconds of
`patrolPeriod`. -/
def emptied (programs : Nat) (s : State) : State := { s with cold := { s.cold with refresh := [], programs := programs } }

section
variable (n : Nat) (s : State)

theorem emptied_refresh : (emptied n s).cold.refresh = [] := rfl
theorem emptied_programs : (emptied n s).cold.programs = n := rfl
theorem emptied_patrolled : (emptied n s).cold.patrolled = s.cold.patrolled := rfl
theorem emptied_lost : (emptied n s).cold.lost = s.cold.lost := rfl
theorem emptied_readResult (r : FlashRead) : readResult r (emptied n s) = readResult r s := rfl
theorem emptied_coldPages : coldPages (emptied n s) = coldPages s := rfl

end

/-- The bytes programmed once the queued blocks have been refreshed. -/
def refreshedBytes (pages : Nat) (s : State) : Nat := s.cold.programs + if s.cold.refresh = [] then 0 else 4096 * pages

theorem refreshed_eq (pages : Nat) (s : State) : refreshed pages s = emptied (refreshedBytes pages s) s := by
  unfold refreshed refreshedBytes
  by_cases hqueue : s.cold.refresh = []
  · rw [if_pos hqueue, if_pos (List.isEmpty_iff.mpr hqueue)]
    unfold emptied
    rw [← hqueue]
    rfl
  · rw [if_neg hqueue, if_neg (mt List.isEmpty_iff.mp hqueue)]
    rfl

/-- The patrol period of a state does not rest on its queue of blocks. -/
theorem patrolStart_emptied (n : Nat) (s : State) : patrolStart (emptied n s) = emptied n (patrolStart s) := by
  have hended : (emptied n s).cold.patrolFrom + patrolPeriod (emptied n s) ≤ patrolTime (emptied n s) ↔ s.cold.patrolFrom + patrolPeriod s ≤ patrolTime s := Iff.rfl
  unfold patrolStart
  simp only [hended]
  split <;> rfl

/-- What rests neither on the period nor on the pages read in it is left by its start. -/
theorem patrolStart_same {α : Type} (f : State → α) (h : ∀ (s : State) a b, f { s with cold := { s.cold with patrolFrom := a, patrolled := b } } = f s) (s : State) :
    f (patrolStart s) = f s := by
  unfold patrolStart
  split
  · exact h ..
  · rfl

/-- One page more of the period is read. -/
def countPage (s : State) : State := { s with cold := { s.cold with patrolled := s.cold.patrolled + 1 } }

/-- The state in which the patrol looks for its page. -/
def patrolling (pages : Nat) (s : State) : State := patrolStart (refreshed pages s)

section
variable (pages : Nat) (s : State)

theorem patrolling_eq : patrolling pages s = emptied (refreshedBytes pages s) (patrolStart s) := by
  unfold patrolling
  rw [refreshed_eq, patrolStart_emptied]

theorem patrolling_refresh : (patrolling pages s).cold.refresh = [] := by rw [patrolling_eq, emptied_refresh]

theorem patrolling_programs : (patrolling pages s).cold.programs = refreshedBytes pages s := by rw [patrolling_eq, emptied_programs]

theorem patrolling_patrolled : (patrolling pages s).cold.patrolled = (patrolStart s).cold.patrolled := by rw [patrolling_eq, emptied_patrolled]

theorem patrolling_lost : (patrolling pages s).cold.lost = s.cold.lost := by
  rw [patrolling_eq, emptied_lost, patrolStart_same (·.cold.lost) fun _ _ _ => rfl]

theorem patrolling_readResult (r : FlashRead) : readResult r (patrolling pages s) = readResult r s := by
  rw [patrolling_eq, emptied_readResult, patrolStart_same (readResult r) fun _ _ _ => rfl]

theorem patrolling_coldPages : coldPages (patrolling pages s) = coldPages s := by
  rw [patrolling_eq, emptied_coldPages, patrolStart_same coldPages fun _ _ _ => rfl]

theorem countPage_refresh : (countPage s).cold.refresh = s.cold.refresh := rfl
theorem countPage_programs : (countPage s).cold.programs = s.cold.programs := rfl
theorem countPage_patrolled : (countPage s).cold.patrolled = s.cold.patrolled + 1 := rfl
theorem countPage_readResult (r : FlashRead) : readResult r (countPage s) = readResult r s := rfl

theorem patrolRead_refresh (r : FlashRead) :
    (pageRead r (countPage (patrolling pages s))).cold.refresh = if r.refresh then [(r.channel, r.block)] else [] := by
  rw [pageRead_refresh, countPage_refresh, patrolling_refresh]
  rfl

theorem patrolRead_patrolled (r : FlashRead) :
    (pageRead r (countPage (patrolling pages s))).cold.patrolled = (patrolStart s).cold.patrolled + 1 := by
  rw [pageRead_patrolled, countPage_patrolled, patrolling_patrolled]

end

/-- A page that the patrol decodes needs no program; the refresh alone has some. -/
theorem patrolRead_programs {pages : Nat} (hresult : readResult r s = .first ∨ readResult r s = .retried) :
    (pageRead r (countPage (patrolling pages s))).cold.programs = refreshedBytes pages s := by
  obtain ⟨-, hprograms⟩ := pageRead_decodes (s := countPage (patrolling pages s)) (r := r) (by rwa [countPage_readResult, patrolling_readResult])
  rw [hprograms, countPage_programs, patrolling_programs]

section Patrol
variable {pages t : Nat} (hp0 : s.power.state = .p0)
include hp0

theorem exec_patrol : exec (.patrol ⟨r, pages⟩ t) s =
    if (patrolling pages (tick t s)).cold.patrolled < coldPages (patrolling pages (tick t s))
    then .next (pageRead r (countPage (patrolling pages (tick t s)))) else .next (patrolling pages (tick t s)) := by
  have hruns : backgroundRuns (tick t s) = true := by simp [backgroundRuns, hp0]
  change execPatrol ⟨r, pages⟩ t s = _
  unfold execPatrol
  dsimp only
  rw [if_neg (by rw [hruns]; decide)]
  rfl

theorem exec_patrol_reads (hleft : (patrolStart (tick t s)).cold.patrolled < coldPages (tick t s)) :
    exec (.patrol ⟨r, pages⟩ t) s = .next (pageRead r (countPage (patrolling pages (tick t s)))) := by
  rw [exec_patrol hp0, patrolling_coldPages, patrolling_patrolled, if_pos hleft]

theorem exec_patrol_waits (hdone : coldPages (tick t s) ≤ (patrolStart (tick t s)).cold.patrolled) :
    exec (.patrol ⟨r, pages⟩ t) s = .next (patrolling pages (tick t s)) := by
  rw [exec_patrol hp0, patrolling_coldPages, patrolling_patrolled, if_neg hdone.not_gt]

end Patrol

/-! ## Background work (R297, R302, R303) -/

theorem setSpare_cold (pct : Nat) (s : State) :
    ∃ low, (setSpare pct s).cold = { s.cold with sparePct := pct, readOnly := s.cold.readOnly || pct == 0, spareLow := low } := by
  unfold setSpare
  dsimp only
  split
  · exact ⟨true, logEvent_cold ..⟩
  · exact ⟨s.cold.spareLow, rfl⟩

theorem exec_garbageCollection {pages spare : Nat} (hp0 : s.power.state = .p0) :
    exec (.garbageCollection pages spare) s = .next (setSpare spare (coldProgram (4096 * pages) s)) :=
  congrArg Host.Outcome.next (if_pos (by simp [backgroundRuns, hp0]))

/-- A die that is rebuilt counts as failed no more. -/
def rebuiltDie (channel die : Nat) (s : State) : State :=
  { s with cold := { s.cold with deadDies := s.cold.deadDies.filter (· ≠ (channel, die)) } }

theorem exec_dieRebuild {channel die pages spare : Nat} (hp0 : s.power.state = .p0) (hdead : s.cold.deadDies.contains (channel, die) = true) :
    exec (.dieRebuild channel die pages spare) s = .next (setSpare spare (coldProgram (4096 * pages) (rebuiltDie channel die s))) :=
  if_pos (by rw [hdead]; simp [backgroundRuns, hp0])

/-! ## FTG_RUN_COMPLETE (R315) -/

/-- The generator after a run. -/
def runDone (dies errors : Nat) (lost : List LostRead) : TestGen where
  state := if errors = 0 ∧ lost = [] then 2 else 3
  failed := dies
  errors := errors
  pins := []
  written := []
  run := none

/-- The pages that a run finds lost are recorded. -/
def losePages (lost : List LostRead) (s : State) : State := lost.foldl (fun u p => losePage p.page.kind p.page.owner p.page.lpn p.channel u) s

theorem losePages_ftg (lost : List LostRead) (s : State) : (losePages lost s).cold.ftg = s.cold.ftg :=
  foldl_same (·.cold.ftg) (fun u p => by rw [losePage_cold]) lost s

theorem mem_losePages {x : LostPage} (lost : List LostRead) (h : x ∈ s.cold.lost ∨ ∃ p ∈ lost, p.page = x) : x ∈ (losePages lost s).cold.lost := by
  induction lost generalizing s with
  | nil => exact h.resolve_right (by simp)
  | cons p r ih =>
    refine ih ?_
    rw [losePage_cold]
    rcases h with hold | ⟨q, hq, hpage⟩
    · exact .inl (mem_addNew.mpr (.inl hold))
    · rcases List.mem_cons.mp hq with rfl | hr
      · exact .inl (hpage ▸ mem_addNew_self)
      · exact .inr ⟨q, hr, hpage⟩

theorem exec_ftgRunComplete {dies errors retries rebuilds : Nat} {lost : List LostRead} (hruns : s.cold.ftg.state = 1) :
    ∃ u, exec (.ftgRunComplete dies errors retries rebuilds lost) s = .next u ∧ u.cold.ftg = runDone dies errors lost ∧
      (bits (settingNat s Key.ftgControl) 25 24 = 1 → ∀ p ∈ lost, p.page ∈ u.cold.lost) := by
  have hdone : (⟨if errors = 0 ∧ lost.isEmpty = true then 2 else 3, dies, errors, [], [], none⟩ : TestGen) = runDone dies errors lost := by
    simp [runDone]
  change ∃ u, execFtgRunComplete dies errors retries rebuilds lost s = .next u ∧ _
  unfold execFtgRunComplete
  rw [if_neg (not_not.mpr hruns)]
  dsimp only
  rw [hdone]
  by_cases hverify : bits (settingNat s Key.ftgControl) 25 24 = 1
  · refine ⟨_, if_pos hverify, ?_, fun _ p hp => mem_losePages lost (.inr ⟨p, hp, rfl⟩)⟩
    exact (losePages_ftg ..).trans (by rw [bumpBy_cold, bumpBy_cold])
  · exact ⟨_, if_neg hverify, rfl, fun h => absurd h hverify⟩

/-! ## The claim -/

/-- Settles O23: a page read by its result (`pageRead_loses` to `pageRead_decodes`), the patrol as one refresh and at most one such read, and what
background work and a run of the generator leave. -/
theorem coldTierKeepsItsPages : Obligations.ColdTierKeepsItsPages := by
  refine ⟨?read, fun r t s hrests => exec_flashReadComplete_rests t hrests, ?patrol, ?collection, ?rebuild, ?run⟩
  case read =>
    intro r t s hruns
    refine ⟨_, exec_flashReadComplete t hruns, ?_⟩
    rw [pageUsed_cold]
    refine ⟨fun hlost hcopy hdata => pageRead_loses hlost hcopy hdata _, fun hlost hsource => pageRead_restores hlost hsource _, fun hnot hdead => ?_,
      fun hresult hlive => ?_, fun hrefresh => mem_pageRead_refresh hrefresh _, fun d hd => mem_pageRead_deadDies hd _, fun coll part c huse hc => ?_⟩
    · have hrebuilt := readResult_rebuilt (s := tick t s) hnot hdead
      obtain ⟨hlost, hprograms, -⟩ := pageRead_rebuilds hrebuilt
      exact ⟨hlost, hprograms, fun ⟨hw, _⟩ hlt => counter_rebuilt hrebuilt hw hlt⟩
    · exact pageRead_decodes (by rwa [readResult_live (s := tick t s) hlive])
    · refine ⟨_, findColl_pageUsed huse ((QueryStages.findColl_congr (pageRead_search r _) coll).trans hc), rfl, fun hlost hcopy => ?_⟩
      rw [hlost, hcopy]
      exact mem_restored_damaged part c
  case patrol =>
    intro r pages t s hp0
    by_cases hleft : (patrolStart (tick t s)).cold.patrolled < coldPages (tick t s)
    · refine ⟨_, exec_patrol_reads hp0 hleft, fun hfine => ?_, fun hresult => patrolRead_programs (s := tick t s) hresult,
        fun _ => ⟨patrolRead_patrolled .., fun hrefresh => ?_, fun hlost hcopy hdata => (pageRead_loses hlost hcopy hdata _).1⟩,
        fun hdone => absurd hleft hdone.not_gt⟩
      · rw [patrolRead_refresh, hfine]; rfl
      · rw [patrolRead_refresh, hrefresh]; rfl
    · exact ⟨_, exec_patrol_waits hp0 (not_lt.mp hleft), fun _ => patrolling_refresh .., fun _ => patrolling_programs .., fun h => absurd h hleft,
        fun _ => ⟨patrolling_refresh .., patrolling_lost ..⟩⟩
  case collection =>
    intro pages spare s hp0
    obtain ⟨_, hcold⟩ := setSpare_cold spare (coldProgram (4096 * pages) s)
    refine ⟨_, exec_garbageCollection hp0, ?_⟩
    rw [hcold]
    exact ⟨rfl, rfl, rfl⟩
  case rebuild =>
    intro channel die pages spare s hp0 hdead
    obtain ⟨_, hcold⟩ := setSpare_cold spare (coldProgram (4096 * pages) (rebuiltDie channel die s))
    refine ⟨_, exec_dieRebuild hp0 hdead, ?_⟩
    rw [hcold]
    exact ⟨fun h => by simpa using List.of_mem_filter h, rfl, rfl, rfl⟩
  case run =>
    intro dies errors retries rebuilds lost s hruns
    obtain ⟨u, hexec, hdone, hlost⟩ := exec_ftgRunComplete hruns
    refine ⟨u, hexec, ?_⟩
    rw [hdone]
    exact ⟨rfl, rfl, rfl, hlost⟩

end Sys2Proof.ColdPages
end

section
/-! SUPPORT. The window of the cold tier (13 R311, R312): a promotion's read that completes, and the references of a request that takes its space. -/

namespace Sys2Proof.WindowPages

open Machine Laws

variable {s : State} {seq page : Nat}

/-! ## PROMOTION_READ_COMPLETE (R311) -/

/-- The copies of a page whose read completes are resident. -/
theorem completeRead_resident {bad : Bool} {c : Copy} (hc : c ∈ (completeRead page bad s).cold.copies) (hpage : c.page = page) : c.state = .resident := by
  obtain ⟨x, -, rfl⟩ := List.mem_map.mp (List.mem_of_mem_filter hc)
  by_cases hread : (x.page == page && x.state == .promoting) = true
  · rw [if_pos hread]
  · rw [if_neg hread] at hpage ⊢
    cases hstate : x.state with
    | resident => rfl
    | promoting => exact absurd (by simp [hpage, hstate]) hread

/-- A promoting copy of it stays, unless it is bad and nobody holds it. -/
theorem mem_completeRead {bad : Bool} {c : Copy} (hc : c ∈ s.cold.copies) (hpage : c.page = page) (hstate : c.state = .promoting)
    (hstays : bad = false ∨ c.holders ≠ []) : { c with state := .resident, bad := bad } ∈ (completeRead page bad s).cold.copies :=
  List.mem_filter.mpr ⟨List.mem_map.mpr ⟨c, hc, if_pos (by simp [hpage, hstate])⟩, by simpa using hstays⟩

/-! ## References (R311) -/

/-- A page has a copy, and the command has a reference to every copy of it. -/
def Holds (seq page : Nat) (s : State) : Prop := (∃ c ∈ s.cold.copies, c.page = page) ∧ ∀ c ∈ s.cold.copies, c.page = page → seq ∈ c.holders

theorem Holds.reference (h : Holds seq page s) : ∃ c ∈ s.cold.copies, c.page = page ∧ seq ∈ c.holders := by
  obtain ⟨⟨c, hc, hpage⟩, hall⟩ := h
  exact ⟨c, hc, hpage, hall c hc hpage⟩

/-- A reference of a command joins those of a copy. -/
def withHolder (seq : Nat) (c : Copy) : Copy := { c with holders := c.holders ++ [seq] }

/-- The copy that a request for an absent page makes. -/
def promotedCopy (seq region : Nat) (pinned : Bool) (page : Nat) (s : State) : Copy :=
  { page := page, region := region, state := .promoting, holders := [seq], released := s.now, bad := false, dirty := false, pinned := pinned }

theorem copyOf_eq_none : copyOf s page = none ↔ ∀ c ∈ s.cold.copies, c.page ≠ page := by
  simp [copyOf]

theorem requestPage_copies_absent {region : Nat} {pinned : Bool} (h : copyOf s page = none) :
    (requestPage seq region pinned page s).cold.copies = s.cold.copies ++ [promotedCopy seq region pinned page s] := by
  unfold requestPage
  rw [h]
  exact congrArg Cold.copies (bump_cold ..)

theorem requestPage_copies_present {region : Nat} {pinned : Bool} {c : Copy} (h : copyOf s page = some c) :
    (requestPage seq region pinned page s).cold.copies = mapIf (fun x => x.page == page) (withHolder seq) s.cold.copies := by
  unfold requestPage
  rw [h]
  dsimp only
  split
  · exact congrArg Cold.copies (bump_cold ..)
  · rfl

/-- The command holds the page that it asks for. -/
theorem holds_requestPage (region : Nat) (pinned : Bool) : Holds seq page (requestPage seq region pinned page s) := by
  unfold Holds
  cases hcopy : copyOf s page with
  | none =>
    rw [requestPage_copies_absent hcopy]
    refine ⟨⟨_, List.mem_append_right _ List.mem_cons_self, rfl⟩, fun c hc hpage => ?_⟩
    rcases List.mem_append.mp hc with hold | hnew
    · exact absurd hpage (copyOf_eq_none.mp hcopy c hold)
    · obtain rfl := List.mem_singleton.mp hnew
      exact List.mem_cons_self
  | some x =>
    have hx : x.page = page := by simpa using List.find?_some hcopy
    rw [requestPage_copies_present hcopy]
    refine ⟨⟨withHolder seq x, List.mem_map.mpr ⟨x, List.mem_of_find?_eq_some hcopy, if_pos (by simp [hx])⟩, hx⟩, fun c hc hpage => ?_⟩
    obtain ⟨y, -, rfl⟩ := List.mem_map.mp hc
    by_cases hy : (y.page == page) = true
    · rw [if_pos hy]
      exact List.mem_append_right _ List.mem_cons_self
    · rw [if_neg hy] at hpage
      exact absurd (by simpa using hpage) hy

/-- A request takes no reference away. -/
theorem Holds.after_request {other region asked : Nat} {pinned : Bool} (h : Holds seq page s) : Holds seq page (requestPage other region pinned asked s) := by
  obtain ⟨⟨x, hx, hpage⟩, hall⟩ := h
  unfold Holds
  cases hcopy : copyOf s asked with
  | none =>
    rw [requestPage_copies_absent hcopy]
    refine ⟨⟨x, List.mem_append_left _ hx, hpage⟩, fun c hc hc' => ?_⟩
    rcases List.mem_append.mp hc with hold | hnew
    · exact hall c hold hc'
    · obtain rfl := List.mem_singleton.mp hnew
      exact absurd (hpage.trans hc'.symm) (copyOf_eq_none.mp hcopy x hx)
  | some y =>
    rw [requestPage_copies_present hcopy]
    refine ⟨⟨_, List.mem_map_of_mem hx, ?_⟩, fun c hc hc' => ?_⟩
    · split <;> exact hpage
    · obtain ⟨z, hz, rfl⟩ := List.mem_map.mp hc
      by_cases hz' : (z.page == asked) = true
      · rw [if_pos hz'] at hc' ⊢
        exact List.mem_append_left _ (hall z hz hc')
      · rw [if_neg hz'] at hc' ⊢
        exact hall z hz hc'

/-- A request for several pages leaves the command with a reference to each, and takes none away. -/
theorem holds_requestEach {region : Nat} {pinned : Bool} (l : List Nat) (h : page ∈ l ∨ Holds seq page s) :
    Holds seq page (l.foldl (fun u p => requestPage seq region pinned p u) s) := by
  induction l generalizing s with
  | nil => exact h.resolve_left List.not_mem_nil
  | cons p r ih =>
    refine ih ?_
    rcases h with hmem | hheld
    · rcases List.mem_cons.mp hmem with rfl | hr
      · exact .inr (holds_requestPage region pinned)
      · exact .inl hr
    · exact .inr hheld.after_request

/-- A copy with a reference is not evicted (R312). -/
theorem Holds.after_evict {region n : Nat} (h : Holds seq page s) : Holds seq page (evict region n s) := by
  obtain ⟨⟨x, hx, hpage⟩, hall⟩ := h
  have hkept : page ∉ ((evictOrder s region).take n).map (·.page) := by
    intro hgone
    obtain ⟨c, hc, hc'⟩ := List.mem_map.mp hgone
    have hevictable := (sortBy_perm _ _).mem_iff.mp (List.mem_of_mem_take hc)
    obtain ⟨hregion, hfree⟩ := List.mem_filter.mp hevictable
    have hholder := hall c (List.mem_of_mem_filter hregion) hc'
    have hempty : c.holders = [] := by
      unfold evictable at hfree
      simp only [Bool.and_eq_true, List.isEmpty_iff] at hfree
      obtain ⟨⟨⟨⟨-, hempty⟩, -⟩, -⟩, -⟩ := hfree
      exact hempty
    rw [hempty] at hholder
    cases hholder
  have hcopies : (evict region n s).cold.copies =
      s.cold.copies.filter fun c => !(((evictOrder s region).take n).map (·.page)).contains c.page := congrArg Cold.copies (bumpBy_cold ..)
  unfold Holds
  rw [hcopies]
  exact ⟨⟨x, List.mem_filter.mpr ⟨hx, by simpa [hpage] using hkept⟩, hpage⟩, fun c hc => hall c (List.mem_of_mem_filter hc)⟩

/-- A request that takes its space has a reference to every page it asks for: what is here first, and the rest after the eviction. -/
theorem holds_grantPages {region capacity : Nat} {pinned : Bool} {pages : List Nat} (hpage : page ∈ pages) :
    Holds seq page (grantPages seq region capacity pinned pages s) := by
  unfold grantPages
  apply holds_requestEach
  by_cases habsent : page ∈ absentPages s pages
  · exact .inl habsent
  · exact .inr (holds_requestEach _ (.inl (List.mem_filter.mpr ⟨hpage, by simpa using habsent⟩))).after_evict

/-! ## WINDOW_SPACE_FREED (R312) -/

/-- No request takes or leaves a place among those that wait for space. -/
theorem requestPage_waits (region : Nat) (pinned : Bool) (s : State) : (requestPage seq region pinned page s).cold.waits = s.cold.waits := by
  unfold requestPage
  split
  · rw [bump_cold]
  · dsimp only
    split
    · rw [bump_cold]
    · rfl

theorem grantPages_waits (seq region capacity : Nat) (pinned : Bool) (pages : List Nat) (s : State) :
    (grantPages seq region capacity pinned pages s).cold.waits = s.cold.waits := by
  have hall : ∀ (l : List Nat) (v : State), (l.foldl (fun u p => requestPage seq region pinned p u) v).cold.waits = v.cold.waits :=
    foldl_same (·.cold.waits) fun u _ => requestPage_waits region pinned u
  unfold grantPages
  exact (hall _ _).trans ((congrArg Cold.waits (bumpBy_cold ..)).trans (hall _ _))

section Freed

variable {region capacity : Nat} {w : SpaceWait} (hfirst : s.cold.waits.find? (fun w => w.region == region && w.capacity == capacity) = some w)
include hfirst

/-- The first request that waits takes its space, and waits no more. -/
theorem exec_windowSpaceFreed (hroom : hasRoom s region capacity w.pages = true) :
    exec (.windowSpaceFreed region capacity) s = .next (resumeAll (grantPages w.seq region capacity w.pinned w.pages
      { s with cold := { s.cold with waits := s.cold.waits.eraseP fun x => x.region == region && x.capacity == capacity } })) := by
  change execWindowSpaceFreed region capacity s = _
  unfold execWindowSpaceFreed
  rw [hfirst]
  exact if_pos hroom

theorem exec_windowSpaceFreed_waits (hfull : hasRoom s region capacity w.pages = false) : exec (.windowSpaceFreed region capacity) s = .next s := by
  change execWindowSpaceFreed region capacity s = _
  unfold execWindowSpaceFreed
  rw [hfirst]
  exact if_neg (by rw [hfull]; decide)

end Freed

/-! ## The claim -/

/-- Settles O24: a completed read leaves resident copies, and a grant leaves a reference to each page, for what is held is not evicted. -/
theorem windowServesItsPages : Obligations.WindowServesItsPages := by
  refine ⟨?promotion, ?freed, ?waits⟩
  case promotion =>
    intro page bad s
    exact ⟨completeRead page bad s, rfl, fun _ hc hpage => completeRead_resident hc hpage,
      fun _ hc hpage hstate hstays => mem_completeRead hc hpage hstate hstays⟩
  case freed =>
    intro region capacity w s hfirst hroom
    exact ⟨_, exec_windowSpaceFreed hfirst hroom, grantPages_waits .., fun _ hp => (holds_grantPages hp).reference⟩
  case waits =>
    intro region capacity w s hfirst hfull
    exact exec_windowSpaceFreed_waits hfirst hfull

end Sys2Proof.WindowPages
end

section
/-! SUPPORT. Congestion control of a queue pair (14 R327). -/

namespace Sys2Proof.SendingRate

open Machine Laws

/-- What a congestion notification makes of a connection. -/
def cutRate (s : State) (c : Conn) : Conn :=
  { c with
    rt := c.rc
    rc := clampRate s c.port (c.rc * (1 - c.alpha / 2))
    alpha := (1 - rpGain s) * c.alpha + rpGain s
    periods := 0
    rpAt := s.now }

/-- What the instant makes of a connection: a recovery period has ended by it, or it has not. -/
def recoverDue (s : State) (c : Conn) : Conn := if c.rpAt + settingUs s Key.rpRecoveryUs ≤ s.now then recoverRate s c else c

theorem recoverDue_qpn (s : State) (c : Conn) : (recoverDue s c).qpn = c.qpn := by
  unfold recoverDue
  split <;> rfl

theorem exec_cnpReceive (qpn t : Nat) (s : State) : exec (.cnpReceive qpn t) s = .next (updConn qpn (cutRate (tick t s)) (tick t s)) := rfl

theorem exec_rpRecovery (qpn t : Nat) (s : State) : exec (.rpRecovery qpn t) s = .next (updConn qpn (recoverDue (tick t s)) (tick t s)) := rfl

theorem clampRate_ge (s : State) (port : Nat) (r : Rat) : 100 ≤ clampRate s port r := le_max_left ..

theorem clampRate_le {s : State} {port : Nat} (r : Rat) (h : 100 ≤ (subRate s port : Rat)) : clampRate s port r ≤ subRate s port :=
  max_le h (min_le_left ..)

/-- Settles O18: each of the two commands is one update of the connection, and `clampRate` keeps the rate within its bounds. -/
theorem sendingRateFollowsCongestion : Obligations.SendingRateFollowsCongestion := by
  refine ⟨?cut, ?recovery, fun s port r => ⟨clampRate_ge s port r, clampRate_le r⟩⟩
  case cut =>
    intro qpn t s c hc
    exact ⟨_, exec_cnpReceive qpn t s, findConn_upd (f := cutRate (tick t s)) (fun _ => rfl) hc⟩
  case recovery =>
    intro qpn t s c hc
    exact ⟨_, exec_rpRecovery qpn t s, findConn_upd (recoverDue_qpn _) hc⟩

end Sys2Proof.SendingRate
end

section
/-! SUPPORT. The time base under PTP (14 R339, R340). -/

namespace Sys2Proof.TimeBase

open Machine Laws

variable {s : State} {sync : PtpSync} {t : Nat}

/-- A query's deadline and cut instants, moved by the step. -/
def shiftQuery (d : Nat) (q : Query) : Query :=
  { q with
    deadline := shiftAt d q.deadline
    tsc := shiftAt d q.tsc
    tls := shiftAt d q.tls
    tsh := shiftAt d q.tsh
    shardSince := q.shardSince + d }

/-- The first lock steps the time base to the master's time. -/
def firstLock (sync : PtpSync) (s : State) : State :=
  let s1 := shiftTimes (sync.masterTime - s.now) s
  { s1 with now := sync.masterTime, net := { s1.net with locked := true, timeState := 1, offset := sync.offset, lastSync := sync.masterTime } }

/-- A later message gives the offset, and with it the state. -/
def followed (sync : PtpSync) (s : State) : State :=
  { s with net := { s.net with timeState := if sync.offset.natAbs ≤ 1000 then 1 else 2, offset := sync.offset, lastSync := s.now } }

theorem shiftAt_of_ne {d x : Nat} (h : x ≠ 0) : shiftAt d x = x + d := if_neg h

theorem firstLock_queries : (firstLock sync s).search.queries = s.search.queries.map (shiftQuery (sync.masterTime - s.now)) := rfl

section
variable (hup : netUp (tick t s) = true)
include hup

/-- What a message does on a port that serves, by what the module knows of its master. -/
theorem exec_ptpMessage : exec (.ptpMessage sync t) s =
    if s.net.locked = false then if sync.masterTime < max s.now t then .next (tick t s) else .next (firstLock sync (tick t s))
    else if s.net.timeState ≠ 1 ∧ sync.masterTime < max s.now t ∧ 1000 < sync.offset.natAbs then .next (tick t s)
    else .next (followed sync (tick t s)) := by
  change execPtpMessage sync t s = _
  unfold execPtpMessage
  exact if_neg (by rw [hup]; decide)

theorem exec_ptpMessage_first (hfirst : s.net.locked = false) (hahead : max s.now t ≤ sync.masterTime) :
    exec (.ptpMessage sync t) s = .next (firstLock sync (tick t s)) := by
  rw [exec_ptpMessage hup, if_pos hfirst, if_neg hahead.not_gt]

theorem exec_ptpMessage_ignored
    (h : (s.net.locked = false ∧ sync.masterTime < max s.now t) ∨
      (s.net.locked = true ∧ s.net.timeState ≠ 1 ∧ sync.masterTime < max s.now t ∧ 1000 < sync.offset.natAbs)) :
    exec (.ptpMessage sync t) s = .next (tick t s) := by
  rw [exec_ptpMessage hup]
  rcases h with ⟨hfirst, hbehind⟩ | ⟨hlocked, hfar⟩
  · rw [if_pos hfirst, if_pos hbehind]
  · rw [if_neg (by rw [hlocked]; decide), if_pos hfar]

theorem exec_ptpMessage_follows (hlocked : s.net.locked = true)
    (hnear : ¬(s.net.timeState ≠ 1 ∧ sync.masterTime < max s.now t ∧ 1000 < sync.offset.natAbs)) :
    exec (.ptpMessage sync t) s = .next (followed sync (tick t s)) := by
  rw [exec_ptpMessage hup, if_neg (by rw [hlocked]; decide), if_neg hnear]

end

theorem exec_ptpSyncLoss (hlost : s.net.lastSync + 3000000000 ≤ max s.now t) :
    exec (.ptpSyncLoss t) s = .next { tick t s with net := { s.net with timeState := if s.net.locked then 2 else 0 } } := if_pos hlost

/-- Settles O20: `exec_ptpMessage` says by cases what a message does; the first lock maps `shiftQuery` over the queries. -/
theorem timeBaseFollowsPtp : Obligations.TimeBaseFollowsPtp := by
  refine ⟨?first, fun sync t s hup => exec_ptpMessage_ignored hup, ?follows, ?lost⟩
  case first =>
    intro sync t s hup hfirst hahead
    refine ⟨_, exec_ptpMessage_first hup hfirst hahead, rfl, rfl, rfl, rfl, ?_, fun q hq => ?_⟩
    · rw [firstLock_queries, List.length_map, tick_search]
    · exact ⟨_, List.mem_map_of_mem hq, rfl, shiftAt_of_ne, shiftAt_of_ne, shiftAt_of_ne, shiftAt_of_ne⟩
  case follows =>
    intro sync t s hup hlocked hnear
    exact ⟨_, exec_ptpMessage_follows hup hlocked hnear, rfl, rfl, rfl⟩
  case lost =>
    intro t s hlost
    exact ⟨_, exec_ptpSyncLoss hlost, rfl⟩

end Sys2Proof.TimeBase
end

section
/-! SUPPORT. The sub-ports: how one is found after an update, and PFC pauses (14 R318, R326). -/

namespace Sys2Proof.SubPorts

open Machine Laws

variable {s : State} {port sub priority t : Nat} {x : SubPort} {p : Pause}

theorem findSub_upd {f : SubPort → SubPort} (hf : ∀ y, (f y).port = y.port ∧ (f y).sub = y.sub) (h : findSub s port sub = some x) :
    findSub (updSub port sub f s) port sub = some (f x) :=
  (find_mapIf (fun y hy => by simpa [hf y] using hy) s.net.subs).trans (congrArg (Option.map f) h)

/-! ## Pauses (R326) -/

/-- A storm is under way on a priority. -/
def stormOn (priority : Nat) (x : SubPort) : SubPort :=
  { x with pauses := mapIf (fun q => q.prio == priority) (fun q => { q with storm := true }) x.pauses }

/-- A priority is paused no more. -/
def unpaused (priority : Nat) (x : SubPort) : SubPort := { x with pauses := x.pauses.filter (·.prio ≠ priority) }

theorem pauseFrame_place (priority : Nat) (paused : Bool) (now : Nat) (x : SubPort) :
    (pauseFrame priority paused now x).port = x.port ∧ (pauseFrame priority paused now x).sub = x.sub := by
  unfold pauseFrame
  split
  · split <;> exact ⟨rfl, rfl⟩
  · split
    · exact ⟨rfl, rfl⟩
    · split <;> exact ⟨rfl, rfl⟩

theorem pauseFrame_first {now : Nat} (h : pauseOf x priority = none) :
    pauseFrame priority true now x = { x with pauses := x.pauses ++ [{ prio := priority, since := now, last := now, storm := false }] } := by
  unfold pauseFrame
  rw [h]
  rfl

theorem pauseOf_stormOn (h : pauseOf x priority = some p) : pauseOf (stormOn priority x) priority = some { p with storm := true } :=
  (find_mapIf (p := fun q : Pause => q.prio == priority) (f := fun q => { q with storm := true }) (fun _ hq => hq) x.pauses).trans
    (congrArg (Option.map _) h)

theorem pauseOf_unpaused : pauseOf (unpaused priority x) priority = none := by
  simp [pauseOf, unpaused]

theorem exec_pfcPause (paused : Bool) (hup : netUp (tick t s) = true) (henabled : bit (settingNat (tick t s) Key.pfcEnableMask) priority = true) :
    exec (.pfcPause port sub priority paused t) s = .next (updSub port sub (pauseFrame priority paused (max s.now t)) (tick t s)) :=
  if_pos (by rw [hup, henabled]; rfl)

section
variable (hx : findSub s port sub = some x) (hp : pauseOf x priority = some p)
include hx hp

theorem exec_pfcStorm (hquiet : p.storm = false) (hlong : p.since + settingNat (tick t s) Key.pfcStormMs * 1000000 ≤ max s.now t) :
    exec (.pfcStorm port sub priority t) s = .next (logEvent Ev.pfcStorm Ev.warning port (toLE 1 sub ++ toLE 1 priority)
      (bump Key.pfcStorms (updSub port sub (stormOn priority) (tick t s)))) := by
  change execPfcStorm port sub priority t s = _
  unfold execPfcStorm
  have hpaused : (findSub (tick t s) port sub).bind (pauseOf · priority) = some p := (congrArg (Option.bind · (pauseOf · priority)) hx).trans hp
  dsimp only
  rw [hpaused]
  exact if_pos ⟨hquiet, hlong⟩

theorem exec_pfcStormEnd (hstorm : p.storm = true) (hlong : p.last + 100000000 ≤ max s.now t) :
    exec (.pfcStormEnd port sub priority t) s = .next (updSub port sub (unpaused priority) (tick t s)) := by
  change execPfcStormEnd port sub priority t s = _
  unfold execPfcStormEnd
  have hpaused : (findSub (tick t s) port sub).bind (pauseOf · priority) = some p := (congrArg (Option.bind · (pauseOf · priority)) hx).trans hp
  dsimp only
  rw [hpaused]
  exact if_pos ⟨hstorm, hlong⟩

end

/-- Settles O17: each of the three commands is one update of the sub-port; the event of a storm leaves its counter and the sub-ports alone. -/
theorem pfcPausesAndStorms : Obligations.PfcPausesAndStorms := by
  refine ⟨?pause, ?storm, ?ends⟩
  case pause =>
    intro port sub priority t s x hup henabled hx hnone
    refine ⟨_, exec_pfcPause true hup henabled, ?_⟩
    rw [findSub_upd (s := tick t s) (pauseFrame_place priority true (max s.now t)) hx, pauseFrame_first hnone]
  case storm =>
    intro port sub priority t s x p hx hp hquiet hlong hcanonical hroom
    refine ⟨_, exec_pfcStorm hx hp hquiet hlong, ?_, fun y hy => ?_⟩
    · refine (counter_logEvent (wf_bump ?_) (by decide)).trans (counter_bump_from (s := s) rfl hcanonical.1 hroom)
      exact hcanonical.1
    · have hfound : findSub (updSub port sub (stormOn priority) (tick t s)) port sub = some (stormOn priority x) :=
        findSub_upd (s := tick t s) (fun _ => ⟨rfl, rfl⟩) hx
      unfold findSub at hy hfound
      rw [logEvent_net, bump_net, hfound] at hy
      obtain rfl := Option.some.inj hy
      rw [pauseOf_stormOn hp]
      rfl
  case ends =>
    intro port sub priority t s x p hx hp hstorm hlong
    refine ⟨_, exec_pfcStormEnd hx hp hstorm hlong, fun y hy => ?_⟩
    rw [findSub_upd (s := tick t s) (f := unpaused priority) (fun _ => ⟨rfl, rfl⟩) hx] at hy
    obtain rfl := Option.some.inj hy
    exact pauseOf_unpaused

end Sys2Proof.SubPorts
end

section
/-! SUPPORT. What the end of a command leaves alone (15 R354; 14 R338): its queries, batches, structural work and memory-layer work stop by messages to other
modules and by changes of what they hold, and no more. -/

namespace Sys2Proof.EndedWork

open Machine Laws

section
variable {α : Type} {f : State → α} (hsend : ∀ peer type b s, f (sendSpp peer type b s) = f s)
  (hsearch : ∀ (x : Search) (s : State), f { s with search := x } = f s) (hstore : ∀ (x : Mem) (y : Cold) (s : State), f { s with mem := x, cold := y } = f s)

include hsend hsearch in
theorem stopQueries_same (seq : Nat) (s : State) : f (stopQueries seq s) = f s :=
  (hsearch _ _).trans (foldl_same f (fun u _ => foldl_same f (fun _ _ => hsend ..) _ u) _ s)

include hstore in
theorem releaseStash_same (head step mb : Nat) (s : State) : f (releaseStash head step mb s) = f s := by
  unfold releaseStash dropStash
  split
  · rfl
  · exact hstore _ _ s

include hsend in
theorem abortUnread_same (headers : List HeaderRead) (c : Cmd) (s : State) : f (abortUnread headers c s) = f s := by
  unfold abortUnread
  split
  · rfl
  · dsimp only
    split
    · rw [apply_ite f, Flights.sendAbort_same f hsend, ite_self]
    · rfl

include hsend in
/-- A member that stops tells the others, where its head is held. -/
theorem toldMembers_same (type mb step : Nat) (digest : Option Nat) (head : Option Head) (s : State) :
    f (match head with | some h => sendAbort type h mb step 1 digest s | none => s) = f s := by
  cases head with
  | none => rfl
  | some h => exact Flights.sendAbort_same f hsend ..

include hsend hstore in
theorem stopMemory_same (headers : List HeaderRead) (c : Cmd) (s : State) : f (stopMemory headers c s) = f s := by
  unfold stopMemory
  split
  · exact (releaseStash_same hstore ..).trans ((hstore _ _ _).trans (toldMembers_same hsend ..))
  · exact (releaseStash_same hstore ..).trans ((hstore _ _ _).trans (toldMembers_same hsend ..))
  · refine (hstore _ _ _).trans ?_
    split
    · rfl
    · exact abortUnread_same hsend ..

include hsend hsearch hstore in
/-- What neither a message nor a change of collections, heads and the cold tier changes, the stop of a command's work does not change. -/
theorem stopWork_same (headers : List HeaderRead) (c : Cmd) (s : State) :
    f (stopWork headers c s) = f s := by
  have hstopped : f (stopMemory headers c (stopJob c.seq (stopIngest c.seq (stopQueries c.seq s)))) = f s :=
    calc f (stopMemory headers c (stopJob c.seq (stopIngest c.seq (stopQueries c.seq s))))
      _ = f (stopQueries c.seq s) := (stopMemory_same hsend hstore ..).trans ((hsearch _ _).trans (hsearch _ _))
      _ = f s := stopQueries_same hsend hsearch ..
  unfold stopWork
  generalize stopMemory headers c (stopJob c.seq (stopIngest c.seq (stopQueries c.seq s))) = v at hstopped ⊢
  exact (hstore _ _ v).trans hstopped

end

/-! ## The commands -/

theorem stopWork_ahp (headers : List HeaderRead) (c : Cmd) (s : State) : (stopWork headers c s).ahp = s.ahp :=
  stopWork_same (f := State.ahp) (fun p t b u => sendSpp_ahp u p t b) (fun _ _ => rfl) (fun _ _ _ => rfl) ..

/-- A command that ends leaves every other command as it was. -/
theorem findCmd_endCmd_ne {seq : Nat} {c : Cmd} (hne : seq ≠ c.seq) (headers : List HeaderRead) (after : List Nat) (s : State) :
    findCmd (endCmd headers after c s) seq = findCmd s seq := by
  unfold endCmd
  split
  · exact (findCmd_congr (bump_ahp ..) seq).trans (findCmd_updCmd_ne (fun _ => rfl) hne)
  · dsimp only
    refine (findCmd_updCmd_ne (f := fun d => { d with waitsFor := after }) (fun _ => rfl) hne).trans ?_
    rw [findCmd_finish_ne hne, findCmd_congr (bump_ahp ..), findCmd_congr (stopWork_ahp ..)]

theorem findCmd_endAll_ne {seq : Nat} (headers : List HeaderRead) (l : List Cmd) (hne : ∀ c ∈ l, seq ≠ c.seq) (before : List Nat) (s : State) :
    findCmd (endAll headers before l s) seq = findCmd s seq := by
  induction l generalizing before s with
  | nil => rfl
  | cons c r ih =>
    obtain ⟨hc, hr⟩ := List.forall_mem_cons.mp hne
    exact (ih hr ..).trans (findCmd_endCmd_ne hc ..)

/-! ## The connections -/

/-- The connections by number, port and sub-port, in their order. -/
def places (s : State) : List (Nat × Nat × Nat) := s.net.conns.map fun c => (c.qpn, c.port, c.sub)

theorem places_congr {s u : State} (h : u.net.conns = s.net.conns) : places u = places s := by
  unfold places; rw [h]

theorem places_updConn {g : Conn → Conn} (hg : ∀ c, ((g c).qpn, (g c).port, (g c).sub) = (c.qpn, c.port, c.sub)) (qpn : Nat) (s : State) :
    places (updConn qpn g s) = places s := by
  refine (List.map_map ..).trans (List.map_congr_left fun c _ => ?_)
  rw [Function.comp_apply, apply_ite fun c : Conn => (c.qpn, c.port, c.sub), hg, ite_self]

theorem places_emit (o : Out) (s : State) : places (emit o s) = places s := by
  unfold emit
  split
  · rfl
  · exact places_updConn (g := fun c => sentOn s.now (packetsOf c.mtu _) c) (fun _ => rfl) _ s

theorem places_sendSpp (peer type : Nat) (b : Bytes) (s : State) : places (sendSpp peer type b s) = places s := by
  have hflush : ∀ n (v : State), places (flushGo peer n v) = places v := by
    intro n
    induction n with
    | zero => exact fun _ => rfl
    | succ n ih =>
      intro v
      unfold flushGo
      split
      next w _ _ _ =>
        split
        · rw [ih, places_emit]
          exact places_updConn (g := spendCredit v.now w.payload.length) (fun _ => rfl) _ v
        · rfl
      next => rfl
  exact hflush ..

theorem places_finish (seq : Nat) (comp : Comp) (output : Bytes) (s : State) : places (finish seq comp output s) = places s := by
  unfold finish
  split
  · rfl
  next c _ =>
    have hwrite : places (if output.isEmpty = true then s else emit (.write (connOf s c) c.entry.outAddr c.entry.outKey output) s) = places s := by
      split
      · rfl
      · exact places_emit ..
    dsimp only
    split <;> exact hwrite

theorem places_stopWork (headers : List HeaderRead) (c : Cmd) (s : State) : places (stopWork headers c s) = places s :=
  stopWork_same places_sendSpp (fun _ _ => rfl) (fun _ _ _ => rfl) ..

theorem places_endCmd (headers : List HeaderRead) (after : List Nat) (c : Cmd) (s : State) : places (endCmd headers after c s) = places s := by
  have hbump : ∀ k v, places (bump k v) = places v := fun k v => places_congr (by rw [bump_net])
  unfold endCmd
  split
  · exact hbump ..
  · exact (places_finish ..).trans ((hbump ..).trans (places_stopWork ..))

theorem places_endAll (headers : List HeaderRead) (l : List Cmd) (before : List Nat) (s : State) : places (endAll headers before l s) = places s := by
  induction l generalizing before s with
  | nil => rfl
  | cons c r ih => exact (ih ..).trans (places_endCmd ..)

/-- The queue of a connection is dropped, where it has one. -/
def withoutQueue (qpn : Nat) (s : State) : State :=
  match queueOfConn s qpn with
  | some q => dropQueue q s
  | none => s

/-- A connection that closes takes its queue along, and is then gone. -/
theorem closeConn_found {qpn : Nat} {c : Conn} {s : State} (h : findConn s qpn = some c) :
    (closeConn qpn s).ahp = (withoutQueue qpn s).ahp ∧ (closeConn qpn s).net.conns = (withoutQueue qpn s).net.conns.filter (·.qpn ≠ qpn) := by
  unfold closeConn withoutQueue
  rw [h]
  exact ⟨rfl, rfl⟩

theorem places_withoutQueue (qpn : Nat) (s : State) : places (withoutQueue qpn s) = places s := by
  unfold withoutQueue
  split
  · exact places_endAll ..
  · rfl

/-- A connection that closes leaves the others where they are. -/
theorem places_closeConn (qpn : Nat) (s : State) : places (closeConn qpn s) = (places s).filter (·.1 ≠ qpn) := by
  cases h : findConn s qpn with
  | none =>
    have hsame : closeConn qpn s = s := by unfold closeConn; rw [h]
    rw [hsame]
    refine (List.filter_eq_self.mpr fun p hp => ?_).symm
    obtain ⟨c, hc, rfl⟩ := List.mem_map.mp hp
    simpa using List.find?_eq_none.mp h c hc
  | some c =>
    rw [← places_withoutQueue qpn s]
    unfold places
    rw [(closeConn_found h).2]
    rw [List.filter_map]
    rfl

theorem mem_places_closeConns {qpns : List Nat} {s : State} {p : Nat × Nat × Nat} (h : p ∈ places (closeConns qpns s)) : p ∈ places s ∧ p.1 ∉ qpns := by
  induction qpns generalizing s with
  | nil => exact ⟨h, List.not_mem_nil⟩
  | cons q r ih =>
    obtain ⟨hp, hr⟩ := ih h
    rw [places_closeConn, List.mem_filter] at hp
    obtain ⟨hp, hq⟩ := hp
    exact ⟨hp, by simpa using ⟨by simpa using hq, hr⟩⟩

end Sys2Proof.EndedWork
end

section
/-! SUPPORT. Links and cages (14 R318, R338; 20 R456). -/

namespace Sys2Proof.Links

open Machine Laws SubPorts EndedWork

variable {s : State} {port sub t : Nat} {x : SubPort}

/-! ## Links -/

/-- A sub-port whose link has trained. -/
def trainedSub (x : SubPort) : SubPort := { x with up := true, pauses := [] }

/-- A sub-port whose link has gone down. -/
def downedSub (now : Nat) (x : SubPort) : SubPort := { x with up := false, downSince := now, pauses := [] }

/-- The connections of a sub-port. -/
def connsOn (port sub : Nat) (s : State) : List Nat := (s.net.conns.filter fun c => c.port == port && c.sub == sub).map (·.qpn)

theorem linkUp_of_findSub (hx : findSub s port sub = some x) : linkUp s port sub = x.up := by
  unfold linkUp; rw [hx]; rfl

theorem exec_linkTraining (hup : netUp (tick t s) = true) (husable : cageMedium s port = 1 ∨ cageMedium s port = 2)
    (hx : findSub s port sub = some x) (hdown : x.up = false) :
    exec (.linkTraining port sub true t) s = .next (updSub port sub trainedSub (tick t s)) :=
  if_pos ⟨hup, husable, rfl, (linkUp_of_findSub (s := tick t s) hx).trans hdown⟩

theorem exec_linkDown (hx : findSub s port sub = some x) : exec (.linkDown port sub false t) s =
    if x.up then .next (updSub port sub (downedSub (max s.now t)) (tick t s))
    else if x.downSince + (settingNat s Key.retryCount + 1) * (4096 * 2 ^ settingNat s Key.ackTimeoutExp) ≤ max s.now t then
      .next (closeConns (connsOn port sub s) (tick t s))
    else .next (tick t s) := by
  change execLinkDown port sub false t s = _
  unfold execLinkDown
  have hfound : findSub (tick t s) port sub = some x := hx
  dsimp only
  rw [hfound]
  rfl

/-- Where the connections of a sub-port are closed, none of them is left. -/
theorem closeConns_connsOn {c : Conn} (hc : c ∈ (closeConns (connsOn port sub s) s).net.conns) : ¬(c.port = port ∧ c.sub = sub) := by
  rintro ⟨rfl, rfl⟩
  obtain ⟨hbefore, hopen⟩ := mem_places_closeConns (List.mem_map_of_mem hc)
  obtain ⟨d, hd, hplace⟩ := List.mem_map.mp hbefore
  obtain ⟨hqpn, hport, hsub⟩ : d.qpn = c.qpn ∧ d.port = c.port ∧ d.sub = c.sub := by simpa using hplace
  exact hopen (List.mem_map.mpr ⟨d, List.mem_filter.mpr ⟨hd, by simp [hport, hsub]⟩, hqpn⟩)

/-! ## Cages (20 R456) -/

theorem setCage_counts (port : Nat) (s : State) :
    setCage port 3 s = bump Key.cageModulesRefused { s with net := { s.net with cages := modAt (fun _ => 3) port s.net.cages } } := rfl

theorem setCage_net (port medium : Nat) (s : State) :
    (setCage port medium s).net = { s.net with cages := modAt (fun _ => medium) port s.net.cages } := by
  unfold setCage
  dsimp only
  split
  · rw [bump_net]
  · rfl

theorem cageMedium_setCage {medium : Nat} (h : port < s.net.cages.length) : cageMedium (setCage port medium s) port = medium := by
  simp [cageMedium, setCage_net, modAt, List.getD, h]

/-- The links of a cage are down once they have dropped, whatever is in the cage. -/
theorem linkUp_setCage_dropLinks (port sub medium : Nat) (s : State) : linkUp (setCage port medium (dropLinks port s)) port sub = false := by
  have hdown : ∀ y ∈ (dropLinks port s).net.subs, y.port = port → y.up = false := by
    intro y hy hport
    obtain ⟨z, -, rfl⟩ := List.mem_map.mp hy
    split
    · rfl
    next hz =>
      rw [if_neg hz] at hport
      simpa [hport] using hz
  unfold linkUp
  cases hfound : findSub (setCage port medium (dropLinks port s)) port sub with
  | none => rfl
  | some y =>
    unfold findSub at hfound
    rw [setCage_net] at hfound
    have hplace : y.port = port ∧ y.sub = sub := by simpa using List.find?_some hfound
    exact hdown y (List.mem_of_find?_eq_some hfound) hplace.1

theorem exec_cageInsert {plug : PlugIn} (hup : netUp (tick t s) = true) :
    exec (.cageInsert port plug t) s = .next (setCage port (mediumOf plug) (dropLinks port (tick t s))) :=
  congrArg Host.Outcome.next (if_pos hup)

theorem exec_plugInRemoved : exec (.plugInRemoved port t) s = .next (setCage port 0 (dropLinks port (tick t s))) := rfl

theorem exec_plugInHighAlarm (husable : cageMedium s port = 1 ∨ cageMedium s port = 2) :
    exec (.plugInHighAlarm port t) s = .next (setCage port 3 (dropLinks port (tick t s))) :=
  congrArg Host.Outcome.next (if_pos husable)

/-- Settles O19: `exec_linkDown` says by cases what a link that is down does, and no connection of a sub-port outlives the closing of all that are on it. -/
theorem linksAndCages : Obligations.LinksAndCages := by
  refine ⟨?trains, ?goesDown, ?staysDown, fun port sub t s => ⟨_, rfl, rfl⟩, ?inserted, ?removed, ?alarm⟩
  case trains =>
    intro port sub t s x hup husable hx hdown
    exact ⟨_, exec_linkTraining hup husable hx hdown, findSub_upd (s := tick t s) (f := trainedSub) (fun _ => ⟨rfl, rfl⟩) hx⟩
  case goesDown =>
    intro port sub t s x hx hup
    refine ⟨_, (exec_linkDown hx).trans (if_pos hup), findSub_upd (s := tick t s) (f := downedSub (max s.now t)) (fun _ => ⟨rfl, rfl⟩) hx, rfl⟩
  case staysDown =>
    intro port sub t s x hx hdown hlong
    refine ⟨_, (exec_linkDown hx).trans ((if_neg (by rw [hdown]; decide)).trans (if_pos hlong)), fun c hc => ?_⟩
    exact closeConns_connsOn (s := tick t s) hc
  case inserted =>
    intro port t plug s hup hport
    exact ⟨_, exec_cageInsert hup, cageMedium_setCage hport, fun sub => linkUp_setCage_dropLinks ..⟩
  case removed =>
    intro port t s hport
    exact ⟨_, exec_plugInRemoved, cageMedium_setCage hport, fun sub => linkUp_setCage_dropLinks ..⟩
  case alarm =>
    intro port t s hport husable hcanonical hroom
    refine ⟨_, exec_plugInHighAlarm husable, cageMedium_setCage hport, fun sub => linkUp_setCage_dropLinks .., ?_⟩
    rw [setCage_counts]
    exact counter_bump_from rfl hcanonical.1 hroom

end Sys2Proof.Links
end

section
/-! SUPPORT. The record of a connection: how it is found again after an output, and what the messages that go out on it leave of it (14 R331, R335). -/

namespace Sys2Proof.ConnectionRecords

open Machine Laws

variable {s : State} {qpn : Nat} {c : Conn}

theorem findConn_congr {u : State} (h : u.net = s.net) (qpn : Nat) : findConn u qpn = findConn s qpn := by
  unfold findConn; rw [h]

theorem findConn_bump (k qpn : Nat) (s : State) : findConn (bump k s) qpn = findConn s qpn := findConn_congr (bump_net ..) qpn

/-- Packets that go out on a connection are noted in its record. -/
theorem findConn_emit_load {o : Out} {n : Nat} (ho : outLoad o = some (qpn, n)) (h : findConn s qpn = some c) :
    findConn (emit o s) qpn = some (sentOn s.now (packetsOf c.mtu n) c) := by
  unfold emit
  rw [ho]
  exact findConn_upd (f := fun d => sentOn s.now (packetsOf d.mtu n) d) (fun _ => rfl) h

/-- An output that goes in no packet of a connection leaves every record. -/
theorem findConn_emit_loadless {o : Out} (ho : outLoad o = none) (qpn : Nat) (s : State) : findConn (emit o s) qpn = findConn s qpn := by
  unfold emit
  rw [ho]
  rfl

/-- A connection out of its state closes. -/
theorem findConn_outOfState (qpn : Nat) (s : State) : findConn (outOfState qpn s) qpn = none :=
  (findConn_bump ..).trans findConn_close

/-! ## What messages leave -/

/-- A connection's phase, protocol and version. -/
def shape (c : Conn) : ConnPhase × Nat × Nat × Nat := (c.phase, c.proto, c.major, c.minor)

theorem shape_updConn {g : Conn → Conn} (hqpn : ∀ c, (g c).qpn = c.qpn) (hshape : ∀ c, shape (g c) = shape c) (q qpn : Nat) (s : State) :
    (findConn (updConn q g s) qpn).map shape = (findConn s qpn).map shape := by
  have hfind : ∀ l : List Conn, ((mapIf (·.qpn == q) g l).find? (·.qpn == qpn)).map shape = (l.find? (·.qpn == qpn)).map shape := by
    intro l
    induction l with
    | nil => rfl
    | cons x r ih =>
      have hx : ∀ y : Conn, y = x ∨ y = g x → (y.qpn == qpn) = (x.qpn == qpn) ∧ shape y = shape x := by
        rintro y (rfl | rfl)
        · exact ⟨rfl, rfl⟩
        · exact ⟨by rw [hqpn], hshape x⟩
      obtain ⟨hy, hsame⟩ := hx (if x.qpn == q then g x else x) (by split <;> simp)
      change ((List.cons _ (mapIf _ g r)).find? _).map shape = _
      rw [List.find?_cons, List.find?_cons, hy]
      cases x.qpn == qpn
      · exact ih
      · exact congrArg some hsame
  exact hfind s.net.conns

theorem shape_emit (o : Out) (qpn : Nat) (s : State) : (findConn (emit o s) qpn).map shape = (findConn s qpn).map shape := by
  cases ho : outLoad o with
  | none => rw [findConn_emit_loadless ho]
  | some x =>
    unfold emit
    rw [ho]
    exact shape_updConn (g := fun d => sentOn s.now (packetsOf d.mtu x.2) d) (fun _ => rfl) (fun _ => rfl) x.1 qpn s

/-- Messages that waited go out on connections that stay open at their version. -/
theorem shape_flushPeer (peer qpn : Nat) (s : State) : (findConn (flushPeer peer s) qpn).map shape = (findConn s qpn).map shape := by
  have hgo : ∀ n (v : State), (findConn (flushGo peer n v) qpn).map shape = (findConn v qpn).map shape := by
    intro n
    induction n with
    | zero => exact fun _ => rfl
    | succ n ih =>
      intro v
      unfold flushGo
      split
      next w d _ _ =>
        split
        · rw [ih, shape_emit]
          exact shape_updConn (g := spendCredit v.now w.payload.length) (fun _ => rfl) (fun _ => rfl) d.qpn qpn v
        · rfl
      next => rfl
  exact hgo ..

/-- Where nothing waits, nothing goes out. -/
theorem flushPeer_empty (h : s.net.waits = []) (peer : Nat) : flushPeer peer s = s := by
  unfold flushPeer
  rw [h]
  rfl

theorem flushPeer_updConn (h : s.net.waits = []) (peer : Nat) (g : Conn → Conn) : flushPeer peer (updConn qpn g s) = updConn qpn g s :=
  flushPeer_empty (s := updConn qpn g s) h peer

end Sys2Proof.ConnectionRecords
end

section
/-! SUPPORT. Link keys and the SPP handshake (14 R328 to R332). -/

namespace Sys2Proof.Handshake

open Machine Laws ConnectionRecords

variable {s : State} {qpn t : Nat} {payload : Bytes} {c d : Conn}

/-! ## The parties (R408) -/

/-- The party that a certificate gives is noted in the connection's own record. -/
theorem keyParty_qpn {key : Bytes} (h : keyParty s c key = some d) : d.qpn = c.qpn := by
  unfold keyParty at h
  split at h
  · split at h
    · cases h; rfl
    · cases h
  · split at h
    · split at h
      · cases h; rfl
      · cases h
    · cases h

section Keys
variable (hc : findConn (tick t s) qpn = some c)
include hc

theorem keyParty_found {key : Bytes} (h : keyParty (tick t s) c key = some d) : d.qpn = qpn := (keyParty_qpn h).trans (findConn_qpn hc)

/-! ## The messages (R328) -/

section A
variable (hphase : c.phase = .established ∨ c.phase = .keying) (hresponds : c.initiator = false) (hstep : c.keyStep = 0)
include hphase hresponds hstep

theorem exec_linkKeyA_party (hd : (Config.certKey (keyCert payload)).bind (keyParty (tick t s) c) = some d) :
    exec (.linkKeyA qpn payload t) s =
      .next (emit (.keyB qpn) (updConn qpn (fun _ => { d with phase := .keying, keyStep := 1, lastTraffic := max s.now t }) (tick t s))) := by
  change execLinkKeyA qpn payload t s = _
  unfold execLinkKeyA
  dsimp only
  rw [hc]
  dsimp only
  rw [if_pos ⟨hphase, hresponds, hstep⟩, hd]
  rfl

theorem exec_linkKeyA_stranger (hd : (Config.certKey (keyCert payload)).bind (keyParty (tick t s) c) = none) :
    exec (.linkKeyA qpn payload t) s = .next (closeConn qpn (tick t s)) := by
  change execLinkKeyA qpn payload t s = _
  unfold execLinkKeyA
  dsimp only
  rw [hc]
  dsimp only
  rw [if_pos ⟨hphase, hresponds, hstep⟩, hd]

end A

section B
variable (hphase : c.phase = .keying) (hasks : c.initiator = true) (hstep : c.keyStep = 0)
include hphase hasks hstep

theorem exec_linkKeyB_party {k : Bytes}
    (hd : (Config.certKey ((keyCert payload).take (payload.length - 96))).bind (fun k => (keyParty (tick t s) c k).map fun d => (k, d)) = some (k, d)) :
    exec (.linkKeyB qpn payload t) s = .next (if Config.confirms k payload
      then keysInstalled qpn (emit (.keyC qpn) (updConn qpn (fun _ => { d with keyStep := 2, lastTraffic := max s.now t }) (tick t s)))
      else closeConn qpn (tick t s)) := by
  change execLinkKeyB qpn payload t s = _
  unfold execLinkKeyB
  dsimp only
  rw [hc]
  dsimp only
  rw [if_pos ⟨hphase, hasks, hstep⟩, hd]
  exact (apply_ite Host.Outcome.next ..).symm

theorem exec_linkKeyB_stranger
    (hd : (Config.certKey ((keyCert payload).take (payload.length - 96))).bind (fun k => (keyParty (tick t s) c k).map fun d => (k, d)) = none) :
    exec (.linkKeyB qpn payload t) s = .next (closeConn qpn (tick t s)) := by
  change execLinkKeyB qpn payload t s = _
  unfold execLinkKeyB
  dsimp only
  rw [hc]
  dsimp only
  rw [if_pos ⟨hphase, hasks, hstep⟩, hd]

end B

theorem exec_linkKeyC (hphase : c.phase = .keying) (hresponds : c.initiator = false) (hstep : c.keyStep = 1) :
    exec (.linkKeyC qpn payload t) s = .next (if Config.confirms c.key payload
      then keysInstalled qpn (updConn qpn (fun x => { x with keyStep := 2, lastTraffic := max s.now t }) (tick t s))
      else closeConn qpn (tick t s)) := by
  change execLinkKeyC qpn payload t s = _
  unfold execLinkKeyC
  dsimp only
  rw [hc]
  dsimp only
  rw [if_pos ⟨hphase, hresponds, hstep⟩]
  exact (apply_ite Host.Outcome.next ..).symm

end Keys

/-- The next key is in use, from its first packet on (R330). -/
def nextKey (c : Conn) : Conn := { c with txPackets := 0, txPhase := !c.txPhase }

theorem exec_linkRekey (hc : findConn s qpn = some c) (hdue : settingNat s Key.linkRekeyPackets ≤ c.txPackets) :
    exec (.linkRekey qpn) s = .next (updConn qpn nextKey s) := by
  change execLinkRekey qpn s = _
  unfold execLinkRekey
  rw [hc]
  exact congrArg Host.Outcome.next (if_pos hdue)

/-! ## Versions (R331, R332) -/

theorem shape_openConn (proto minor msgs byts gmsgs gbyts : Nat) (hc : findConn s qpn = some c) :
    (findConn (openConn qpn proto minor msgs byts gmsgs gbyts s) qpn).map shape = some (.open_, proto, 1, minor) := by
  unfold openConn
  rw [findConn_updConn fun _ => by rfl, hc]
  rfl

section Versions
variable (hc : findConn (tick t s) qpn = some c) (hphase : c.phase = .negotiating)
include hc hphase

/-- The responder answers a HELLO, and opens the connection or closes it. -/
theorem exec_hello (hresponds : ¬(c.peer ≠ 0xFFFF ∧ c.peer < moduleIndex (tick t s))) :
    ∃ reply msgs byts, exec (.hello qpn payload t) s = .next (if helloResult (tick t s) c payload ≠ 0
      then outOfState qpn (emit (.helloReply qpn reply) (tick t s))
      else
        let opened := openConn qpn (u8At payload 4) (min (ownMinor (u8At payload 4)) (u8At payload 7)) (u16At payload 54) (u32At payload 56) msgs byts
          (emit (.helloReply qpn reply) (tick t s))
        if u8At payload 4 = 2 then flushPeer c.peer opened else opened) := by
  change ∃ reply msgs byts, execHello qpn payload t s = _
  unfold execHello
  dsimp only
  rw [hc]
  dsimp only
  rw [if_neg (by rintro (h | h); exacts [h hphase, hresponds h])]
  exact ⟨_, _, _, (apply_ite Host.Outcome.next ..).symm⟩

theorem exec_helloReply (hwaits : c.peer ≠ 0xFFFF ∧ c.peer < moduleIndex (tick t s)) (hformed : helloFormed 0x52484C41 true payload = true) :
    exec (.helloReply qpn payload t) s = .next (if replyAccepts c payload = false then closeConn qpn (tick t s)
      else flushPeer c.peer (openConn qpn 2 (u8At payload 7) (u16At payload 54) (u32At payload 56) c.grantMsgs c.grantBytes (tick t s))) := by
  change execHelloReply qpn payload t s = _
  unfold execHelloReply
  dsimp only
  rw [hc]
  dsimp only
  rw [if_neg (by rintro (h | h); exacts [h hphase, h hwaits]), hformed, apply_ite Host.Outcome.next]
  simp only [Bool.true_eq_false, false_or]

end Versions

/-- Settles O14: each LINK_KEY message has one equation per party and confirmation; an output is noted in the connection's record, and what waits for a peer
goes out without a change of the phase and version with which the connection has opened. -/
theorem keysAndHandshakeOpenConnections : Obligations.KeysAndHandshakeOpenConnections := by
  refine ⟨?keyA, ?keyB, ?keyC, ?rekey, ?hello, ?reply⟩
  case keyA =>
    intro qpn t payload s c hc hphase hresponds hstep
    cases hd : (Config.certKey (keyCert payload)).bind (keyParty (tick t s) c) with
    | none => exact ⟨_, exec_linkKeyA_stranger hc hphase hresponds hstep hd, findConn_close⟩
    | some d =>
      obtain ⟨key, -, hparty⟩ := Option.bind_eq_some_iff.mp hd
      have hown := keyParty_found hc hparty
      exact ⟨_, exec_linkKeyA_party hc hphase hresponds hstep hd, findConn_emit_load rfl (findConn_const hc hown), emit_out ..⟩
  case keyB =>
    intro qpn t payload s c hc hphase hasks hstep
    cases hd : (Config.certKey ((keyCert payload).take (payload.length - 96))).bind (fun k => (keyParty (tick t s) c k).map fun d => (k, d)) with
    | none => exact ⟨_, exec_linkKeyB_stranger hc hphase hasks hstep hd, findConn_close⟩
    | some x =>
      obtain ⟨k, d⟩ := x
      obtain ⟨key, -, hmap⟩ := Option.bind_eq_some_iff.mp hd
      obtain ⟨e, hparty, he⟩ := Option.map_eq_some_iff.mp hmap
      obtain ⟨rfl, rfl⟩ : key = k ∧ e = d := by simpa using he
      have hown := keyParty_found hc hparty
      refine ⟨_, exec_linkKeyB_party hc hphase hasks hstep hd, ?_⟩
      dsimp only
      split
      · have hnoted := findConn_emit_load (o := .keyC qpn) rfl
          (findConn_const (d := { e with keyStep := 2, lastTraffic := max s.now t }) hc hown)
        exact ⟨keysInstalled_conn hnoted, keysInstalled_out _ (by rw [emit_out]; exact List.mem_append_right _ List.mem_cons_self)⟩
      · exact findConn_close
  case keyC =>
    intro qpn t payload s c hc hphase hresponds hstep
    refine ⟨_, exec_linkKeyC hc hphase hresponds hstep, ?_⟩
    split
    · exact keysInstalled_conn (findConn_upd (f := fun x => { x with keyStep := 2, lastTraffic := max s.now t }) (fun _ => rfl) hc)
    · exact findConn_close
  case rekey =>
    intro qpn s c hc hdue
    exact ⟨_, exec_linkRekey hc hdue, findConn_upd (f := nextKey) (fun _ => rfl) hc⟩
  case hello =>
    intro qpn t payload s c hc hphase hresponds
    obtain ⟨reply, msgs, byts, hexec⟩ := exec_hello (payload := payload) hc hphase hresponds
    refine ⟨_, hexec, ?_⟩
    by_cases hresult : helloResult (tick t s) c payload = 0
    · rw [if_pos hresult, if_neg (not_not.mpr hresult)]
      have hanswered := findConn_emit_load (o := .helloReply qpn reply) rfl hc
      dsimp only
      split
      · exact (shape_flushPeer ..).trans (shape_openConn _ _ _ _ _ _ hanswered)
      · exact shape_openConn _ _ _ _ _ _ hanswered
    · rw [if_neg hresult, if_pos hresult]
      exact findConn_outOfState ..
  case reply =>
    intro qpn t payload s c hc hphase hwaits hformed
    refine ⟨_, exec_helloReply hc hphase hwaits hformed, ?_⟩
    cases replyAccepts c payload with
    | false => exact findConn_close
    | true => exact (shape_flushPeer ..).trans (shape_openConn _ _ _ _ _ _ hc)

end Sys2Proof.Handshake
end

section
/-! SUPPORT. Credit, suspension, acknowledgement timers and the closing of connections (14 R324, R325, R335, R337, R338). -/

namespace Sys2Proof.CreditTimers

open Machine Laws ConnectionRecords EndedWork

variable {s : State} {qpn t : Nat} {b : Bytes} {c : Conn}

/-! ## Credit (R335) -/

/-- A CREDIT frame that arrived at `now` has been taken. -/
def tookCredit (now : Nat) (b : Bytes) (c : Conn) : Conn :=
  { c with rxSeq := c.rxSeq + 1, lastTraffic := now, creditMsgs := c.creditMsgs + u16At b 10, creditBytes := c.creditBytes + u32At b 12 }

/-- All that is owed has been returned in a frame. -/
def returnedCredit (c : Conn) : Conn :=
  { c with
    txSeq := c.txSeq + 1
    heldMsgs := c.heldMsgs + c.owedMsgs
    heldBytes := c.heldBytes + c.owedBytes
    owedMsgs := 0
    owedBytes := 0 }

/-- A connection resumes with the credits of both ends as it started with them (R337). -/
def resumedConn (c : Conn) : Conn :=
  { c with
    phase := .open_
    creditMsgs := c.startMsgs
    creditBytes := c.startBytes
    heldMsgs := c.grantMsgs
    heldBytes := c.grantBytes
    owedMsgs := 0
    owedBytes := 0
    rnr := [] }

/-- Unacknowledged packets have gone again (R324). -/
def retriedConn (now : Nat) (c : Conn) : Conn := { sendAgain now c with retries := c.retries + 1 }

/-- A CREDIT frame without a fault, where no message waits, is noted in the connection's record. -/
theorem findConn_sppFrame_credit (hc : findConn s qpn = some c) (htype : u16At b 6 = 1) (hformed : sppFormed c b = true) (hmajor : u8At b 8 = c.major)
    (hminor : u8At b 9 = c.minor) (hwaits : s.net.waits = []) : findConn (sppFrame c b s) qpn = some (tookCredit s.now b c) := by
  obtain rfl := findConn_qpn hc
  have hversion : ¬(u8At b 8 ≠ c.major ∨ u8At b 9 ≠ c.minor ∨ sppType (u16At b 6) = false) := by
    rw [htype]
    rintro (h | h | h)
    exacts [h hmajor, h hminor, absurd h (by decide)]
  unfold sppFrame
  rw [if_neg (by rw [hformed]; decide), if_neg hversion, if_pos htype, takeCredit, flushPeer_updConn]
  · exact findConn_upd (f := fun x => { x with creditMsgs := x.creditMsgs + u16At b 10, creditBytes := x.creditBytes + u32At b 12 }) (fun _ => rfl)
      (findConn_upd (f := fun x => { x with rxSeq := x.rxSeq + 1, lastTraffic := s.now }) (fun _ => rfl) hc)
  · exact hwaits

section
variable (hc : findConn (tick t s) qpn = some c)
include hc

theorem exec_credit (hphase : c.phase = .open_) (hproto : c.proto = 2) (htype : u16At b 6 = 1) :
    exec (.credit qpn b t) s = .next (sppFrame c b (tick t s)) := by
  change execCredit qpn b t s = _
  unfold execCredit
  dsimp only
  rw [hc]
  exact congrArg Host.Outcome.next (if_pos ⟨hphase, hproto, htype⟩)

theorem exec_creditReturnTimeout (hphase : c.phase = .open_) (hproto : c.proto = 2) (howed : c.owedMsgs ≠ 0) :
    exec (.creditReturnTimeout qpn t) s = .next (emit (.credit qpn) (updConn qpn returnedCredit (tick t s))) := by
  change execCreditReturnTimeout qpn t s = _
  unfold execCreditReturnTimeout
  dsimp only
  rw [hc]
  exact if_pos ⟨hphase, hproto, howed⟩

theorem exec_sppSuspendExpiry (hphase : c.phase = .suspended) (hproto : c.proto = 2)
    (hlong : c.suspendedAt + settingNat (tick t s) Key.sppSuspendMs * 1000000 ≤ (tick t s).now) :
    exec (.sppSuspendExpiry qpn t) s = .next (flushPeer c.peer (updConn qpn resumedConn (tick t s))) := by
  change execSppSuspendExpiry qpn t s = _
  unfold execSppSuspendExpiry
  dsimp only
  rw [hc]
  exact if_pos ⟨hphase, hproto, hlong⟩

/-! ## Timers and closing (R324, R325, R338) -/

theorem exec_ackTimeout : exec (.ackTimeout qpn t) s =
    if c.unacked = 0 ∨ max s.now t < c.sentAt + ackTimeout (tick t s) then .next (tick t s)
    else if settingNat (tick t s) Key.retryCount ≤ c.retries then .next (closeConn qpn (tick t s))
    else .next (emit (.resend qpn) (updConn qpn (retriedConn (max s.now t)) (tick t s))) := by
  change execAckTimeout qpn t s = _
  unfold execAckTimeout
  dsimp only
  rw [hc]
  rfl

theorem exec_sppIdleClose (hproto : c.proto = 2) (hidle : c.lastTraffic + settingNat (tick t s) Key.sppIdleCloseS * 1000000000 ≤ (tick t s).now)
    (hwaits : s.net.waits.any (·.peer == c.peer) = false) :
    exec (.sppIdleClose qpn t) s = .next (emit (.cmDisconnect qpn) (closeConn qpn (tick t s))) := by
  have hdue : c.proto = 2 ∧ c.lastTraffic + settingNat (tick t s) Key.sppIdleCloseS * 1000000000 ≤ (tick t s).now ∧
      ¬ (tick t s).net.waits.any (·.peer == c.peer) = true := ⟨hproto, hidle, by rw [tick_net, hwaits]; decide⟩
  change execSppIdleClose qpn t s = _
  unfold execSppIdleClose
  dsimp only
  rw [hc]
  dsimp only
  rw [if_pos hdue, disconnect, hc]

end

/-- A queue goes with its connection, and its commands with the queue. -/
theorem closeConn_drops {q : Queue} (hc : findConn s qpn = some c) (hq : queueOfConn s qpn = some q) :
    (∀ d ∈ (closeConn qpn s).ahp.cmds, d.queue ≠ q.qid) ∧ ∀ p ∈ (closeConn qpn s).ahp.queues, p.qid ≠ q.qid := by
  have hdropped : withoutQueue qpn s = dropQueue q s := by unfold withoutQueue; rw [hq]
  rw [(closeConn_found hc).1, hdropped]
  exact ⟨fun d hd => by simpa using List.of_mem_filter hd, fun p hp => by simpa using List.of_mem_filter hp⟩

/-- Settles O15: every timer has one equation for the instant at which it is due, `closeConn` leaves no record of its connection, and it filters out the queue of
that connection with the queue's commands. -/
theorem creditAndTimersOfConnections : Obligations.CreditAndTimersOfConnections := by
  refine ⟨?credit, ?returned, ?resumes, ?acknowledgement, ?idle, ?disconnect⟩
  case credit =>
    intro qpn t b s c hc hphase hproto htype hformed hmajor hminor hwaits
    exact ⟨_, exec_credit hc hphase hproto htype, findConn_sppFrame_credit hc htype hformed hmajor hminor hwaits⟩
  case returned =>
    intro qpn t s c hc hphase hproto howed
    exact ⟨_, exec_creditReturnTimeout hc hphase hproto howed, emit_out ..,
      findConn_emit_load (o := .credit qpn) rfl (findConn_upd (f := returnedCredit) (fun _ => rfl) hc)⟩
  case resumes =>
    intro qpn t s c hc hphase hproto hlong hwaits
    refine ⟨_, exec_sppSuspendExpiry hc hphase hproto hlong, ?_⟩
    rw [flushPeer_updConn (s := tick t s) hwaits]
    exact findConn_upd (f := resumedConn) (fun _ => rfl) hc
  case acknowledgement =>
    intro qpn t s c hc
    rw [exec_ackTimeout hc]
    refine ⟨fun hearly => if_pos hearly, fun hsent hdue => ?_⟩
    rw [if_neg (not_or.mpr ⟨hsent, hdue.not_gt⟩)]
    split
    · exact ⟨_, rfl, findConn_close⟩
    · refine ⟨_, rfl, emit_out .., ?_⟩
      rw [findConn_emit_loadless rfl]
      exact findConn_upd (f := retriedConn (max s.now t)) (fun _ => rfl) hc
  case idle =>
    intro qpn t s c hc hproto hidle hwaits
    refine ⟨_, exec_sppIdleClose hc hproto hidle hwaits, ?_, ?_⟩
    · rw [findConn_emit_loadless rfl, findConn_close]
    · rw [emit_out]
      exact List.mem_append_right _ List.mem_cons_self
  case disconnect =>
    intro qpn t s
    refine ⟨_, rfl, findConn_close, fun q hq hopen => ?_⟩
    obtain ⟨c, hc⟩ := Option.isSome_iff_exists.mp hopen
    exact closeConn_drops hc hq

end Sys2Proof.CreditTimers
end

section
/-! SUPPORT. Connection requests (14 R323, R325): the statement about the reply to the module's own request fails where a connection has the next QP number. -/

namespace Sys2Proof.ConnectionRequests

open Machine Laws

/-- Port 0 with its link up. -/
def upSub : SubPort := { port := 0, sub := 0, up := true, downSince := 0, pauses := [] }

/-- A host's connection that has the QP number that the next connection takes, at a path MTU of 1 B. -/
def nextNumbered : Conn := newConn State.reset 0 0 7 1 0xFFFF false

/-- A module with that connection, which has asked module 3 for one. -/
def reused : State :=
  { State.reset with net := { Net.reset with subs := [upSub], conns := [nextNumbered], requests := [{ peer := 3, since := 0, repeated := false }] } }

/-- The state meets the invariant of every reachable state, which does not speak of QP numbers. -/
theorem reused_inv : reused.Inv := by
  unfold State.Inv State.Canonical
  decide

/-- The bytes of a LINK_KEY_A, whose certificate is of no length that the spec states. -/
def keyBytes : Nat := 64 + Config.identityCertificate.length

/-- The reply, at a path MTU that takes the message as one packet, makes the connection and begins the key exchange on it. -/
theorem exec_connectionRequest_reused :
    exec (.connectionRequest 0 0 9 keyBytes 3 true 0) reused =
      .next (emit (.keyA 2) (addConn (newConn (tick 0 reused) 0 0 9 keyBytes 3 true) (tick 0 reused))) := rfl

/-- At a path MTU of `n` bytes, `n` bytes are one packet. -/
theorem packetsOf_self {n : Nat} (hn : 0 < n) : packetsOf n n = 1 := by
  have hmtu : max 1 n = n := max_eq_right hn
  have hone : (n + n - 1) / n = 1 := Nat.div_eq_of_lt_le (by omega) (by omega)
  rw [packetsOf, ceilDiv, hmtu, hone]
  rfl

theorem packetsOf_one (n : Nat) : packetsOf 1 n = max 1 n := by simp [packetsOf, ceilDiv]

/-- Refutes O13: the statement does not ask that the QP number of the new connection is free. Where a connection has it already, the packets of the LINK_KEY_A are
noted there too, at that connection's path MTU, and not at that of the reply. -/
theorem not_connectionsAreMade : ¬ Obligations.ConnectionsAreMade := by
  intro h
  obtain ⟨-, hreply, -⟩ := h
  obtain ⟨u, hexec, hconns, -⟩ := hreply 0 0 9 keyBytes 3 0 reused (by decide) (by decide) (by decide)
  obtain rfl := Host.Outcome.next.inj (exec_connectionRequest_reused.symm.trans hexec)
  have hnoted : 0 + packetsOf 1 keyBytes = 0 + packetsOf keyBytes keyBytes := congrArg (fun l => ((l.head?).map (·.unacked)).getD 0) hconns
  have hlong : 64 ≤ keyBytes := Nat.le_add_right ..
  rw [packetsOf_self (by omega), packetsOf_one] at hnoted
  omega

end Sys2Proof.ConnectionRequests
end

section
/-! SUPPORT. Frames of the data ports (14 R321 to R323, R330, R336). -/

namespace Sys2Proof.Frames

open Machine Laws ConnectionRecords

variable {s : State} {port sub t : Nat} {p : Packet} {c : Conn}

/-! ## By the kind of the frame (R321, R322) -/

theorem exec_frameReceive_memoryWord (q : Nat) (hup : netUp (tick t s) = true) :
    exec (.frameReceive port sub (.memoryWord (some q)) t) s = .next (closeConn q (tick t s)) := by
  change execFrameReceive port sub _ t s = _
  unfold execFrameReceive
  exact if_neg (by rw [hup]; decide)

section
variable (hup : netUp (tick t s) = true) (hlink : linkUp (tick t s) port sub = true)
include hup hlink

/-- The frames that are dropped, each with its counter. -/
theorem exec_frameReceive_dropped {frame : Frame} {k : Nat}
    (h : (frame, k) ∈ [(Frame.badFcs, Key.icrcDrops), (.ipv4Options, Key.ipv4OptionDrops), (.unaccepted, Key.unacceptedFrames)]) :
    exec (.frameReceive port sub frame t) s = .next (bump k (tick t s)) := by
  change execFrameReceive port sub frame t s = _
  unfold execFrameReceive
  dsimp only
  rw [if_neg (by rw [hup]; decide), hlink, if_neg (by simp)]
  simp only [List.mem_cons, Prod.mk.injEq, List.not_mem_nil, or_false] at h
  obtain ⟨rfl, rfl⟩ | ⟨rfl, rfl⟩ | ⟨rfl, rfl⟩ := h <;> rfl

theorem counter_dropped {frame : Frame} {k : Nat}
    (h : (frame, k) ∈ [(Frame.badFcs, Key.icrcDrops), (.ipv4Options, Key.ipv4OptionDrops), (.unaccepted, Key.unacceptedFrames)])
    (hcanonical : s.Canonical) (hroom : counter s k + 1 < 2 ^ 64) :
    ∃ u, exec (.frameReceive port sub frame t) s = .next u ∧ counter u k = counter s k + 1 :=
  ⟨_, exec_frameReceive_dropped hup hlink h, counter_bump_from rfl hcanonical.1 hroom⟩

theorem exec_frameReceive_roce (hc : findConn (tick t s) p.qpn = some c) (hce : p.ce = false) :
    exec (.frameReceive port sub (.roce p) t) s = .next (roceMessage c p (max s.now t) (tick t s)) := by
  change execFrameReceive port sub _ t s = _
  unfold execFrameReceive
  dsimp only
  rw [if_neg (by rw [hup]; decide), hlink, if_neg (by simp), hc]
  dsimp only
  rw [hce]
  rfl

end

/-! ## Messages on a connection (R323, R330, R336) -/

/-- One more packet in a row has not authenticated. -/
def missedAuth (c : Conn) : Conn := { c with authRun := c.authRun + 1 }

/-- Packets were taken in their order. -/
def takenInOrder (p : Packet) (now : Nat) (c : Conn) : Conn := { c with psn := (c.psn + p.packets) % 16777216, lastTraffic := now }

/-- How far the packet is ahead of the one that is expected. -/
def ahead (p : Packet) (c : Conn) : Nat := (p.psn + 16777216 - c.psn) % 16777216

theorem ahead_eq_zero (h : p.psn = c.psn) : ahead p c = 0 := by
  unfold ahead
  omega

/-- The phase of the keys is no part of a connection's number, state or protocol. -/
theorem rekeyed_same (p : Packet) (c : Conn) : (rekeyed p c).qpn = c.qpn ∧ (rekeyed p c).phase = c.phase ∧ (rekeyed p c).proto = c.proto := by
  unfold rekeyed
  split
  · exact ⟨rfl, rfl, rfl⟩
  · split <;> exact ⟨rfl, rfl, rfl⟩

theorem rekeyed_qpn (p : Packet) (c : Conn) : (rekeyed p c).qpn = c.qpn := (rekeyed_same p c).1

theorem roceMessage_unauthentic (hauth : p.authentic = false) (hestablished : c.phase ≠ .established) (hkeying : c.phase ≠ .keying) (t : Nat) (s : State) :
    roceMessage c p t s = if 16 ≤ c.authRun + 1 then closeConn c.qpn (bump Key.authFailures s)
      else updConn c.qpn missedAuth (bump Key.authFailures s) := by
  unfold roceMessage
  exact if_pos ⟨hauth, by simp [hestablished, hkeying]⟩

section
variable (hauth : p.authentic = true)
include hauth

theorem roceMessage_badOp {k : Nat} (hop : badOp p.op = some k) (t : Nat) (s : State) :
    roceMessage c p t s = bump Key.unsupportedOpcodeNaks (closeConn c.qpn (emit (.nak c.qpn k) s)) := by
  unfold roceMessage
  dsimp only
  rw [if_neg (by simp [hauth]), hop]

/-- A SEND is taken in its order where a buffer is posted; ahead of its order it is asked for again, and behind it acknowledged again. -/
theorem roceMessage_send (hop : p.op = .send) (t : Nat) (s : State) : roceMessage c p t s =
    if ahead p c = 0 then
      if bufferPosted s c then
        deliver (rekeyed p c) p.payload t (emit (.ack c.qpn) (updConn c.qpn (takenInOrder p s.now) (updConn c.qpn (rekeyed p) s)))
      else notReady c.qpn (updConn c.qpn (rekeyed p) s)
    else if ahead p c < 8388608 then bump Key.sequenceNaks (emit (.nak c.qpn 1) (updConn c.qpn (rekeyed p) s))
    else emit (.ack c.qpn) (updConn c.qpn (rekeyed p) s) := by
  unfold roceMessage ahead takenInOrder
  dsimp only
  rw [if_neg (by simp [hauth]), hop]
  simp only [badOp, reduceCtorEq, or_self, if_false]

end

theorem notReady_out (qpn : Nat) (s : State) : (notReady qpn s).net.out = s.net.out ++ [.nak qpn 4] := by
  have hsent : (bump Key.rnrNaks (emit (.nak qpn 4) s)).net.out = s.net.out ++ [.nak qpn 4] := by rw [bump_net, emit_out]
  unfold notReady
  dsimp only
  split
  · exact hsent
  · split
    · exact hsent
    · rw [logEvent_net, bump_net]
      exact hsent

theorem notReady_cmds (qpn : Nat) (s : State) : (notReady qpn s).ahp.cmds = s.ahp.cmds := by
  have hsent : (bump Key.rnrNaks (emit (.nak qpn 4) s)).ahp.cmds = s.ahp.cmds := by rw [bump_ahp, emit_ahp]
  unfold notReady
  dsimp only
  split
  · exact hsent
  · split
    · exact hsent
    · rw [logEvent_ahp, bump_ahp]
      exact hsent

/-! ## The entry of a SEND (15 R346) -/

/-- An entry on an AHP connection that passes its checks enters the queue. -/
theorem deliver_enqueues {b : Bytes} {q : Queue} {r : OpRow} (hphase : c.phase = .open_) (hproto : c.proto = 1) (hq : queueOfConn s c.qpn = some q)
    (hcheck : checkEntry s c (some q) b = .ok r) (hop : r.op ≠ 0x01) (t : Nat) : deliver c b t s = enqueue q (parseEntry b) t s := by
  unfold deliver
  rw [hphase]
  dsimp only
  rw [if_neg (by rw [hproto]; decide)]
  unfold receiveEntry
  rw [hq, hcheck]
  exact if_neg hop

/-- A SEND in its order brings its entry into the queue. What the connection noted meanwhile is no part of the checks of an entry. -/
theorem roceMessage_enqueues {q : Queue} {r : OpRow} (hphase : c.phase = .open_) (hproto : c.proto = 1) (hauth : p.authentic = true) (hop : p.op = .send)
    (hpsn : p.psn = c.psn) (hbuffer : bufferPosted s c = true) (hq : queueOfConn s c.qpn = some q)
    (hcheck : checkEntry s (rekeyed p c) (some q) p.payload = .ok r) (hr : r.op ≠ 0x01) (t : Nat) :
    roceMessage c p t s = enqueue q (parseEntry p.payload) t
      (emit (.ack c.qpn) (updConn c.qpn (takenInOrder p s.now) (updConn c.qpn (rekeyed p) s))) := by
  obtain ⟨hqpn, hphase', hproto'⟩ := rekeyed_same p c
  rw [roceMessage_send hauth hop, if_pos (ahead_eq_zero hpsn), if_pos hbuffer]
  refine deliver_enqueues (hphase'.trans hphase) (hproto'.trans hproto) ?_ ?_ hr t
  · rw [hqpn]
    exact hq
  · exact hcheck

/-- A SEND out of its order is answered, and leaves the front end and all but the keys' phase of its connection. -/
theorem roceMessage_misplaced (hauth : p.authentic = true) (hop : p.op = .send) (hpsn : ahead p c ≠ 0) (hc : findConn s c.qpn = some c) (t : Nat) :
    findConn (roceMessage c p t s) c.qpn = some (rekeyed p c) ∧ (roceMessage c p t s).ahp = s.ahp ∧
      (roceMessage c p t s).net.out = s.net.out ++ [if ahead p c < 8388608 then .nak c.qpn 1 else .ack c.qpn] := by
  have hrekeyed : findConn (updConn c.qpn (rekeyed p) s) c.qpn = some (rekeyed p c) := findConn_upd (rekeyed_qpn p) hc
  rw [roceMessage_send hauth hop, if_neg hpsn]
  split
  · rw [findConn_bump, findConn_emit_loadless rfl, bump_ahp, emit_ahp, bump_net, emit_out]
    exact ⟨hrekeyed, rfl, rfl⟩
  · rw [findConn_emit_loadless rfl, emit_ahp, emit_out]
    exact ⟨hrekeyed, rfl, rfl⟩

/-- Settles O16: each kind of frame has its counter; a message on a connection has one equation for a packet that does not authenticate, one for an operation that is
never accepted and one for a SEND, by its place in the order. The checks of an entry rest on nothing of the attachment. -/
theorem framesAreReceived : Obligations.FramesAreReceived := by
  refine ⟨?memory, fun port sub t s hup hlink hcanonical => ⟨?fcs, ?options, ?kind, ?entry, ?packet⟩⟩
  case memory =>
    intro port sub q t s hup
    exact ⟨_, exec_frameReceive_memoryWord q hup, findConn_close⟩
  case fcs => exact counter_dropped hup hlink (by decide) hcanonical
  case options => exact counter_dropped hup hlink (by decide) hcanonical
  case kind => exact counter_dropped hup hlink (by decide) hcanonical
  case entry =>
    intro p c hc hphase hproto hauth hop hpsn hce hbuffer q r hq hcheck hr
    rw [exec_frameReceive_roce hup hlink hc hce, roceMessage_enqueues hphase hproto hauth hop hpsn hbuffer hq hcheck hr]
    exact ⟨_, rfl, List.mem_append_right _ List.mem_cons_self, _, rfl, rfl, rfl, rfl, rfl⟩
  case packet =>
    intro p c hc hce
    have hqpn := findConn_qpn hc
    rw [exec_frameReceive_roce hup hlink hc hce, ← hqpn]
    rw [← hqpn] at hc
    refine ⟨fun hauth hestablished hkeying => ⟨fun hlast => ?_, fun hmore hroom => ?_⟩, fun hauth k hop => ?_, fun hauth hop hpsn => ?_,
      fun hauth hop hpsn hbuffer => ?_⟩
    · rw [roceMessage_unauthentic hauth hestablished hkeying, if_pos hlast]
      exact ⟨_, rfl, findConn_close⟩
    · rw [roceMessage_unauthentic hauth hestablished hkeying, if_neg hmore.not_ge]
      refine ⟨_, rfl, counter_bump_from rfl hcanonical.1 hroom, ?_, bump_ahp ..⟩
      exact findConn_upd (f := missedAuth) (fun _ => rfl) ((findConn_bump ..).trans hc)
    · exact ⟨_, congrArg Host.Outcome.next (roceMessage_badOp hauth hop ..), emit_out .., findConn_close⟩
    · exact ⟨_, rfl, roceMessage_misplaced hauth hop hpsn hc _⟩
    · rw [roceMessage_send hauth hop, if_pos (ahead_eq_zero hpsn), if_neg (by rw [hbuffer]; decide)]
      exact ⟨_, rfl, notReady_out .., notReady_cmds ..⟩

end Sys2Proof.Frames
end

section
/-! SUPPORT. Dispatch and admission (15 R346, R352, R353; 06 R462). -/

namespace Sys2Proof.DispatchAdmission

open Machine Laws

variable {s : State} {c : Cmd} {seq t : Nat}

theorem ready_fail {st : Nat} (hc : findCmd s seq = some c) (hhost : c.internal = false) : ready (fail seq st s) seq = some { status := st } :=
  ready_finish hc hhost

/-! ## Admission -/

/-- The command as its admission leaves it. -/
structure Admitted (s : State) (c d : Cmd) : Prop where
  phase : d.phase = .admitted
  order : d.order = s.ahp.nextOrder
  epoch : d.epoch = epochOf s c
  config : d.config = s.settings
  entry : d.entry = c.entry

/-- A command whose target and plan can be named is admitted, where the module may serve it. -/
theorem admitNow_admits (hc : findCmd s c.seq = some c) (htarget : targetFail s c = none) (hplan : planFail s c = none)
    (hserves : (memoryLayer c.entry.opcode && s.power.degraded) = false) :
    ∃ d, findCmd (admitNow c s) c.seq = some d ∧ Admitted s c d ∧ (admitNow c s).ahp.nextOrder = s.ahp.nextOrder + 1 ∧ (admitNow c s).search = s.search := by
  unfold admitNow
  rw [htarget, hplan]
  dsimp only
  rw [hserves]
  exact ⟨_, findCmd_upd (fun _ => rfl) hc, ⟨rfl, rfl, rfl, rfl, rfl⟩, rfl, rfl⟩

theorem admitNow_fails {st : Nat} (h : targetFail s c = some st ∨ (targetFail s c = none ∧ planFail s c = some st)) : admitNow c s = fail c.seq st s := by
  unfold admitNow
  rcases h with htarget | ⟨htarget, hplan⟩
  · rw [htarget]
  · rw [htarget, hplan]

theorem admitNow_degraded (htarget : targetFail s c = none) (hplan : planFail s c = none)
    (hdegraded : (memoryLayer c.entry.opcode && s.power.degraded) = true) : admitNow c s = fail c.seq Status.moduleDegraded s := by
  unfold admitNow
  rw [htarget, hplan]
  exact if_pos hdegraded

/-- A command that completes at the end of its hold does nothing more. -/
theorem endHold_failed {st : Nat} (hc : findCmd s c.seq = some c) (hhost : c.internal = false) (h : admitNow c s = fail c.seq st s) :
    endHold c s = fail c.seq st s := by
  have hdone : admittedCmd (fail c.seq st s) c.seq c.entry.opcode = none := by
    simp [admittedCmd, fail, findCmd_finish hc hhost]
  unfold endHold
  dsimp only
  rw [h, hdone]

/-- Only eight opcodes do something at once. -/
theorem atAdmission_rest (hop : [0x02, 0x04, 0x11, 0x21, 0x22, 0x23, 0x24, 0x31].contains c.entry.opcode = false) (s : State) : atAdmission c s = s := by
  simp only [List.contains_eq_mem, List.mem_cons, List.not_mem_nil, or_false, decide_eq_false_iff_not, not_or] at hop
  obtain ⟨hreset, hlog, hunload, hdelete, hinfo, hsnapshot, hrelease, hhead⟩ := hop
  unfold atAdmission
  dsimp only
  rw [if_neg hreset, if_neg hlog, if_neg hunload, if_neg hhead]
  split
  · rfl
  · unfold collAtAdmission
    dsimp only
    rw [if_neg hdelete, if_neg hinfo, if_neg hsnapshot, if_neg hrelease]

/-! ## The hold -/

theorem any_mapIf {α : Type} {p r : α → Bool} {f : α → α} (h : ∀ x, p x = true → r x = false ∧ r (f x) = false) (l : List α) :
    (mapIf p f l).any r = l.any r := by
  induction l with
  | nil => rfl
  | cons x l ih =>
    have hx : r (if p x then f x else x) = r x := by
      split
      next hp =>
        obtain ⟨hbefore, hafter⟩ := h x hp
        rw [hbefore, hafter]
      next => rfl
    exact congrArg₂ (· || ·) hx ih

section Holds
variable {f : Cmd → Cmd} (hseq : ∀ d, (f d).seq = d.seq)
include hseq

/-- A command is not among those before it. -/
theorem any_earlier (r : Cmd → Bool) (hr : ∀ d, r d = true → d.seq < c.seq) : (updCmd c.seq f s).ahp.cmds.any r = s.ahp.cmds.any r := by
  refine any_mapIf (fun d hd => ?_) s.ahp.cmds
  have hown : d.seq = c.seq := by simpa using hd
  exact ⟨Bool.eq_false_iff.mpr fun h => absurd (hr d h) (by omega), Bool.eq_false_iff.mpr fun h => absurd (hr _ h) (by rw [hseq]; omega)⟩

/-- What holds a command does not rest on its own record. -/
theorem holdEnded_updCmd : holdEnded (updCmd c.seq f s) c = holdEnded s c := by
  have htarget : targetPending (updCmd c.seq f s) c = targetPending s c := any_earlier hseq _ fun d hd => by
    simp only [Bool.and_eq_true, decide_eq_true_eq] at hd
    exact hd.1.1.1.2
  have hcommit : commitPending (updCmd c.seq f s) c = commitPending s c := any_earlier hseq _ fun d hd => by
    simp only [Bool.and_eq_true, decide_eq_true_eq] at hd
    exact hd.1.1.1.2
  have hlate : behindLate (updCmd c.seq f s) c = behindLate s c := any_earlier hseq _ fun d hd => by
    simp only [Bool.and_eq_true, decide_eq_true_eq] at hd
    exact hd.1.1.1.2
  have hjob : behindJob (updCmd c.seq f s) c = behindJob s c := by
    have hcoll : findColl (updCmd c.seq f s) c.entry.target = findColl s c.entry.target := rfl
    unfold behindJob
    rw [hcoll]
    cases findColl s c.entry.target with
    | none => rfl
    | some k =>
      refine congrArg (fun any => _ && (k.job.isSome || any)) (any_mapIf (fun d hd => ?_) s.ahp.cmds)
      have hown : d.seq = c.seq := by simpa using hd
      simp [hseq, hown]
  have hrest : heldByApply (updCmd c.seq f s) c = heldByApply s c ∧ reached (updCmd c.seq f s) c = reached s c := ⟨rfl, rfl⟩
  unfold holdEnded
  rw [htarget, hcommit, hlate, hjob, hrest.1, hrest.2, updCmd_power]

end Holds

theorem holdEnded_emit (o : Out) : holdEnded (emit o s) c = holdEnded s c := by
  unfold emit
  split <;> rfl

/-! ## Dispatch (R352, R353) -/

/-- A dispatch slot has been given to a queue. -/
def slotGiven (cls : Nat) (q : Queue) (used : List Nat) (s : State) : State :=
  { s with ahp := { s.ahp with used := used, last := modAt (fun _ => some q.qid) cls s.ahp.last } }

theorem exec_commandDispatch {cls : Nat} {q : Queue} {used : List Nat} (hopen : frontOpen (tick t s) = true)
    (hnext : nextDispatch (tick t s) = (some (cls, q, c), used)) :
    exec (.commandDispatch t) s = .next (dispatchCmd c (max s.now t) (slotGiven cls q used (tick t s))) := by
  change execCommandDispatch t s = _
  unfold execCommandDispatch
  dsimp only
  rw [if_neg (by rw [hopen]; decide), hnext]
  rfl

/-- The command as its dispatch leaves it. -/
def dispatchedAs (s : State) (c : Cmd) (t : Nat) (d : Cmd) : Cmd :=
  { d with phase := .dispatched, dispatchedAt := t, dispatchEpoch := epochOf s c, late := targetPending s c }

/-- The state once the dispatch is noted. -/
def dispatchNoted (c : Cmd) (t : Nat) (s : State) : State := updCmd c.seq (dispatchedAs s c t) s

/-- XRDY has been sent, where the command has an input (R349). -/
def announced (c : Cmd) (t : Nat) (s : State) : State := if c.entry.inLen = 0 then s else emit (.xrdy (connOf s c) (xrdyBytes c t)) s

theorem findCmd_dispatchNoted (hc : findCmd s c.seq = some c) : findCmd (dispatchNoted c t s) c.seq = some (dispatchedAs s c t c) :=
  findCmd_upd (f := dispatchedAs s c t) (fun _ => rfl) hc

theorem findCmd_announced (seq : Nat) : findCmd (announced c t s) seq = findCmd s seq := by
  unfold announced
  split
  · rfl
  · exact findCmd_congr (emit_ahp ..) seq

theorem announced_out (hinput : c.entry.inLen ≠ 0) : .xrdy (connOf s c) (xrdyBytes c t) ∈ (announced c t s).net.out := by
  rw [announced, if_neg hinput, emit_out]
  exact List.mem_append_right _ List.mem_cons_self

/-- A command whose target or plan cannot be named completes at its dispatch. -/
theorem dispatchCmd_fails {st : Nat} (hready : targetPending s c = false)
    (h : targetFail s c = some st ∨ (targetFail s c = none ∧ planFail s c = some st)) :
    dispatchCmd c t s = fail c.seq st (dispatchNoted c t s) := by
  unfold dispatchCmd
  dsimp only
  rw [hready]
  rcases h with htarget | ⟨htarget, hplan⟩
  · rw [htarget]
    unfold dispatchNoted dispatchedAs
    rw [hready]
    rfl
  · rw [htarget, hplan]
    unfold dispatchNoted dispatchedAs
    rw [hready]
    rfl

/-- One that is held waits with its XRDY sent. -/
theorem dispatchCmd_held (hnamed : targetPending s c = true ∨ (targetFail s c = none ∧ planFail s c = none))
    (hheld : holdEnded s { c with phase := .dispatched } = false) :
    dispatchCmd c t s = announced c t (dispatchNoted c t s) := by
  have htarget : (if targetPending s c then none else targetFail s c) = none := by
    rcases hnamed with hlate | ⟨htarget, -⟩
    · rw [if_pos hlate]
    · rw [htarget, ite_self]
  have hplan : (if targetPending s c then none else planFail s c) = none := by
    rcases hnamed with hlate | ⟨-, hplan⟩
    · rw [if_pos hlate]
    · rw [hplan, ite_self]
  have hstill : holdEnded (announced c t (dispatchNoted c t s)) { c with phase := .dispatched } = false := by
    have hnoted : holdEnded (dispatchNoted c t s) { c with phase := .dispatched } = false :=
      (holdEnded_updCmd (c := { c with phase := .dispatched }) (f := dispatchedAs s c t) (fun _ => rfl)).trans hheld
    unfold announced
    split
    · exact hnoted
    · exact (holdEnded_emit _).trans hnoted
  unfold dispatchCmd
  dsimp only
  rw [htarget, hplan]
  exact if_neg (by rw [Bool.not_eq_true]; exact hstill)

end Sys2Proof.DispatchAdmission
end

section
/-! SUPPORT. Completions, QUEUE_RESET, and inputs that are not as long as announced (14 R336; 15 R353, R354). -/

namespace Sys2Proof.CommandEnds

open Machine Laws EndedWork

variable {s : State} {c : Cmd} {seq t : Nat}

theorem findCmd_without (seq : Nat) (s : State) : findCmd { s with ahp := { s.ahp with cmds := s.ahp.cmds.filter (·.seq ≠ seq) } } seq = none := by
  simp [findCmd]

/-! ## COMPLETION_SEND (R353) -/

/-- The completion with the flags of the command's tiles and of its deadline. -/
def flagged (s : State) (c : Cmd) (x : Comp) : Comp :=
  { x with flags := (x.flags ||| c.tileFlags) + flagIf (c.deadline != 0 && c.deadline < s.now) Cflag.deadlineMissed }

/-- A missed deadline has been counted. -/
def deadlineCounted (c : Cmd) (s : State) : State := if c.deadline != 0 && c.deadline < s.now then bump Key.deadlineMisses s else s

/-- The completion has gone out and has been counted. -/
def completionSent (c : Cmd) (x : Comp) (s : State) : State :=
  bump Key.commandsCompleted (sendCompletion (connOf (deadlineCounted c s) c) c.entry.cmdId (flagged s c x) (deadlineCounted c s))

theorem flagIf_late (c : Cmd) (now : Nat) : flagIf (c.deadline != 0 && c.deadline < now) Cflag.deadlineMissed =
    if c.deadline ≠ 0 ∧ c.deadline < now then Cflag.deadlineMissed else 0 := by simp [flagIf]

theorem deadlineCounted_net (c : Cmd) (s : State) : (deadlineCounted c s).net = s.net := by
  unfold deadlineCounted
  split
  · rw [bump_net]
  · rfl

theorem deadlineCounted_ahp (c : Cmd) (s : State) : (deadlineCounted c s).ahp = s.ahp := by
  unfold deadlineCounted
  split
  · rw [bump_ahp]
  · rfl

theorem deadlineCounted_wf (c : Cmd) (h : Table.wf (fun _ => 0) s.counters = true) : Table.wf (fun _ => 0) (deadlineCounted c s).counters = true := by
  unfold deadlineCounted
  split
  · exact wf_bump h
  · exact h

theorem counter_deadlineCounted {k : Nat} (h : Table.wf (fun _ => 0) s.counters = true) (hk : Key.deadlineMisses ≠ k) :
    counter (deadlineCounted c s) k = counter s k := by
  unfold deadlineCounted
  split
  · exact counter_bump_ne h hk
  · rfl

theorem sendCompletion_counters (conn id : Nat) (x : Comp) (s : State) : (sendCompletion conn id x s).counters = s.counters := by
  unfold sendCompletion
  dsimp only
  split
  · exact emit_counters ..
  · rw [raiseClass_counters]
    exact emit_counters ..

theorem sendCompletion_out (conn id : Nat) (x : Comp) (s : State) :
    (sendCompletion conn id x s).net.out = s.net.out ++ [.completion conn (completionBytes id x)] := by
  unfold sendCompletion
  dsimp only
  split
  · exact emit_out ..
  · rw [raiseClass_net]
    exact emit_out ..

theorem completionSent_out (c : Cmd) (x : Comp) (s : State) :
    (completionSent c x s).net.out = s.net.out ++ [.completion (connOf s c) (completionBytes c.entry.cmdId (flagged s c x))] := by
  have hconn : connOf (deadlineCounted c s) c = connOf s c := by
    unfold connOf findQueue
    rw [deadlineCounted_ahp]
  rw [completionSent, bump_net, sendCompletion_out, deadlineCounted_net, hconn]

theorem counter_completionSent (x : Comp) (h : Table.wf (fun _ => 0) s.counters = true) (hroom : counter s Key.commandsCompleted + 1 < 2 ^ 64) :
    counter (completionSent c x s) Key.commandsCompleted = counter s Key.commandsCompleted + 1 := by
  have hcount : counter (deadlineCounted c s) Key.commandsCompleted = counter s Key.commandsCompleted := counter_deadlineCounted h (by decide)
  rw [completionSent, counter_bump_from (sendCompletion_counters ..) (deadlineCounted_wf c h) (by rw [hcount]; exact hroom), hcount]

/-- A completion that may be sent goes out, and its command is gone. -/
theorem exec_completionSend {x : Comp} (hc : findCmd s seq = some c) (hx : c.comp = some x) (hsend : maySend s c = true) (hpower : s.power.state ≠ .p4) :
    let v := completionSent c x (tick t s)
    exec (.completionSend seq t) s =
      .next (resumeLayers (afterCompletion c.entry { v with ahp := { v.ahp with cmds := v.ahp.cmds.filter (·.seq ≠ seq) } })) := by
  have hfound : findCmd (tick t s) seq = some c := hc
  have hgoes : ¬(maySend (tick t s) c = false ∨ (tick t s).power.state = .p4) :=
    not_or.mpr ⟨by rw [show maySend (tick t s) c = true from hsend]; decide, hpower⟩
  change execCompletionSend seq t s = _
  unfold execCompletionSend
  dsimp only
  rw [hfound]
  dsimp only
  rw [hx]
  dsimp only
  rw [if_neg hgoes]
  rfl

/-! ## QUEUE_RESET (R354) -/

section Reset
variable (hc : admittedCmd s seq 0x02 = some c)
include hc

/-- The commands that a QUEUE_RESET ends. -/
def resetEnds (s : State) (c : Cmd) : List Cmd := (endable s (c.entry.target % 65536)).filter (·.seq < u64At c.report 0)

/-- The others among them have ended, and the reset is counted. -/
def othersEnded (seq : Nat) (headers : List HeaderRead) (c : Cmd) (s : State) : State :=
  bump Key.queueResets (endAll headers [] ((resetEnds s c).filter (·.seq ≠ seq)) s)

/-- The completions that the completion of the reset waits for. -/
def resetWaits (seq : Nat) (s : State) (c d : Cmd) : Cmd := { d with waitsFor := ((resetEnds s c).filter (·.seq ≠ seq)).map (·.seq) }

theorem exec_queueReset (headers : List HeaderRead) (hfirst : resetPending s c = false) : exec (.queueReset seq headers) s =
    if (resetEnds s c).any (·.seq == seq) then
      let v := bump Key.commandsAborted (othersEnded seq headers c s)
      .next (resumeLayers (resumeQueue (c.entry.target % 65536) { v with ahp := { v.ahp with cmds := v.ahp.cmds.filter (·.seq ≠ seq) } }))
    else .next (resumeLayers (updCmd seq (resetWaits seq s c) (succeed seq (resetEnds s c).length [] (othersEnded seq headers c s)))) := by
  change execQueueReset seq headers s = _
  unfold execQueueReset
  rw [hc]
  exact if_neg (by rw [hfirst]; decide)

/-- The reset itself is left where it is. -/
theorem findCmd_othersEnded (headers : List HeaderRead) : findCmd (othersEnded seq headers c s) seq = some c := by
  rw [othersEnded, findCmd_congr (bump_ahp ..), findCmd_endAll_ne headers _ (fun d hd => ?_), admittedCmd_findCmd hc]
  have hother : d.seq ≠ seq := by simpa using List.of_mem_filter hd
  exact hother.symm

end Reset

theorem resumeQueue_cmds (qid : Nat) (s : State) : (resumeQueue qid s).ahp.cmds = s.ahp.cmds := by
  unfold resumeQueue
  split <;> rfl

/-! ## Inputs that are not as long as announced (R336) -/

/-- What a command with an input does first: a transfer that is longer or shorter than announced ends it. -/
def inputFirst (seq op : Nat) (b : Bytes) (works : Cmd → Res) (s : State) : Res :=
  match admittedCmd s seq op with
  | none => .next s
  | some c => if wrongTransfer c b then .next (fail seq Status.lengthMismatch s) else works c

/-- The commands with an input of one length. -/
def withInput (seq t : Nat) (b : Bytes) : List (Nat × Instr) :=
  [(0x06, .roleManage seq b), (0x10, .loadPlan seq b CodeChecks.match_), (0x20, .createCollection seq b), (0x25, .insert seq b), (0x26, .delete seq b),
    (0x29, .loadIndex seq b), (0x2A, .search seq b Upsets.quiet t), (0x2B, .uniqueCount ⟨seq, Upsets.quiet⟩ b t), (0x30, .createMemoryHead seq b),
    (0x33, .memlayerFwd seq b Upsets.quiet t), (0x34, .memlayerBwd ⟨seq, Upsets.quiet⟩ b t), (0x35, .memlayerUpdate ⟨seq, Upsets.quiet⟩ b t)]

theorem exec_withInput {b : Bytes} {x : Nat × Instr} (hx : x ∈ withInput seq t b) :
    ∃ v works, (v = s ∨ v = tick t s) ∧ exec x.2 s = inputFirst seq x.1 b works v := by
  simp only [withInput, List.mem_cons, List.not_mem_nil, or_false] at hx
  rcases hx with rfl | rfl | rfl | rfl | rfl | rfl | rfl | rfl | rfl | rfl | rfl | rfl
  · exact ⟨s, _, .inl rfl, rfl⟩
  · exact ⟨s, _, .inl rfl, rfl⟩
  · exact ⟨s, _, .inl rfl, rfl⟩
  · exact ⟨s, _, .inl rfl, rfl⟩
  · exact ⟨s, _, .inl rfl, rfl⟩
  · exact ⟨s, _, .inl rfl, rfl⟩
  · exact ⟨_, _, .inr rfl, rfl⟩
  · exact ⟨_, _, .inr rfl, rfl⟩
  · exact ⟨s, _, .inl rfl, rfl⟩
  · exact ⟨_, _, .inr rfl, rfl⟩
  · exact ⟨_, _, .inr rfl, rfl⟩
  · exact ⟨_, _, .inr rfl, rfl⟩

/-- A wrong length ends the command, and enters neither the collections nor the heads. -/
theorem inputFirst_mismatch {op : Nat} {b : Bytes} {works : Cmd → Res} (hc : admittedCmd s seq op = some c) (hhost : c.internal = false)
    (hwrong : b.length ≠ c.entry.inLen) : ∃ u, inputFirst seq op b works s = .next u ∧
      ready u seq = some { status := Status.lengthMismatch } ∧ u.search = s.search ∧ u.mem = s.mem := by
  refine ⟨fail seq Status.lengthMismatch s, ?_, ready_finish (admittedCmd_findCmd hc) hhost, fail_search .., fail_mem ..⟩
  unfold inputFirst
  rw [hc]
  exact if_pos (by simpa [wrongTransfer] using hwrong)

end Sys2Proof.CommandEnds
end

section
/-! SUPPORT. The way of a command from its dispatch to its completion (14 R336; 15 R352 to R354; 06 R462). -/

namespace Sys2Proof.CommandLife

open Machine Laws DispatchAdmission CommandEnds CollectionAdmission

/-- Settles O26: the equations of dispatch, admission, completion and QUEUE_RESET, with what they leave of the command. What holds a command does not rest on its own
record, so that its dispatch ends no hold; and a command that ends leaves every other one, so that a QUEUE_RESET finds itself again. -/
theorem commandsRunFromDispatchToCompletion : Obligations.CommandsRunFromDispatchToCompletion := by
  refine ⟨?dispatch, ?admitted, ?completion, ?reset, ?resetAdmission, ?mismatch⟩
  case dispatch =>
    intro cls t q c used s hopen hnext hc hhost
    refine ⟨slotGiven cls q used (tick t s), exec_commandDispatch hopen hnext, rfl, rfl, rfl, rfl, fun hready st hfail => ?_, fun hnamed hheld => ?_⟩
    · rw [dispatchCmd_fails hready hfail]
      exact ready_fail (findCmd_dispatchNoted hc) hhost
    · rw [dispatchCmd_held hnamed hheld]
      exact ⟨_, (findCmd_announced _).trans (findCmd_dispatchNoted hc), rfl, rfl, rfl, announced_out⟩
  case admitted =>
    intro seq c s hc hphase hended hopen
    obtain rfl := findCmd_seq hc
    have hexec := RolesAndPlans.exec_commandAdmit_ended hc hphase hended hopen
    refine ⟨fun htarget hplan hserves => ?_, fun hhost st hfail => ?_, fun hhost htarget hplan hdegraded => ?_⟩
    · obtain ⟨d, hd, hadmitted, horder, hsearch⟩ := admitNow_admits hc htarget hplan hserves
      rw [RolesAndPlans.endHold_admitted hd hadmitted.phase hadmitted.entry] at hexec
      refine ⟨_, d, hexec, hd, hadmitted.phase, hadmitted.order, hadmitted.epoch, hadmitted.config, hadmitted.entry, horder, hsearch, fun hrest => ?_⟩
      rw [hexec, atAdmission_rest (by rw [hadmitted.entry]; exact hrest)]
    · rw [endHold_failed hc hhost (admitNow_fails hfail)] at hexec
      exact ⟨_, hexec, ready_fail hc hhost, fail_search .., fail_mem ..⟩
    · rw [endHold_failed hc hhost (admitNow_degraded htarget hplan hdegraded)] at hexec
      exact ⟨_, hexec, ready_fail hc hhost, fail_mem ..⟩
  case completion =>
    intro seq t c x s hc hx hsend hpower hcanonical hroom
    refine ⟨_, exec_completionSend hc hx hsend hpower, findCmd_without .., ?_, ?_⟩
    · exact counter_completionSent (s := tick t s) x hcanonical.1 hroom
    · rw [← flagIf_late]
      exact completionSent_out c x (tick t s)
  case reset =>
    intro seq headers c s hc hhost hfirst
    have hexec := exec_queueReset hc headers hfirst
    refine ⟨fun hothers : (resetEnds s c).any (·.seq == seq) = false => ?_, fun hown : (resetEnds s c).any (·.seq == seq) = true => ?_⟩
    · rw [if_neg (by rw [Bool.not_eq_true]; exact hothers)] at hexec
      have hdone := findCmd_finish (comp := { status := Status.success, info := (resetEnds s c).length, outBytes := 0 }) (output := [])
        (findCmd_othersEnded hc headers) hhost
      exact ⟨_, _, hexec, findCmd_upd (f := resetWaits seq s c) (fun _ => rfl) hdone, rfl, rfl⟩
    · rw [if_pos hown] at hexec
      exact ⟨_, hexec, (congrArg (List.find? _) (resumeQueue_cmds ..)).trans (findCmd_without ..)⟩
  case resetAdmission =>
    intro seq c s hc hphase hended hopen hop htarget
    obtain rfl := findCmd_seq hc
    have hadmits := exec_commandAdmit_admits hc hphase hended hopen htarget (by rw [hop]; decide) (by rw [hop]; decide)
    have hmarks : atAdmission (admittedAs s c c) (admission c s) = updCmd c.seq (withReport (toLE 8 s.ahp.nextSeq)) (admission c s) := by
      unfold atAdmission
      rw [show (admittedAs s c c).entry.opcode = 0x02 from hop]
      rfl
    exact ⟨_, _, hadmits.trans (congrArg _ hmarks), findCmd_withReport (findCmd_admission hc) _, rfl, rfl⟩
  case mismatch =>
    intro seq t b c s hc hhost hwrong x hx hop
    obtain ⟨v, works, hv, hexec⟩ := exec_withInput (s := s) hx
    rw [hexec, ← hop]
    rcases hv with rfl | rfl
    · exact inputFirst_mismatch hc hhost hwrong
    · exact inputFirst_mismatch (s := tick t s) hc hhost hwrong

end Sys2Proof.CommandLife
end

section
/-! SUPPORT. What every command keeps (16 R374, R381; 17 R403, R410; 19 R436 to R444): one split over the commands, from which the invariant's step law, the
protection of dictionary values, roles and measurements, and the law of the black box follow. -/

namespace Sys2Proof.EveryCommand

open Machine Laws

variable {q : List Instr} {P : Prot → Prop} {c : Instr} {s u : State}

/-- What a property of the protected part has to bear of a command: a change of each piece that the command may change. -/
structure Bears (c : Instr) (P : Prot → Prop) : Prop where
  settings : mayConfigure c = true → ClSettings P
  roles : mayChangeRoles c = true → ClRoles P
  measure : mayMeasure c = true → ClMeasure P
  records : mayAppend c = true → ClRecords P

/-- Every command goes on, and keeps what bears its changes: the split over the commands, a law for each. -/
theorem keep_exec (ha : Bears c P) (hk : Keep q P s) : KeepRes q P (exec c s) := by
  cases c with
| queueCreate => exact keep_execQueueCreate _ _ hk
  | queueReset => exact keep_execQueueReset _ _ hk
  | logRead => exact keep_execLogRead _ hk
  | attest => exact keep_execAttest _ hk
  | roleManage => exact keep_execRoleManage _ _ (ha.roles rfl) hk
  | loadPlan => exact keep_execLoadPlan _ _ _ hk
  | unloadPlan => exact keep_execUnloadPlan _ hk
  | createCollection => exact keep_execCreateCollection _ _ hk
  | deleteCollection => exact keep_execDeleteCollection _ hk
  | dataKeyDestroy => exact keep_execDataKeyDestroy _ _ hk
  | collectionInfo => exact keep_execCollectionInfo _ hk
  | snapshotCollection => exact keep_execSnapshotCollection _ _ _ hk
  | releaseSnapshot => exact keep_execReleaseSnapshot _ hk
  | insert => exact keep_execInsert _ _ hk
  | delete => exact keep_execDelete _ _ hk
  | merge => exact keep_execMerge _ hk
  | buildIndex => exact keep_execBuildIndex _ hk
  | loadIndex => exact keep_execLoadIndex _ _ hk
  | search => exact keep_execSearch _ _ _ _ hk
  | uniqueCount => exact keep_execUniqueCount _ _ _ hk
  | createMemoryHead => exact keep_execCreateMemoryHead _ _ hk
  | deleteMemoryHead => exact keep_execDeleteMemoryHead _ hk
  | headTensorWrite => exact keep_execHeadTensorWrite _ _ hk
  | memlayerFwd => exact keep_execMemlayerFwd _ _ _ _ hk
  | memlayerBwd => exact keep_execMemlayerBwd _ _ _ hk
  | memlayerUpdate => exact keep_execMemlayerUpdate _ _ _ hk
  | commandDispatch => exact keep_execCommandDispatch _ hk
  | commandAdmit => exact keep_execCommandAdmit _ hk
  | sloePass => exact keep_execSloePass _ _ _ _ _ _ _ hk
  | probeRound => exact keep_execProbeRound _ hk
  | adcScan => exact keep_execAdcScan _ hk
  | rerank => exact keep_execRerank _ _ hk
  | finalSelection => exact keep_execFinalSelection _ _ hk
  | scanCut => exact keep_execScanCut _ _ hk
  | lateStageCut => exact keep_execLateStageCut _ _ hk
  | queryStall => exact keep_execQueryStall _ _ hk
  | completionSend => exact keep_execCompletionSend _ _ hk
  | unitCommit => exact keep_execUnitCommit _ _ hk
  | appendRoomResume => exact keep_execAppendRoomResume _ hk
  | autoMergeStart => exact keep_execAutoMergeStart _ hk
  | shardSearchReq => exact keep_execShardSearchReq _ _ _ hk
  | shardSearchReply => exact keep_execShardSearchReply _ _ _ hk
  | shardCancel => exact keep_execShardCancel _ _ hk
  | shardCut => exact keep_execShardCut _ _ hk
  | shardTimeout => exact keep_execShardTimeout _ _ hk
  | rowForward => exact keep_execRowForward _ _ _ hk
  | rowResult peer b t => exact keep_execRowResult peer b t hk
  | epochAlloc => exact keep_execEpochAlloc _ _ _ hk
  | epochGrant => exact keep_execEpochGrant _ _ _ hk
  | epochStamped peer b t => exact keep_execEpochStamped peer b t hk
  | epochStable peer b t => exact keep_execEpochStable peer b t hk
  | epochVoid => exact keep_execEpochVoid _ _ _ hk
  | bucketMoveStart => exact keep_execBucketMoveStart _ hk
  | bucketCopy => exact keep_execBucketCopy _ _ _ hk
  | bucketCutover => exact keep_execBucketCutover _ _ _ hk
  | memfwdPartial => exact keep_execMemfwdPartial _ _ _ hk
  | memfwdDone => exact keep_execMemfwdDone _ _ _ hk
  | memfwdRepeat => exact keep_execMemfwdRepeat _ _ _ hk
  | memfwdAbort => exact keep_execMemfwdAbort _ _ _ hk
  | fwdExchangeTimeout => exact keep_execFwdExchangeTimeout _ _ hk
  | membwdDw => exact keep_execMembwdDw _ _ _ hk
  | membwdDone => exact keep_execMembwdDone _ _ _ hk
  | membwdRepeat => exact keep_execMembwdRepeat _ _ _ hk
  | membwdAbort => exact keep_execMembwdAbort _ _ _ hk
  | bwdExchangeTimeout => exact keep_execBwdExchangeTimeout _ _ hk
  | stashHoldRelease => exact keep_execStashHoldRelease _ _ hk
  | stashWaitTimeout => exact keep_execStashWaitTimeout _ _ hk
  | reduceAmax => exact keep_execReduceAmax _ _ _ hk
  | reducePartial => exact keep_execReducePartial _ _ _ hk
  | reduceResult => exact keep_execReduceResult _ _ _ hk
  | reduceSample => exact keep_execReduceSample _ _ _ hk
  | reduceRepeat => exact keep_execReduceRepeat _ _ _ hk
  | reduceTimeout => exact keep_execReduceTimeout _ _ hk
  | updateVerdict => exact keep_execUpdateVerdict _ _ _ hk
  | memberFailed peer b t => exact keep_execMemberFailed peer b t hk
  | memberDegraded peer b => exact keep_execMemberDegraded peer b hk
  | stackDrainComplete => exact keep_execStackDrainComplete _ hk
  | scratchBanksGranted => exact keep_execScratchBanksGranted hk
  | scrubPass => exact keep_execScrubPass _ _ hk
  | tileRelocation => exact keep_execTileRelocation _ _ _ _ _ hk
  | relocationSwitch => exact keep_execRelocationSwitch _ hk
  | mediaRecovery => exact keep_execMediaRecovery _ _ hk
  | tgRunComplete => exact keep_execTgRunComplete _ _ _ hk
  | ftgRunComplete => exact keep_execFtgRunComplete _ _ _ _ _ hk
  | flashReadComplete => exact keep_execFlashReadComplete _ _ hk
  | patrol => exact keep_execPatrol _ _ hk
  | garbageCollection => exact keep_execGarbageCollection _ _ hk
  | dieRebuild => exact keep_execDieRebuild _ _ _ _ hk
  | promotionReadComplete => exact keep_execPromotionReadComplete _ _ hk
  | windowSpaceFreed => exact keep_execWindowSpaceFreed _ _ hk
  | frameReceive => exact keep_execFrameReceive _ _ _ _ hk
  | connectionRequest => exact keep_execConnectionRequest _ _ _ _ _ _ _ hk
  | sppConnectionOpen => exact keep_execSppConnectionOpen _ _ hk
  | sppIdleClose => exact keep_execSppIdleClose _ _ hk
  | linkKeyA => exact keep_execLinkKeyA _ _ _ hk
  | linkKeyB => exact keep_execLinkKeyB _ _ _ hk
  | linkKeyC => exact keep_execLinkKeyC _ _ _ hk
  | linkRekey => exact keep_execLinkRekey _ hk
  | hello => exact keep_execHello _ _ _ hk
  | helloReply => exact keep_execHelloReply _ _ _ hk
  | credit => exact keep_execCredit _ _ _ hk
  | creditReturnTimeout => exact keep_execCreditReturnTimeout _ _ hk
  | ackTimeout => exact keep_execAckTimeout _ _ hk
  | sppSuspendExpiry => exact keep_execSppSuspendExpiry _ _ hk
  | pfcPause => exact keep_execPfcPause _ _ _ _ _ hk
  | pfcStorm => exact keep_execPfcStorm _ _ _ _ hk
  | pfcStormEnd => exact keep_execPfcStormEnd _ _ _ _ hk
  | cnpReceive => exact keep_execCnpReceive _ _ hk
  | rpRecovery => exact keep_execRpRecovery _ _ hk
  | linkTraining => exact keep_execLinkTraining _ _ _ _ hk
  | cageInsert => exact keep_execCageInsert _ _ _ hk
  | ptpMessage => exact keep_execPtpMessage _ _ hk
  | ptpSyncLoss => exact keep_execPtpSyncLoss _ hk
  | dapHandshake => exact keep_execDapHandshake _ _ _ (ha.roles rfl) hk
  | dapIdleTimeout => exact keep_execDapIdleTimeout _ _ hk
  | commitBoundaryReached => exact keep_execCommitBoundaryReached _ (ha.settings rfl) hk
  | commitApplyTimeout => exact keep_execCommitApplyTimeout _ hk
  | diagnosticModeEntered => exact keep_execDiagnosticModeEntered _ hk
  | blackboxAppend => exact keep_execBlackboxAppend _ _ (ha.records rfl) hk
  | blackboxCoalesced => exact keep_execBlackboxCoalesced _ _ _ _ hk
  | p2Entry => exact keep_execP2Entry _ hk
  | p3Entry => exact keep_execP3Entry _ hk
  | entryAbandon => exact keep_execEntryAbandon _ hk
  | wake => exact keep_execWake _ hk
  | clusterClockGate => exact keep_execClusterClockGate _ hk
  | powerFailSignal => exact keep_execPowerFailSignal _ _ (ha.measure rfl) (ha.records rfl) hk
  | pwrEnFall => exact keep_execPwrEnFall _ (ha.measure rfl) (ha.records rfl) hk
  | startUp => exact keep_execStartUp _ _ (ha.measure rfl) (ha.records rfl) (ha.settings rfl) hk
  | sensorReading => exact keep_execSensorReading _ _ (ha.measure rfl) (ha.records rfl) hk
  | tripRestart => exact keep_execTripRestart _ hk
  | heartbeatTimeout => exact keep_execHeartbeatTimeout _ _ hk
  | bothCoresSilent => exact keep_execBothCoresSilent _ hk
  | linkDown => exact keep_execLinkDown _ _ _ _ hk
  | plugInRemoved => exact keep_execPlugInRemoved _ _ hk
  | plugInHighAlarm => exact keep_execPlugInHighAlarm _ _ hk
  | disconnectRequest => exact keep_execDisconnectRequest _ _ hk
  | connectionRequestRepeat => exact keep_execConnectionRequestRepeat _ _ hk
  | epochHoldExpiry => exact keep_execEpochHoldExpiry _ _ hk
  | stableIntervalExpiry => exact keep_execStableIntervalExpiry _ _ hk
  | keeperUnreachableTimeout => exact keep_execKeeperUnreachableTimeout _ _ hk
  | dapSessionClose => exact keep_execDapSessionClose _ hk
  | read | write | stage | readStaged | describe | commitCheck | commitApply | commitAbort | tgWriteRead | tgReadOnly | tgWriteOnly | ftgWriteRead |
    ftgReadVerify | ftgEraseTest | roleRecord | factoryReset | imageBegin | imageBlock | imageFinish | imageAbandon | imageMarkPending |
    imageClearPending | imageActivate | moduleReset | diagnosticMode | blackboxReadFrom | blackboxWindow =>
    exact keepRes_next (keep_dapCommand _ _ _ _ (ha.measure rfl) (ha.roles rfl) (ha.settings rfl) hk)

/-- The invariant of a state, with a property that its protected part has. -/
theorem keep_of_inv (hinv : s.Inv) (hp : P (prot s)) : Keep s.pending P s := by
  obtain ⟨⟨hcounters, hvalues⟩, hbound, hclasses, hqueue, hstacks, hdies, hlast, hregs, hring⟩ := hinv
  exact ⟨rfl, hp, hcounters, hvalues, hbound, hclasses, hqueue, hstacks, hdies, hlast, hregs, hring⟩

theorem inv_of_keep (hk : Keep q P u) : u.Inv :=
  ⟨⟨hk.counters, hk.values⟩, hk.bound, hk.classes, hk.queue, hk.hbm, hk.dies, hk.last, hk.regs, hk.ring⟩

/-- A property that bears a command's changes, and that the protected part has, is left by the command. -/
theorem prot_exec (ha : Bears c P) (hinv : s.Inv) (hp : P (prot s)) (hexec : exec c s = .next u) : P (prot u) := by
  obtain ⟨t, hnext, hkeep⟩ := keep_exec ha (keep_of_inv hinv hp)
  obtain rfl : t = u := by simpa [hnext] using hexec
  exact hkeep.prot

/-! ## The step law -/

theorem exec_keeps_inv (c : Instr) (hinv : s.Inv) : ∃ u, exec c s = .next u ∧ u.Inv ∧ u.pending = s.pending := by
  have htrue : Bears c fun _ => True := ⟨fun _ _ _ _ => trivial, fun _ _ _ _ => trivial, fun _ _ _ _ => trivial, fun _ _ _ _ => trivial⟩
  obtain ⟨u, hnext, hkeep⟩ := keep_exec htrue (keep_of_inv hinv trivial)
  exact ⟨u, hnext, inv_of_keep hkeep, hkeep.pending⟩

/-- The invariant does not speak of the commands that wait. -/
theorem inv_withPending (l : List Instr) (hinv : s.Inv) : ({ s with pending := l } : State).Inv := hinv

theorem step_idle (hnone : s.pending = []) : step s = .next s := by
  unfold step
  rw [hnone]

theorem step_front {l : List Instr} (hfront : s.pending = c :: l) : step s = exec c { s with pending := l } := by
  unfold step
  rw [hfront]

/-- Settles O1: the two branches of a step, by its queue. -/
theorem blockRunsTheCommandInFront : Obligations.BlockRunsTheCommandInFront :=
  ⟨fun _ _ _ hfront => step_front hfront, fun _ hnone => step_idle hnone⟩

/-- Settles O3: every command keeps the invariant, and a step is one command or none. -/
theorem everyStepKeepsTheInvariant : Obligations.EveryStepKeepsTheInvariant := by
  refine ⟨fun s hinv => ?_, fun c s hinv => exec_keeps_inv c hinv⟩
  cases hpending : s.pending with
  | nil => exact ⟨s, step_idle hpending, hinv, hpending⟩
  | cons c l =>
    rw [step_front hpending]
    exact exec_keeps_inv c (inv_withPending l hinv)

/-! ## The protected part (R374, R381, R403, R410) -/

theorem bears_settings (x : List (Nat × Bytes)) (hc : mayConfigure c = false) : Bears c fun p => p.settings = x :=
  ⟨fun h => absurd h (by simp [hc]), fun _ _ _ hp => hp, fun _ _ _ hp => hp, fun _ _ _ hp => hp⟩

theorem bears_roles (x : List Role) (hc : mayChangeRoles c = false) : Bears c fun p => p.roles = x :=
  ⟨fun _ _ _ hp => hp, fun h => absurd h (by simp [hc]), fun _ _ _ hp => hp, fun _ _ _ hp => hp⟩

theorem bears_measure (x : List Bytes) (hc : mayMeasure c = false) : Bears c fun p => p.measure = x :=
  ⟨fun _ _ _ hp => hp, fun _ _ _ hp => hp, fun h => absurd h (by simp [hc]), fun _ _ _ hp => hp⟩

/-- Settles O4: each of the three pieces, kept by every command that is not among those that may change it. -/
theorem configurationIsProtected : Obligations.ConfigurationIsProtected := fun _ s _ hinv hexec =>
  ⟨fun hc => prot_exec (bears_settings s.settings hc) hinv rfl hexec, fun hc => prot_exec (bears_roles s.sec.roles hc) hinv rfl hexec,
    fun hc => prot_exec (bears_measure s.sec.measure hc) hinv rfl hexec⟩

/-! ## The black box (R439, R444) -/

theorem inRing_short {l : List Bytes} (hl : l.length ≤ ringSlots) : inRing l = l := by
  unfold inRing
  rw [List.take_of_length_le (by simpa using hl), List.reverse_reverse]

/-- What leaves the ring leaves it for good: the newest of the newest, with a further record, are the newest of all. -/
theorem inRing_append (l m : List Bytes) : inRing (inRing l ++ m) = inRing (l ++ m) := by
  simp only [inRing, List.reverse_append, List.reverse_reverse, List.take_append, List.length_reverse, List.take_take]
  congr 3
  omega

/-- What a ring of records and its head word are after further records. -/
def Appended (records : List Bytes) (head : Nat) (p : Prot) : Prop :=
  ∃ new : List Bytes, p.records = inRing (records ++ new) ∧ p.head = head + new.length

theorem clRecords_appended (records : List Bytes) (head : Nat) : ClRecords (Appended records head) := by
  rintro p b ⟨new, hrecords, hhead⟩
  refine ⟨new ++ [b], ?_, ?_⟩
  · simp only [hrecords, inRing_append, List.append_assoc]
  · simp [hhead, Nat.add_assoc]

theorem bears_appended (records : List Bytes) (head : Nat) : Bears c (Appended records head) :=
  ⟨fun _ _ _ hp => hp, fun _ _ _ hp => hp, fun _ _ _ hp => hp, fun _ => clRecords_appended records head⟩

theorem bears_box (x : List Bytes) (n : Nat) (hc : mayAppend c = false) : Bears c fun p => p.records = x ∧ p.head = n :=
  ⟨fun _ _ _ hp => hp, fun _ _ _ hp => hp, fun _ _ _ hp => hp, fun h => absurd h (by simp [hc])⟩

/-- Settles O5: the ring and its head are kept by every command but the service core's own, which append to what the ring held. -/
theorem blackBoxIsOnlyAppended : Obligations.BlackBoxIsOnlyAppended := by
  intro c s u hinv hexec
  refine ⟨fun hc => prot_exec (bears_box s.box.records s.box.head hc) hinv ⟨rfl, rfl⟩ hexec, fun _ => ?_⟩
  obtain ⟨-, -, -, -, -, -, -, -, hring⟩ := id hinv
  have hall : inRing (s.box.records ++ []) = s.box.records := by
    rw [List.append_nil, inRing_short (by omega)]
  exact prot_exec (bears_appended s.box.records s.box.head) hinv ⟨[], hall.symm, rfl⟩ hexec

end Sys2Proof.EveryCommand
end

section
/-! SUPPORT. QUEUE_CREATE and the entries that are rejected (15 R342, R346). -/

namespace Sys2Proof.QueueCreation

open Machine Laws CommandEnds

variable {s : State} {c : Conn} {b : Bytes} {r : OpRow} {n qp : Nat}

theorem sendCompletion_ahp (conn id : Nat) (x : Comp) (s : State) : (sendCompletion conn id x s).ahp = s.ahp := by
  unfold sendCompletion
  dsimp only
  split
  · rw [emit_ahp]
  · rw [raiseClass_ahp, emit_ahp]

/-- The row that the checks answer is the row of the entry's opcode. -/
theorem op_of_checked {queue : Option Queue} (hcheck : checkEntry s c queue b = .ok r) : r.op = u8At b 0 := by
  suffices hrow : opRow (u8At b 0) = some r by simpa using List.find?_some hrow
  unfold checkEntry at hcheck
  dsimp only at hcheck
  iterate 3
    split at hcheck
    · cases hcheck
  cases hrow : opRow (u8At b 0) with
  | none => rw [hrow] at hcheck; cases hcheck
  | some row =>
    rw [hrow] at hcheck
    dsimp only at hcheck
    split_ifs at hcheck <;> split at hcheck <;> cases hcheck <;> rfl

/-- The queue that a checked QUEUE_CREATE makes. -/
def madeQueue (c : Conn) (e : Entry) (n : Nat) (s : State) : Queue where
  qid := 1024 * c.port + n
  conn := c.qpn
  role := c.role
  admin := s.sec.roles.any fun r => r.id == c.role && r.ahp == 2
  minor := c.minor
  depth := e.arg0 % 65536
  cls := bits e.arg0 23 16
  suspended := false

/-- The state with that queue among the others. -/
def withQueue (q : Queue) (s : State) : State :=
  { s with ahp := { s.ahp with queues := insertBy (fun a b => a.qid ≤ b.qid) q s.ahp.queues } }

theorem createQueue_free (e : Entry) (hfree : freeQueueIndex s c.port = some n) : createQueue c e s =
    bump Key.commandsCompleted (sendCompletion c.qpn e.cmdId { status := Status.success, info := 1024 * c.port + n } (withQueue (madeQueue c e n s) s)) := by
  unfold createQueue
  rw [hfree]
  rfl

section Arrival

variable (hc : findConn s qp = some c) (hopen : c.phase = .open_) (hproto : c.proto = 1) (hop : u8At b 0 = 0x01)
include hc hopen hproto hop

theorem exec_queueCreate_checked (hcheck : checkEntry s c (queueOfConn s c.qpn) b = .ok r) :
    exec (.queueCreate qp b) s = .next (createQueue c (parseEntry b) s) := by
  have hreceived : receiveEntry c b s.now s = createQueue c (parseEntry b) s := by
    unfold receiveEntry
    rw [hcheck]
    exact if_pos ((op_of_checked hcheck).trans hop)
  change execQueueCreate qp b s = _
  unfold execQueueCreate
  rw [hc]
  dsimp only
  rw [if_pos ⟨hopen, hproto, hop⟩, hreceived]

theorem exec_queueCreate_rejected {x : Comp} (hcheck : checkEntry s c (queueOfConn s c.qpn) b = .bad x) :
    exec (.queueCreate qp b) s = .next (rejectEntry c.qpn b x s) := by
  have hreceived : receiveEntry c b s.now s = rejectEntry c.qpn b x s := by
    unfold receiveEntry
    rw [hcheck]
  change execQueueCreate qp b s = _
  unfold execQueueCreate
  rw [hc]
  dsimp only
  rw [if_pos ⟨hopen, hproto, hop⟩, hreceived]

end Arrival

/-- Settles O25: a checked entry makes its queue and completes; another one is rejected, which sends and counts alone. -/
theorem submissionEntriesAreChecked : Obligations.SubmissionEntriesAreChecked := by
  refine ⟨fun qp n b s c r hc hopen hproto hop hcheck hfree => ?made, fun qp b s c x hc hopen hproto hop hcheck hw hroom => ?rejected⟩
  case made =>
    refine ⟨_, exec_queueCreate_checked hc hopen hproto hop hcheck, ?_⟩
    rw [createQueue_free _ hfree, bump_ahp, bump_net, sendCompletion_ahp, sendCompletion_out]
    exact ⟨⟨madeQueue c (parseEntry b) n s, mem_insertBy.2 (.inl rfl), rfl, rfl, rfl, rfl⟩, rfl, rfl⟩
  case rejected =>
    refine ⟨_, exec_queueCreate_rejected hc hopen hproto hop hcheck, ?_, counter_bump_from (sendCompletion_counters ..) hw hroom, ?_⟩
    · rw [rejectEntry, bump_ahp, sendCompletion_ahp]
    · rw [rejectEntry, bump_net, sendCompletion_out]

end Sys2Proof.QueueCreation
end

section
/-! SUPPORT. DAP sessions and frames (16 R369 to R376): which session is found after an update and after a reply, what a reply leaves alone, the state in which a
new frame is carried out, and the operation that carries it out. -/

namespace Sys2Proof.DapFrames

open Machine Laws SingleWrites

variable {s u : State} {id t : Nat} {b : Bytes} {x y : Session}

/-! ## Sessions (R369) -/

theorem findSession_congr (h : u.dap = s.dap) (i : Nat) : findSession u i = findSession s i := by
  unfold findSession; rw [h]

theorem findSession_id (h : findSession s id = some x) : x.id = id := by simpa using List.find?_some h

theorem findSession_upd {f : Session → Session} (hf : ∀ z, (f z).id = z.id) (h : findSession s id = some x) :
    findSession (updSession id f s) id = some (f x) :=
  (find_mapIf (fun z hz => by simpa [hf z] using hz) _).trans (congrArg (Option.map f) h)

/-- A record that takes the place of the session of its own number is found there. -/
theorem findSession_put (hy : y.id = id) (h : findSession s id = some x) : findSession (updSession id (fun _ => y) s) id = some y :=
  (find_mapIf (fun _ _ => by simpa using hy) _).trans (congrArg (Option.map _) h)

/-! ## Counting -/

/-- A counter without an error class leaves the black box. -/
theorem bump_box_of_noClass {k : Nat} (hk : counterClass k = none) (s : State) : (bump k s).box = s.box := by
  unfold bump bumpBy
  rw [hk]
  dsimp only
  unfold addCounter
  split <;> rfl

/-! ## Replies (R375) -/

/-- A session after a reply of `bytes` to its request `rid`. -/
def answered (rid : Nat) (bytes : Bytes) (x : Session) : Session :=
  let kept := x.kept ++ [{ requestId := rid, reply := bytes }]
  { x with kept := kept.drop (kept.length - 16), outstanding := x.outstanding.filter (· ≠ rid) }

/-- The newest of the replies that a session keeps is the last one given. -/
theorem lastKept_answered (rid : Nat) (bytes : Bytes) (x : Session) : (answered rid bytes x).kept.getLast? = some { requestId := rid, reply := bytes } := by
  unfold answered
  dsimp only
  rw [List.getLast?_drop, if_neg (by simp only [List.length_append, List.length_singleton]; omega), List.getLast?_concat]

variable {op rid : Nat} {r : DapReply}

/-- The counted state from which a reply goes out. -/
theorem findSession_counted (c : Prop) [Decidable c] (k : Nat) (s : State) (i : Nat) : findSession (if c then s else bump k s) i = findSession s i := by
  split
  · rfl
  · exact findSession_congr (bump_dap ..) i

theorem findSession_dapAnswer (hx : findSession s id = some x) (hgone : x.gone = false) :
    findSession (dapAnswer id op rid r s) id = some (answered rid (replyBytes op rid r) x) := by
  have hcounted := (findSession_counted (r.status = Status.success) Key.dapFramesRejected s id).trans hx
  unfold dapAnswer
  dsimp only
  rw [hcounted]
  dsimp only
  rw [if_neg (by simp [hgone])]
  exact (findSession_congr (emit_dap ..) id).trans (findSession_upd (fun _ => rfl) hcounted)

theorem lastReply_dapAnswer (hx : findSession s id = some x) (hgone : x.gone = false) :
    lastReply (dapAnswer id op rid r s) id = some (replyBytes op rid r) := by
  unfold lastReply
  rw [findSession_dapAnswer hx hgone, Option.bind_some, lastKept_answered]
  rfl

section
variable (id op rid : Nat) (r : DapReply) (s : State)

@[simp] theorem dapAnswer_settings : (dapAnswer id op rid r s).settings = s.settings :=
  dapAnswer_same (f := State.settings) (fun k u => bump_settings u k) (fun _ _ _ => rfl) (fun o u => emit_settings u o) ..
@[simp] theorem dapAnswer_ahp : (dapAnswer id op rid r s).ahp = s.ahp :=
  dapAnswer_same (f := State.ahp) (fun k u => bump_ahp u k) (fun _ _ _ => rfl) (fun o u => emit_ahp u o) ..
@[simp] theorem dapAnswer_search : (dapAnswer id op rid r s).search = s.search :=
  dapAnswer_same (f := State.search) (fun k u => bump_search u k) (fun _ _ _ => rfl) (fun o u => emit_search u o) ..
@[simp] theorem dapAnswer_mem : (dapAnswer id op rid r s).mem = s.mem :=
  dapAnswer_same (f := State.mem) (fun k u => bump_mem u k) (fun _ _ _ => rfl) (fun o u => emit_mem u o) ..
@[simp] theorem dapAnswer_hbm : (dapAnswer id op rid r s).hbm = s.hbm :=
  dapAnswer_same (f := State.hbm) (fun k u => bump_hbm u k) (fun _ _ _ => rfl) (fun o u => emit_hbm u o) ..
@[simp] theorem dapAnswer_cold : (dapAnswer id op rid r s).cold = s.cold :=
  dapAnswer_same (f := State.cold) (fun k u => bump_cold u k) (fun _ _ _ => rfl) (fun o u => emit_cold u o) ..
@[simp] theorem dapAnswer_sec : (dapAnswer id op rid r s).sec = s.sec :=
  dapAnswer_same (f := State.sec) (fun k u => bump_sec u k) (fun _ _ _ => rfl) (fun o u => emit_sec u o) ..
@[simp] theorem dapAnswer_power : (dapAnswer id op rid r s).power = s.power :=
  dapAnswer_same (f := State.power) (fun k u => bump_power u k) (fun _ _ _ => rfl) (fun o u => emit_power u o) ..

/-- A reply changes the sessions, and nothing else of DAP. -/
theorem dapAnswer_dap_same {α : Type} {f : Dap → α} (hf : ∀ (x : Dap) l, f { x with sessions := l } = f x) : f (dapAnswer id op rid r s).dap = f s.dap :=
  dapAnswer_same (f := fun u : State => f u.dap) (fun k u => congrArg f (bump_dap u k)) (fun _ _ _ => hf _ _) (fun o u => congrArg f (emit_dap u o)) ..

/-- A rejected frame counts without an error class. -/
@[simp] theorem dapAnswer_box : (dapAnswer id op rid r s).box = s.box := by
  have hcounted : (if r.status = Status.success then s else bump Key.dapFramesRejected s).box = s.box := by
    split
    · rfl
    · exact bump_box_of_noClass (by decide) s
  unfold dapAnswer
  dsimp only
  split
  · exact hcounted
  · split
    · exact hcounted
    · exact (emit_box ..).trans hcounted

end

/-! ## A new frame (R370, R371, R375) -/

section
variable (id : Nat) (b : Bytes) (s : State)

@[simp] theorem dapAccepted_now : (dapAccepted id b s).now = s.now := by simp [dapAccepted]
@[simp] theorem dapAccepted_settings : (dapAccepted id b s).settings = s.settings := by simp [dapAccepted]
@[simp] theorem dapAccepted_ahp : (dapAccepted id b s).ahp = s.ahp := by simp [dapAccepted]
@[simp] theorem dapAccepted_search : (dapAccepted id b s).search = s.search := by simp [dapAccepted]
@[simp] theorem dapAccepted_mem : (dapAccepted id b s).mem = s.mem := by simp [dapAccepted]
@[simp] theorem dapAccepted_hbm : (dapAccepted id b s).hbm = s.hbm := by simp [dapAccepted]
@[simp] theorem dapAccepted_cold : (dapAccepted id b s).cold = s.cold := by simp [dapAccepted]
@[simp] theorem dapAccepted_sec : (dapAccepted id b s).sec = s.sec := by simp [dapAccepted]
@[simp] theorem dapAccepted_power : (dapAccepted id b s).power = s.power := by simp [dapAccepted]
@[simp] theorem dapAccepted_box : (dapAccepted id b s).box = s.box := bump_box_of_noClass (by decide) _

theorem dapAccepted_dap_same {α : Type} {f : Dap → α} (hf : ∀ (x : Dap) l, f { x with sessions := l } = f x) : f (dapAccepted id b s).dap = f s.dap := by
  unfold dapAccepted
  rw [bump_dap]
  exact (hf _ _).trans (hf _ _)

end

/-- The session of a new frame is open, and its newest REQUEST_ID is the frame's. -/
theorem accepted_session (hnew : dapNew s id b = true) :
    ∃ y, findSession (dapAccepted id b s) id = some y ∧ y.gone = false ∧ y.highest = some (dapId b) := by
  unfold dapNew at hnew
  cases hx : findSession s id with
  | none => rw [hx] at hnew; cases hnew
  | some x =>
    rw [hx] at hnew
    have hgone : x.gone = false := by
      simp only [Bool.and_eq_true, Bool.not_eq_true'] at hnew
      obtain ⟨⟨⟨⟨⟨⟨⟨⟨hgone, -⟩, -⟩, -⟩, -⟩, -⟩, -⟩, -⟩, -⟩ := hnew
      exact hgone
    have hcounted := findSession_upd (f := fun y => { y with highest := some (dapId b) }) (fun _ => rfl)
      (findSession_upd (f := fun y => { y with lastFrame := s.now }) (fun _ => rfl) hx)
    exact ⟨_, (findSession_congr (bump_dap ..) id).trans hcounted, hgone, rfl⟩

theorem accepted_open (hnew : dapNew s id b = true) (hy : findSession (dapAccepted id b s) id = some y) : y.gone = false := by
  obtain ⟨z, hz, hgone, -⟩ := accepted_session hnew
  obtain rfl : z = y := by simpa [hz] using hy
  exact hgone

/-- Where no check of a list fails, none of them does. -/
theorem firstFail_none {α : Type} {l : List (Option α)} (h : firstFail l = none) : ∀ o ∈ l, o = none := by
  induction l with
  | nil => exact fun _ ho => absurd ho List.not_mem_nil
  | cons o r ih =>
    cases o with
    | some x => cases h
    | none => exact List.forall_mem_cons.mpr ⟨rfl, ih h⟩

/-- A frame that passes R370 names one of the eight operations. -/
theorem op_of_new (hnew : dapNew s id b = true) : 1 ≤ dapOp b ∧ dapOp b ≤ 8 := by
  have hgood : frameStatus b = none := by
    unfold dapNew at hnew
    split at hnew
    · cases hnew
    · simp only [Bool.and_eq_true, Option.isNone_iff_eq_none] at hnew
      obtain ⟨⟨⟨⟨⟨⟨⟨-, hgood⟩, -⟩, -⟩, -⟩, -⟩, -⟩, -⟩ := hnew
      exact hgood
  have hfields : frameFail b = none := by
    unfold frameStatus at hgood
    split_ifs at hgood
    exact Option.map_eq_none_iff.mp hgood
  have hop := firstFail_none hfields (require (1 ≤ dapOp b && dapOp b ≤ 8) 8) (by simp)
  simpa [require] using hop

/-! ## The operations (R371, R374) -/

theorem dapFrame_read (hnew : dapNew s id b = true) (hop : dapOp b = 1 ∨ dapOp b = 4 ∨ dapOp b = 5) :
    dapFrame id b s = dapRead id b (dapAccepted id b s) := by
  obtain ⟨x, hframe, hlevel, -⟩ := dapFrame_new hnew
  rw [hframe]
  unfold dapPerform
  dsimp only
  rcases hop with hop | hop | hop <;> rw [if_neg (Nat.not_lt.mpr hlevel), hop, if_neg (by simp)] <;> rfl

theorem dapFrame_abort (hnew : dapNew s id b = true) (hop : dapOp b = 8) : dapFrame id b s = dapAbort id b (dapAccepted id b s) := by
  obtain ⟨x, hframe, hlevel, -⟩ := dapFrame_new hnew
  rw [hframe]
  unfold dapPerform
  dsimp only
  rw [if_neg (Nat.not_lt.mpr hlevel), hop, if_neg (by simp)]
  rfl

/-- The operations that recovery mode refuses are carried out where the module serves them. -/
theorem dapFrame_served (hnew : dapNew s id b = true) (hop : [3, 6, 7].contains (dapOp b) = true) :
    dapFrame id b s = (if dapOp b = 3 then dapStage id b else if dapOp b = 6 then dapCheck id b else dapApply id b) (dapAccepted id b s) := by
  obtain ⟨x, hframe, hlevel, hmode⟩ := dapFrame_new hnew
  rw [hop, Bool.and_true] at hmode
  have hserves : ¬(dapAccepted id b s).power.state = .recovery := by simpa using hmode
  rw [hframe]
  unfold dapPerform
  dsimp only
  rw [if_neg (Nat.not_lt.mpr hlevel), if_neg fun h => hserves h.1]
  have hcases : dapOp b = 3 ∨ dapOp b = 6 ∨ dapOp b = 7 := by simpa using hop
  rcases hcases with h | h | h <;> rw [h] <;> rfl

/-! ## The command of a frame -/

/-- The operation of the frames that a command serves. -/
def rowOp : DapRow → Nat
  | .read | .blackboxWindow => 1
  | .stage => 3
  | .readStaged => 4
  | .describe => 5
  | .commitCheck => 6
  | .commitApply => 7
  | .commitAbort => 8
  | _ => 2

/-- The commands that a WRITE item can ask for, by the action of IMAGE_LOAD_CONTROL. -/
def loadRows : List (Option DapRow) :=
  [none, some .imageBegin, some .imageFinish, some .imageAbandon, some .imageMarkPending, some .imageClearPending]

/-- The action of IMAGE_LOAD_CONTROL that a command is for; 0 for every other command. -/
def loadAction : DapRow → Nat
  | .imageBegin => 1
  | .imageFinish => 2
  | .imageAbandon => 3
  | .imageMarkPending => 4
  | .imageClearPending => 5
  | _ => 0

/-- The register that a command writes. -/
def rowKey : DapRow → Nat
  | .tgWriteRead | .tgReadOnly | .tgWriteOnly => Key.tgControl
  | .ftgWriteRead | .ftgReadVerify | .ftgEraseTest => Key.ftgControl
  | .roleRecord => Key.roleRecord
  | .factoryReset => Key.factoryReset
  | .imageBegin | .imageFinish | .imageAbandon | .imageMarkPending | .imageClearPending => Key.imageLoadControl
  | .imageBlock => Key.imageBlock
  | .imageActivate => Key.imageActivate
  | .moduleReset => Key.moduleReset
  | .diagnosticMode => Key.diagnosticMode
  | .blackboxReadFrom => Key.blackboxReadFrom
  | _ => 0

/-- What is listed at a place of a list of rows has what all its rows have. -/
theorem getD_rows {p : DapRow → Prop} {l : List (Option DapRow)} (hl : ∀ o ∈ l, ∀ r, o = some r → p r) {i : Nat} {r : DapRow}
    (h : l.getD i none = some r) : p r := by
  rw [List.getD_eq_getElem?_getD] at h
  cases hi : l[i]? with
  | none => rw [hi] at h; cases h
  | some o => rw [hi] at h; exact hl o (List.mem_of_getElem? hi) r h

theorem loadRows_action {i : Nat} {r : DapRow} (h : loadRows.getD i none = some r) : loadAction r = i := by
  match i, h with
  | 1, h | 2, h | 3, h | 4, h | 5, h => cases h; rfl
  | 0, h | _ + 6, h => cases h

/-- A WRITE item's command writes the item's register, and does the action that its value names. -/
theorem writeRow_some {it : DapItem} {r : DapRow} (h : writeRow it = some r) :
    rowKey r = it.key ∧ rowOp r = 2 ∧ r ≠ .write ∧ (it.key = Key.imageLoadControl → loadAction r = ilAction (leNat it.value)) := by
  unfold writeRow at h
  dsimp only at h
  split_ifs at h with htg hstart hftg hstart hrole hfactory hload hblock hactivate hreset hdiag hbox
  · obtain ⟨hkey, hop, hne⟩ := getD_rows (p := fun r => rowKey r = Key.tgControl ∧ rowOp r = 2 ∧ r ≠ .write) (by decide) h
    exact ⟨hkey.trans htg.symm, hop, hne, fun hl => absurd (htg.symm.trans hl) (by decide)⟩
  · obtain ⟨hkey, hop, hne⟩ := getD_rows (p := fun r => rowKey r = Key.ftgControl ∧ rowOp r = 2 ∧ r ≠ .write) (by decide) h
    exact ⟨hkey.trans hftg.symm, hop, hne, fun hl => absurd (hftg.symm.trans hl) (by decide)⟩
  · cases h; exact ⟨hrole.symm, rfl, nofun, fun hl => absurd (hrole.symm.trans hl) (by decide)⟩
  · cases h; exact ⟨hfactory.symm, rfl, nofun, fun hl => absurd (hfactory.symm.trans hl) (by decide)⟩
  · obtain ⟨hkey, hop, hne⟩ := getD_rows (p := fun r => rowKey r = Key.imageLoadControl ∧ rowOp r = 2 ∧ r ≠ .write) (by decide) h
    exact ⟨hkey.trans hload.symm, hop, hne, fun _ => loadRows_action h⟩
  · cases h; exact ⟨hblock.symm, rfl, nofun, fun hl => absurd hl hload⟩
  · cases h; exact ⟨hactivate.symm, rfl, nofun, fun hl => absurd hl hload⟩
  · cases h; exact ⟨hreset.symm, rfl, nofun, fun hl => absurd hl hload⟩
  · cases h; exact ⟨hdiag.symm, rfl, nofun, fun hl => absurd hl hload⟩
  · cases h; exact ⟨hbox.symm, rfl, nofun, fun hl => absurd hl hload⟩

/-- A frame's operation is that of its command. -/
theorem rowOp_rowOf (hop : 1 ≤ dapOp b ∧ dapOp b ≤ 8) : rowOp (rowOf b) = dapOp b := by
  have hcases : dapOp b = 1 ∨ dapOp b = 2 ∨ dapOp b = 3 ∨ dapOp b = 4 ∨ dapOp b = 5 ∨ dapOp b = 6 ∨ dapOp b = 7 ∨ dapOp b = 8 := by omega
  unfold rowOf
  rcases hcases with h | h | h | h | h | h | h | h <;> rw [h]
  case inl =>
    change rowOp (if (frameItems b).any (·.key == Key.blackboxWindow) then .blackboxWindow else .read) = 1
    split <;> rfl
  case inr.inl =>
    cases hfound : (frameItems b).findSome? writeRow with
    | none => rfl
    | some r =>
      obtain ⟨it, -, hit⟩ := List.exists_of_findSome?_eq_some hfound
      exact (writeRow_some hit).2.1
  all_goals rfl

theorem rowOp_of_new (hnew : dapNew s id b = true) : rowOp (rowOf b) = dapOp b := rowOp_rowOf (op_of_new hnew)

/-- A frame given to its own command. -/
theorem dapCommand_own {row : DapRow} (hrow : rowOf b = row) : dapCommand row id b t s = dapFrame id b (tick t s) := if_pos hrow

/-- A frame given to another command than its own. -/
theorem dapCommand_other {row : DapRow} (hrow : rowOf b ≠ row) : dapCommand row id b t s = tick t s := if_neg hrow

end Sys2Proof.DapFrames
end

section
/-! SUPPORT. READ, READ_STAGED, DESCRIBE and the window of the black box (16 R374 to R378; 19 R447): what the items of a frame leave, and the reply. -/

namespace Sys2Proof.DapReads

open Machine Laws DapFrames

variable {s : State} {id op t : Nat} {b : Bytes} {x y : Session} {it : DapItem} {d : DictEntry}

/-! ## The items (R374, R376) -/

/-- A read item moves the session's place in the black box, and no more. -/
theorem advanceWindow_same {α : Type} {f : State → α} (hf : ∀ i n u, f (updSession i (fun y => { y with readFrom := n }) u) = f u) (n : Nat) (x : Session)
    (s : State) : f (advanceWindow d op it n s x) = f s := by
  unfold advanceWindow
  split
  · exact hf ..
  · rfl

theorem readItems_same {α : Type} {f : State → α} (hf : ∀ i n u, f (updSession i (fun y => { y with readFrom := n }) u) = f u) (l : List DapItem)
    (room : Nat) (s : State) : f (readItems id op l room s).2.2 = f s := by
  induction l generalizing room s with
  | nil => rfl
  | cons it r ih =>
    unfold readItems
    split
    · rfl
    · dsimp only
      rw [ih]
      cases dictEntry it.key with
      | none => rfl
      | some e =>
        dsimp only
        rw [apply_ite f, advanceWindow_same hf, ite_self]

/-- A session but for its place in the black box. -/
def stance (s : State) (id : Nat) : Option (Bool × Option Nat) := (findSession s id).map fun z => (z.gone, z.highest)

theorem stance_readFrom (i n : Nat) (s : State) : stance (updSession i (fun y => { y with readFrom := n }) s) id = stance s id := by
  unfold stance findSession updSession mapIf
  dsimp only
  rw [List.find?_map, Option.map_map]
  have hid : ((fun z : Session => z.id == id) ∘ fun z => if z.id == i then { z with readFrom := n } else z) = fun z => z.id == id := by
    funext z
    rw [Function.comp_apply, apply_ite Session.id, ite_self]
  rw [hid]
  refine congrFun (congrArg _ ?_) _
  funext z
  rw [Function.comp_apply]
  split <;> rfl

/-- The session stays as it is, but for its place in the black box. -/
theorem readItems_session (hx : findSession s id = some x) (l : List DapItem) (room : Nat) :
    ∃ z, findSession (readItems id op l room s).2.2 id = some z ∧ z.gone = x.gone ∧ z.highest = x.highest := by
  have hsame : stance (readItems id op l room s).2.2 id = some (x.gone, x.highest) :=
    (readItems_same (f := fun u => stance u id) (fun i n u => stance_readFrom i n u) ..).trans (congrArg (Option.map _) hx)
  obtain ⟨z, hz, hsame⟩ := Option.map_eq_some_iff.mp hsame
  exact ⟨z, hz, congrArg Prod.fst hsame, congrArg Prod.snd hsame⟩

/-! ## The reply (R375) -/

theorem dapRead_answers (hx : findSession s id = some x) (hgone : x.gone = false) :
    let out := readItems id (dapOp b) (frameItems b) (1248 - 16 * (frameItems b).length) s
    lastReply (dapRead id b s) id = some (replyBytes (dapOp b) (dapId b) (itemReply out.1 (frameItems b).length out.2.1)) ∧
      (findSession (dapRead id b s) id).bind (·.highest) = x.highest := by
  obtain ⟨z, hz, hopen, hhighest⟩ := readItems_session (op := dapOp b) hx (frameItems b) (1248 - 16 * (frameItems b).length)
  have hopen := hopen.trans hgone
  refine ⟨lastReply_dapAnswer hz hopen, ?_⟩
  unfold dapRead
  dsimp only
  rw [findSession_dapAnswer hz hopen]
  exact hhighest

/-- A read leaves what a reply and the place in the black box leave. -/
theorem dapRead_leaves (id : Nat) (b : Bytes) (s : State) : (dapRead id b s).settings = s.settings ∧ (dapRead id b s).sec = s.sec ∧
    (dapRead id b s).power = s.power ∧ (dapRead id b s).box = s.box :=
  ⟨(dapAnswer_settings ..).trans (readItems_same (f := State.settings) (fun _ _ _ => rfl) ..),
    (dapAnswer_sec ..).trans (readItems_same (f := State.sec) (fun _ _ _ => rfl) ..),
    (dapAnswer_power ..).trans (readItems_same (f := State.power) (fun _ _ _ => rfl) ..),
    (dapAnswer_box ..).trans (readItems_same (f := State.box) (fun _ _ _ => rfl) ..)⟩

/-! ## A value of fixed size (R376) -/

theorem dictEntry_key {k : Nat} (h : dictEntry k = some d) : d.key = k := by simpa using List.find?_some h

theorem readPart_whole (hkey : d.key ≠ Key.blackboxWindow) (htype : d.type < 9) (hseg : it.seg = 0) :
    readPart s x 1 d it = (0, entryValue s d, true) := by
  have hvalue : readValue s x 1 d = entryValue s d := by
    unfold readValue
    rw [if_neg (by decide), if_neg hkey, if_neg (by decide)]
  unfold readPart
  dsimp only
  rw [if_neg (by decide), if_pos htype, if_pos hseg, hvalue]

/-- A single item of fixed size returns its entry's value whole, where the reply has room. -/
theorem readItems_single {room : Nat} (hx : findSession s id = some x) (hd : dictEntry it.key = some d) (hkey : it.key ≠ Key.blackboxWindow)
    (hcheck : readCheck s x 1 it = 0) (htype : d.type < 9) (hseg : it.seg = 0) (hroom : roundUp 8 (entryValue s d).length ≤ room) :
    (readItems id 1 [it] room s).1 = none ∧ (readItems id 1 [it] room s).2.1 = replyItem it.key d.type 0 true 0 (entryValue s d) := by
  have hpart := readPart_whole (s := s) (x := x) (it := it) (by rwa [dictEntry_key hd]) htype hseg
  simp [readItems, hx, hd, hcheck, hpart, hseg, Nat.not_lt.mpr hroom]

theorem roundUp_reply {n : Nat} (h : n ≤ 1232) : roundUp 8 n ≤ 1232 := by unfold roundUp; omega

/-- The window of the black box is read by its own command. -/
theorem key_of_read (hop : dapOp b = 1) (hrow : rowOf b = .read) (hit : it ∈ frameItems b) : it.key ≠ Key.blackboxWindow := by
  intro hkey
  have hany : (frameItems b).any (·.key == Key.blackboxWindow) = true := List.any_eq_true.mpr ⟨it, hit, by simpa using hkey⟩
  unfold rowOf at hrow
  rw [hop] at hrow
  change (if (frameItems b).any (·.key == Key.blackboxWindow) then DapRow.blackboxWindow else .read) = .read at hrow
  rw [if_pos hany] at hrow
  cases hrow

/-! ## The claim -/

/-- Settles O52: the four commands that read carry out one operation, which answers with the results of its items; a frame is carried out by its own command alone. -/
theorem dapReadsAreAnswered : Obligations.DapReadsAreAnswered := by
  refine ⟨fun id t b s hnew => ?answers, fun id t b s => ?others⟩
  case answers =>
    obtain ⟨y, hy, hgone, hhighest⟩ := accepted_session hnew
    have hop := rowOp_of_new hnew
    have hreads : ∀ row, rowOf b = row → (rowOp row = 1 ∨ rowOp row = 4 ∨ rowOp row = 5) →
        dapCommand row id b t s = dapRead id b (dapAccepted id b (tick t s)) := fun row hrow hread => by
      rw [dapCommand_own hrow, dapFrame_read hnew (by rwa [← hop, hrow])]
    refine ⟨fun hrow => congrArg _ (hreads _ hrow (.inl rfl)), fun hrow => congrArg _ (hreads _ hrow (.inr (.inl rfl))),
      fun hrow => congrArg _ (hreads _ hrow (.inr (.inr rfl))), fun hrow => congrArg _ (hreads _ hrow (.inl rfl)), fun _ => ?reply, ?whole⟩
    case reply =>
      obtain ⟨hreply, hkept⟩ := dapRead_answers (b := b) hy hgone
      obtain ⟨hsettings, hsec, hpower, hbox⟩ := dapRead_leaves id b (dapAccepted id b (tick t s))
      exact ⟨hreply, hkept.trans hhighest, hsettings.trans (dapAccepted_settings ..), hsec.trans (dapAccepted_sec ..), hpower.trans (dapAccepted_power ..),
        hbox.trans (dapAccepted_box ..)⟩
    case whole =>
      intro it d z hrow hitems hd hz hcheck htype hseg hlen
      have hop : dapOp b = 1 := by rw [← hop, hrow]; rfl
      have hkey := key_of_read (it := it) hop hrow (by rw [hitems]; exact List.mem_cons_self)
      obtain ⟨hbad, hpayload⟩ := readItems_single hz hd hkey hcheck htype hseg (roundUp_reply hlen)
      obtain ⟨hreply, -⟩ := dapRead_answers (b := b) hy hgone
      rw [hop, hitems] at hreply
      exact hreply.trans (by rw [List.length_singleton, hbad, hpayload]; rfl)
  case others =>
    exact ⟨fun h => congrArg _ (dapCommand_other h), fun h => congrArg _ (dapCommand_other h), fun h => congrArg _ (dapCommand_other h),
      fun h => congrArg _ (dapCommand_other h), fun h => congrArg _ (dapCommand_other h), fun h => congrArg _ (dapCommand_other h),
      fun h => congrArg _ (dapCommand_other h)⟩

end Sys2Proof.DapReads
end

section
/-! SUPPORT. A WRITE frame of one item (16 R373, R374): its reply, whether or not the item passes its check, and the register that its command writes. -/

namespace Sys2Proof.WriteItems

open Machine Laws SingleWrites DapFrames

variable {s : State} {id t : Nat} {b : Bytes} {x y : Session} {it : DapItem}

/-! ## The item's check -/

/-- A check that answers 0 goes past each of its codes. -/
theorem passes_of_zero {c : Prop} [Decidable c] {e r : Nat} (he : e ≠ 0) (h : (if c then e else r) = 0) : ¬c ∧ r = 0 := by
  split at h
  · exact absurd h he
  · exact ⟨‹_›, h⟩

/-- An item that passes its check passes its entry's rule. -/
theorem writeRule_of_check {items : List DapItem} (h : writeCheck s y items it = 0) : writeRule s y.id items it.key it.value = true := by
  unfold writeCheck at h
  split at h
  · cases h
  · obtain ⟨-, h⟩ := passes_of_zero (by decide) h
    obtain ⟨-, h⟩ := passes_of_zero (by decide) h
    obtain ⟨-, h⟩ := passes_of_zero (by decide) h
    obtain ⟨-, h⟩ := passes_of_zero (by decide) h
    obtain ⟨-, h⟩ := passes_of_zero (by decide) h
    obtain ⟨-, h⟩ := passes_of_zero (by decide) h
    obtain ⟨hrule, -⟩ := passes_of_zero (by decide) h
    simpa using (not_or.mp hrule).2

theorem loadControlOk_of_check (h : writeCheck s y [it] it = 0) (hkey : it.key = Key.imageLoadControl) : loadControlOk s y.id (leNat it.value) = true := by
  have hrule := writeRule_of_check h
  rw [hkey] at hrule
  exact hrule

/-! ## The item's command -/

/-- The command of a WRITE frame with one item is the item's own, or WRITE. -/
theorem rowOf_single (hop : dapOp b = 2) (hitems : frameItems b = [it]) : rowOf b = (writeRow it).getD .write := by
  unfold rowOf
  rw [hop, hitems]
  change ((List.findSome? writeRow [it]).getD .write) = _
  rw [List.findSome?_singleton]

section
variable (hnew : dapNew s id b = true) (hitems : frameItems b = [it])
include hnew hitems

/-- The command of a register is given to a frame whose item writes that register, with the command's action. -/
theorem item_of_row {row : DapRow} (hrow : rowOf b = row) (hop : rowOp row = 2) (hnot : row ≠ .write) :
    rowKey row = it.key ∧ (it.key = Key.imageLoadControl → loadAction row = ilAction (leNat it.value)) := by
  have hown := rowOf_single (by rw [← rowOp_of_new hnew, hrow, hop]) hitems
  rw [hrow] at hown
  cases hw : writeRow it with
  | none => rw [hw] at hown; exact absurd hown hnot
  | some r =>
    rw [hw] at hown
    obtain rfl : row = r := hown
    obtain ⟨hkey, -, -, haction⟩ := writeRow_some hw
    exact ⟨hkey, haction⟩

/-- WRITE is given to a frame whose item has no command of its own. -/
theorem writeRow_of_write (hrow : rowOf b = .write) : writeRow it = none := by
  have hown := rowOf_single (by rw [← rowOp_of_new hnew, hrow]; rfl) hitems
  cases hw : writeRow it with
  | none => rfl
  | some r =>
    rw [hw, hrow] at hown
    obtain ⟨-, -, hnot, -⟩ := writeRow_some hw
    exact absurd hown.symm hnot

end

/-! ## The reply -/

/-- A WRITE frame whose item fails is answered so, and does nothing else. -/
theorem dapWrite_refused {e : Nat} (hy : findSession s id = some y) (hitems : frameItems b = [it]) (hcheck : writeCheck s y [it] it = e) (he : e ≠ 0) :
    dapWrite id b s = dapAnswer id 2 (dapId b) (itemReply (some it.off) 1 (resultItems [(it, e)])) s := by
  have hres : resultsGo (writeCheck s y [it]) [it] = [(it, e)] := by simp [resultsGo, hcheck, he]
  have hfirst : firstFailed [(it, e)] = some it.off := by simp [firstFailed, he]
  unfold dapWrite
  rw [hy]
  dsimp only
  rw [hitems, hres, hfirst]
  rfl

/-- A ROLE_RECORD closes what it demoted, after its reply (17 R410). -/
theorem dapWrite_role (hy : findSession s id = some y) (hitems : frameItems b = [it]) (hcheck : writeCheck s y [it] it = 0) (hkey : it.key = Key.roleRecord) :
    dapWrite id b s = closeStale (dapAnswer id 2 (dapId b) (itemReply none 1 (resultItems [(it, 0)])) (writeEffect id b s it)) := by
  have hres : resultsGo (writeCheck s y [it]) [it] = [(it, 0)] := by simp [resultsGo, hcheck]
  unfold dapWrite
  rw [hy]
  dsimp only
  rw [hitems, hres, if_neg (by simp [firstFailed]), if_neg (by simp [hkey]), if_pos (by simp [hkey])]
  rfl

/-- The reply of DIAGNOSTIC_MODE waits (19 R448). -/
theorem dapWrite_diagnostic (hy : findSession s id = some y) (hitems : frameItems b = [it]) (hcheck : writeCheck s y [it] it = 0)
    (hkey : it.key = Key.diagnosticMode) :
    dapWrite id b s = updSession id (fun y => { y with outstanding := y.outstanding ++ [dapId b] }) (writeEffect id b s it) := by
  have hres : resultsGo (writeCheck s y [it]) [it] = [(it, 0)] := by simp [resultsGo, hcheck]
  unfold dapWrite
  rw [hy]
  dsimp only
  rw [hitems, hres, if_neg (by simp [firstFailed]), if_pos (by simp [hkey])]
  rfl

section
variable (hnew : dapNew (tick t s) id b = true)
include hnew

/-- A command with a WRITE frame of its own carries it out. -/
theorem dapCommand_write {row : DapRow} (hrow : rowOf b = row) (hop : rowOp row = 2) :
    dapCommand row id b t s = dapWrite id b (dapAccepted id b (tick t s)) := by
  rw [dapCommand_own hrow, dapFrame_write hnew (by rw [← rowOp_of_new hnew, hrow, hop])]

/-- A command with one checked item of a register that acts at once. -/
theorem dapCommand_checked (hy : findSession (dapAccepted id b (tick t s)) id = some y) (hitems : frameItems b = [it])
    (hcheck : writeCheck (dapAccepted id b (tick t s)) y [it] it = 0) {row : DapRow} (hrow : rowOf b = row) (hop : rowOp row = 2)
    (hdiag : it.key ≠ Key.diagnosticMode) (hrole : it.key ≠ Key.roleRecord) :
    dapCommand row id b t s =
      dapAnswer id 2 (dapId b) (itemReply none 1 (resultItems [(it, 0)])) (writeEffect id b (dapAccepted id b (tick t s)) it) := by
  rw [dapCommand_write hnew hrow hop, dapWrite_single hy hitems hcheck hdiag hrole]

end

end Sys2Proof.WriteItems
end

section
/-! SUPPORT. WRITE and STAGE (16 R373, R374, R378): values that take effect at once, values that are staged, and items that fail. -/

namespace Sys2Proof.WritesAndStages

open Machine Laws SingleWrites DapFrames WriteItems

variable {s : State} {id t : Nat} {b : Bytes} {x y : Session} {it : DapItem}

/-! ## WRITE -/

/-- An entry without a behaviour of its own. -/
theorem writeEffect_plain (hrow : writeRow it = none) (hload : it.key ≠ Key.imageLoadControl) (htg : it.key ≠ Key.tgControl) (hftg : it.key ≠ Key.ftgControl)
    (id : Nat) (b : Bytes) (s : State) : writeEffect id b s it = setSetting it.key it.value s := by
  unfold writeRow at hrow
  dsimp only at hrow
  rw [if_neg htg, if_neg hftg] at hrow
  split_ifs at hrow with hrole hfactory hblock hactivate hreset hdiag hbox
  unfold writeEffect
  dsimp only
  rw [if_neg htg, if_neg hftg, if_neg hrole, if_neg hfactory, if_neg hload, if_neg hblock, if_neg hactivate, if_neg hreset, if_neg hdiag, if_neg hbox]

/-- IMAGE_LOAD_CONTROL with a checked value has a command of its own. -/
theorem key_ne_loadControl (hrow : writeRow it = none) (hcheck : writeCheck s y [it] it = 0) : it.key ≠ Key.imageLoadControl := by
  intro hkey
  have hok := loadControlOk_of_check hcheck hkey
  unfold loadControlOk at hok
  simp only [Bool.and_eq_true, decide_eq_true_eq] at hok
  obtain ⟨⟨⟨⟨⟨⟨⟨⟨⟨-, -⟩, -⟩, hlow⟩, hhigh⟩, -⟩, -⟩, -⟩, -⟩, -⟩ := hok
  have hlisted : writeRow it = loadRows.getD (ilAction (leNat it.value)) none := by
    unfold writeRow
    dsimp only
    rw [if_neg (by rw [hkey]; decide), if_neg (by rw [hkey]; decide), if_neg (by rw [hkey]; decide), if_neg (by rw [hkey]; decide), if_pos hkey]
    rfl
  have hsome : ∀ a < 6, 1 ≤ a → loadRows.getD a none ≠ none := by decide
  exact hsome _ (by omega) hlow (hlisted.symm.trans hrow)

/-- What a write of a generator's register leaves there, started or not. -/
theorem writeTg_leaves (v : Nat) (s : State) : (writeTg v s).settings = (setSetting Key.tgControl (toLE 4 (v % 2 ^ 31)) s).settings ∧ (writeTg v s).dap = s.dap := by
  unfold writeTg
  dsimp only
  split <;> exact ⟨rfl, rfl⟩

theorem writeFtg_leaves (v : Nat) (s : State) :
    (writeFtg v s).settings = (setSetting Key.ftgControl (toLE 4 (v % 2 ^ 31)) s).settings ∧ (writeFtg v s).dap = s.dap := by
  unfold writeFtg
  dsimp only
  split <;> exact ⟨rfl, rfl⟩

/-- The value that a WRITE leaves in its entry: a generator's register reads without START. -/
def writtenValue (it : DapItem) : Bytes :=
  if it.key = Key.tgControl ∨ it.key = Key.ftgControl then toLE 4 (leNat it.value % 2 ^ 31) else it.value

/-- A WRITE item without a command of its own sets its entry, and leaves the sessions. -/
theorem writeEffect_sets (hrow : writeRow it = none) (hload : it.key ≠ Key.imageLoadControl) (id : Nat) (b : Bytes) (s : State) :
    (writeEffect id b s it).settings = (setSetting it.key (writtenValue it) s).settings ∧ (writeEffect id b s it).dap = s.dap := by
  by_cases htg : it.key = Key.tgControl
  · have heffect : writeEffect id b s it = writeTg (leNat it.value) s := if_pos htg
    rw [heffect, writtenValue, if_pos (.inl htg), htg]
    exact writeTg_leaves ..
  · by_cases hftg : it.key = Key.ftgControl
    · have heffect : writeEffect id b s it = writeFtg (leNat it.value) s := (if_neg htg).trans (if_pos hftg)
      rw [heffect, writtenValue, if_pos (.inr hftg), hftg]
      exact writeFtg_leaves ..
    · rw [writeEffect_plain hrow hload htg hftg, writtenValue, if_neg (by simp [htg, hftg])]
      exact ⟨rfl, rfl⟩

/-! ## STAGE (R378) -/

theorem stageGo_passes (hcheck : stageCheck s y it = 0) {d : DictEntry} (hd : dictEntry it.key = some d) :
    stageGo s [it] y = ([(it, 0)], putStaged (withSegment y it) d.group y) := by
  simp [stageGo, hcheck, hd]

theorem stageGo_fails (hcheck : stageCheck s y it ≠ 0) : stageGo s [it] y = ([(it, stageCheck s y it)], y) := by
  simp [stageGo, hcheck]

/-- What is staged of an entry is what was put there last. -/
theorem stagedOf_putStaged (v : Staged) (g : Nat) (x : Session) : stagedOf (putStaged v g x) v.key = some v :=
  HeadTensors.find_insertBy _ (by simp) (List.find?_eq_none.mpr fun w hw => by simpa using (List.mem_filter.mp hw).2)

theorem group_putStaged (v : Staged) (g : Nat) (x : Session) : (putStaged v g x).groups.contains g = true := by
  unfold putStaged
  dsimp only
  split
  · assumption
  · exact List.contains_iff_mem.mpr (mem_insertBy.mpr (.inl rfl))

section
variable (hnew : dapNew (tick t s) id b = true) (hrow : rowOf b = .stage)
include hnew hrow

theorem dapCommand_stage : dapCommand .stage id b t s = dapStage id b (dapAccepted id b (tick t s)) := by
  have hop : dapOp b = 3 := by rw [← rowOp_of_new hnew, hrow]; rfl
  rw [dapCommand_own hrow, dapFrame_served hnew (by rw [hop]; decide), if_pos hop]

end

theorem dapStage_passes (hy : findSession s id = some y) (hphase : y.phase ≠ .applying) (hitems : frameItems b = [it]) (hcheck : stageCheck s y it = 0)
    {d : DictEntry} (hd : dictEntry it.key = some d) :
    dapStage id b s = dapAnswer id 3 (dapId b) (itemReply none 1 (resultItems [(it, 0)])) (updSession id (fun _ => putStaged (withSegment y it) d.group y) s) := by
  unfold dapStage
  rw [hy]
  dsimp only
  rw [if_neg hphase, hitems, stageGo_passes hcheck hd]
  rfl

theorem dapStage_fails (hy : findSession s id = some y) (hphase : y.phase ≠ .applying) (hitems : frameItems b = [it]) (hcheck : stageCheck s y it ≠ 0) :
    dapStage id b s = dapAnswer id 3 (dapId b) (itemReply (some it.off) 1 (resultItems [(it, stageCheck s y it)])) s := by
  have hfirst : firstFailed [(it, stageCheck s y it)] = some it.off := by simp [firstFailed, hcheck]
  unfold dapStage
  rw [hy]
  dsimp only
  rw [if_neg hphase, hitems, stageGo_fails hcheck, hfirst]
  rfl

/-! ## The claim -/

/-- Settles O53: a checked item sets its entry or is put into the staged set; an item that fails is answered, and no more. -/
theorem dapWritesAndStages : Obligations.DapWritesAndStages := by
  intro id t b it y s hnew hy hitems e f answer
  have hopen : y.gone = false := accepted_open hnew hy
  have hid : y.id = id := findSession_id hy
  refine ⟨fun hrow hcheck hw => ?written, fun hrow hcheck => ?refused, fun d hrow hphase hcheck hd => ?staged, fun hrow hphase hcheck => ?unstaged⟩
  case written =>
    have hnone := writeRow_of_write hnew hitems hrow
    obtain ⟨hsettings, hdap⟩ := writeEffect_sets hnone (key_ne_loadControl hnone hcheck) id b (dapAccepted id b (tick t s))
    have hdiag : it.key ≠ Key.diagnosticMode := fun hkey => by simp [writeRow, hkey] at hnone
    have hrole : it.key ≠ Key.roleRecord := fun hkey => by simp [writeRow, hkey] at hnone
    have hread : ∀ k, setting (dapCommand .write id b t s) k = if it.key = k then writtenValue it else setting s k := fun k => by
      rw [dapCommand_checked hnew hy hitems hcheck hrow rfl hdiag hrole, setting_congr (dapAnswer_settings ..), setting_congr hsettings,
        setting_setSetting _ _ _ (by simpa using hw), setting_congr (dapAccepted_settings ..)]
      rfl
    refine ⟨_, rfl, ?_, fun k hk => (hread k).trans (if_neg (Ne.symm hk)), ?_⟩
    · rw [dapCommand_checked hnew hy hitems hcheck hrow rfl hdiag hrole]
      exact lastReply_dapAnswer ((findSession_congr hdap id).trans hy) hopen
    · have hown := (hread it.key).trans (if_pos rfl)
      unfold writtenValue at hown
      split
      · rename_i hgen
        rw [hown, if_pos hgen, GeneratorStarts.leNat_without_start]
      · rename_i hgen
        rw [hown, if_neg hgen]
  case refused =>
    have hcommand := (dapCommand_write hnew hrow rfl).trans (dapWrite_refused hy hitems rfl hcheck)
    refine ⟨_, rfl, ?_⟩
    rw [hcommand]
    refine ⟨(lastReply_dapAnswer hy hopen).trans ?_, by simp, by simp, by simp, by simp, by simp⟩
    rw [show answer 2 e = _ from congrArg (fun o => replyBytes 2 (dapId b) (itemReply o 1 (resultItems [(it, e)]))) (if_neg hcheck)]
  case staged =>
    have hcommand := (dapCommand_stage hnew hrow).trans (dapStage_passes hy hphase hitems hcheck hd)
    have hput := findSession_put (y := putStaged (withSegment y it) d.group y) hid hy
    have hopened : (putStaged (withSegment y it) d.group y).gone = false := hopen
    refine ⟨_, answered (dapId b) (replyBytes 3 (dapId b) (itemReply none 1 (resultItems [(it, 0)]))) (putStaged (withSegment y it) d.group y), rfl, ?_⟩
    rw [hcommand]
    exact ⟨lastReply_dapAnswer hput hopened, findSession_dapAnswer hput hopened, rfl, group_putStaged (withSegment y it) d.group y, stagedOf_putStaged (withSegment y it) d.group y, by simp⟩
  case unstaged =>
    have hcommand := (dapCommand_stage hnew hrow).trans (dapStage_fails hy hphase hitems hcheck)
    refine ⟨_, answered (dapId b) (replyBytes 3 (dapId b) (itemReply (some it.off) 1 (resultItems [(it, f)]))) y, rfl, ?_⟩
    rw [hcommand]
    refine ⟨(lastReply_dapAnswer hy hopen).trans ?_, findSession_dapAnswer hy hopen, rfl, rfl, rfl, by simp⟩
    rw [show answer 3 f = _ from congrArg (fun o => replyBytes 3 (dapId b) (itemReply o 1 (resultItems [(it, f)]))) (if_neg hcheck)]

end Sys2Proof.WritesAndStages
end

section
/-! SUPPORT. Image loads (17 R404, R405): what a write of IMAGE_LOAD_CONTROL or IMAGE_BLOCK leaves of the load and of the pending slots. -/

namespace Sys2Proof.ImageLoads

open Machine Laws SingleWrites DapFrames WriteItems

variable {s : State} {id t : Nat} {b : Bytes} {y : Session} {it : DapItem} {l : ImageLoad}

/-! ## Blocks and the judgement -/

theorem imageRefuse_sec (kind reason version : Nat) (s : State) :
    (imageRefuse kind reason version s).sec = { s.sec with load := none, loadState := 3, loadReason := reason } := by
  unfold imageRefuse
  rw [logEvent_sec, bump_sec]

theorem imageBlock_next {v : Bytes} (hl : s.sec.load = some l) (hnext : u32At v 0 = l.received.length) :
    (imageBlock v s).sec = { s.sec with load := some { l with received := l.received ++ v.drop 8 }, loadBytes := (l.received ++ v.drop 8).length } := by
  unfold imageBlock
  rw [hl]
  dsimp only
  rw [if_neg (by simpa using hnext)]

theorem imageBlock_misplaced {v : Bytes} (hl : s.sec.load = some l) (hwrong : u32At v 0 ≠ l.received.length) :
    (imageBlock v s).sec = { s.sec with load := none, loadState := 3, loadReason := 7 } := by
  unfold imageBlock
  rw [hl]
  dsimp only
  rw [if_pos hwrong, imageRefuse_sec]

/-- A finished load is closed, with the reason of its judgement. -/
theorem imageFinish_judged (hl : s.sec.load = some l) : (imageFinish s).sec.load = none ∧ (imageFinish s).sec.loadReason = imageReason s l.kind l.received ∧
    (imageFinish s).sec.loadState = if imageReason s l.kind l.received = 0 then 2 else 3 := by
  unfold imageFinish
  rw [hl]
  dsimp only
  by_cases hgood : imageReason s l.kind l.received = 0
  · rw [if_neg (by simpa using hgood), if_pos hgood]
    exact ⟨rfl, hgood.symm, rfl⟩
  · rw [if_pos hgood, if_neg hgood, imageRefuse_sec]
    exact ⟨rfl, rfl, rfl⟩

/-! ## The registers -/

theorem writeEffect_loadControl (hkey : it.key = Key.imageLoadControl) (id : Nat) (b : Bytes) (s : State) :
    writeEffect id b s it = writeLoadControl id (leNat it.value) s := by
  unfold writeEffect
  simp [hkey]

theorem writeEffect_imageBlock (hkey : it.key = Key.imageBlock) (id : Nat) (b : Bytes) (s : State) : writeEffect id b s it = imageBlock it.value s := by
  unfold writeEffect
  simp [hkey]

section Frame

variable (hnew : dapNew (tick t s) id b = true) (hy : findSession (dapAccepted id b (tick t s)) id = some y) (hitems : frameItems b = [it])
  (hcheck : writeCheck (dapAccepted id b (tick t s)) y [it] it = 0)
include hnew hy hitems hcheck

/-- A command of IMAGE_LOAD_CONTROL leaves of the security state what its action leaves. -/
theorem dapCommand_load {row : DapRow} (hrow : rowOf b = row) (hop : rowOp row = 2) (hreg : rowKey row = Key.imageLoadControl) (hnot : row ≠ .write) :
    (dapCommand row id b t s).sec = (writeLoadControl id (leNat it.value) (dapAccepted id b (tick t s))).sec ∧ ilAction (leNat it.value) = loadAction row := by
  obtain ⟨hkey, haction⟩ := item_of_row hnew hitems hrow hop hnot
  have hkey : it.key = Key.imageLoadControl := hkey.symm.trans hreg
  rw [dapCommand_checked hnew hy hitems hcheck hrow hop (by rw [hkey]; decide) (by rw [hkey]; decide), dapAnswer_sec, writeEffect_loadControl hkey]
  exact ⟨rfl, (haction hkey).symm⟩

theorem dapCommand_block (hrow : rowOf b = .imageBlock) :
    (dapCommand .imageBlock id b t s).sec = (imageBlock it.value (dapAccepted id b (tick t s))).sec := by
  obtain ⟨hkey, -⟩ := item_of_row hnew hitems hrow rfl nofun
  have hkey : it.key = Key.imageBlock := hkey.symm
  rw [dapCommand_checked hnew hy hitems hcheck hrow rfl (by rw [hkey]; decide) (by rw [hkey]; decide), dapAnswer_sec, writeEffect_imageBlock hkey]

end Frame

/-- Settles O56: each of the six commands is one write, which leaves of the security state what its action does. -/
theorem imagesAreLoaded : Obligations.ImagesAreLoaded := by
  intro id t b it y s hnew hy hitems hcheck
  have hsec : (dapAccepted id b (tick t s)).sec = s.sec := dapAccepted_sec ..
  refine ⟨fun hrow => ?begin_, fun l hrow hl => ⟨fun hnext => ?next_, fun hwrong => ?misplaced⟩, fun l hrow hl => ?finish_, fun hrow => ?abandon,
    fun hrow => ?mark, fun hrow => ?clear⟩
  case begin_ =>
    obtain ⟨hleft, haction⟩ := dapCommand_load hnew hy hitems hcheck hrow rfl rfl nofun
    refine ⟨_, rfl, ?_⟩
    rw [hleft, writeLoadControl, haction]
    exact ⟨rfl, rfl, rfl⟩
  case next_ =>
    refine ⟨_, rfl, ?_⟩
    rw [dapCommand_block hnew hy hitems hcheck hrow, imageBlock_next (hsec ▸ hl) hnext, hsec]
    exact ⟨rfl, rfl⟩
  case misplaced =>
    refine ⟨_, rfl, ?_⟩
    rw [dapCommand_block hnew hy hitems hcheck hrow, imageBlock_misplaced (hsec ▸ hl) hwrong]
    exact ⟨rfl, rfl, rfl⟩
  case finish_ =>
    obtain ⟨hleft, haction⟩ := dapCommand_load hnew hy hitems hcheck hrow rfl rfl nofun
    obtain ⟨hload, hreason, hstate⟩ := imageFinish_judged (s := dapAccepted id b (tick t s)) (hsec ▸ hl)
    refine ⟨_, rfl, ?_⟩
    rw [hleft, writeLoadControl, haction]
    exact ⟨hload, hreason, hstate.trans (by rw [← hreason]; rfl)⟩
  case abandon =>
    obtain ⟨hleft, haction⟩ := dapCommand_load hnew hy hitems hcheck hrow rfl rfl nofun
    refine ⟨_, rfl, ?_⟩
    rw [hleft, writeLoadControl, haction]
    exact ⟨rfl, rfl⟩
  case mark =>
    obtain ⟨hleft, haction⟩ := dapCommand_load hnew hy hitems hcheck hrow rfl rfl nofun
    refine ⟨_, rfl, ?_⟩
    rw [hleft, writeLoadControl, haction, ← hsec]
    exact ⟨rfl, rfl⟩
  case clear =>
    obtain ⟨hleft, haction⟩ := dapCommand_load hnew hy hitems hcheck hrow rfl rfl nofun
    refine ⟨_, rfl, ?_⟩
    rw [hleft, writeLoadControl, haction, ← hsec]
    rfl

end Sys2Proof.ImageLoads
end

section
/-! SUPPORT. DAP sessions (16 R369, R379; 17 R404, R410): the handshake that opens one, the claim of a module without roles, and the close. -/

namespace Sys2Proof.DapSessions

open Machine Laws DapFrames

variable {s : State} {id t : Nat} {mgmt : Bool} {cert key : Bytes} {x : Session}

/-! ## The handshake (R369, R410) -/

/-- The role that a claim gives the first key. -/
def claimed (key : Bytes) : Role := { id := 1, key := key, ahp := 0, dap := 3 }

/-- The roles that a handshake with a verified key leaves. -/
def rolesOnHandshake (mgmt : Bool) (key : Bytes) (s : State) : List Role := if mgmt = true ∧ s.sec.roles = [] then [claimed key] else s.sec.roles

/-- The state in which a verified key asks for its session. -/
def keyed (mgmt : Bool) (key : Bytes) (s : State) : State := if mgmt = true ∧ s.sec.roles.isEmpty = true then claimRole key s else s

theorem keyed_roles (mgmt : Bool) (key : Bytes) (s : State) : (keyed mgmt key s).sec.roles = rolesOnHandshake mgmt key s := by
  unfold keyed rolesOnHandshake
  simp only [List.isEmpty_iff]
  split
  · unfold claimRole
    dsimp only
    rw [logEvent_sec]
    rfl
  · rfl

theorem keyed_leaves (mgmt : Bool) (key : Bytes) (s : State) :
    (keyed mgmt key s).dap = s.dap ∧ (keyed mgmt key s).settings = s.settings ∧ (keyed mgmt key s).now = s.now := by
  unfold keyed
  split
  · exact ⟨logEvent_dap .., logEvent_settings .., logEvent_now ..⟩
  · exact ⟨rfl, rfl, rfl⟩

theorem openSession_sec (mgmt : Bool) (r : Option Role) (s : State) : (openSession mgmt r s).sec = s.sec := by
  unfold openSession
  split
  · exact bump_sec ..
  · split
    · exact bump_sec ..
    · rfl

/-- A key without a role opens no session. -/
theorem openSession_none (mgmt : Bool) (s : State) : (openSession mgmt none s).dap = s.dap := bump_dap ..

theorem openSession_refused {r : Role} (h : ¬(r.dap ≠ 0 ∧ (s.dap.sessions.filter (!·.gone)).length < settingNat s Key.dapSessionLimit)) :
    (openSession mgmt (some r) s).dap = s.dap := by
  unfold openSession
  dsimp only
  rw [if_pos (by omega)]
  exact bump_dap ..

theorem openSession_opens {r : Role} (h : r.dap ≠ 0 ∧ (s.dap.sessions.filter (!·.gone)).length < settingNat s Key.dapSessionLimit) :
    (openSession mgmt (some r) s).dap.sessions = s.dap.sessions ++ [newSession s mgmt r] := by
  unfold openSession
  dsimp only
  rw [if_neg (by omega)]

/-- The management port is up once a handshake came through it. -/
def reached (mgmt : Bool) (s : State) : State := if mgmt then { s with net := { s.net with mgmtUp := true } } else s

theorem reached_leaves (mgmt : Bool) (s : State) : (reached mgmt s).dap = s.dap ∧ (reached mgmt s).sec = s.sec ∧ (reached mgmt s).settings = s.settings ∧
    (reached mgmt s).now = s.now := by
  unfold reached
  split <;> exact ⟨rfl, rfl, rfl, rfl⟩

theorem exec_dapHandshake_unverified (hserves : dapServes (tick t s) mgmt = true) (hcert : Config.certKey cert = none) :
    exec (.dapHandshake mgmt cert t) s = .next (bump Key.dapSessionsRefused (reached mgmt (tick t s))) := by
  change execDapHandshake mgmt cert t s = _
  unfold execDapHandshake
  dsimp only
  rw [if_neg (by simp [hserves]), hcert]
  rfl

theorem exec_dapHandshake_verified (hserves : dapServes (tick t s) mgmt = true) (hcert : Config.certKey cert = some key) :
    exec (.dapHandshake mgmt cert t) s = .next (openSession mgmt ((rolesOnHandshake mgmt key s).find? (·.key == key)) (keyed mgmt key (reached mgmt (tick t s)))) := by
  obtain ⟨-, hsec, -⟩ := reached_leaves mgmt (tick t s)
  have hroles : rolesOnHandshake mgmt key s = (keyed mgmt key (reached mgmt (tick t s))).sec.roles := by
    rw [keyed_roles, rolesOnHandshake, rolesOnHandshake, hsec]
    rfl
  rw [hroles]
  change execDapHandshake mgmt cert t s = _
  unfold execDapHandshake
  dsimp only
  rw [if_neg (by simp [hserves]), hcert]
  rfl

/-! ## The close (R379, R404) -/

/-- A session that closes is gone, and stays only while its apply runs; the others stay as they are, and its image load is given up. -/
theorem closeSession_closes (id : Nat) (s : State) :
    (∀ y ∈ (closeSession id s).dap.sessions, y.id = id → y.gone = true ∧ y.phase = .applying) ∧
      (closeSession id s).dap.sessions.filter (·.id ≠ id) = s.dap.sessions.filter (·.id ≠ id) ∧
      (closeSession id s).sec.load = s.sec.load.filter (·.session ≠ id) := by
  have hsessions : (closeSession id s).dap.sessions =
      mapIf (fun x => x.id == id) (fun x => { x with gone := true }) (s.dap.sessions.filter fun x => x.id != id || x.phase == .applying) := by
    unfold closeSession
    dsimp only
    split
    · split <;> rfl
    · rfl
  refine ⟨fun y hy hid => ?gone, ?others, ?load⟩
  case gone =>
    rw [hsessions] at hy
    obtain ⟨x, hx, rfl⟩ := List.mem_map.mp hy
    obtain ⟨-, hkeep⟩ := List.mem_filter.mp hx
    split at hid
    · rename_i hown
      rw [if_pos hown]
      have hown : x.id = id := by simpa using hown
      exact ⟨rfl, by simpa [hown] using hkeep⟩
    · rename_i hother
      exact absurd (by simpa using hid) hother
  case others =>
    rw [hsessions]
    induction s.dap.sessions with
    | nil => rfl
    | cons x r ih =>
      unfold mapIf at ih ⊢
      by_cases hx : x.id = id
      · rw [List.filter_cons_of_neg (l := r) (p := fun y : Session => decide (y.id ≠ id)) (by simpa using hx), ← ih]
        by_cases hphase : x.phase = .applying
        · rw [List.filter_cons_of_pos (by simp [hphase]), List.map_cons, List.filter_cons_of_neg (by simp [hx])]
        · rw [List.filter_cons_of_neg (by simp [hx, hphase])]
      · rw [List.filter_cons_of_pos (l := r) (p := fun y : Session => decide (y.id ≠ id)) (by simpa using hx), ← ih,
          List.filter_cons_of_pos (by simp [hx]), List.map_cons, List.filter_cons_of_pos (by simp [hx]), if_neg (by simpa using hx)]
  case load =>
    unfold closeSession
    dsimp only
    cases hl : s.sec.load with
    | none => exact hl
    | some l =>
      dsimp only
      by_cases hown : l.session = id
      · rw [if_pos hown]
        simp [Option.filter, hown]
      · rw [if_neg hown]
        simp [Option.filter, hown, hl]

/-! ## Idle sessions -/

theorem exec_dapIdleTimeout (hx : findSession s id = some x) : exec (.dapIdleTimeout id t) s =
    .next (if x.lastFrame + settingNat (tick t s) Key.dapIdleTimeoutS * 1000000000 ≤ max s.now t then closeSession id (tick t s) else tick t s) := by
  have hx : findSession (tick t s) id = some x := hx
  change execDapIdleTimeout id t s = _
  unfold execDapIdleTimeout
  dsimp only
  rw [hx]
  rfl

/-- Settles O51: the handshake's three outcomes, by its key and its role; the close of a session, and the idle time after which it comes. -/
theorem dapSessionsOpenAndClose : Obligations.DapSessionsOpenAndClose := by
  refine ⟨fun mgmt cert t s hserves => ?handshake, fun id t x s hx => ⟨fun hidle => ?idle, fun hbusy => ?busy⟩, fun id s => ⟨_, rfl, closeSession_closes id s⟩⟩
  case handshake =>
    obtain ⟨hdap, hsec, hsettings, hnow⟩ := reached_leaves mgmt (tick t s)
    cases hcert : Config.certKey cert with
    | none =>
      refine ⟨_, exec_dapHandshake_unverified hserves hcert, ?_, ?_⟩
      · rw [bump_dap, hdap]; rfl
      · rw [bump_sec, hsec]; rfl
    | some key =>
      obtain ⟨hdap', hsettings', hnow'⟩ := keyed_leaves mgmt key (reached mgmt (tick t s))
      have hroles : (keyed mgmt key (reached mgmt (tick t s))).sec.roles = rolesOnHandshake mgmt key s := by
        rw [keyed_roles, rolesOnHandshake, rolesOnHandshake, hsec]
        rfl
      have hsame : (keyed mgmt key (reached mgmt (tick t s))).dap = s.dap := hdap'.trans hdap
      refine ⟨_, exec_dapHandshake_verified hserves hcert, ?_, ?_⟩
      · rw [openSession_sec, hroles]
        rfl
      · rw [openSession_sec, hroles]
        cases hfound : (rolesOnHandshake mgmt key s).find? (·.key == key) with
        | none => exact congrArg Dap.sessions ((openSession_none ..).trans hsame)
        | some r =>
          have hlimit : settingNat (keyed mgmt key (reached mgmt (tick t s))) Key.dapSessionLimit = settingNat s Key.dapSessionLimit := by
            unfold settingNat setting
            rw [hsettings', hsettings]
            rfl
          dsimp only
          split
          · rename_i hroom
            refine ⟨_, (openSession_opens (by rwa [hsame, hlimit])).trans (by rw [hsame]), rfl, rfl, rfl, rfl, ?_⟩
            exact hnow'.trans hnow
          · rename_i hfull
            exact congrArg Dap.sessions ((openSession_refused (by rwa [hsame, hlimit])).trans hsame)
  case idle => exact ⟨_, (exec_dapIdleTimeout hx).trans (congrArg _ (if_pos hidle)), closeSession_closes id (tick t s)⟩
  case busy => exact (exec_dapIdleTimeout hx).trans (congrArg _ (if_neg (Nat.not_le.mpr hbusy)))

end Sys2Proof.DapSessions
end

section
/-! SUPPORT. What the work after a switch, and a connection that closes, leave alone of the administration: DAP, the dictionary's values and the roles (16 R381; 09 R192,
R203; 14 R319, R338). -/

namespace Sys2Proof.SwitchFrame

open Machine Laws

variable {s u : State}

/-- DAP, the dictionary's values and the roles. -/
def admin (s : State) : Dap × List (Nat × Bytes) × List Role := (s.dap, s.settings, s.sec.roles)

theorem admin_congr (hdap : u.dap = s.dap) (hsettings : u.settings = s.settings) (hsec : u.sec = s.sec) : admin u = admin s := by
  unfold admin
  rw [hdap, hsettings, hsec]

theorem admin_foldl {α : Type} {f : State → α → State} (h : ∀ v x, admin (f v x) = admin v) (l : List α) (s : State) : admin (l.foldl f s) = admin s :=
  foldl_same admin h l s

/-! ## Shared operations -/

theorem admin_bumpBy (k n : Nat) (s : State) : admin (bumpBy k n s) = admin s := admin_congr (bumpBy_dap ..) (bumpBy_settings ..) (bumpBy_sec ..)

theorem admin_bump (k : Nat) (s : State) : admin (bump k s) = admin s := admin_bumpBy k 1 s

theorem admin_finish (seq : Nat) (comp : Comp) (out : Bytes) (s : State) : admin (finish seq comp out s) = admin s :=
  admin_congr (finish_dap ..) (finish_settings ..) (finish_sec ..)

theorem admin_sendSpp (peer type : Nat) (b : Bytes) (s : State) : admin (sendSpp peer type b s) = admin s :=
  admin_congr (sendSpp_dap ..) (sendSpp_settings ..) (sendSpp_sec ..)

theorem admin_sendAll (peers : List Nat) (type : Nat) (b : Bytes) (s : State) : admin (sendAll peers type b s) = admin s :=
  Flights.sendAll_same admin admin_sendSpp ..

/-! ## Connections that close (14 R338) -/

theorem admin_endCmd (headers : List HeaderRead) (after : List Nat) (c : Cmd) (s : State) : admin (endCmd headers after c s) = admin s := by
  unfold endCmd
  split
  · exact admin_bump ..
  · exact (admin_finish ..).trans ((admin_bump ..).trans (EndedWork.stopWork_same admin_sendSpp (fun _ _ => rfl) (fun _ _ _ => rfl) ..))

theorem admin_endAll (headers : List HeaderRead) (l : List Cmd) (before : List Nat) (s : State) : admin (endAll headers before l s) = admin s := by
  induction l generalizing before s with
  | nil => rfl
  | cons c r ih => exact (ih ..).trans (admin_endCmd ..)

theorem admin_closeConn (qpn : Nat) (s : State) : admin (closeConn qpn s) = admin s := by
  unfold closeConn
  split
  · rfl
  · dsimp only
    split
    · exact admin_endAll ..
    · rfl

theorem admin_closeConns (qpns : List Nat) (s : State) : admin (closeConns qpns s) = admin s := admin_foldl (fun _ _ => admin_closeConn ..) _ s

/-! ## Units that are stamped, or that fail (06 R120; 09 R192) -/

theorem admin_endIngest (g : Ingest) (status : Nat) (s : State) : admin (endIngest g status s) = admin s := by
  unfold endIngest
  split
  · rfl
  · exact admin_finish ..

theorem admin_unitFails (w : CUnit) (status : Nat) (s : State) : admin (unitFails w status s) = admin s := by
  unfold unitFails
  dsimp only
  split
  · rfl
  · exact admin_sendSpp ..
  · split
    · exact admin_endIngest ..
    · exact admin_finish ..

theorem admin_ownPart (g : Ingest) (c : Coll) (body : UnitBody) (s : State) : admin (ownPart g c body s) = admin s := by
  unfold ownPart
  dsimp only
  split
  · rfl
  · rfl
  · exact admin_endIngest ..
  · exact admin_endIngest ..

theorem admin_forwardPart (g : Ingest) (sch : Bytes) (rows : List Row) (ids : List Nat) (s : State) (dest : Nat × Nat) :
    admin (forwardPart g sch rows ids s dest) = admin s := admin_sendSpp ..

theorem admin_runBatch (g : Ingest) (rows : List Row) (ids : List Nat) (s : State) : admin (runBatch g rows ids s) = admin s := by
  have hforwarded : ∀ (h : Nat × Nat → List Row) (k : Nat × Nat → List Nat) (sch : Bytes) (l : List (Nat × Nat)),
      admin (l.foldl (fun v dest => forwardPart g sch (h dest) (k dest) v dest) s) = admin s := fun _ _ _ l => admin_foldl (fun _ _ => admin_forwardPart ..) l s
  unfold runBatch
  split
  · rfl
  · dsimp only
    split
    · exact admin_ownPart ..
    · split
      · exact hforwarded ..
      · exact (admin_ownPart ..).trans (hforwarded ..)

theorem admin_nextBatch (seq : Nat) (s : State) : admin (nextBatch seq s) = admin s := by
  unfold nextBatch
  split
  · rfl
  · split
    · exact admin_runBatch ..
    · exact admin_runBatch ..
    · exact admin_endIngest ..

theorem admin_partDone (seq : Nat) (mine : Ingest → Ingest) (e count : Nat) (s : State) : admin (partDone seq mine e count s) = admin s := by
  unfold partDone
  split
  · rfl
  · dsimp only
    generalize mine _ = g1
    split
    · exact admin_nextBatch ..
    · rfl

theorem admin_jobDone (coll seq epoch : Nat) (s : State) : admin (jobDone coll seq epoch s) = admin s := by
  unfold jobDone
  refine (admin_finish ..).trans ?_
  dsimp only
  split <;> rfl

theorem admin_unitDone (w : CUnit) (e count : Nat) (s : State) : admin (unitDone w e count s) = admin s := by
  unfold unitDone
  split
  · rfl
  · exact admin_sendSpp ..
  · split
    · exact admin_jobDone ..
    · exact admin_partDone ..

theorem admin_bypassWrite (p : MediaObj → Bool) (s : State) : admin (bypassWrite p s) = admin s := by
  unfold bypassWrite
  split <;> rfl

theorem admin_stampUnit (w : CUnit) (e : Nat) (s : State) : admin (stampUnit w e s) = admin s := by
  unfold stampUnit
  split
  · rfl
  · exact admin_bypassWrite ..

theorem admin_settle (id : Nat) (s : State) : admin (settle id s) = admin s := by
  unfold settle
  split <;> rfl

theorem admin_commitAt (w : CUnit) (e : Nat) (s : State) : admin (commitAt w e s) = admin s := by
  unfold commitAt
  split
  · rfl
  · exact (admin_unitDone ..).trans ((admin_settle ..).trans (admin_stampUnit ..))

/-! ## The keeper (09 R189, R192) -/

theorem admin_sendCutover (w : CUnit) (e : Nat) (s : State) : admin (sendCutover w e s) = admin s := by
  unfold sendCutover
  split
  · split
    · exact admin_sendSpp ..
    · rfl
  · rfl

theorem admin_useEpoch (w : CUnit) (e : Nat) (s : State) : admin (useEpoch w e s) = admin s := by
  unfold useEpoch
  split
  · exact admin_sendCutover ..
  · exact admin_commitAt ..

theorem admin_sendStable (m : ShardMap) (coll stable : Nat) (s : State) : admin (sendStable m coll stable s) = admin s := by
  unfold sendStable relayStable
  split
  · rfl
  · exact admin_sendAll ..

theorem admin_raiseStable (m : ShardMap) (coll : Nat) (s : State) : admin (raiseStable m coll s) = admin s := by
  have hlearned : ∀ stable v, admin (learnStable coll stable v) = admin v := fun _ _ => admin_settle ..
  unfold raiseStable
  split
  · rfl
  · split
    · rfl
    · dsimp only
      split
      · rfl
      · split
        · exact hlearned ..
        · exact (admin_sendStable ..).trans (hlearned ..)

theorem admin_askEpoch (w : CUnit) (m : ShardMap) (s : State) : admin (askEpoch w m s) = admin s := by
  unfold askEpoch
  split
  · split
    · rfl
    · split
      · exact admin_useEpoch ..
      · exact (admin_raiseStable ..).trans (admin_useEpoch ..)
  · exact admin_sendSpp ..

theorem admin_voidTag (coll tag : Nat) (s : State) : admin (voidTag coll tag s) = admin s := by
  unfold voidTag
  split
  · split
    · unfold voidUnit
      split
      · rfl
      · exact admin_unitFails ..
    · rfl
  · split
    · rfl
    · dsimp only
      split
      · exact admin_endIngest ..
      · rfl

theorem admin_voidGrant (coll : Nat) (s : State) (g : Grant) : admin (voidGrant coll s g) = admin s := by
  unfold voidGrant
  split
  · exact admin_voidTag ..
  · exact admin_sendSpp ..

theorem admin_newKeeper (c : Coll) (old new : ShardMap) (x : Shard) (s : State) : admin (newKeeper c old new x s) = admin s := by
  have hvoided : ∀ (l : List Grant) n v, admin (l.foldl (voidGrant c.id) (bumpBy Key.epochsVoided n v)) = admin v :=
    fun l n v => (admin_foldl (fun _ _ => admin_voidGrant ..) l _).trans (admin_bumpBy ..)
  have hstart : ∀ (p : Bool) (f : Shard → Shard) v, admin (if p then useFree (updShard c.id f v) else v) = admin v := fun p f v => by
    split <;> rfl
  unfold newKeeper
  split
  · rfl
  · exact (admin_foldl (fun _ _ => admin_askEpoch ..) ..).trans ((hstart ..).trans (hvoided ..))

/-! ## The work after the switch (16 R381) -/

theorem admin_remapColl (before s : State) (c : Coll) : admin (remapColl before s c) = admin s := by
  unfold remapColl
  split
  · rfl
  · split
    · exact admin_newKeeper ..
    · rfl

theorem admin_newDescriptor (before s : State) : admin (newDescriptor before s) = admin s := admin_foldl (fun _ _ => admin_remapColl ..) s.search.colls s

theorem admin_newPortMode (before s : State) (port : Nat) : admin (newPortMode before s port) = admin s := by
  unfold newPortMode
  split
  · rfl
  · exact admin_closeConns ..

theorem admin_afterSwitch (groups : List Nat) (before s : State) : admin (afterSwitch groups before s) = admin s := by
  have hdescriptor : admin (if groups.contains 1 then newDescriptor before s else s) = admin s := by
    split
    · exact admin_newDescriptor ..
    · rfl
  have hlayout : ∀ v, admin (recheckPlans (if groups.contains 2 then reshapeCache v else v)) = admin v := fun v => by
    unfold recheckPlans
    dsimp only
    split <;> rfl
  unfold afterSwitch
  dsimp only
  split
  · exact (admin_foldl (fun _ _ => admin_newPortMode ..) ..).trans ((hlayout _).trans hdescriptor)
  · exact (hlayout _).trans hdescriptor

end Sys2Proof.SwitchFrame
end

section
/-! SUPPORT. Staged values that are checked, applied or dropped (16 R379 to R383): the frames of a commit, the switch at a boundary, and the timeout of an apply. -/

namespace Sys2Proof.StagedCommits

open Machine Laws SingleWrites DapFrames SwitchFrame

variable {s u : State} {id t : Nat} {b : Bytes} {x y : Session} {a : Apply}

/-! ## The frames (R379 to R381) -/

section
variable (hnew : dapNew (tick t s) id b = true)
include hnew

theorem exec_commitCheck (hrow : rowOf b = .commitCheck) : exec (.commitCheck id b t) s = .next (dapCheck id b (dapAccepted id b (tick t s))) := by
  have hop : dapOp b = 6 := by rw [← rowOp_of_new hnew, hrow]; rfl
  refine congrArg _ ((dapCommand_own hrow).trans ?_)
  rw [dapFrame_served hnew (by rw [hop]; rfl), hop]
  rfl

theorem exec_commitApply (hrow : rowOf b = .commitApply) : exec (.commitApply id b t) s = .next (dapApply id b (dapAccepted id b (tick t s))) := by
  have hop : dapOp b = 7 := by rw [← rowOp_of_new hnew, hrow]; rfl
  refine congrArg _ ((dapCommand_own hrow).trans ?_)
  rw [dapFrame_served hnew (by rw [hop]; rfl), hop]
  rfl

theorem exec_commitAbort (hrow : rowOf b = .commitAbort) : exec (.commitAbort id b t) s = .next (dapAbort id b (dapAccepted id b (tick t s))) := by
  have hop : dapOp b = 8 := by rw [← rowOp_of_new hnew, hrow]; rfl
  exact congrArg _ ((dapCommand_own hrow).trans (dapFrame_abort hnew hop))

end

section
variable (hy : findSession s id = some y) (hgone : y.gone = false)
include hy hgone

/-- A check of staged values leaves them staged where it fails, and checked where it does not. -/
theorem dapCheck_checks (hphase : y.phase = .staged ∨ y.phase = .checked) :
    (∃ z, findSession (dapCheck id b s) id = some z ∧ z.phase = (if (commitFail s y).isSome then .staged else .checked) ∧ z.staged = y.staged) ∧
      (dapCheck id b s).settings = s.settings := by
  have hchecks : ¬(y.phase ≠ .staged ∧ y.phase ≠ .checked) := by tauto
  have hput : ∀ p, findSession (updSession id (fun z => { z with phase := p }) s) id = some { y with phase := p } := fun _ => findSession_upd (fun _ => rfl) hy
  unfold dapCheck
  rw [hy]
  dsimp only
  rw [if_neg hchecks]
  cases commitFail s y with
  | none => exact ⟨⟨_, findSession_dapAnswer (hput .checked) hgone, rfl, rfl⟩, dapAnswer_settings ..⟩
  | some bad =>
    exact ⟨⟨_, findSession_dapAnswer ((findSession_congr (bump_dap ..) id).trans (hput .staged)) hgone, rfl, rfl⟩,
      (dapAnswer_settings ..).trans (bump_settings ..)⟩

/-- An apply of values that were not checked since they were staged is answered NOT_CHECKED. -/
theorem dapApply_staged (hphase : y.phase = .staged) :
    (∃ z, findSession (dapApply id b s) id = some z ∧ z.phase = .staged) ∧ (dapApply id b s).dap.applies = s.dap.applies ∧
      (dapApply id b s).dap.lastResult = 3 ∧ (dapApply id b s).settings = s.settings := by
  unfold dapApply
  rw [hy]
  dsimp only
  rw [hphase]
  dsimp only
  exact ⟨⟨_, findSession_dapAnswer (s := setLastResult 3 s) hy hgone, hphase⟩, dapAnswer_dap_same (f := Dap.applies) _ _ _ _ _ fun _ _ => rfl,
    dapAnswer_dap_same (f := Dap.lastResult) _ _ _ _ _ fun _ _ => rfl, dapAnswer_settings ..⟩

/-- Staged values that are dropped release their groups. -/
theorem dapAbort_drops (hphase : y.phase = .staged ∨ y.phase = .checked) :
    (∃ z, findSession (dapAbort id b s) id = some z ∧ z.phase = .empty ∧ z.staged = [] ∧ z.groups = []) ∧ (dapAbort id b s).settings = s.settings := by
  unfold dapAbort
  rw [hy]
  dsimp only
  rw [if_pos hphase]
  exact ⟨⟨_, findSession_dapAnswer (findSession_upd (f := releaseStaged) (fun _ => rfl) hy) hgone, rfl, rfl, rfl⟩, dapAnswer_settings ..⟩

end

/-- An apply of checked values waits behind those that came before it; its reply is outstanding. -/
theorem dapApply_checked (hy : findSession s id = some y) (hphase : y.phase = .checked) :
    (∃ z, findSession (dapApply id b s) id = some z ∧ z.phase = .applying ∧ z.outstanding = y.outstanding ++ [dapId b]) ∧
      (dapApply id b s).dap.applies = s.dap.applies ++ [{ session := id, requestId := dapId b, received := s.now }] ∧
      (dapApply id b s).settings = s.settings := by
  unfold dapApply
  rw [hy]
  dsimp only
  rw [hphase]
  dsimp only
  exact ⟨⟨_, findSession_upd (f := fun z => { z with phase := .applying, outstanding := z.outstanding ++ [dapId b] }) (fun _ => rfl) hy, rfl, rfl⟩, rfl, rfl⟩

/-! ## The values that become live (R381) -/

/-- Staged values that become live. -/
def makeLive (l : List Staged) (s : State) : State := l.foldl (fun u v => setSetting v.key v.value u) s

/-- The last value staged for a key is the one that is live after the switch; a key without one keeps its value. -/
theorem setting_makeLive {l : List Staged} (hw : Table.wf settingDefault s.settings = true) (k : Nat) :
    setting (makeLive l s) k = ((l.reverse.find? (·.key == k)).map (·.value)).getD (setting s k) := by
  unfold makeLive
  induction l generalizing s with
  | nil => rfl
  | cons v r ih =>
    rw [List.foldl_cons, ih (table_wf_set v.key v.value hw), setting_setSetting _ _ _ hw, List.reverse_cons, List.find?_append]
    cases r.reverse.find? (·.key == k) with
    | some w => rfl
    | none => by_cases hkey : v.key = k <;> simp [hkey]

theorem makeLive_leaves (l : List Staged) (s : State) : (makeLive l s).dap = s.dap ∧ (makeLive l s).now = s.now :=
  ⟨foldl_same State.dap (f := fun u (v : Staged) => setSetting v.key v.value u) (fun _ _ => rfl) l s,
    foldl_same State.now (f := fun u (v : Staged) => setSetting v.key v.value u) (fun _ _ => rfl) l s⟩

/-! ## The record of the applies -/

/-- The applies that wait, and what the registers tell of the last one. -/
def applies (d : Dap) : List Apply × Nat × Nat × Nat := (d.applies, d.sequence, d.lastTime, d.lastResult)

/-- What an apply can change: the values, and the record of the applies. -/
def outcome (s : State) : List (Nat × Bytes) × List Apply × Nat × Nat × Nat := (s.settings, applies s.dap)

theorem outcome_dapAnswer (id op rid : Nat) (r : DapReply) (s : State) : outcome (dapAnswer id op rid r s) = outcome s := by
  unfold outcome
  rw [dapAnswer_settings, dapAnswer_dap_same (f := applies) _ _ _ _ _ fun _ _ => rfl]

theorem outcome_dropGone (id : Nat) (s : State) : outcome (dropGone id s) = outcome s := rfl

theorem outcome_bump (k : Nat) (s : State) : outcome (bump k s) = outcome s := by
  unfold outcome
  rw [bump_settings, bump_dap]

theorem outcome_closeSession (id : Nat) (s : State) : outcome (closeSession id s) = outcome s := by
  unfold closeSession
  dsimp only
  split
  · split <;> rfl
  · rfl

theorem outcome_afterSwitch (groups : List Nat) (before s : State) : outcome (afterSwitch groups before s) = outcome s := by
  have h := admin_afterSwitch groups before s
  unfold admin at h
  obtain ⟨hdap, hsettings⟩ : (afterSwitch groups before s).dap = s.dap ∧ (afterSwitch groups before s).settings = s.settings := by simp_all
  unfold outcome
  rw [hdap, hsettings]

/-- The switch counts, and notes its instant and its success. -/
theorem outcome_switchValues (x : Session) (s : State) : outcome (switchValues x s) =
    ((makeLive x.staged s).settings, s.dap.applies, s.dap.sequence + 1, s.now, 0) := by
  obtain ⟨hdap, hnow⟩ := makeLive_leaves x.staged s
  change ((makeLive x.staged s).settings, (makeLive x.staged s).dap.applies, (makeLive x.staged s).dap.sequence + 1, (makeLive x.staged s).now, 0) = _
  rw [hdap, hnow]

/-- The apply that runs is no longer listed once the next may run. -/
theorem outcome_nextApply {o : List (Nat × Bytes) × List Apply × Nat × Nat × Nat} (h : outcome s = o) : outcome (nextApply s) = (o.1, o.2.1.drop 1, o.2.2) :=
  congrArg (fun o => (o.1, o.2.1.drop 1, o.2.2)) h

/-! ## The boundary and the timeout (R381) -/

section
variable (hrun : runningApply (tick t s) = some (a, x))
include hrun

theorem exec_commitBoundaryReached_before (hat : atBoundary (tick t s) x = false) : exec (.commitBoundaryReached t) s = .next (tick t s) := by
  change execCommitBoundaryReached t s = _
  unfold execCommitBoundaryReached
  dsimp only
  rw [hrun]
  dsimp only
  rw [if_pos (.inl hat)]

/-- At the boundary a check that fails again ends the apply, and no value changes. -/
theorem exec_commitBoundaryReached_fails (hat : atBoundary (tick t s) x = true) (htime : max s.now t ≤ applyDeadline s a) {bad : DictEntry × Nat}
    (hfail : commitFail (tick t s) x = some bad) :
    ∃ u, exec (.commitBoundaryReached t) s = .next u ∧ outcome u = (s.settings, s.dap.applies.drop 1, s.dap.sequence, s.dap.lastTime, 1) := by
  have hgoes : ¬(atBoundary (tick t s) x = false ∨ applyDeadline (tick t s) a < (tick t s).now) := by
    rw [hat]
    exact not_or.mpr ⟨nofun, Nat.not_lt.mpr htime⟩
  change ∃ u, execCommitBoundaryReached t s = .next u ∧ _
  unfold execCommitBoundaryReached
  dsimp only
  rw [hrun]
  dsimp only
  rw [if_neg hgoes, hfail]
  exact ⟨_, rfl, (outcome_dropGone ..).trans <| (outcome_dapAnswer ..).trans <| outcome_nextApply (outcome_bump ..)⟩

/-- At the boundary the staged values become live where the check passes. -/
theorem exec_commitBoundaryReached_switches (hat : atBoundary (tick t s) x = true) (htime : max s.now t ≤ applyDeadline s a)
    (hpass : commitFail (tick t s) x = none) :
    ∃ u, exec (.commitBoundaryReached t) s = .next u ∧
      outcome u = ((makeLive x.staged (tick t s)).settings, s.dap.applies.drop 1, s.dap.sequence + 1, max s.now t, 0) := by
  have hgoes : ¬(atBoundary (tick t s) x = false ∨ applyDeadline (tick t s) a < (tick t s).now) := by
    rw [hat]
    exact not_or.mpr ⟨nofun, Nat.not_lt.mpr htime⟩
  have hclosed : ∀ (c : Prop) [Decidable c] (l : List Nat) v, outcome (if c then l.foldl (fun w i => closeSession i w) v else v) = outcome v := fun c _ l v => by
    split
    · exact foldl_same outcome (fun w i => outcome_closeSession i w) l v
    · rfl
  have hswitched : outcome (afterSwitch x.groups (tick t s) (switchValues x (tick t s))) = outcome (switchValues x (tick t s)) := outcome_afterSwitch ..
  change ∃ u, execCommitBoundaryReached t s = .next u ∧ _
  unfold execCommitBoundaryReached
  dsimp only
  rw [hrun]
  dsimp only
  rw [if_neg hgoes, hpass]
  refine ⟨_, rfl, (hclosed ..).trans <| (outcome_dropGone ..).trans <| (outcome_dapAnswer ..).trans ?_⟩
  exact outcome_nextApply (hswitched.trans (outcome_switchValues x (tick t s)))

theorem exec_commitApplyTimeout_before (htime : max s.now t < applyDeadline s a) : exec (.commitApplyTimeout t) s = .next (tick t s) := by
  change execCommitApplyTimeout t s = _
  unfold execCommitApplyTimeout
  dsimp only
  rw [hrun]
  dsimp only
  exact if_pos htime

/-- An apply that does not reach its boundary in time ends, and no value changes. -/
theorem exec_commitApplyTimeout_ends (htime : applyDeadline s a ≤ max s.now t) :
    ∃ u, exec (.commitApplyTimeout t) s = .next u ∧ outcome u = (s.settings, s.dap.applies.drop 1, s.dap.sequence, s.dap.lastTime, 2) := by
  have hgoes : ¬(tick t s).now < applyDeadline (tick t s) a := Nat.not_lt.mpr htime
  change ∃ u, execCommitApplyTimeout t s = .next u ∧ _
  unfold execCommitApplyTimeout
  dsimp only
  rw [hrun]
  dsimp only
  rw [if_neg hgoes]
  exact ⟨_, rfl, (outcome_dropGone ..).trans <| (outcome_dapAnswer ..).trans <| outcome_nextApply (outcome_bump ..)⟩

end

theorem outcome_eq {settings : List (Nat × Bytes)} {l : List Apply} {sequence time result : Nat} (h : outcome s = (settings, l, sequence, time, result)) :
    s.settings = settings ∧ s.dap.applies = l ∧ s.dap.sequence = sequence ∧ s.dap.lastTime = time ∧ s.dap.lastResult = result := by
  simpa [outcome, applies] using h

/-! ## The claim -/

/-- Settles O54: each frame of a commit, by the phase of its session; then the boundary, by the check that is made there again; then the timeout. -/
theorem stagedValuesAreCommitted : Obligations.StagedValuesAreCommitted := by
  refine ⟨fun id t b y s hnew hy => ?frames, fun t a x s hrun => ⟨exec_commitBoundaryReached_before hrun, fun hat htime => ⟨fun hpass => ?switch, fun bad hfail => ?fails⟩,
    exec_commitApplyTimeout_before hrun, fun htime => ?timeout⟩⟩
  case frames =>
    have hopen : y.gone = false := accepted_open hnew hy
    have hsettings : (dapAccepted id b (tick t s)).settings = s.settings := dapAccepted_settings ..
    have happlies : (dapAccepted id b (tick t s)).dap.applies = s.dap.applies := dapAccepted_dap_same (f := Dap.applies) _ _ _ fun _ _ => rfl
    have hnow : (dapAccepted id b (tick t s)).now = max s.now t := dapAccepted_now ..
    refine ⟨fun hrow hphase => ?check, fun hrow hphase => ?applied, fun hrow hphase => ?refused, fun hrow hphase => ?abort⟩
    case check =>
      obtain ⟨⟨z, hz, hleft, hstaged⟩, hkept⟩ := dapCheck_checks (b := b) hy hopen hphase
      exact ⟨_, z, exec_commitCheck hnew hrow, hz, hleft, hstaged, hkept.trans hsettings⟩
    case applied =>
      obtain ⟨⟨z, hz, happlying, hout⟩, hlisted, hkept⟩ := dapApply_checked (b := b) hy hphase
      rw [happlies, hnow] at hlisted
      exact ⟨_, z, exec_commitApply hnew hrow, hz, happlying, hout, hlisted, hkept.trans hsettings⟩
    case refused =>
      obtain ⟨⟨z, hz, hstaged⟩, hlisted, hresult, hkept⟩ := dapApply_staged (b := b) hy hopen hphase
      exact ⟨_, z, exec_commitApply hnew hrow, hz, hstaged, hlisted.trans happlies, hresult, hkept.trans hsettings⟩
    case abort =>
      obtain ⟨⟨z, hz, hempty, hstaged, hgroups⟩, hkept⟩ := dapAbort_drops (b := b) hy hopen hphase
      exact ⟨_, z, exec_commitAbort hnew hrow, hz, hempty, hstaged, hgroups, hkept.trans hsettings⟩
  case switch =>
    obtain ⟨u, hnext, hout⟩ := exec_commitBoundaryReached_switches hrun hat htime hpass
    obtain ⟨hsettings, happlies, hsequence, htime, hresult⟩ := outcome_eq hout
    exact ⟨u, hnext, hsequence, hresult, htime, happlies, fun hw k => (setting_congr hsettings k).trans (setting_makeLive (s := tick t s) hw k)⟩
  case fails =>
    obtain ⟨u, hnext, hout⟩ := exec_commitBoundaryReached_fails hrun hat htime hfail
    obtain ⟨hsettings, happlies, hsequence, -, hresult⟩ := outcome_eq hout
    exact ⟨u, hnext, hsettings, hresult, hsequence, happlies⟩
  case timeout =>
    obtain ⟨u, hnext, hout⟩ := exec_commitApplyTimeout_ends hrun htime
    obtain ⟨hsettings, happlies, hsequence, -, hresult⟩ := outcome_eq hout
    exact ⟨u, hnext, hsettings, hresult, hsequence, happlies⟩

end Sys2Proof.StagedCommits
end

section
/-! SUPPORT. Entries that act when they are written (17 R404, R410, R416; 18 R430; 19 R447, R448): roles, the factory reset, resets, diagnostic mode, and the place
from which the black box is read. -/

namespace Sys2Proof.ActingEntries

open Machine Laws SingleWrites DapFrames WriteItems SwitchFrame

variable {s u : State} {id t : Nat} {b : Bytes} {y : Session} {it : DapItem} {w : DiagWait}

/-! ## The effect of each register -/

theorem writeEffect_factoryReset (hkey : it.key = Key.factoryReset) (id : Nat) (b : Bytes) (s : State) :
    writeEffect id b s it = beginReset 4 (factoryErase (logEvent Ev.factoryReset Ev.info 0 [] s)) := by
  unfold writeEffect
  simp [hkey]

theorem writeEffect_imageActivate (hkey : it.key = Key.imageActivate) (id : Nat) (b : Bytes) (s : State) : writeEffect id b s it = beginReset 3 s := by
  unfold writeEffect
  simp [hkey]

theorem writeEffect_moduleReset (hkey : it.key = Key.moduleReset) (id : Nat) (b : Bytes) (s : State) : writeEffect id b s it = beginReset 2 s := by
  unfold writeEffect
  simp [hkey]

theorem writeEffect_diagnosticMode (hkey : it.key = Key.diagnosticMode) (id : Nat) (b : Bytes) (s : State) : writeEffect id b s it = writeDiagnostic id b s := by
  unfold writeEffect
  simp [hkey]

theorem writeEffect_blackboxReadFrom (hkey : it.key = Key.blackboxReadFrom) (id : Nat) (b : Bytes) (s : State) :
    writeEffect id b s it = updSession id (fun x => { x with readFrom := leNat it.value }) s := by
  unfold writeEffect
  simp [hkey]

/-- A checked role request passes the check that its register makes again. -/
theorem writeEffect_roleRecord (hkey : it.key = Key.roleRecord) (hcheck : writeCheck s y [it] it = 0) (id : Nat) (b : Bytes) :
    writeEffect id b s it = applyRole it.value s := by
  have hrule := writeRule_of_check hcheck
  rw [hkey] at hrule
  have hpasses : (roleRequestFail s false it.value).isNone = true := hrule
  unfold writeEffect
  rw [if_neg (by rw [hkey]; decide), if_neg (by rw [hkey]; decide), if_pos hkey]
  exact if_pos hpasses

/-! ## Roles (R410) -/

theorem rolesAfter_congr (h : u.sec = s.sec) (v : Bytes) : rolesAfter u v = rolesAfter s v := by
  unfold rolesAfter freeRole
  rw [h]

theorem applyRole_roles (v : Bytes) (s : State) : (applyRole v s).sec.roles = rolesAfter s v := rfl

theorem closeSession_roles (id : Nat) (s : State) : (closeSession id s).sec.roles = s.sec.roles := by
  unfold closeSession
  dsimp only
  split
  · split <;> rfl
  · rfl

theorem closeStale_roles (s : State) : (closeStale s).sec.roles = s.sec.roles :=
  (foldl_same (fun v : State => v.sec.roles) (fun v i => closeSession_roles i v) ..).trans (congrArg (fun o => o.2.2) (admin_closeConns _ s))

/-! ## Resets (R430) -/

theorem beginReset_starts (hresetting : s.power.resetting = none) (hp4 : s.power.state ≠ .p4) (hfault : s.power.state ≠ .idFault) (cause : Nat) :
    (beginReset cause s).power.resetting = some (cause, s.now) ∧ (beginReset cause s).ahp.admissionOpen = false := by
  unfold beginReset
  rw [if_neg (by simp [hresetting, hp4, hfault])]
  exact ⟨congrArg (fun n => some (cause, n)) (logEvent_now ..), rfl⟩

/-- What a reset that begins leaves alone. -/
theorem beginReset_leaves (cause : Nat) (s : State) : (beginReset cause s).settings = s.settings ∧ (beginReset cause s).sec = s.sec ∧
    (beginReset cause s).search = s.search ∧ (beginReset cause s).mem = s.mem := by
  unfold beginReset
  split
  · exact ⟨rfl, rfl, rfl, rfl⟩
  · exact ⟨logEvent_settings .., logEvent_sec .., logEvent_search .., logEvent_mem ..⟩

/-- A reset that a frame's register begins starts at the frame's instant, with admission closed. -/
theorem dapAnswer_beginReset (hresetting : s.power.resetting = none) (hp4 : s.power.state ≠ .p4) (hfault : s.power.state ≠ .idFault) {v : State}
    (hpower : v.power = s.power) (hnow : v.now = max s.now t) (cause id op rid : Nat) (r : DapReply) :
    (dapAnswer id op rid r (beginReset cause v)).power.resetting = some (cause, max s.now t) ∧
      (dapAnswer id op rid r (beginReset cause v)).ahp.admissionOpen = false := by
  have hbegun := beginReset_starts (s := v) (by rw [hpower, hresetting]) (by rwa [hpower]) (by rwa [hpower]) cause
  rwa [dapAnswer_power, dapAnswer_ahp, ← hnow]

/-! ## The factory reset (R416) -/

/-- Removing what a list names empties a table all of whose entries it names. -/
theorem foldl_removes_all {α : Type} {g : State → List α} {key : α → Nat} {f : State → α → State} (hf : ∀ v d, g (f v d) = (g v).filter fun c => key c ≠ key d)
    {l : List α} (h : ∀ c ∈ g s, ∃ d ∈ l, key d = key c) : g (l.foldl f s) = [] := by
  induction l generalizing s with
  | nil => exact List.eq_nil_iff_forall_not_mem.mpr fun c hc => by simpa using h c hc
  | cons d r ih =>
    refine ih fun c hc => ?_
    rw [hf] at hc
    obtain ⟨hc, hother⟩ := List.mem_filter.mp hc
    obtain ⟨e, he, hsame⟩ := h c hc
    rcases List.mem_cons.mp he with rfl | he
    · exact absurd hsame.symm (by simpa using hother)
    · exact ⟨e, he, hsame⟩

section
variable (kind i : Nat) (s : State)

theorem destroyKey_leaves : (destroyKey kind i s).power = s.power ∧ (destroyKey kind i s).now = s.now ∧ (destroyKey kind i s).search = s.search ∧
    (destroyKey kind i s).mem = s.mem := by
  unfold destroyKey
  split
  · exact ⟨bump_power .., bump_now .., bump_search .., bump_mem ..⟩
  · exact ⟨rfl, rfl, rfl, rfl⟩

theorem removeObject_power : (removeObject kind i s).power = s.power := (destroyKey_leaves kind i s).1

theorem removeObject_now : (removeObject kind i s).now = s.now := (destroyKey_leaves kind i s).2.1

theorem removeObject_colls :
    (removeObject kind i s).search.colls = if kind = 1 then s.search.colls.filter (·.id ≠ i) else s.search.colls := by
  obtain ⟨-, -, hsearch, -⟩ := destroyKey_leaves kind i s
  rw [← hsearch]
  rfl

theorem removeObject_heads : (removeObject kind i s).mem.heads = if kind = 2 then s.mem.heads.filter (·.id ≠ i) else s.mem.heads := by
  obtain ⟨-, -, -, hmem⟩ := destroyKey_leaves kind i s
  rw [← hmem]
  rfl

end

/-- All collections, then all heads, are removed. -/
def removeAll (s : State) : State :=
  let s1 := s.search.colls.foldl (fun u c => removeObject 1 c.id u) s
  s1.mem.heads.foldl (fun u h => removeObject 2 h.id u) s1

theorem removeAll_same {α : Type} {g : State → α} (h : ∀ kind i v, g (removeObject kind i v) = g v) (s : State) : g (removeAll s) = g s :=
  (foldl_same g (f := fun u (m : Head) => removeObject 2 m.id u) (fun u m => h 2 m.id u) ..).trans
    (foldl_same g (f := fun u (c : Coll) => removeObject 1 c.id u) (fun u c => h 1 c.id u) ..)

theorem removeAll_heads (s : State) : (removeAll s).mem.heads = [] :=
  foldl_removes_all (g := fun v => v.mem.heads) (key := fun m => m.id) (fun v m => removeObject_heads 2 m.id v) fun m hm => ⟨m, hm, rfl⟩

theorem removeAll_colls (s : State) : (removeAll s).search.colls = [] :=
  (foldl_same (fun v : State => v.search.colls) (f := fun u (m : Head) => removeObject 2 m.id u) (fun u m => removeObject_colls 2 m.id u) ..).trans
    (foldl_removes_all (g := fun v => v.search.colls) (key := fun c => c.id) (fun v c => removeObject_colls 1 c.id v) fun c hc => ⟨c, hc, rfl⟩)

theorem factoryErase_erases (s : State) : (factoryErase s).settings = [] ∧ (factoryErase s).sec.roles = [] ∧ (factoryErase s).search.colls = [] ∧
    (factoryErase s).mem.heads = [] := ⟨rfl, rfl, removeAll_colls s, removeAll_heads s⟩

theorem factoryErase_leaves (s : State) : (factoryErase s).power = s.power ∧ (factoryErase s).now = s.now :=
  ⟨removeAll_same (g := State.power) removeObject_power s, removeAll_same (g := State.now) removeObject_now s⟩

/-! ## Diagnostic mode (R448) -/

theorem diagReply_leaves (w : DiagWait) (ok : Bool) (s : State) : (diagReply w ok s).box = s.box ∧ (diagReply w ok s).ahp = s.ahp ∧
    (diagReply w ok s).dap.diagRequest = s.dap.diagRequest :=
  ⟨dapAnswer_box .., dapAnswer_ahp .., dapAnswer_dap_same (f := Dap.diagRequest) _ _ _ _ _ fun _ _ => rfl⟩

/-- The module as it is when it did not become idle in time. -/
def staysOut (s : State) : State := { s with box := { s.box with diag := 0 }, ahp := { s.ahp with admissionOpen := true } }

section
variable (hw : s.dap.diagRequest = some w)
include hw

theorem exec_diagnosticModeEntered_idle (hidle : idle (diagDone w (tick t s)) = true) :
    exec (.diagnosticModeEntered t) s = .next (diagReply w true (diagDone w (enterDiagnostic w (tick t s)))) := by
  have hw : (tick t s).dap.diagRequest = some w := hw
  change execDiagnosticModeEntered t s = _
  unfold execDiagnosticModeEntered
  dsimp only
  rw [hw]
  dsimp only
  rw [if_pos hidle]

theorem exec_diagnosticModeEntered_late (hbusy : idle (diagDone w (tick t s)) = false) (htime : w.since + 10000000000 ≤ max s.now t) :
    exec (.diagnosticModeEntered t) s = .next (diagReply w false (diagDone w (staysOut (tick t s)))) := by
  have hw : (tick t s).dap.diagRequest = some w := hw
  change execDiagnosticModeEntered t s = _
  unfold execDiagnosticModeEntered
  dsimp only
  rw [hw]
  dsimp only
  rw [if_neg (by simp [hbusy]), if_pos (by simpa using htime)]
  rfl

end

/-! ## The frames -/

section
variable (hnew : dapNew (tick t s) id b = true) (hy : findSession (dapAccepted id b (tick t s)) id = some y) (hitems : frameItems b = [it])
  (hcheck : writeCheck (dapAccepted id b (tick t s)) y [it] it = 0)
include hnew hy hitems hcheck

/-- The command of a register that acts at once does what its write does, and answers. -/
theorem dapCommand_acts {row : DapRow} (hrow : rowOf b = row) (hop : rowOp row = 2) (hnot : row ≠ .write) (hdiag : rowKey row ≠ Key.diagnosticMode)
    (hrole : rowKey row ≠ Key.roleRecord) : it.key = rowKey row ∧ dapCommand row id b t s =
      dapAnswer id 2 (dapId b) (itemReply none 1 (resultItems [(it, 0)])) (writeEffect id b (dapAccepted id b (tick t s)) it) := by
  obtain ⟨hkey, -⟩ := item_of_row hnew hitems hrow hop hnot
  exact ⟨hkey.symm, dapCommand_checked hnew hy hitems hcheck hrow hop (hkey ▸ hdiag) (hkey ▸ hrole)⟩

theorem dapCommand_roleRecord (hrow : rowOf b = .roleRecord) : (dapCommand .roleRecord id b t s).sec.roles = rolesAfter s it.value := by
  obtain ⟨hkey, -⟩ := item_of_row hnew hitems hrow rfl nofun
  have hkey : it.key = Key.roleRecord := hkey.symm
  rw [dapCommand_write hnew hrow rfl, dapWrite_role hy hitems hcheck hkey, closeStale_roles, dapAnswer_sec, writeEffect_roleRecord hkey hcheck, applyRole_roles]
  exact rolesAfter_congr ((dapAccepted_sec ..).trans (tick_sec ..)) it.value

theorem dapCommand_diagnosticMode (hrow : rowOf b = .diagnosticMode) : dapCommand .diagnosticMode id b t s =
    updSession id (fun y => { y with outstanding := y.outstanding ++ [dapId b] }) (writeDiagnostic id b (dapAccepted id b (tick t s))) := by
  obtain ⟨hkey, -⟩ := item_of_row hnew hitems hrow rfl nofun
  have hkey : it.key = Key.diagnosticMode := hkey.symm
  rw [dapCommand_write hnew hrow rfl, dapWrite_diagnostic hy hitems hcheck hkey, writeEffect_diagnosticMode hkey]

theorem dapCommand_blackboxReadFrom (hrow : rowOf b = .blackboxReadFrom) :
    (findSession (dapCommand .blackboxReadFrom id b t s) id).map (·.readFrom) = some (leNat it.value) ∧
      (dapCommand .blackboxReadFrom id b t s).settings = s.settings := by
  obtain ⟨hkey, hcommand⟩ := dapCommand_acts hnew hy hitems hcheck hrow rfl nofun (by decide) (by decide)
  have hopen : y.gone = false := accepted_open hnew hy
  have hmoved := findSession_upd (f := fun x => { x with readFrom := leNat it.value }) (fun _ => rfl) hy
  rw [hcommand, writeEffect_blackboxReadFrom hkey, findSession_dapAnswer hmoved hopen, dapAnswer_settings]
  exact ⟨rfl, dapAccepted_settings ..⟩

section Resets
variable (hresetting : s.power.resetting = none) (hp4 : s.power.state ≠ .p4) (hfault : s.power.state ≠ .idFault)
include hresetting hp4 hfault

theorem dapCommand_imageActivate (hrow : rowOf b = .imageActivate) : (dapCommand .imageActivate id b t s).power.resetting = some (3, max s.now t) ∧
    (dapCommand .imageActivate id b t s).ahp.admissionOpen = false := by
  obtain ⟨hkey, hcommand⟩ := dapCommand_acts hnew hy hitems hcheck hrow rfl nofun (by decide) (by decide)
  rw [hcommand, writeEffect_imageActivate hkey]
  exact dapAnswer_beginReset (v := dapAccepted id b (tick t s)) hresetting hp4 hfault (dapAccepted_power ..) (dapAccepted_now ..) ..

theorem dapCommand_moduleReset (hrow : rowOf b = .moduleReset) : (dapCommand .moduleReset id b t s).power.resetting = some (2, max s.now t) ∧
    (dapCommand .moduleReset id b t s).ahp.admissionOpen = false := by
  obtain ⟨hkey, hcommand⟩ := dapCommand_acts hnew hy hitems hcheck hrow rfl nofun (by decide) (by decide)
  rw [hcommand, writeEffect_moduleReset hkey]
  exact dapAnswer_beginReset (v := dapAccepted id b (tick t s)) hresetting hp4 hfault (dapAccepted_power ..) (dapAccepted_now ..) ..

theorem dapCommand_factoryReset (hrow : rowOf b = .factoryReset) : (dapCommand .factoryReset id b t s).settings = [] ∧
    (dapCommand .factoryReset id b t s).sec.roles = [] ∧ (dapCommand .factoryReset id b t s).search.colls = [] ∧
    (dapCommand .factoryReset id b t s).mem.heads = [] ∧ (dapCommand .factoryReset id b t s).power.resetting = some (4, max s.now t) := by
  obtain ⟨hkey, hcommand⟩ := dapCommand_acts hnew hy hitems hcheck hrow rfl nofun (by decide) (by decide)
  rw [hcommand, writeEffect_factoryReset hkey]
  generalize hlogged : logEvent Ev.factoryReset Ev.info 0 [] (dapAccepted id b (tick t s)) = v
  have hpower : v.power = s.power := by rw [← hlogged, logEvent_power, dapAccepted_power, tick_power]
  have hnow : v.now = max s.now t := by rw [← hlogged, logEvent_now, dapAccepted_now, tick_now]
  obtain ⟨hsettings, hroles, hcolls, hheads⟩ := factoryErase_erases v
  obtain ⟨hpower', hnow'⟩ := factoryErase_leaves v
  obtain ⟨hs, hsec, hsearch, hmem⟩ := beginReset_leaves 4 (factoryErase v)
  obtain ⟨hreset, -⟩ := dapAnswer_beginReset hresetting hp4 hfault (hpower'.trans hpower) (hnow'.trans hnow) 4 id 2 (dapId b)
    (itemReply none 1 (resultItems [(it, 0)]))
  rw [dapAnswer_settings, dapAnswer_sec, dapAnswer_search, dapAnswer_mem, hs, hsec, hsearch, hmem]
  exact ⟨hsettings, hroles, hcolls, hheads, hreset⟩

end Resets

end

/-! ## The claim -/

/-- Settles O57: the command of each register by what its write does; then the end of the wait for diagnostic mode, in time or after it. -/
theorem actingEntriesAct : Obligations.ActingEntriesAct := by
  refine ⟨fun id t b it y s hnew hy hitems hcheck => ⟨fun hrow => ?role, fun hresetting hp4 hfault => ⟨fun hrow => ?factory, fun hrow => ?activate, fun hrow => ?reset⟩,
    fun hrow => ?diagnostic, fun hrow => ?readFrom⟩, fun t w s hw => ⟨fun hidle => ?entered, fun hbusy htime => ?late⟩⟩
  case role => exact ⟨_, rfl, dapCommand_roleRecord hnew hy hitems hcheck hrow⟩
  case factory => exact ⟨_, rfl, dapCommand_factoryReset hnew hy hitems hcheck hresetting hp4 hfault hrow⟩
  case activate => exact ⟨_, rfl, dapCommand_imageActivate hnew hy hitems hcheck hresetting hp4 hfault hrow⟩
  case reset => exact ⟨_, rfl, dapCommand_moduleReset hnew hy hitems hcheck hresetting hp4 hfault hrow⟩
  case diagnostic =>
    refine ⟨_, rfl, ?_⟩
    rw [dapCommand_diagnosticMode hnew hy hitems hcheck hrow]
    exact ⟨rfl, rfl, congrArg (fun n => some (DiagWait.mk id n b)) (dapAccepted_now ..)⟩
  case readFrom => exact ⟨_, rfl, dapCommand_blackboxReadFrom hnew hy hitems hcheck hrow⟩
  case entered =>
    obtain ⟨hbox, hahp, hrequest⟩ := diagReply_leaves w true (diagDone w (enterDiagnostic w (tick t s)))
    exact ⟨_, exec_diagnosticModeEntered_idle hw hidle, congrArg BlackBox.diag hbox, congrArg Ahp.admissionOpen hahp, hrequest⟩
  case late =>
    obtain ⟨hbox, hahp, hrequest⟩ := diagReply_leaves w false (diagDone w (staysOut (tick t s)))
    exact ⟨_, exec_diagnosticModeEntered_late hw hbusy htime, congrArg BlackBox.diag hbox, congrArg Ahp.admissionOpen hahp, hrequest⟩

end Sys2Proof.ActingEntries
end
